-- ==== Sys2Proof/Word.lean ====
section
/-! DEFINITION. The plain data words of the M7 and nothing else: a byte, a 32-bit word, a 64-bit word (R19, the
conventions chapter). A memory cell's key is a plain Nat. -/
namespace Sys2Proof

/-- One byte of memory, of a queue entry or of a message. -/
abbrev Byte := BitVec 8

/-- A word is 64 bits of data (00_scope.md, Words). -/
abbrev Word := BitVec 64

end Sys2Proof
end

