-- ==== Sys2Proof/Syntax.lean ====
section
/-! DEFINITION. The commands of the M7: one constructor of Instr per row of the spec's table of operations and events
(95_what_each_step_holds.md), the names of every register field of the MMIO blocks, and the data a command carries.
An operand that names a unit is a Fin, so a unit that does not exist cannot be named. -/
namespace Sys2Proof

/-- Global site index (R30). -/
abbrev SiteIx := Fin 1152
/-- Global slice index (R30). -/
abbrev SliceIx := Fin 1152
/-- Global cluster index (R30). -/
abbrev ClusterIx := Fin 96
/-- Stack number (R28). -/
abbrev StackIx := Fin 12
/-- Bank within a slice (R187). -/
abbrev BankIx := Fin 128
/-- Flask number (R503). -/
abbrev FlaskIx := Fin 16
/-- Host function: 0 is the PF, n is VFn (R385). -/
abbrev FnIx := Fin 17
/-- Ladle engine: 0-95 cluster engines, 96-103 module engines (R573). -/
abbrev EngIx := Fin 104
/-- Global fabric port (R415). -/
abbrev PortIx := Fin 60
/-- Sub-port of a port (R415). -/
abbrev SubIx := Fin 4
/-- Context ID (R483). -/
abbrev CtxIx := Fin 256
/-- Resident sequence number (R289). -/
abbrev SeqIx := Fin 8192
/-- Bank-command path: 0-1151 the core of that site, 1152 + c the command port of cluster c's CCC (R247, R294). -/
abbrev PathIx := Fin 1248
/-- Gatherer: 0-95 local of that cluster, 96 the module gatherer (R543). -/
abbrev GathIx := Fin 97
/-- Thermal block: 0-11 stack, 12 the I/O die (R607). -/
abbrev ThIx := Fin 13
/-- Connection index (R440). -/
abbrev ConnIx := Fin 65536

/-- Every register field of the MMIO blocks, named BLOCK_NAME_field after the tables of the spec (R20, R22). An
instance number picks the block: the site, slice, stack, port, engine, function, flask or gatherer, times the number of
like registers in it. REG_IOB, REG_IOW are REG_BYTES, REG_WAIT of R401 and REG_EGB, REG_EGW those of R529;
the MSIX fields are the table that R386 places at BAR0 0x4000. -/
inductive Fld where
  | ARR_STATUS_acc_committed | ARR_STATUS_acc_open | ARR_STATUS_in_flight | ARR_STATUS_stall_out | ARR_STATUS_stall_acc
  | ARR_STATUS_stall_meta | ARR_STATUS_stall_wsc | ARR_STATUS_stall_asc | ARR_STATUS_stall_wgt | ARR_STATUS_stall_act | ARR_STATUS_busy
  | ARR_STATUS_shadow | ARR_STATUS_tile_active | ARR_ERR_acc_ce_count | ARR_ERR_wlocked | ARR_ERR_wpar | ARR_ERR_acc_ue | ARR_ERR_acc_ce
  | ARR_FX_invalid | ARR_FX_inf | ARR_FX_sat | ARR_FX_nan | ARR_PERF_issue | ARR_PERF_bubble | ARR_PERF_stall | ARR_PERF_passes
  | ARR_CTL_perf_clear | CHG_ARR_k_passes | CHG_ARR_m_count | CHG_ARR_k_active | CHG_ARR_acc_seq | CHG_ARR_acc_type | CHG_ARR_sparse
  | CHG_ARR_wgt_scale | CHG_ARR_act_scale | CHG_ARR_wgt_fmt | CHG_ARR_act_fmt | CHG_ARR_repeats | CHG_ARR_sat | CHG_ARR_out_fmt
  | CHG_ARR_out_mode | CHG_ARR_wgt_reuse | CHG_ARR_acc_advance | CHG_ARR_acc_base | CHG_VEC_repeats | CHG_VEC_n_ops | CHG_VEC_in_b_en
  | CHG_VEC_out_scale | CHG_VEC_sat | CHG_VEC_out_fmt | CHG_VEC_in_fmt_b | CHG_VEC_in_fmt_a | CHG_VEC_k1 | CHG_VEC_k0 | CHG_VEC_slot0_3
  | CHG_VEC_slot4_7 | CHG_BNK_count | CHG_BNK_arg_en | CHG_BNK_res_en | CHG_BNK_fmt | CHG_BNK_nq | CHG_BNK_res_q | CHG_BNK_arg_q
  | CHG_BNK_addr_ag | CHG_BNK_cmd | CHG_BNK_imm | CHG_SYNC_start_sub | CHG_SYNC_end_inc | CHG_SYNC_eng_ag | CHG_SYNC_eng_bnk
  | CHG_SYNC_eng_vec | CHG_SYNC_eng_arr | CHG_SYNC_remote_val | CHG_SYNC_remote_en | CHG_SYNC_remote_addr | CHG_SYNC_cm_value
  | CHG_SYNC_preset | CHG_SYNC_cm_load | CHG_SYNC_cm_rel | CHG_SYNC_cm_ct | CHG_SYNC_cm_idx | SEQ_LIST_addr | SEQ_CTL_stop | SEQ_CTL_pause
  | SEQ_CTL_go | SEQ_STATUS_fx | SEQ_STATUS_sub | SEQ_STATUS_cause | SEQ_STATUS_shadow_pend | SEQ_STATUS_wlocked | SEQ_STATUS_inflight
  | SEQ_STATUS_state | SEQ_PC_addr | SEQ_ERR_addr | SEQ_DONE_count | SEQ_DONE_fx | SEQ_DONE_addr | CHG_AG_base | CHG_AG_len | CHG_AG_q
  | CHG_AG_seg_lvl | CHG_AG_hint | CHG_AG_dir | CHG_AG_count0 | CHG_AG_count1 | CHG_AG_count2 | CHG_AG_count3 | CHG_AG_stride0
  | CHG_AG_stride1 | CHG_AG_stride2 | CHG_AG_stride3 | Q_STAT_cons | Q_STAT_prod | Q_STAT_stall_pop | Q_STAT_stall_push | Q_STAT_open_fill
  | Q_STAT_head_used | Q_STAT_count | Q_STAT_tail | Q_STAT_head | Q_CTL_flush | Q_WDOG_snap_lost | Q_WDOG_snap_valid | Q_WDOG_idle
  | Q_SNAPPC_addr | CT_value | CM_value | CM_true | CM_rel | CM_ct | VEC_STATUS_iter | VEC_STATUS_fx | VEC_STATUS_stall_push
  | VEC_STATUS_stall_b | VEC_STATUS_stall_a | VEC_STATUS_busy | VEC_PERF_iters | VEC_PERF_stall | VEC_CTL_perf_clear | MC_CFG_keep_max
  | MC_CFG_cache_en | MC_CFG_refresh | MC_CTL_inval | MC_CTL_perf_clear | MC_STAT_keep_lines | MC_STAT_sr | MC_STAT_inval_busy
  | MC_STAT_refresh | MC_PERF_rd_lines | MC_PERF_wr_lines | MC_PERF_hits | MC_PERF_row_miss | MC_PERF_refresh | ECC_INIT_regions
  | ECC_FILL_start | ECC_FILL_busy | ECC_FILL_regions | ECC_SCRUB_pos | ECC_SCRUB_passes | ECC_SCRUB_period | ECC_SCRUB_en | ECC_CNT_ce
  | ECC_CNT_ue | ECC_CNT_poison | ECC_WB_done | ECC_WB_skipped | ECC_TWG_grant | ECC_TWG_flask | ECC_TWG_region | ECC_TW_ADDR_word
  | ECC_TW_DATA_data | ECC_TW_CHK_syndrome | ECC_TW_CHK_verdict | ECC_TW_CHK_check | ECC_TW_CMD_read | ECC_TW_CMD_write | ECC_RETIRE_valid
  | ECC_RETIRE_bank | ECC_RETIRE_frame | BSU_CAP_streams | BSU_EPOCH_oldest | BSU_EPOCH_current | BSU_STAT_flask_ctx | BSU_STAT_ctx
  | BSU_STAT_streaming | BSU_ASSAY_banks_lo | BSU_ASSAY_banks_hi | BSU_PERF_bursts | BSU_PERF_cap_wait | BSU_PERF_commands
  | BSU_CTL_perf_clear | BNK_STATUS_stall_res | BNK_STATUS_stall_arg | BNK_STATUS_stall_ctx | BNK_STATUS_outstanding | BNK_ERR_status
  | BNK_ERR_count | BNK_ERR_valid | BNK_ERR_addr | KV_FL_POP_valid | KV_FL_POP_bank | KV_FL_POP_frame | KV_FL_POPB_valid | KV_FL_POPB_bank
  | KV_FL_POPB_frame | KV_FL_PUSH_bank | KV_FL_PUSH_frame | KV_FL_CTL_low | KV_FL_CTL_bank | KV_FL_STAT_count | KV_FL_STAT_next_bank
  | KV_FL_STAT_low | KV_FL_STAT_dup_push | NOC_ROUTE_iod | NOC_ROUTE_NEXT_iod | NOC_ROUTE_stack | NOC_ROUTE_NEXT_stack
  | NOC_CTL_retry_thresh | NOC_CTL_auto_en | NOC_CTL_apply | NOC_STAT_replays | NOC_STAT_timeouts | NOC_STAT_bad_route | NOC_STAT_draining
  | NOC_STAT_failover | NOC_LINK_retries | NOC_LINK_crc | NOC_LINK_good_mods | NOC_LINK_rate | NOC_LINK_assay | NOC_LINK_up | CRS_RST_fp
  | CRS_RST_cluster | CRS_CORE_go | CRS_CORE_cluster | CRS_CORE_site | CRS_CLK_core1_mhz | CRS_CLK_core0_mhz | CRS_STAT_in_reset
  | CRS_STAT_fp_reset | CRS_STAT_self_refresh | CRS_STAT_slewing | CRS_STAT_fab_lock | CRS_STAT_mem_lock | CRS_STAT_region_lock
  | CRS_CAUSE_count | CRS_CAUSE_last | CRS_TS_ns | WIN_BASE_base | WIN_CTL_en | WIN_CTL_flask | WIN_STAT_errors | WIN_STAT_last
  | REG_FAR_rate | REG_FAR_burst | REG_FAR_en | REG_HOST_rate | REG_HOST_burst | REG_HOST_en | REG_IOB_far | REG_IOB_host | REG_IOW_cycles
  | LDL_CTL_perf_clear | LDL_CTL_disable | LDL_STAT_busy_err | LDL_STAT_running | LDL_STAT_active | LDL_STAT_queued | LDL_PERF_bytes
  | LDL_PERF_reg_wait | LDL_CH_head | LDL_CH_status | LDL_CH_fx | LDL_CH_state | LDL_CH_descs | FP_CFG_rx_inv | FP_CFG_tx_inv
  | FP_CFG_an_en | FP_CFG_en | FP_CFG_mode | FP_QUAL_uc_max | FP_QUAL_win_full | FP_QUAL_win_short | FP_QUAL_deg_mant | FP_QUAL_deg_exp
  | FP_QUAL_qual_mant | FP_QUAL_qual_exp | FP_STAT_link_downs | FP_STAT_sig | FP_STAT_wlocked | FP_CTL_requal | FP_CTL_recal_en
  | FP_CTL_perf_clear | SP_STAT_attempts | SP_STAT_cause | SP_STAT_state | SP_TXFRM_count | SP_RXFRM_count | SP_TXBYTE_count
  | SP_RXBYTE_count | SP_RXFCS_count | SP_RXDROP_count | SP_FECCORR_count | SP_FECUNC_count | FP_LANE_ERR_bits | FP_LANE_RX_bits
  | FAB_CFG_udp_port | FAB_CFG_retry_max | FAB_CFG_paths | FAB_CFG_mtu | FAB_CFG_en | FAB_TIME_setup_ms | FAB_TIME_drain_ms
  | FAB_TIME_idle_s | FAB_TIME_ack_us | FAB_TIME_rto_min_us | FAB_CC_r_init | FAB_CC_r_ai | FAB_CC_r_min | FAB_CC_g_shift | FAB_STAT_conns
  | FAB_STAT_conn_lost | FAB_STAT_wlocked | FAB_STRANGER_count | FAB_AUTHFAIL_count | FAB_RETX_count | FAB_CE_count | FAB_CTL_perf_clear
  | MB_DOORBELL_post | MB_STATE_tag | MB_STATE_ring_busy | MB_STATE_wr_busy | MB_STATE_state | WQ_DB_tail | REG_D2D_rate | REG_D2D_burst
  | REG_D2D_en | REG_FAB_rate | REG_FAB_burst | REG_FAB_en | REG_EGB_d2d | REG_EGB_fab | REG_EGW_cycles | EG_DOORBELL_src
  | EG_STAT_bad_complete | EG_STAT_bad_src | EG_TGT_mode | EG_TGT_thresh | EG_CLAIM_valid | EG_CLAIM_prio | EG_CLAIM_src | EG_COMPLETE_src
  | EG_TOP_valid | EG_TOP_prio | EG_TOP_src | EG_SRC_pending | EG_SRC_active | EG_SRC_target | EG_SRC_prio | EG_HPEND_active
  | EG_HPEND_pending | EG_HCOMPLETE_kind | EG_HCTL_poll | EG_HCTL_thresh | EG_HNOTE_wr_seq | EG_HVEC_prio | EG_HVEC_vector | TH_CONV_busy
  | TH_CONV_req | TH_RES_seq | TH_RES_valid | TH_RES_temp | TH_WDOG_armed | TH_WDOG_elapsed | TH_LIM_hw_trip | TH_CTL_fast_en
  | TH_CTL_release | TH_CTL_trip | TH_STAT_cause | TH_STAT_tripped | TH_STAT_fast | TH_STAT_cause_wr | TH_PWR_peak_w | TH_PWR_power_w
  | TH_FAST_limit_w | TH_MODEL_theta | TH_MODEL_grad | TH_MODEL_offset | CHG_QB_q0 | CHG_QB_q1 | CHG_QB_q2 | CHG_QB_q3 | CHG_QB_q4
  | CHG_QB_q5 | CHG_QB_q6 | CHG_QB_q7 | CHG_QB_q8 | CHG_QB_q9 | CHG_QB_q10 | CHG_QB_q11 | CHG_QB_q12 | CHG_QB_q13 | CHG_QB_q14 | CHG_QB_q15
  | CHG_QB_act | CHG_QB_wgt | CHG_QB_asc | CHG_QB_wsc | CHG_QB_meta | CHG_QB_out | CHG_QB_vin_a | CHG_QB_vin_b | CHG_QB_vout | CHG_QB_vosc
  | Q_SNAP_cons | Q_SNAP_prod | Q_SNAP_stall_pop | Q_SNAP_stall_push | Q_SNAP_open_fill | Q_SNAP_head_used | Q_SNAP_count | Q_SNAP_tail
  | Q_SNAP_head | MSIX_addr | MSIX_data | MSIX_mask | MSIX_pend
  deriving DecidableEq, Repr

/-- Who makes an access (R34, R39). -/
inductive Issuer where
  | core (n : SiteIx) | ladle (e : EngIx) | host (f : FnIx) | peer (endpoint : Nat) | fw (unit : Nat)
  deriving DecidableEq, Repr

/-- Bits that fail in one codeword as it is read: an upset of the stored cells (R214). The word is named by its local
address divided by 8. -/
structure Upset where
  word : Nat
  flips : BitVec 80
  deriving DecidableEq, Repr

/-- A frame at a sub-port, field by field (R418, R431, R432, R447, R455, R441). Cryptographic outcomes arrive as inputs. -/
structure Frame where
  fcsOk : Bool := true
  len : Nat := 64
  /-- 0 the sub-port's MAC, 1 broadcast, 2 solicited-node multicast, 3 anything else. -/
  dst : Nat := 0
  /-- 0 IPv6, 1 IPv4, 2 LLDP, 3 anything else. -/
  ether : Nat := 0
  lldp : List Byte := []
  /-- The frame is an IP fragment (R434). -/
  frag : Bool := false
  ce : Bool := false
  srcAddr : Nat := 0
  version : Nat := 3
  ptype : Nat := 0
  ackreq : Bool := false
  retx : Bool := false
  radd : Bool := false
  lastPkt : Bool := false
  phase : Nat := 0
  cls : Nat := 0
  dstConn : Nat := 0
  srcConn : Nat := 0
  psn : Nat := 0
  path : Nat := 0
  ack : Nat := 0
  csn : Nat := 0
  /-- The AES-256-GCM tag verifies under the key of the connection and phase (R445). -/
  tagOk : Bool := true
  op : Nat := 0
  addr : Nat := 0
  value : Nat := 0
  glen : Nat := 0
  status : Nat := 0
  aux : Nat := 0
  data : List Byte := []
  ece : Nat := 0
  /-- psn values the SACK blocks report as performed (R447). -/
  sack : List Nat := []
  /-- Status records: psn and status code (R447). -/
  stats : List (Nat × Nat) := []
  verLo : Nat := 3
  verHi : Nat := 3
  job : Nat := 0
  epoch : Nat := 0
  keyMode : Nat := 0
  encrypt : Bool := false
  /-- First 40 bytes of the SHA-512 digest of the public key the handshake packet carries, as a number (R436). -/
  keyId : Nat := 0
  /-- The attestation report's signature verifies and its contents meet the job's policy (R441). -/
  reportOk : Bool := true
  ipsn : Nat := 0
  /-- READY path indices of the responder (R441). -/
  paths : List Nat := []
  deriving DecidableEq, Repr

/-- A unit that a start-up test or an assay can exclude (R549, R573): its class and its ID within the class. -/
structure UnitId where
  cls : Nat
  id : Nat
  deriving DecidableEq, Repr

/-- Why an image bank fails in phase 2, as the four checks of R613 in order: key hash, signature, version floor (the
model decides that one itself), digests. -/
structure BankCheck where
  keyHash : Bool := true
  signature : Bool := true
  digests : Bool := true
  deriving DecidableEq, Repr

/-- What the hardware finds while a cold phase or a warm step runs: image checks, units that fail their test, D2D modules
that pass, sub-ports' state is the ports' own, far units found. -/
structure PhaseIn where
  bankA : BankCheck := {}
  bankB : BankCheck := {}
  failed : List UnitId := []
  /-- Stack, link and good-module mask of each link after training and qualification (R347, R348). -/
  links : List (Nat × Nat × Nat) := []
  /-- Installed bytes of each far unit, in unit order (R394-R396). -/
  far : List Nat := []
  deriving DecidableEq, Repr

/-- Tray figures read over the sideband (R598): inlet, outlet in 0.125 degC; flow in 0.01 L/min; status bits; floor. -/
structure Tray where
  inlet : Int
  outlet : Int
  flow : Nat
  status : Nat
  floor : Nat
  deriving DecidableEq, Repr

/-- The clock whose PLL a lock event concerns (R364). -/
inductive Pll where
  | region (r : Fin 2) | memory | fabric
  deriving DecidableEq, Repr

/-- A reset domain that a written reset holds (R371, R378). -/
inductive Held where
  | fp (st : StackIx) | cluster (c : ClusterIx) | core (n : SiteIx)
  deriving DecidableEq, Repr

/-- What stops an item other than a sequencer's own cause (R518). -/
inductive StopWhy where
  | seqError | loadUncorrectable | stallLimit | clusterReset | attend (status : Nat) | destroyed (status : Nat)
  deriving DecidableEq, Repr

/-- The commands: one constructor per row of the table of operations and events, each named after its row; the rule beside
each is the one the table gives. A mailbox request's row takes the function whose posted request firmware carries out. -/
inductive Instr where
  | hello (f : FnIx) -- HELLO, R492
  | getInfo (f : FnIx) -- GET_INFO, R498
  | attest (f : FnIx) -- ATTEST, R615
  | licenceInstall (f : FnIx) -- LICENCE_INSTALL, R620
  | legacyGrade (f : FnIx) -- LEGACY_GRADE, R561
  | flaskConfigSet (f : FnIx) -- FLASK_CONFIG_SET, R505
  | flaskConfigRemove (f : FnIx) -- FLASK_CONFIG_REMOVE, R505
  | flaskReset (f : FnIx) -- FLASK_RESET, R371
  | flaskReg (f : FnIx) -- FLASK_REG, R527
  | ctxCreate (f : FnIx) -- CTX_CREATE, R508
  | ctxDestroy (f : FnIx) -- CTX_DESTROY, R513
  | queueCreate (f : FnIx) -- QUEUE_CREATE, R514
  | queueDestroy (f : FnIx) -- QUEUE_DESTROY, R514
  | memInit (f : FnIx) -- MEM_INIT, R227
  | pageRetire (f : FnIx) -- PAGE_RETIRE, R237
  | testGrant (f : FnIx) -- TEST_GRANT, R234
  | testRevoke (f : FnIx) -- TEST_REVOKE, R236
  | eccTestRead (f : FnIx) -- ECC_TEST_READ, R235
  | eccTestWrite (f : FnIx) -- ECC_TEST_WRITE, R235
  | retireList (f : FnIx) -- RETIRE_LIST, R238
  | ladleSubmit (f : FnIx) -- LADLE_SUBMIT, R403
  | kvConfig (f : FnIx) -- KV_CONFIG, R279
  | kvQuery (f : FnIx) -- KV_QUERY, R286
  | seqCreate (f : FnIx) -- SEQ_CREATE, R289
  | seqFork (f : FnIx) -- SEQ_FORK, R299
  | seqFree (f : FnIx) -- SEQ_FREE, R302
  | seqEvict (f : FnIx) -- SEQ_EVICT, R331
  | seqReady (f : FnIx) -- SEQ_READY, R336
  | seqResume (f : FnIx) -- SEQ_RESUME, R341
  | portConfig (f : FnIx) -- PORT_CONFIG, R427
  | portStatus (f : FnIx) -- PORT_STATUS, R497
  | endpointSet (f : FnIx) -- ENDPOINT_SET, R559
  | jobJoin (f : FnIx) -- JOB_JOIN, R435
  | jobLeave (f : FnIx) -- JOB_LEAVE, R439
  | jobKey (f : FnIx) -- JOB_KEY, R621
  | membershipCommit (f : FnIx) -- MEMBERSHIP_COMMIT, R437
  | thermAckTrip (f : FnIx) -- THERM_ACK_TRIP, R596
  | pwrLimit (f : FnIx) -- PWR_LIMIT, R603
  | fwUpdate (f : FnIx) -- FW_UPDATE, R468
  | fwActivate (f : FnIx) -- FW_ACTIVATE, R469
  | logConfig (f : FnIx) -- LOG_CONFIG, R471
  | logFetch (f : FnIx) -- LOG_FETCH, R475
  | traceSet (f : FnIx) -- TRACE_SET, R476
  | traceQuery (f : FnIx) -- TRACE_QUERY, R476
  | mbDoorbellPost (f : FnIx) (buf : List Byte) -- MB_DOORBELL_POST, R482
  | deferredCompletion (f : FnIx) -- DEFERRED_COMPLETION, R490
  | wqDbTailWrite (f : FnIx) (slot : Fin 256) (tail : BitVec 32) -- WQ_DB_TAIL_WRITE, R501
  | workItemStart (x : CtxIx) -- WORK_ITEM_START, R516
  | workItemComplete (x : CtxIx) -- WORK_ITEM_COMPLETE, R517
  | stoppingFault (x : CtxIx) (n : SiteIx) (why : StopWhy) -- STOPPING_FAULT, R518
  | stallLimit (n : SiteIx) -- STALL_LIMIT, R519
  | preemption (x : CtxIx) -- PREEMPTION, R520
  | preemptionAbandon (x : CtxIx) -- PREEMPTION_ABANDON, R521
  | itemResume (x : CtxIx) -- ITEM_RESUME, R520
  | batchBoundary (x : CtxIx) -- BATCH_BOUNDARY, R526
  | hostWindowAccess (f : FnIx) (write : Bool) (off : Nat) (len : Nat) (data : List Byte) (ups : List Upset) -- HOST_WINDOW_ACCESS, R388
  | functionLevelReset (f : FnIx) -- FUNCTION_LEVEL_RESET, R392
  | hostLinkDown -- HOST_LINK_DOWN, R393
  | hostLinkRetrain (width rate : Nat) -- HOST_LINK_RETRAIN, R393
  | perstNAssert -- PERST_N_ASSERT, R627
  | seqCtlGo (n : SiteIx) -- SEQ_CTL_GO, R125
  | seqCtlStop (n : SiteIx) -- SEQ_CTL_STOP, R133
  | seqCtlPause (n : SiteIx) -- SEQ_CTL_PAUSE, R134
  | recordFetch (n : SiteIx) (ups : List Upset) -- RECORD_FETCH, R125
  | recordLoad (n : SiteIx) -- RECORD_LOAD, R122
  | waitRelease (n : SiteIx) -- WAIT_RELEASE, R129
  | pourStart (n : SiteIx) -- POUR_START, R126
  | pourComplete (n : SiteIx) -- POUR_COMPLETE, R128
  | shadowCopy (n : SiteIx) (blk : Fin 13) -- SHADOW_COPY, R122
  | drainEnd (n : SiteIx) -- DRAIN_END, R130
  | remoteAddFailure (n : SiteIx) (addr : Word) -- REMOTE_ADD_FAILURE, R132
  | passEntry (n : SiteIx) -- PASS_ENTRY, R86
  | tileLoadComplete (n : SiteIx) -- TILE_LOAD_COMPLETE, R89
  | shadowRelease (n : SiteIx) -- SHADOW_RELEASE, R89
  | accumulatorWrite (n : SiteIx) (parityBad : Bool) (accErr : Nat) -- ACCUMULATOR_WRITE, R98
  | arrayStallEnd (n : SiteIx) -- ARRAY_STALL_END, R84
  | vectorIteration (n : SiteIx) (accErr : Nat) -- VECTOR_ITERATION, R172
  | agAccess (n : SiteIx) (g : Fin 8) (ups : List Upset) -- AG_ACCESS, R156
  | loadDataPush (n : SiteIx) (g : Fin 8) -- LOAD_DATA_PUSH, R158
  | storeAck (n : SiteIx) (g : Fin 8) -- STORE_ACK, R159
  | queueStallEnd (n : SiteIx) (q : Fin 16) -- QUEUE_STALL_END, R148
  | queueStall (n : SiteIx) -- QUEUE_STALL, R154
  | qCtlFlush (n : SiteIx) (bitmap : BitVec 16) -- Q_CTL_FLUSH, R151
  | counterAdd (n : SiteIx) (ct : Fin 8) (v : BitVec 32) (iss : Issuer) (fl : FlaskIx) -- COUNTER_ADD, R164
  | bankCommandIssue (n : SiteIx) -- BANK_COMMAND_ISSUE, R247
  | bankCommandAccept (sl : SliceIx) (b : BankIx) -- BANK_COMMAND_ACCEPT, R244
  | streamTokenGrant (sl : SliceIx) -- STREAM_TOKEN_GRANT, R263
  | rowBurst (sl : SliceIx) (b : BankIx) (ups : List Upset) -- ROW_BURST, R242
  | attendCmd (sl : SliceIx) (b : BankIx) -- ATTEND, R256
  | scoreCmd (sl : SliceIx) (b : BankIx) -- SCORE, R257
  | valueCmd (sl : SliceIx) (b : BankIx) -- VALUE, R257
  | appendQCmd (sl : SliceIx) (b : BankIx) -- APPEND_Q, R258
  | fillCmd (sl : SliceIx) (b : BankIx) -- FILL, R259
  | copyPageCmd (sl : SliceIx) (b : BankIx) -- COPY_PAGE, R259
  | reduceCmd (sl : SliceIx) (b : BankIx) -- REDUCE, R260
  | bankFence (pa : PathIx) -- BANK_FENCE, R270
  | bankResultPush (pa : PathIx) -- BANK_RESULT_PUSH, R261
  | bsuFault (sl : SliceIx) (b : BankIx) -- BSU_FAULT, R268
  | memoryRead (iss : Issuer) (addr : Nat) (len : Nat) (hint : Fin 4) (ups : List Upset) -- MEMORY_READ, R220
  | memoryWrite (iss : Issuer) (addr : Nat) (hint : Fin 4) (data : List Byte) (ups : List Upset) -- MEMORY_WRITE, R199
  | eccWriteBack (line : Nat) -- ECC_WRITE_BACK, R221
  | refreshSlot (sl : SliceIx) (b : BankIx) -- REFRESH_SLOT, R193
  | selfRefreshEntry (st : StackIx) -- SELF_REFRESH_ENTRY, R372
  | selfRefreshExit (st : StackIx) -- SELF_REFRESH_EXIT, R197
  | scrubRead (sl : SliceIx) (ups : List Upset) -- SCRUB_READ, R229
  | sramScrubRead (addr : Nat) (ups : List Upset) -- SRAM_SCRUB_READ, R233
  | eccFillStart (sl : SliceIx) (regions : BitVec 16) -- ECC_FILL_START, R226
  | fillEngineDone (sl : SliceIx) -- FILL_ENGINE_DONE, R228
  | eccTwRead (sl : SliceIx) -- ECC_TW_READ, R235
  | eccTwWrite (sl : SliceIx) -- ECC_TW_WRITE, R235
  | mcCtlInval (sl : SliceIx) -- MC_CTL_INVAL, R203
  | mcPerfClear (sl : SliceIx) -- MC_PERF_CLEAR, R213
  | arrPerfClear (n : SiteIx) -- ARR_PERF_CLEAR, R109
  | vecPerfClear (n : SiteIx) -- VEC_PERF_CLEAR, R184
  | bsuPerfClear (sl : SliceIx) -- BSU_PERF_CLEAR, R277
  | ldlPerfClear (e : EngIx) -- LDL_PERF_CLEAR, R414
  | fpPerfClear (p : PortIx) -- FP_PERF_CLEAR, R429
  | fabPerfClear (st : StackIx) -- FAB_PERF_CLEAR, R462
  | readClearCounter (r : Fld) (inst : Nat) -- READ_CLEAR_COUNTER, R21
  | kvFlPop (sl : SliceIx) -- KV_FL_POP, R291
  | kvFlPopb (sl : SliceIx) -- KV_FL_POPB, R291
  | kvFlPush (sl : SliceIx) (b : BankIx) (fr : Fin 256) -- KV_FL_PUSH, R291
  | appendRequest (n : SiteIx) -- APPEND_REQUEST, R297
  | copyOnWrite (n : SiteIx) -- COPY_ON_WRITE, R300
  | attendRequest (n : SiteIx) -- ATTEND_REQUEST, R312
  | memberMerge (n : SiteIx) -- MEMBER_MERGE, R314
  | stepEnd (q : SeqIx) -- STEP_END, R302
  | epochDrain (sl : SliceIx) -- EPOCH_DRAIN, R303
  | reclamation (sl : SliceIx) -- RECLAMATION, R329
  | dropEviction (q : SeqIx) (sl : SliceIx) -- DROP_EVICTION, R334
  | swapEviction (q : SeqIx) -- SWAP_EVICTION, R337
  | swapPageDone (q : SeqIx) (ok : Bool) -- SWAP_PAGE_DONE, R337
  | pageRestore (q : SeqIx) (stream page : Fin 65536) (ok : Bool) -- PAGE_RESTORE, R341
  | kvStarved (q : SeqIx) (sl : SliceIx) -- KV_STARVED, R332
  | crsRstFp (st : StackIx) -- CRS_RST_FP, R371
  | crsRstCluster (c : ClusterIx) -- CRS_RST_CLUSTER, R371
  | crsCoreGo (n : SiteIx) -- CRS_CORE_GO, R371
  | resetRelease (h : Held) -- RESET_RELEASE, R378
  | fabricPlaneReturn (st : StackIx) -- FABRIC_PLANE_RETURN, R373
  | pllLockLoss (st : StackIx) (pll : Pll) -- PLL_LOCK_LOSS, R364
  | pllRelock (st : StackIx) (pll : Pll) -- PLL_RELOCK, R364
  | clockSlewStep (st : StackIx) (r : Fin 2) -- CLOCK_SLEW_STEP, R366
  | peerReset (c : ClusterIx) -- PEER_RESET, R370
  | linkDown (st : StackIx) (k : Fin 3) (peerLost : Bool) -- LINK_DOWN, R352
  | d2dTimeout (st : StackIx) (dest : Fin 13) -- D2D_TIMEOUT, R355
  | d2dLink (st : StackIx) (k : Fin 3) -- D2D_LINK, R349
  | nocCtlApply (st : StackIx) -- NOC_CTL_APPLY, R356
  | routeSwitch (st : StackIx) (dest : Fin 13) -- ROUTE_SWITCH, R356
  | ldlChHeadWrite (e : EngIx) (ch : Fin 16) (head : BitVec 46) -- LDL_CH_HEAD_WRITE, R409
  | ladleDescriptorStart (e : EngIx) (ups : List Upset) -- LADLE_DESCRIPTOR_START, R409
  | ladleDescriptorDone (e : EngIx) (lost : Bool) -- LADLE_DESCRIPTOR_DONE, R411
  | ldlCtlDisable (e : EngIx) -- LDL_CTL_DISABLE, R412
  | regulatorRelease (host : Bool) (fl : FlaskIx) -- REGULATOR_RELEASE, R399
  | farLinkDown (u : Fin 8) -- FAR_LINK_DOWN, R398
  | fpCfgEnWrite (p : PortIx) (en : Bool) -- FP_CFG_EN_WRITE, R420
  | fpCtlRequal (p : PortIx) -- FP_CTL_REQUAL, R427
  | trainingAttemptEnd (p : PortIx) (k : SubIx) (cause : Fin 5) -- TRAINING_ATTEMPT_END, R421
  | qualificationWindowEnd (p : PortIx) (k : SubIx) (corrected : List Nat) (uncorr : Nat) -- QUALIFICATION_WINDOW_END, R422
  | portDegrade (p : PortIx) (k : SubIx) (lanes : List (Nat × Nat)) (uncorr : Nat) -- PORT_DEGRADE, R423
  | subportAssayStart (p : PortIx) (k : SubIx) -- SUBPORT_ASSAY_START, R424
  | linkAssayEnd (p : PortIx) (k : SubIx) (lasting : Bool) -- LINK_ASSAY_END, R424
  | portDown (p : PortIx) (k : SubIx) (fourth : Bool) -- PORT_DOWN, R425
  | failedRetry (p : PortIx) (k : SubIx) -- FAILED_RETRY, R420
  | recalibrationStep (p : PortIx) (lane : Fin 8) (up : Bool) -- RECALIBRATION_STEP, R426
  | lldpSend (p : PortIx) (k : SubIx) -- LLDP_SEND, R418
  | gratuitousArp (p : PortIx) (k : SubIx) -- GRATUITOUS_ARP, R430
  | frameReceive (p : PortIx) (k : SubIx) (fr : Frame) -- FRAME_RECEIVE, R418
  | neighborSolicitation (p : PortIx) (k : SubIx) (target : Nat) -- NEIGHBOR_SOLICITATION, R430
  | rxPut (st : StackIx) -- RX_PUT, R454
  | rxGet (st : StackIx) (ups : List Upset) -- RX_GET, R454
  | rxAdd (st : StackIx) -- RX_ADD, R458
  | rxSend (st : StackIx) -- RX_SEND, R459
  | rxGetr (st : StackIx) -- RX_GETR, R454
  | ackPkt (st : StackIx) -- ACK, R447
  | ackSend (cn : ConnIx) -- ACK_SEND, R447
  | packetLoss (cn : ConnIx) (psn : BitVec 24) (timer : Bool) -- PACKET_LOSS, R448
  | initPkt (st : StackIx) -- INIT, R441
  | initAckPkt (st : StackIx) -- INIT_ACK, R441
  | confirmPkt (st : StackIx) -- CONFIRM, R441
  | refusePkt (st : StackIx) -- REFUSE, R440
  | closePkt (st : StackIx) -- CLOSE, R438
  | rekeyPkt (st : StackIx) -- REKEY, R443
  | oldPhaseKeyExpiry (cn : ConnIx) -- OLD_PHASE_KEY_EXPIRY, R443
  | initResend (cn : ConnIx) -- INIT_RESEND, R441
  | setupTimeout (cn : ConnIx) -- SETUP_TIMEOUT, R441
  | fabConnLost (cn : ConnIx) -- FAB_CONN_LOST, R450
  | idleClose (cn : ConnIx) -- IDLE_CLOSE, R440
  | drainWindowEnd (fl : FlaskIx) (ep : Fin 262144) -- DRAIN_WINDOW_END, R438
  | congestionTick (cn : ConnIx) -- CONGESTION_TICK, R452
  | putOp (c : ClusterIx) (ring : Fin 13) -- PUT, R453
  | getOp (c : ClusterIx) (ring : Fin 13) -- GET, R453
  | addOp (c : ClusterIx) (ring : Fin 13) -- ADD, R453
  | sendOp (c : ClusterIx) (ring : Fin 13) -- SEND, R453
  | operationComplete (c : ClusterIx) (ring : Fin 13) -- OPERATION_COMPLETE, R453
  | fabCfgEnWrite (st : StackIx) (en : Bool) -- FAB_CFG_EN_WRITE, R461
  | fwHang (u : Fin 99) -- FW_HANG, R463
  | firmwareRestartDone (u : Fin 99) -- FIRMWARE_RESTART_DONE, R465
  | logAppend -- LOG_APPEND, R473
  | tracePoint (u : Fin 99) (point : Fin 4096) (payload : List Word) -- TRACE, R476
  | bgLate (u : Fin 99) (act : Fin 5) -- BG_LATE, R477
  | telemetry (st : StackIx) -- TELEMETRY, R477
  | tsPair (st : StackIx) -- TS_PAIR, R377
  | dramRecalibrationStep (sl : SliceIx) (ch : Fin 8) -- DRAM_RECALIBRATION_STEP, R478
  | storedSettingsWrite -- STORED_SETTINGS_WRITE, R564
  | egDoorbell (g : GathIx) (src : BitVec 10) -- EG_DOORBELL, R530
  | egClaim (g : GathIx) (t : Fin 3) -- EG_CLAIM, R535
  | egComplete (g : GathIx) (t : Fin 3) (src : BitVec 10) -- EG_COMPLETE, R535
  | egHcomplete (f : FnIx) (kind : Fin 32) -- EG_HCOMPLETE, R538
  | assayVerdict (asr : Fin 108) (fault : Bool) (rows : List Nat) (lanesFailed : Nat) -- ASSAY_VERDICT, R578
  | errorReport (kind : Nat) (u : UnitId) (addr : Nat) (syn : Word) (fl : Nat) -- ERROR_REPORT, R577
  | thConvReq (t : ThIx) -- TH_CONV_REQ, R588
  | diodeDone (t : ThIx) (valid : Bool) (temp : Int) (watts : Nat) -- DIODE_DONE, R588
  | conversionWatchdog (t : ThIx) -- CONVERSION_WATCHDOG, R590
  | stackTrip (st : StackIx) (cause : Fin 16) -- STACK_TRIP, R594
  | shutdownRecord (t : ThIx) -- SHUTDOWN_RECORD, R595
  | thCtlTrip (st : StackIx) -- TH_CTL_TRIP, R593
  | thCtlRelease (st : StackIx) -- TH_CTL_RELEASE, R596
  | iodTrip (cause : Fin 16) -- IOD_TRIP, R597
  | trayRead (got : Option Tray) -- TRAY_READ, R598
  | trayIbi -- TRAY_IBI, R598
  | coolantAlarm -- COOLANT_ALARM, R600
  | coolantAlarmClear -- COOLANT_ALARM_CLEAR, R600
  | powerInterval (input : Nat) (iod : Nat) (perStack : List Nat) -- POWER_INTERVAL, R604
  | fastThrottle (amps : Nat) (perStack : List Nat) -- FAST_THROTTLE, R605
  | fastThrottleEnd (st : StackIx) -- FAST_THROTTLE_END, R605
  | coldBoot -- COLD_BOOT, R545
  | coldPhaseEnd (r : PhaseIn) -- COLD_PHASE_END, R545
  | fabricPhaseTimeout -- FABRIC_PHASE_TIMEOUT, R553
  | warmReentry -- WARM_REENTRY, R562
  | warmStepEnd (r : PhaseIn) -- WARM_STEP_END, R563
  | resetN (us : Nat) -- RESET_N, R632
  | powerUp (mv : Nat) -- POWER_UP, R637
  | powerLoss (mv : Nat) -- POWER_LOSS, R638
  | i3cRoleRequest -- I3C_ROLE_REQUEST, R634
  | configBlockWrite (block : List Byte) -- CONFIG_BLOCK_WRITE, R558
  | debugToken (token : List Byte) -- DEBUG_TOKEN, R622
  | registerWrite (r : Fld) (inst : Nat) (v : Word) -- REGISTER_WRITE, R22
  | vfEnable (en : Bool) -- VF_ENABLE, R385
  | controllerRoleReturn -- CONTROLLER_ROLE_RETURN, R634
  | flashWearLevelling (block : Nat) (eraseFails : Bool) -- FLASH_WEAR_LEVELLING, R478
  | invalidationComplete (sl : SliceIx) -- INVALIDATION_COMPLETE, R203
  | pacedTransmission (st : StackIx) -- PACED_TRANSMISSION, R452
  deriving DecidableEq, Repr

end Sys2Proof
end

