-- ==== Sys2Proof/Config.lean ====
section
/-! DEFINITION. What the spec leaves open and what an implementation fixes, as constants without a body: no proof can see
their value, so a statement that holds does so whatever they are. Each is named in the assumption log. -/
namespace Sys2Proof.Config

/-- A free value: the n-th value the model asks for where the spec leaves one open (log entry 5). -/
opaque free : Nat → Nat

/-- Correct check bits of a data word under the BCH-class code, whose generator the spec does not give (R214; log entry 6). -/
opaque bchCheck : BitVec 64 → BitVec 16

/-- Verdict of a codeword with four or more failed bits, 0 to 3 (R214: detected, miscorrected or missed; log entry 6). -/
opaque heavyVerdict : BitVec 80 → Nat

/-- Data delivered for a codeword with four or more failed bits that the decoder does not detect (R214; log entry 6). -/
opaque heavyData : BitVec 64 → BitVec 80 → BitVec 64

/-- A poisoned word that also takes bit errors reads as POISON (true) or UNCORR (R216; log entry 6). -/
opaque heavyPoison : BitVec 80 → Bool

/-- Failed bits of a far-tier word that its device or the IOD6 code cannot correct (R395, R397; log entry 6). -/
opaque farBad : BitVec 80 → Bool

/-- Syndrome of a pattern of failed bits (R214, R239; log entry 6). -/
opaque syndrome : BitVec 80 → BitVec 16

/-- What a read of an uninitialised word delivers: data in the low 64 bits, above them the verdict (R225; log entry 10);
by the number of the read and the word. -/
opaque undefWord : Nat → Nat → Nat

/-- Verdict of a raw codeword written through the test window that is neither clean nor poisoned (R235; log entry 6). -/
opaque rawVerdict : BitVec 64 → BitVec 16 → Nat

/-- Data delivered for such a raw codeword when its verdict is CORR1 or CORR2 (log entry 6). -/
opaque rawData : BitVec 64 → BitVec 16 → BitVec 64

/-- Result of a transcendental operation (op code of R178) on an FP32 code: R180 bounds its error and does not fix it
(log entry 7). -/
opaque transc : Nat → Nat → Nat

/-- exp of the difference of two FP32 codes inside a bank-side unit (R256, R260; log entry 7). -/
opaque bsuExp : Nat → Nat → Nat

/-- Whether an inexact RCP or RSQRT result is the upper of its two FP32 neighbours (R180; log entry 7). -/
opaque roundsUp : Nat → Nat → Bool

/-- SHA-512 and the hashes made from it (R609, R615; log entry 8). -/
opaque sha512 : List (BitVec 8) → List (BitVec 8)

/-- A signature verifies under the root key (R613, R618; log entry 8): signed bytes, signature. -/
opaque rootSigned : List (BitVec 8) → List (BitVec 8) → Bool

/-- The signature the SEC makes with the identity key (R615; log entry 8). -/
opaque identitySign : List (BitVec 8) → List (BitVec 8)

/-- RSA-OAEP unwrapping under the identity key (R621; log entry 8): none when the plaintext does not decode. -/
opaque unwrap : List (BitVec 8) → Option (List (BitVec 8))

/-- The identity public modulus, and the root key's signature of a certificate (R612; log entry 8). -/
opaque identityModulus : List (BitVec 8)
opaque certificateSign : List (BitVec 8) → List (BitVec 8)

/-- What the SEC reads out of an image bank's bytes (R466, R613; log entry 8): whether key hash, signature and digests
verify, its version, its security version once the manifest has arrived, and the digest of component n (0 the
manifest). -/
opaque imageOk : List (BitVec 8) → Bool
opaque imageVersion : List (BitVec 8) → Nat
opaque imageSec : List (BitVec 8) → Option Nat
opaque imageDigest : List (BitVec 8) → Nat → List (BitVec 8)

/-- The text of the running images' trace tables (R476; log entry 9). -/
opaque traceTable : List (BitVec 8)

/-- The BOOT or LIC counter's flash record passes its HMAC (R617; log entry 8). -/
opaque hmacOk : Nat → Nat → Bool

end Sys2Proof.Config
end

