-- ==== Sys2Proof/Machine/Fields.lean ====
section
/-! DEFINITION. The register fields of the MMIO blocks as the spec's tables give them: width, access code (R20), reset
value, class (R22), the unit an instance belongs to, and the reset domain (R371). -/
namespace Sys2Proof.Machine

/-- Access codes of R20; W1S has no field. -/
inductive Acc where
  | rw | ro | wo | w1c | rc
  deriving DecidableEq, Repr

/-- Field classes of R22: shadowed, locked, live. -/
inductive Cls where
  | s | l | d
  deriving DecidableEq, Repr

/-- The kind of unit a block belongs to; with `per` it gives the instances. -/
inductive Own where
  | site | slice | stack | port | eng | fn | flask | th | gath
  deriving DecidableEq, Repr

/-- The reset domain of a field (R371, R378). -/
inductive Dom where
  | core | cluster | fp | iod | modl | fn | dram
  deriving DecidableEq, Repr

/-- One row of a register table. -/
structure FInfo where
  width : Nat
  acc : Acc
  reset : Nat
  cls : Cls
  unit : Own
  per : Nat
  dom : Dom
  deriving DecidableEq, Repr

end Sys2Proof.Machine

namespace Sys2Proof
open Machine

/-- The register tables, one row a field; the rule beside each is the table's. -/
def Fld.info : Fld → FInfo
  | .ARR_STATUS_acc_committed => ⟨12, .ro, 0, .d, .site, 1, .core⟩ -- R108
  | .ARR_STATUS_acc_open => ⟨12, .ro, 0, .d, .site, 1, .core⟩ -- R108
  | .ARR_STATUS_in_flight => ⟨8, .ro, 0, .d, .site, 1, .core⟩ -- R108
  | .ARR_STATUS_stall_out => ⟨1, .ro, 0, .d, .site, 1, .core⟩ -- R108
  | .ARR_STATUS_stall_acc => ⟨1, .ro, 0, .d, .site, 1, .core⟩ -- R108
  | .ARR_STATUS_stall_meta => ⟨1, .ro, 0, .d, .site, 1, .core⟩ -- R108
  | .ARR_STATUS_stall_wsc => ⟨1, .ro, 0, .d, .site, 1, .core⟩ -- R108
  | .ARR_STATUS_stall_asc => ⟨1, .ro, 0, .d, .site, 1, .core⟩ -- R108
  | .ARR_STATUS_stall_wgt => ⟨1, .ro, 0, .d, .site, 1, .core⟩ -- R108
  | .ARR_STATUS_stall_act => ⟨1, .ro, 0, .d, .site, 1, .core⟩ -- R108
  | .ARR_STATUS_busy => ⟨1, .ro, 0, .d, .site, 1, .core⟩ -- R108
  | .ARR_STATUS_shadow => ⟨2, .ro, 0, .d, .site, 1, .core⟩ -- R108
  | .ARR_STATUS_tile_active => ⟨1, .ro, 0, .d, .site, 1, .core⟩ -- R108
  | .ARR_ERR_acc_ce_count => ⟨16, .rc, 0, .d, .site, 1, .core⟩ -- R108
  | .ARR_ERR_wlocked => ⟨1, .w1c, 0, .d, .site, 1, .core⟩ -- R108
  | .ARR_ERR_wpar => ⟨1, .w1c, 0, .d, .site, 1, .core⟩ -- R108
  | .ARR_ERR_acc_ue => ⟨1, .w1c, 0, .d, .site, 1, .core⟩ -- R108
  | .ARR_ERR_acc_ce => ⟨1, .w1c, 0, .d, .site, 1, .core⟩ -- R108
  | .ARR_FX_invalid => ⟨1, .ro, 0, .d, .site, 1, .core⟩ -- R108
  | .ARR_FX_inf => ⟨1, .ro, 0, .d, .site, 1, .core⟩ -- R108
  | .ARR_FX_sat => ⟨1, .ro, 0, .d, .site, 1, .core⟩ -- R108
  | .ARR_FX_nan => ⟨1, .ro, 0, .d, .site, 1, .core⟩ -- R108
  | .ARR_PERF_issue => ⟨64, .ro, 0, .d, .site, 1, .core⟩ -- R108
  | .ARR_PERF_bubble => ⟨64, .ro, 0, .d, .site, 1, .core⟩ -- R108
  | .ARR_PERF_stall => ⟨64, .ro, 0, .d, .site, 1, .core⟩ -- R108
  | .ARR_PERF_passes => ⟨64, .ro, 0, .d, .site, 1, .core⟩ -- R108
  | .ARR_CTL_perf_clear => ⟨1, .wo, 0, .d, .site, 1, .core⟩ -- R108
  | .CHG_ARR_k_passes => ⟨9, .rw, 0, .s, .site, 1, .core⟩ -- R116
  | .CHG_ARR_m_count => ⟨12, .rw, 0, .s, .site, 1, .core⟩ -- R116
  | .CHG_ARR_k_active => ⟨9, .rw, 0, .s, .site, 1, .core⟩ -- R116
  | .CHG_ARR_acc_seq => ⟨3, .rw, 0, .s, .site, 1, .core⟩ -- R116
  | .CHG_ARR_acc_type => ⟨1, .rw, 0, .l, .site, 1, .core⟩ -- R116
  | .CHG_ARR_sparse => ⟨1, .rw, 0, .s, .site, 1, .core⟩ -- R116
  | .CHG_ARR_wgt_scale => ⟨1, .rw, 0, .s, .site, 1, .core⟩ -- R116
  | .CHG_ARR_act_scale => ⟨1, .rw, 0, .s, .site, 1, .core⟩ -- R116
  | .CHG_ARR_wgt_fmt => ⟨4, .rw, 0, .s, .site, 1, .core⟩ -- R116
  | .CHG_ARR_act_fmt => ⟨4, .rw, 0, .s, .site, 1, .core⟩ -- R116
  | .CHG_ARR_repeats => ⟨12, .rw, 0, .s, .site, 1, .core⟩ -- R116
  | .CHG_ARR_sat => ⟨1, .rw, 0, .s, .site, 1, .core⟩ -- R116
  | .CHG_ARR_out_fmt => ⟨4, .rw, 0, .s, .site, 1, .core⟩ -- R116
  | .CHG_ARR_out_mode => ⟨1, .rw, 0, .s, .site, 1, .core⟩ -- R116
  | .CHG_ARR_wgt_reuse => ⟨1, .rw, 0, .s, .site, 1, .core⟩ -- R116
  | .CHG_ARR_acc_advance => ⟨1, .rw, 0, .s, .site, 1, .core⟩ -- R116
  | .CHG_ARR_acc_base => ⟨11, .rw, 0, .s, .site, 1, .core⟩ -- R116
  | .CHG_VEC_repeats => ⟨20, .rw, 0, .s, .site, 1, .core⟩ -- R117
  | .CHG_VEC_n_ops => ⟨4, .rw, 0, .s, .site, 1, .core⟩ -- R117
  | .CHG_VEC_in_b_en => ⟨1, .rw, 0, .s, .site, 1, .core⟩ -- R117
  | .CHG_VEC_out_scale => ⟨1, .rw, 0, .s, .site, 1, .core⟩ -- R117
  | .CHG_VEC_sat => ⟨1, .rw, 0, .s, .site, 1, .core⟩ -- R117
  | .CHG_VEC_out_fmt => ⟨4, .rw, 0, .s, .site, 1, .core⟩ -- R117
  | .CHG_VEC_in_fmt_b => ⟨4, .rw, 0, .s, .site, 1, .core⟩ -- R117
  | .CHG_VEC_in_fmt_a => ⟨4, .rw, 0, .s, .site, 1, .core⟩ -- R117
  | .CHG_VEC_k1 => ⟨32, .rw, 0, .s, .site, 1, .core⟩ -- R117
  | .CHG_VEC_k0 => ⟨32, .rw, 0, .s, .site, 1, .core⟩ -- R117
  | .CHG_VEC_slot0_3 => ⟨64, .rw, 0, .s, .site, 1, .core⟩ -- R117
  | .CHG_VEC_slot4_7 => ⟨64, .rw, 0, .s, .site, 1, .core⟩ -- R117
  | .CHG_BNK_count => ⟨20, .rw, 0, .s, .site, 1, .core⟩ -- R118
  | .CHG_BNK_arg_en => ⟨1, .rw, 0, .s, .site, 1, .core⟩ -- R118
  | .CHG_BNK_res_en => ⟨1, .rw, 0, .s, .site, 1, .core⟩ -- R118
  | .CHG_BNK_fmt => ⟨4, .rw, 0, .s, .site, 1, .core⟩ -- R118
  | .CHG_BNK_nq => ⟨5, .rw, 0, .s, .site, 1, .core⟩ -- R118
  | .CHG_BNK_res_q => ⟨4, .rw, 0, .s, .site, 1, .core⟩ -- R118
  | .CHG_BNK_arg_q => ⟨4, .rw, 0, .s, .site, 1, .core⟩ -- R118
  | .CHG_BNK_addr_ag => ⟨3, .rw, 0, .s, .site, 1, .core⟩ -- R118
  | .CHG_BNK_cmd => ⟨4, .rw, 0, .s, .site, 1, .core⟩ -- R118
  | .CHG_BNK_imm => ⟨64, .rw, 0, .s, .site, 1, .core⟩ -- R118
  | .CHG_SYNC_start_sub => ⟨8, .rw, 0, .d, .site, 1, .core⟩ -- R119
  | .CHG_SYNC_end_inc => ⟨8, .rw, 0, .d, .site, 1, .core⟩ -- R119
  | .CHG_SYNC_eng_ag => ⟨8, .rw, 0, .d, .site, 1, .core⟩ -- R119
  | .CHG_SYNC_eng_bnk => ⟨1, .rw, 0, .d, .site, 1, .core⟩ -- R119
  | .CHG_SYNC_eng_vec => ⟨1, .rw, 0, .d, .site, 1, .core⟩ -- R119
  | .CHG_SYNC_eng_arr => ⟨1, .rw, 0, .d, .site, 1, .core⟩ -- R119
  | .CHG_SYNC_remote_val => ⟨32, .rw, 0, .d, .site, 1, .core⟩ -- R119
  | .CHG_SYNC_remote_en => ⟨1, .rw, 0, .d, .site, 1, .core⟩ -- R119
  | .CHG_SYNC_remote_addr => ⟨64, .rw, 0, .d, .site, 1, .core⟩ -- R119
  | .CHG_SYNC_cm_value => ⟨32, .rw, 0, .d, .site, 1, .core⟩ -- R119
  | .CHG_SYNC_preset => ⟨8, .rw, 0, .d, .site, 1, .core⟩ -- R119
  | .CHG_SYNC_cm_load => ⟨1, .rw, 0, .d, .site, 1, .core⟩ -- R119
  | .CHG_SYNC_cm_rel => ⟨2, .rw, 0, .d, .site, 1, .core⟩ -- R119
  | .CHG_SYNC_cm_ct => ⟨3, .rw, 0, .d, .site, 1, .core⟩ -- R119
  | .CHG_SYNC_cm_idx => ⟨2, .rw, 0, .d, .site, 1, .core⟩ -- R119
  | .SEQ_LIST_addr => ⟨43, .rw, 0, .l, .site, 1, .core⟩ -- R137
  | .SEQ_CTL_stop => ⟨1, .wo, 0, .d, .site, 1, .core⟩ -- R137
  | .SEQ_CTL_pause => ⟨1, .wo, 0, .d, .site, 1, .core⟩ -- R137
  | .SEQ_CTL_go => ⟨1, .wo, 0, .d, .site, 1, .core⟩ -- R137
  | .SEQ_STATUS_fx => ⟨4, .ro, 0, .d, .site, 1, .core⟩ -- R137
  | .SEQ_STATUS_sub => ⟨8, .ro, 0, .d, .site, 1, .core⟩ -- R137
  | .SEQ_STATUS_cause => ⟨8, .ro, 0, .d, .site, 1, .core⟩ -- R137
  | .SEQ_STATUS_shadow_pend => ⟨13, .ro, 0, .d, .site, 1, .core⟩ -- R137
  | .SEQ_STATUS_wlocked => ⟨1, .w1c, 0, .d, .site, 1, .core⟩ -- R137
  | .SEQ_STATUS_inflight => ⟨3, .ro, 0, .d, .site, 1, .core⟩ -- R137
  | .SEQ_STATUS_state => ⟨4, .ro, 0, .d, .site, 1, .core⟩ -- R137
  | .SEQ_PC_addr => ⟨43, .ro, 0, .d, .site, 1, .core⟩ -- R137
  | .SEQ_ERR_addr => ⟨43, .ro, 0, .d, .site, 1, .core⟩ -- R137
  | .SEQ_DONE_count => ⟨14, .ro, 0, .d, .site, 1, .core⟩ -- R137
  | .SEQ_DONE_fx => ⟨4, .ro, 0, .d, .site, 1, .core⟩ -- R137
  | .SEQ_DONE_addr => ⟨43, .ro, 0, .d, .site, 1, .core⟩ -- R137
  | .CHG_AG_base => ⟨46, .rw, 0, .s, .site, 8, .core⟩ -- R155
  | .CHG_AG_len => ⟨13, .rw, 0, .s, .site, 8, .core⟩ -- R155
  | .CHG_AG_q => ⟨5, .rw, 0, .s, .site, 8, .core⟩ -- R155
  | .CHG_AG_seg_lvl => ⟨3, .rw, 0, .s, .site, 8, .core⟩ -- R155
  | .CHG_AG_hint => ⟨2, .rw, 0, .s, .site, 8, .core⟩ -- R155
  | .CHG_AG_dir => ⟨1, .rw, 0, .s, .site, 8, .core⟩ -- R155
  | .CHG_AG_count0 => ⟨16, .rw, 0, .s, .site, 8, .core⟩ -- R155
  | .CHG_AG_count1 => ⟨16, .rw, 0, .s, .site, 8, .core⟩ -- R155
  | .CHG_AG_count2 => ⟨16, .rw, 0, .s, .site, 8, .core⟩ -- R155
  | .CHG_AG_count3 => ⟨16, .rw, 0, .s, .site, 8, .core⟩ -- R155
  | .CHG_AG_stride0 => ⟨40, .rw, 0, .s, .site, 8, .core⟩ -- R155
  | .CHG_AG_stride1 => ⟨40, .rw, 0, .s, .site, 8, .core⟩ -- R155
  | .CHG_AG_stride2 => ⟨40, .rw, 0, .s, .site, 8, .core⟩ -- R155
  | .CHG_AG_stride3 => ⟨40, .rw, 0, .s, .site, 8, .core⟩ -- R155
  | .Q_STAT_cons => ⟨4, .ro, 0, .d, .site, 16, .core⟩ -- R171
  | .Q_STAT_prod => ⟨4, .ro, 0, .d, .site, 16, .core⟩ -- R171
  | .Q_STAT_stall_pop => ⟨1, .ro, 0, .d, .site, 16, .core⟩ -- R171
  | .Q_STAT_stall_push => ⟨1, .ro, 0, .d, .site, 16, .core⟩ -- R171
  | .Q_STAT_open_fill => ⟨7, .ro, 0, .d, .site, 16, .core⟩ -- R171
  | .Q_STAT_head_used => ⟨7, .ro, 0, .d, .site, 16, .core⟩ -- R171
  | .Q_STAT_count => ⟨11, .ro, 0, .d, .site, 16, .core⟩ -- R171
  | .Q_STAT_tail => ⟨10, .ro, 0, .d, .site, 16, .core⟩ -- R171
  | .Q_STAT_head => ⟨10, .ro, 0, .d, .site, 16, .core⟩ -- R171
  | .Q_CTL_flush => ⟨16, .wo, 0, .d, .site, 1, .core⟩ -- R171
  | .Q_WDOG_snap_lost => ⟨1, .w1c, 0, .d, .site, 1, .core⟩ -- R171
  | .Q_WDOG_snap_valid => ⟨1, .w1c, 0, .d, .site, 1, .core⟩ -- R171
  | .Q_WDOG_idle => ⟨20, .ro, 0, .d, .site, 1, .core⟩ -- R171
  | .Q_SNAPPC_addr => ⟨43, .ro, 0, .d, .site, 1, .core⟩ -- R171
  | .CT_value => ⟨32, .rw, 0, .d, .site, 8, .core⟩ -- R171
  | .CM_value => ⟨32, .rw, 0, .d, .site, 4, .core⟩ -- R171
  | .CM_true => ⟨1, .ro, 1, .d, .site, 4, .core⟩ -- R171
  | .CM_rel => ⟨2, .rw, 0, .d, .site, 4, .core⟩ -- R171
  | .CM_ct => ⟨3, .rw, 0, .d, .site, 4, .core⟩ -- R171
  | .VEC_STATUS_iter => ⟨20, .ro, 0, .d, .site, 1, .core⟩ -- R183
  | .VEC_STATUS_fx => ⟨4, .ro, 0, .d, .site, 1, .core⟩ -- R183
  | .VEC_STATUS_stall_push => ⟨1, .ro, 0, .d, .site, 1, .core⟩ -- R183
  | .VEC_STATUS_stall_b => ⟨1, .ro, 0, .d, .site, 1, .core⟩ -- R183
  | .VEC_STATUS_stall_a => ⟨1, .ro, 0, .d, .site, 1, .core⟩ -- R183
  | .VEC_STATUS_busy => ⟨1, .ro, 0, .d, .site, 1, .core⟩ -- R183
  | .VEC_PERF_iters => ⟨64, .ro, 0, .d, .site, 1, .core⟩ -- R183
  | .VEC_PERF_stall => ⟨64, .ro, 0, .d, .site, 1, .core⟩ -- R183
  | .VEC_CTL_perf_clear => ⟨1, .wo, 0, .d, .site, 1, .core⟩ -- R183
  | .MC_CFG_keep_max => ⟨2, .rw, 3, .d, .slice, 1, .fp⟩ -- R212
  | .MC_CFG_cache_en => ⟨1, .rw, 1, .d, .slice, 1, .fp⟩ -- R212
  | .MC_CFG_refresh => ⟨2, .rw, 1, .d, .slice, 1, .fp⟩ -- R212
  | .MC_CTL_inval => ⟨1, .wo, 0, .d, .slice, 1, .fp⟩ -- R212
  | .MC_CTL_perf_clear => ⟨1, .wo, 0, .d, .slice, 1, .fp⟩ -- R212
  | .MC_STAT_keep_lines => ⟨16, .ro, 0, .d, .slice, 1, .fp⟩ -- R212
  | .MC_STAT_sr => ⟨1, .w1c, 0, .d, .slice, 1, .fp⟩ -- R212
  | .MC_STAT_inval_busy => ⟨1, .ro, 0, .d, .slice, 1, .fp⟩ -- R212
  | .MC_STAT_refresh => ⟨2, .ro, 1, .d, .slice, 1, .fp⟩ -- R212
  | .MC_PERF_rd_lines => ⟨64, .ro, 0, .d, .slice, 1, .fp⟩ -- R212
  | .MC_PERF_wr_lines => ⟨64, .ro, 0, .d, .slice, 1, .fp⟩ -- R212
  | .MC_PERF_hits => ⟨64, .ro, 0, .d, .slice, 1, .fp⟩ -- R212
  | .MC_PERF_row_miss => ⟨64, .ro, 0, .d, .slice, 1, .fp⟩ -- R212
  | .MC_PERF_refresh => ⟨64, .ro, 0, .d, .slice, 1, .fp⟩ -- R212
  | .ECC_INIT_regions => ⟨16, .rw, 0, .d, .slice, 1, .dram⟩ -- R239
  | .ECC_FILL_start => ⟨1, .wo, 0, .d, .slice, 1, .fp⟩ -- R239
  | .ECC_FILL_busy => ⟨1, .ro, 0, .d, .slice, 1, .fp⟩ -- R239
  | .ECC_FILL_regions => ⟨16, .rw, 0, .l, .slice, 1, .fp⟩ -- R239
  | .ECC_SCRUB_pos => ⟨24, .ro, 0, .d, .slice, 1, .fp⟩ -- R239
  | .ECC_SCRUB_passes => ⟨16, .ro, 0, .d, .slice, 1, .fp⟩ -- R239
  | .ECC_SCRUB_period => ⟨7, .rw, 8, .d, .slice, 1, .fp⟩ -- R239
  | .ECC_SCRUB_en => ⟨1, .rw, 1, .d, .slice, 1, .fp⟩ -- R239
  | .ECC_CNT_ce => ⟨32, .rc, 0, .d, .slice, 1, .fp⟩ -- R239
  | .ECC_CNT_ue => ⟨16, .rc, 0, .d, .slice, 1, .fp⟩ -- R239
  | .ECC_CNT_poison => ⟨16, .rc, 0, .d, .slice, 1, .fp⟩ -- R239
  | .ECC_WB_done => ⟨32, .ro, 0, .d, .slice, 1, .fp⟩ -- R239
  | .ECC_WB_skipped => ⟨32, .ro, 0, .d, .slice, 1, .fp⟩ -- R239
  | .ECC_TWG_grant => ⟨1, .rw, 0, .d, .slice, 1, .fp⟩ -- R239
  | .ECC_TWG_flask => ⟨4, .rw, 0, .d, .slice, 1, .fp⟩ -- R239
  | .ECC_TWG_region => ⟨4, .rw, 0, .d, .slice, 1, .fp⟩ -- R239
  | .ECC_TW_ADDR_word => ⟨27, .rw, 0, .d, .slice, 1, .fp⟩ -- R239
  | .ECC_TW_DATA_data => ⟨64, .rw, 0, .d, .slice, 1, .fp⟩ -- R239
  | .ECC_TW_CHK_syndrome => ⟨16, .ro, 0, .d, .slice, 1, .fp⟩ -- R239
  | .ECC_TW_CHK_verdict => ⟨3, .ro, 0, .d, .slice, 1, .fp⟩ -- R239
  | .ECC_TW_CHK_check => ⟨16, .rw, 0, .d, .slice, 1, .fp⟩ -- R239
  | .ECC_TW_CMD_read => ⟨1, .wo, 0, .d, .slice, 1, .fp⟩ -- R239
  | .ECC_TW_CMD_write => ⟨1, .wo, 0, .d, .slice, 1, .fp⟩ -- R239
  | .ECC_RETIRE_valid => ⟨1, .rw, 0, .d, .slice, 32, .fp⟩ -- R239
  | .ECC_RETIRE_bank => ⟨7, .rw, 0, .d, .slice, 32, .fp⟩ -- R239
  | .ECC_RETIRE_frame => ⟨8, .rw, 0, .d, .slice, 32, .fp⟩ -- R239
  | .BSU_CAP_streams => ⟨8, .rw, 32, .d, .slice, 1, .fp⟩ -- R275
  | .BSU_EPOCH_oldest => ⟨16, .ro, 0, .d, .slice, 1, .fp⟩ -- R275
  | .BSU_EPOCH_current => ⟨16, .rw, 0, .d, .slice, 1, .fp⟩ -- R275
  | .BSU_STAT_flask_ctx => ⟨16, .ro, 0, .d, .slice, 1, .fp⟩ -- R275
  | .BSU_STAT_ctx => ⟨13, .ro, 0, .d, .slice, 1, .fp⟩ -- R275
  | .BSU_STAT_streaming => ⟨8, .ro, 0, .d, .slice, 1, .fp⟩ -- R275
  | .BSU_ASSAY_banks_lo => ⟨64, .ro, 0, .d, .slice, 1, .fp⟩ -- R275
  | .BSU_ASSAY_banks_hi => ⟨64, .ro, 0, .d, .slice, 1, .fp⟩ -- R275
  | .BSU_PERF_bursts => ⟨64, .ro, 0, .d, .slice, 1, .fp⟩ -- R275
  | .BSU_PERF_cap_wait => ⟨64, .ro, 0, .d, .slice, 1, .fp⟩ -- R275
  | .BSU_PERF_commands => ⟨64, .ro, 0, .d, .slice, 1, .fp⟩ -- R275
  | .BSU_CTL_perf_clear => ⟨1, .wo, 0, .d, .slice, 1, .fp⟩ -- R275
  | .BNK_STATUS_stall_res => ⟨1, .ro, 0, .d, .site, 1, .core⟩ -- R276
  | .BNK_STATUS_stall_arg => ⟨1, .ro, 0, .d, .site, 1, .core⟩ -- R276
  | .BNK_STATUS_stall_ctx => ⟨1, .ro, 0, .d, .site, 1, .core⟩ -- R276
  | .BNK_STATUS_outstanding => ⟨7, .ro, 0, .d, .site, 1, .core⟩ -- R276
  | .BNK_ERR_status => ⟨16, .ro, 0, .d, .site, 1, .core⟩ -- R276
  | .BNK_ERR_count => ⟨16, .rc, 0, .d, .site, 1, .core⟩ -- R276
  | .BNK_ERR_valid => ⟨1, .w1c, 0, .d, .site, 1, .core⟩ -- R276
  | .BNK_ERR_addr => ⟨30, .ro, 0, .d, .site, 1, .core⟩ -- R276
  | .KV_FL_POP_valid => ⟨1, .rc, 0, .d, .slice, 1, .fp⟩ -- R292
  | .KV_FL_POP_bank => ⟨7, .rc, 0, .d, .slice, 1, .fp⟩ -- R292
  | .KV_FL_POP_frame => ⟨8, .rc, 0, .d, .slice, 1, .fp⟩ -- R292
  | .KV_FL_POPB_valid => ⟨1, .rc, 0, .d, .slice, 1, .fp⟩ -- R292
  | .KV_FL_POPB_bank => ⟨7, .rc, 0, .d, .slice, 1, .fp⟩ -- R292
  | .KV_FL_POPB_frame => ⟨8, .rc, 0, .d, .slice, 1, .fp⟩ -- R292
  | .KV_FL_PUSH_bank => ⟨7, .wo, 0, .d, .slice, 1, .fp⟩ -- R292
  | .KV_FL_PUSH_frame => ⟨8, .wo, 0, .d, .slice, 1, .fp⟩ -- R292
  | .KV_FL_CTL_low => ⟨16, .rw, 0, .d, .slice, 1, .fp⟩ -- R292
  | .KV_FL_CTL_bank => ⟨7, .rw, 0, .d, .slice, 1, .fp⟩ -- R292
  | .KV_FL_STAT_count => ⟨16, .ro, 0, .d, .slice, 1, .fp⟩ -- R292
  | .KV_FL_STAT_next_bank => ⟨7, .ro, 0, .d, .slice, 1, .fp⟩ -- R292
  | .KV_FL_STAT_low => ⟨1, .ro, 0, .d, .slice, 1, .fp⟩ -- R292
  | .KV_FL_STAT_dup_push => ⟨1, .w1c, 0, .d, .slice, 1, .fp⟩ -- R292
  | .NOC_ROUTE_iod => ⟨2, .ro, 0, .d, .stack, 1, .fp⟩ -- R360
  | .NOC_ROUTE_NEXT_iod => ⟨2, .rw, 0, .d, .stack, 1, .fp⟩ -- R360
  | .NOC_ROUTE_stack => ⟨24, .ro, 0, .d, .stack, 1, .fp⟩ -- R360
  | .NOC_ROUTE_NEXT_stack => ⟨24, .rw, 0, .d, .stack, 1, .fp⟩ -- R360
  | .NOC_CTL_retry_thresh => ⟨16, .rw, 64, .d, .stack, 1, .fp⟩ -- R360
  | .NOC_CTL_auto_en => ⟨1, .rw, 1, .d, .stack, 1, .fp⟩ -- R360
  | .NOC_CTL_apply => ⟨1, .wo, 0, .d, .stack, 1, .fp⟩ -- R360
  | .NOC_STAT_replays => ⟨32, .ro, 0, .d, .stack, 1, .fp⟩ -- R360
  | .NOC_STAT_timeouts => ⟨16, .rc, 0, .d, .stack, 1, .fp⟩ -- R360
  | .NOC_STAT_bad_route => ⟨1, .w1c, 0, .d, .stack, 1, .fp⟩ -- R360
  | .NOC_STAT_draining => ⟨1, .ro, 0, .d, .stack, 1, .fp⟩ -- R360
  | .NOC_STAT_failover => ⟨1, .w1c, 0, .d, .stack, 1, .fp⟩ -- R360
  | .NOC_LINK_retries => ⟨16, .rc, 0, .d, .stack, 3, .fp⟩ -- R360
  | .NOC_LINK_crc => ⟨16, .rc, 0, .d, .stack, 3, .fp⟩ -- R360
  | .NOC_LINK_good_mods => ⟨8, .ro, 0, .d, .stack, 3, .fp⟩ -- R360
  | .NOC_LINK_rate => ⟨2, .ro, 0, .d, .stack, 3, .fp⟩ -- R360
  | .NOC_LINK_assay => ⟨1, .ro, 0, .d, .stack, 3, .fp⟩ -- R360
  | .NOC_LINK_up => ⟨1, .ro, 0, .d, .stack, 3, .fp⟩ -- R360
  | .CRS_RST_fp => ⟨1, .wo, 0, .d, .stack, 1, .modl⟩ -- R378
  | .CRS_RST_cluster => ⟨8, .wo, 0, .d, .stack, 1, .modl⟩ -- R378
  | .CRS_CORE_go => ⟨1, .wo, 0, .d, .stack, 1, .modl⟩ -- R378
  | .CRS_CORE_cluster => ⟨3, .wo, 0, .d, .stack, 1, .modl⟩ -- R378
  | .CRS_CORE_site => ⟨4, .wo, 0, .d, .stack, 1, .modl⟩ -- R378
  | .CRS_CLK_core1_mhz => ⟨11, .rw, 1100, .d, .stack, 1, .modl⟩ -- R378
  | .CRS_CLK_core0_mhz => ⟨11, .rw, 1100, .d, .stack, 1, .modl⟩ -- R378
  | .CRS_STAT_in_reset => ⟨8, .ro, 0, .d, .stack, 1, .modl⟩ -- R378
  | .CRS_STAT_fp_reset => ⟨1, .ro, 0, .d, .stack, 1, .modl⟩ -- R378
  | .CRS_STAT_self_refresh => ⟨1, .ro, 0, .d, .stack, 1, .modl⟩ -- R378
  | .CRS_STAT_slewing => ⟨1, .ro, 0, .d, .stack, 1, .modl⟩ -- R378
  | .CRS_STAT_fab_lock => ⟨1, .ro, 0, .d, .stack, 1, .modl⟩ -- R378
  | .CRS_STAT_mem_lock => ⟨1, .ro, 0, .d, .stack, 1, .modl⟩ -- R378
  | .CRS_STAT_region_lock => ⟨2, .ro, 0, .d, .stack, 1, .modl⟩ -- R378
  | .CRS_CAUSE_count => ⟨16, .rc, 0, .d, .stack, 1, .modl⟩ -- R378
  | .CRS_CAUSE_last => ⟨4, .w1c, 0, .d, .stack, 1, .modl⟩ -- R378
  | .CRS_TS_ns => ⟨64, .ro, 0, .d, .stack, 1, .fp⟩ -- R378
  | .WIN_BASE_base => ⟨20, .rw, 0, .d, .fn, 1, .fn⟩ -- R387
  | .WIN_CTL_en => ⟨1, .rw, 0, .d, .fn, 1, .fn⟩ -- R387
  | .WIN_CTL_flask => ⟨4, .rw, 0, .d, .fn, 1, .fn⟩ -- R387
  | .WIN_STAT_errors => ⟨16, .rc, 0, .d, .fn, 1, .fn⟩ -- R387
  | .WIN_STAT_last => ⟨46, .ro, 0, .d, .fn, 1, .fn⟩ -- R387
  | .REG_FAR_rate => ⟨16, .rw, 0, .d, .flask, 1, .iod⟩ -- R401
  | .REG_FAR_burst => ⟨16, .rw, 64, .d, .flask, 1, .iod⟩ -- R401
  | .REG_FAR_en => ⟨1, .rw, 0, .d, .flask, 1, .iod⟩ -- R401
  | .REG_HOST_rate => ⟨16, .rw, 0, .d, .flask, 1, .iod⟩ -- R401
  | .REG_HOST_burst => ⟨16, .rw, 64, .d, .flask, 1, .iod⟩ -- R401
  | .REG_HOST_en => ⟨1, .rw, 0, .d, .flask, 1, .iod⟩ -- R401
  | .REG_IOB_far => ⟨64, .ro, 0, .d, .flask, 1, .iod⟩ -- R401
  | .REG_IOB_host => ⟨64, .ro, 0, .d, .flask, 1, .iod⟩ -- R401
  | .REG_IOW_cycles => ⟨64, .ro, 0, .d, .flask, 1, .iod⟩ -- R401
  | .LDL_CTL_perf_clear => ⟨1, .wo, 0, .d, .eng, 1, .cluster⟩ -- R414
  | .LDL_CTL_disable => ⟨1, .rw, 0, .d, .eng, 1, .cluster⟩ -- R414
  | .LDL_STAT_busy_err => ⟨1, .w1c, 0, .d, .eng, 1, .cluster⟩ -- R414
  | .LDL_STAT_running => ⟨4, .ro, 0, .d, .eng, 1, .cluster⟩ -- R414
  | .LDL_STAT_active => ⟨1, .ro, 0, .d, .eng, 1, .cluster⟩ -- R414
  | .LDL_STAT_queued => ⟨5, .ro, 0, .d, .eng, 1, .cluster⟩ -- R414
  | .LDL_PERF_bytes => ⟨64, .ro, 0, .d, .eng, 1, .cluster⟩ -- R414
  | .LDL_PERF_reg_wait => ⟨64, .ro, 0, .d, .eng, 1, .cluster⟩ -- R414
  | .LDL_CH_head => ⟨46, .rw, 0, .l, .eng, 16, .cluster⟩ -- R414
  | .LDL_CH_status => ⟨16, .ro, 0, .d, .eng, 16, .cluster⟩ -- R414
  | .LDL_CH_fx => ⟨4, .ro, 0, .d, .eng, 16, .cluster⟩ -- R414
  | .LDL_CH_state => ⟨3, .ro, 0, .d, .eng, 16, .cluster⟩ -- R414
  | .LDL_CH_descs => ⟨24, .ro, 0, .d, .eng, 16, .cluster⟩ -- R414
  | .FP_CFG_rx_inv => ⟨8, .rw, 0, .l, .port, 1, .fp⟩ -- R428
  | .FP_CFG_tx_inv => ⟨8, .rw, 0, .l, .port, 1, .fp⟩ -- R428
  | .FP_CFG_an_en => ⟨1, .rw, 1, .l, .port, 1, .fp⟩ -- R428
  | .FP_CFG_en => ⟨1, .rw, 0, .d, .port, 1, .fp⟩ -- R428
  | .FP_CFG_mode => ⟨3, .rw, 0, .l, .port, 1, .fp⟩ -- R428
  | .FP_QUAL_uc_max => ⟨16, .rw, 16, .s, .port, 1, .fp⟩ -- R428
  | .FP_QUAL_win_full => ⟨6, .rw, 37, .s, .port, 1, .fp⟩ -- R428
  | .FP_QUAL_win_short => ⟨6, .rw, 33, .s, .port, 1, .fp⟩ -- R428
  | .FP_QUAL_deg_mant => ⟨4, .rw, 1, .s, .port, 1, .fp⟩ -- R428
  | .FP_QUAL_deg_exp => ⟨4, .rw, 4, .s, .port, 1, .fp⟩ -- R428
  | .FP_QUAL_qual_mant => ⟨4, .rw, 1, .s, .port, 1, .fp⟩ -- R428
  | .FP_QUAL_qual_exp => ⟨4, .rw, 5, .s, .port, 1, .fp⟩ -- R428
  | .FP_STAT_link_downs => ⟨16, .rc, 0, .d, .port, 1, .fp⟩ -- R428
  | .FP_STAT_sig => ⟨8, .ro, 0, .d, .port, 1, .fp⟩ -- R428
  | .FP_STAT_wlocked => ⟨1, .w1c, 0, .d, .port, 1, .fp⟩ -- R428
  | .FP_CTL_requal => ⟨1, .wo, 0, .d, .port, 1, .fp⟩ -- R428
  | .FP_CTL_recal_en => ⟨1, .rw, 1, .d, .port, 1, .fp⟩ -- R428
  | .FP_CTL_perf_clear => ⟨1, .wo, 0, .d, .port, 1, .fp⟩ -- R428
  | .SP_STAT_attempts => ⟨4, .ro, 0, .d, .port, 4, .fp⟩ -- R428
  | .SP_STAT_cause => ⟨3, .ro, 0, .d, .port, 4, .fp⟩ -- R428
  | .SP_STAT_state => ⟨3, .ro, 0, .d, .port, 4, .fp⟩ -- R428
  | .SP_TXFRM_count => ⟨64, .ro, 0, .d, .port, 4, .fp⟩ -- R428
  | .SP_RXFRM_count => ⟨64, .ro, 0, .d, .port, 4, .fp⟩ -- R428
  | .SP_TXBYTE_count => ⟨64, .ro, 0, .d, .port, 4, .fp⟩ -- R428
  | .SP_RXBYTE_count => ⟨64, .ro, 0, .d, .port, 4, .fp⟩ -- R428
  | .SP_RXFCS_count => ⟨64, .ro, 0, .d, .port, 4, .fp⟩ -- R428
  | .SP_RXDROP_count => ⟨64, .ro, 0, .d, .port, 4, .fp⟩ -- R428
  | .SP_FECCORR_count => ⟨64, .ro, 0, .d, .port, 4, .fp⟩ -- R428
  | .SP_FECUNC_count => ⟨64, .ro, 0, .d, .port, 4, .fp⟩ -- R428
  | .FP_LANE_ERR_bits => ⟨64, .ro, 0, .d, .port, 8, .fp⟩ -- R428
  | .FP_LANE_RX_bits => ⟨64, .ro, 0, .d, .port, 8, .fp⟩ -- R428
  | .FAB_CFG_udp_port => ⟨16, .rw, 47530, .l, .stack, 1, .fp⟩ -- R461
  | .FAB_CFG_retry_max => ⟨4, .rw, 15, .d, .stack, 1, .fp⟩ -- R461
  | .FAB_CFG_paths => ⟨4, .rw, 4, .d, .stack, 1, .fp⟩ -- R461
  | .FAB_CFG_mtu => ⟨2, .rw, 3, .l, .stack, 1, .fp⟩ -- R461
  | .FAB_CFG_en => ⟨1, .rw, 0, .d, .stack, 1, .fp⟩ -- R461
  | .FAB_TIME_setup_ms => ⟨16, .rw, 200, .d, .stack, 1, .fp⟩ -- R461
  | .FAB_TIME_drain_ms => ⟨16, .rw, 50, .d, .stack, 1, .fp⟩ -- R461
  | .FAB_TIME_idle_s => ⟨16, .rw, 10, .d, .stack, 1, .fp⟩ -- R461
  | .FAB_TIME_ack_us => ⟨8, .rw, 2, .d, .stack, 1, .fp⟩ -- R461
  | .FAB_TIME_rto_min_us => ⟨8, .rw, 20, .d, .stack, 1, .fp⟩ -- R461
  | .FAB_CC_r_init => ⟨16, .rw, 250, .d, .stack, 1, .fp⟩ -- R461
  | .FAB_CC_r_ai => ⟨16, .rw, 5, .d, .stack, 1, .fp⟩ -- R461
  | .FAB_CC_r_min => ⟨16, .rw, 1, .d, .stack, 1, .fp⟩ -- R461
  | .FAB_CC_g_shift => ⟨4, .rw, 4, .d, .stack, 1, .fp⟩ -- R461
  | .FAB_STAT_conns => ⟨17, .ro, 0, .d, .stack, 1, .fp⟩ -- R461
  | .FAB_STAT_conn_lost => ⟨16, .rc, 0, .d, .stack, 1, .fp⟩ -- R461
  | .FAB_STAT_wlocked => ⟨1, .w1c, 0, .d, .stack, 1, .fp⟩ -- R461
  | .FAB_STRANGER_count => ⟨64, .ro, 0, .d, .stack, 1, .fp⟩ -- R461
  | .FAB_AUTHFAIL_count => ⟨64, .ro, 0, .d, .stack, 1, .fp⟩ -- R461
  | .FAB_RETX_count => ⟨64, .ro, 0, .d, .stack, 1, .fp⟩ -- R461
  | .FAB_CE_count => ⟨64, .ro, 0, .d, .stack, 1, .fp⟩ -- R461
  | .FAB_CTL_perf_clear => ⟨1, .wo, 0, .d, .stack, 1, .fp⟩ -- R461
  | .MB_DOORBELL_post => ⟨1, .wo, 0, .d, .fn, 1, .fn⟩ -- R482
  | .MB_STATE_tag => ⟨16, .ro, 0, .d, .fn, 1, .fn⟩ -- R482
  | .MB_STATE_ring_busy => ⟨1, .w1c, 0, .d, .fn, 1, .fn⟩ -- R482
  | .MB_STATE_wr_busy => ⟨1, .w1c, 0, .d, .fn, 1, .fn⟩ -- R482
  | .MB_STATE_state => ⟨2, .ro, 0, .d, .fn, 1, .fn⟩ -- R482
  | .WQ_DB_tail => ⟨32, .wo, 0, .d, .fn, 256, .fn⟩ -- R482
  | .REG_D2D_rate => ⟨16, .rw, 0, .d, .stack, 16, .fp⟩ -- R529
  | .REG_D2D_burst => ⟨16, .rw, 64, .d, .stack, 16, .fp⟩ -- R529
  | .REG_D2D_en => ⟨1, .rw, 0, .d, .stack, 16, .fp⟩ -- R529
  | .REG_FAB_rate => ⟨16, .rw, 0, .d, .stack, 16, .fp⟩ -- R529
  | .REG_FAB_burst => ⟨16, .rw, 64, .d, .stack, 16, .fp⟩ -- R529
  | .REG_FAB_en => ⟨1, .rw, 0, .d, .stack, 16, .fp⟩ -- R529
  | .REG_EGB_d2d => ⟨64, .ro, 0, .d, .stack, 16, .fp⟩ -- R529
  | .REG_EGB_fab => ⟨64, .ro, 0, .d, .stack, 16, .fp⟩ -- R529
  | .REG_EGW_cycles => ⟨64, .ro, 0, .d, .stack, 16, .fp⟩ -- R529
  | .EG_DOORBELL_src => ⟨10, .wo, 0, .d, .gath, 1, .cluster⟩ -- R543
  | .EG_STAT_bad_complete => ⟨1, .w1c, 0, .d, .gath, 1, .cluster⟩ -- R543
  | .EG_STAT_bad_src => ⟨1, .w1c, 0, .d, .gath, 1, .cluster⟩ -- R543
  | .EG_TGT_mode => ⟨1, .rw, 1, .d, .gath, 4, .cluster⟩ -- R543
  | .EG_TGT_thresh => ⟨4, .rw, 0, .d, .gath, 4, .cluster⟩ -- R543
  | .EG_CLAIM_valid => ⟨1, .rc, 0, .d, .gath, 4, .cluster⟩ -- R543
  | .EG_CLAIM_prio => ⟨4, .rc, 0, .d, .gath, 4, .cluster⟩ -- R543
  | .EG_CLAIM_src => ⟨10, .rc, 0, .d, .gath, 4, .cluster⟩ -- R543
  | .EG_COMPLETE_src => ⟨10, .wo, 0, .d, .gath, 4, .cluster⟩ -- R543
  | .EG_TOP_valid => ⟨1, .ro, 0, .d, .gath, 4, .cluster⟩ -- R543
  | .EG_TOP_prio => ⟨4, .ro, 0, .d, .gath, 4, .cluster⟩ -- R543
  | .EG_TOP_src => ⟨10, .ro, 0, .d, .gath, 4, .cluster⟩ -- R543
  | .EG_SRC_pending => ⟨1, .ro, 0, .d, .gath, 1024, .cluster⟩ -- R543
  | .EG_SRC_active => ⟨1, .ro, 0, .d, .gath, 1024, .cluster⟩ -- R543
  | .EG_SRC_target => ⟨2, .rw, 0, .d, .gath, 1024, .cluster⟩ -- R543
  | .EG_SRC_prio => ⟨4, .rw, 0, .d, .gath, 1024, .cluster⟩ -- R543
  | .EG_HPEND_active => ⟨32, .ro, 0, .d, .fn, 1, .fn⟩ -- R544
  | .EG_HPEND_pending => ⟨32, .ro, 0, .d, .fn, 1, .fn⟩ -- R544
  | .EG_HCOMPLETE_kind => ⟨5, .wo, 0, .d, .fn, 1, .fn⟩ -- R544
  | .EG_HCTL_poll => ⟨1, .rw, 1, .d, .fn, 1, .fn⟩ -- R544
  | .EG_HCTL_thresh => ⟨4, .rw, 0, .d, .fn, 1, .fn⟩ -- R544
  | .EG_HNOTE_wr_seq => ⟨64, .ro, 0, .d, .fn, 1, .fn⟩ -- R544
  | .EG_HVEC_prio => ⟨4, .rw, 1, .d, .fn, 32, .fn⟩ -- R544
  | .EG_HVEC_vector => ⟨11, .rw, 0, .d, .fn, 32, .fn⟩ -- R544
  | .TH_CONV_busy => ⟨1, .ro, 0, .d, .th, 1, .modl⟩ -- R607
  | .TH_CONV_req => ⟨1, .wo, 0, .d, .th, 1, .modl⟩ -- R607
  | .TH_RES_seq => ⟨16, .ro, 0, .d, .th, 1, .modl⟩ -- R607
  | .TH_RES_valid => ⟨1, .ro, 0, .d, .th, 1, .modl⟩ -- R607
  | .TH_RES_temp => ⟨16, .ro, 0, .d, .th, 1, .modl⟩ -- R607
  | .TH_WDOG_armed => ⟨1, .ro, 0, .d, .th, 1, .modl⟩ -- R607
  | .TH_WDOG_elapsed => ⟨10, .ro, 0, .d, .th, 1, .modl⟩ -- R607
  | .TH_LIM_hw_trip => ⟨16, .ro, 896, .d, .th, 1, .modl⟩ -- R607
  | .TH_CTL_fast_en => ⟨1, .rw, 1, .d, .th, 1, .modl⟩ -- R607
  | .TH_CTL_release => ⟨1, .wo, 0, .d, .th, 1, .modl⟩ -- R607
  | .TH_CTL_trip => ⟨1, .wo, 0, .d, .th, 1, .modl⟩ -- R607
  | .TH_STAT_cause => ⟨4, .ro, 0, .d, .th, 1, .modl⟩ -- R607
  | .TH_STAT_tripped => ⟨1, .ro, 0, .d, .th, 1, .modl⟩ -- R607
  | .TH_STAT_fast => ⟨1, .ro, 0, .d, .th, 1, .modl⟩ -- R607
  | .TH_STAT_cause_wr => ⟨4, .rw, 0, .d, .th, 1, .modl⟩ -- R607
  | .TH_PWR_peak_w => ⟨16, .rc, 0, .d, .th, 1, .modl⟩ -- R607
  | .TH_PWR_power_w => ⟨16, .ro, 0, .d, .th, 1, .modl⟩ -- R607
  | .TH_FAST_limit_w => ⟨16, .rw, 400, .d, .th, 1, .modl⟩ -- R607
  | .TH_MODEL_theta => ⟨16, .ro, 0, .d, .th, 1, .modl⟩ -- R607
  | .TH_MODEL_grad => ⟨16, .ro, 0, .d, .th, 1, .modl⟩ -- R607
  | .TH_MODEL_offset => ⟨16, .ro, 0, .d, .th, 1, .modl⟩ -- R607
  | .CHG_QB_q0 => ⟨13, .rw, 0, .l, .site, 1, .core⟩ -- R140
  | .CHG_QB_q1 => ⟨13, .rw, 0, .l, .site, 1, .core⟩ -- R140
  | .CHG_QB_q2 => ⟨13, .rw, 0, .l, .site, 1, .core⟩ -- R140
  | .CHG_QB_q3 => ⟨13, .rw, 0, .l, .site, 1, .core⟩ -- R140
  | .CHG_QB_q4 => ⟨13, .rw, 0, .l, .site, 1, .core⟩ -- R140
  | .CHG_QB_q5 => ⟨13, .rw, 0, .l, .site, 1, .core⟩ -- R140
  | .CHG_QB_q6 => ⟨13, .rw, 0, .l, .site, 1, .core⟩ -- R140
  | .CHG_QB_q7 => ⟨13, .rw, 0, .l, .site, 1, .core⟩ -- R140
  | .CHG_QB_q8 => ⟨13, .rw, 0, .l, .site, 1, .core⟩ -- R140
  | .CHG_QB_q9 => ⟨13, .rw, 0, .l, .site, 1, .core⟩ -- R140
  | .CHG_QB_q10 => ⟨13, .rw, 0, .l, .site, 1, .core⟩ -- R140
  | .CHG_QB_q11 => ⟨13, .rw, 0, .l, .site, 1, .core⟩ -- R140
  | .CHG_QB_q12 => ⟨13, .rw, 0, .l, .site, 1, .core⟩ -- R140
  | .CHG_QB_q13 => ⟨13, .rw, 0, .l, .site, 1, .core⟩ -- R140
  | .CHG_QB_q14 => ⟨13, .rw, 0, .l, .site, 1, .core⟩ -- R140
  | .CHG_QB_q15 => ⟨13, .rw, 0, .l, .site, 1, .core⟩ -- R140
  | .CHG_QB_act => ⟨4, .rw, 0, .l, .site, 1, .core⟩ -- R142
  | .CHG_QB_wgt => ⟨4, .rw, 0, .l, .site, 1, .core⟩ -- R142
  | .CHG_QB_asc => ⟨4, .rw, 0, .l, .site, 1, .core⟩ -- R142
  | .CHG_QB_wsc => ⟨4, .rw, 0, .l, .site, 1, .core⟩ -- R142
  | .CHG_QB_meta => ⟨4, .rw, 0, .l, .site, 1, .core⟩ -- R142
  | .CHG_QB_out => ⟨4, .rw, 0, .l, .site, 1, .core⟩ -- R142
  | .CHG_QB_vin_a => ⟨5, .rw, 0, .l, .site, 1, .core⟩ -- R142
  | .CHG_QB_vin_b => ⟨4, .rw, 0, .l, .site, 1, .core⟩ -- R142
  | .CHG_QB_vout => ⟨4, .rw, 0, .l, .site, 1, .core⟩ -- R142
  | .CHG_QB_vosc => ⟨4, .rw, 0, .l, .site, 1, .core⟩ -- R142
  | .Q_SNAP_cons => ⟨4, .ro, 0, .d, .site, 16, .core⟩ -- R171
  | .Q_SNAP_prod => ⟨4, .ro, 0, .d, .site, 16, .core⟩ -- R171
  | .Q_SNAP_stall_pop => ⟨1, .ro, 0, .d, .site, 16, .core⟩ -- R171
  | .Q_SNAP_stall_push => ⟨1, .ro, 0, .d, .site, 16, .core⟩ -- R171
  | .Q_SNAP_open_fill => ⟨7, .ro, 0, .d, .site, 16, .core⟩ -- R171
  | .Q_SNAP_head_used => ⟨7, .ro, 0, .d, .site, 16, .core⟩ -- R171
  | .Q_SNAP_count => ⟨11, .ro, 0, .d, .site, 16, .core⟩ -- R171
  | .Q_SNAP_tail => ⟨10, .ro, 0, .d, .site, 16, .core⟩ -- R171
  | .Q_SNAP_head => ⟨10, .ro, 0, .d, .site, 16, .core⟩ -- R171
  | .MSIX_addr => ⟨64, .rw, 0, .d, .fn, 1024, .fn⟩ -- R386
  | .MSIX_data => ⟨32, .rw, 0, .d, .fn, 1024, .fn⟩ -- R386
  | .MSIX_mask => ⟨1, .rw, 1, .d, .fn, 1024, .fn⟩ -- R386
  | .MSIX_pend => ⟨1, .ro, 0, .d, .fn, 1024, .fn⟩ -- R386

end Sys2Proof
end

