-- ==== Sys2Proof/Machine/Flags.lean ====
section
/-! DEFINITION. The sticky format-exception flags of R60, as a 4-bit mask in the bit order of ARR_FX (R108), and the
one-bit helpers every status field is built with. -/
namespace Sys2Proof.Machine

/-- FX_NAN: a NaN was read or produced (R60). -/
def fxNan : Nat := 1
/-- FX_SAT: a value was clamped by R58 or by INT32 saturation (R60). -/
def fxSat : Nat := 2
/-- FX_INF: an infinity was produced from finite inputs (R60). -/
def fxInf : Nat := 4
/-- FX_INVALID: an invalid operation; the NaN it produces also sets FX_NAN (R60). -/
def fxInvalid : Nat := 9

/-- Join two sets of sticky flags. -/
def fxOr (a b : Nat) : Nat := a ||| b

/-- Bit n of a mask. -/
def bit (w n : Nat) : Bool := (w / 2 ^ n) % 2 == 1

/-- Bits [hi:lo] of a word, as the spec writes ranges. -/
def bits (w hi lo : Nat) : Nat := (w / 2 ^ lo) % 2 ^ (hi + 1 - lo)

/-- A Bool as a field value. -/
def b2n (b : Bool) : Nat := if b then 1 else 0

/-- The mask with bit n set to b. -/
def setBit (w n : Nat) (b : Bool) : Nat := if bit w n = b then w else if b then w + 2 ^ n else w - 2 ^ n

/-- Number of set bits among the lowest k. -/
def popcount (w : Nat) : Nat → Nat
  | 0 => 0
  | k + 1 => popcount w k + b2n (bit w k)

/-- Sign-extend an n-bit value. -/
def signed (n v : Nat) : Int := if bit v (n - 1) then (v : Int) - 2 ^ n else v

/-- Reduce an integer modulo 2^n. -/
def wrap (n : Nat) (v : Int) : Nat := (v % (2 ^ n : Int)).toNat

/-- The least n below k that passes a test, counted from `from'`. -/
def findNat (p : Nat → Bool) : Nat → Nat → Option Nat
  | 0, _ => none
  | k + 1, n => if p n then some n else findNat p k (n + 1)

end Sys2Proof.Machine
end

