-- ==== Sys2Proof/Machine/Store.lean ====
section
/-! DEFINITION. Sparse data by key: a list of (key, value) pairs in one canonical form, keys strictly rising and no
value equal to what an unlisted key reads as. Memory, register fields and every table of units are held this way. -/
namespace Sys2Proof.Machine

/-- A sparse table of values of type α. -/
abbrev Store (α : Type) := List (Nat × α)

/-- The value at a key; `d` is what an unlisted key reads as. -/
def Store.get {α : Type} (d : α) : Store α → Nat → α
  | [], _ => d
  | (k, v) :: m, a => if k = a then v else Store.get d m a

/-- Insert a value in key order, replacing what was listed. -/
def Store.put {α : Type} (a : Nat) (v : α) : Store α → Store α
  | [] => [(a, v)]
  | (k, w) :: m =>
    if a < k then (a, v) :: (k, w) :: m
    else if a = k then (a, v) :: m
    else (k, w) :: Store.put a v m

/-- Drop a key. -/
def Store.del {α : Type} (a : Nat) (m : Store α) : Store α := m.filter (fun p => p.1 != a)

/-- Write a value, keeping the canonical form: the default value is not listed. -/
def Store.set {α : Type} [DecidableEq α] (d : α) (a : Nat) (v : α) (m : Store α) : Store α :=
  if v = d then Store.del a m else Store.put a v m

/-- Drop every key that a test picks. -/
def Store.clear {α : Type} (p : Nat → Bool) (m : Store α) : Store α := m.filter (fun x => !p x.1)

/-- The keys rise strictly. -/
def Store.sorted {α : Type} : Store α → Bool
  | [] => true
  | [_] => true
  | (a, _) :: (b, w) :: m => decide (a < b) && Store.sorted ((b, w) :: m)

/-- The canonical form, for a default that may depend on the key. -/
def Store.wfBy {α : Type} [DecidableEq α] (d : Nat → α) (m : Store α) : Bool :=
  Store.sorted m && m.all (fun p => decide (p.2 ≠ d p.1))

/-- The canonical form, for one default. -/
def Store.wf {α : Type} [DecidableEq α] (d : α) (m : Store α) : Bool := Store.wfBy (fun _ => d) m

end Sys2Proof.Machine
end

