-- ==== Sys2Proof/Machine/State.lean ====
section
/-! DEFINITION. The state of the module as plain data: every register field, memory word, queue, engine, table and flash
record the spec gives it, and the queue of commands that are waiting. Tables of like units are Stores, so that a unit
at its reset value is not listed. -/
namespace Sys2Proof.Machine

/-- No command ends in a fault: where the spec stops a unit it also says what the module does next, and the model does
that. The type is kept for the host's interface; nothing raises its one constructor (safe). -/
inductive Fault where
  | unreachable
  deriving DecidableEq, Repr

/-- A command the model gives no meaning to. -/
inductive Refusal where
  /-- Raised by the dispatch of a command that has no meaning yet, by its mnemonic. Safe: nothing is claimed of it. -/
  | notModelled (mnemonic : String)
  deriving DecidableEq, Repr

/-! ## A core site -/

/-- A weight tile as its streams held it (R83, R94): format, sparsity, weight bytes, scale bytes, metadata bytes. -/
structure Tile where
  fmt : Nat := 0
  sparse : Bool := false
  w : List Byte := []
  sc : List Byte := []
  md : List Byte := []
  deriving DecidableEq, Repr

/-- A pass inside the array with the parameters it latched on entry (R85, R86). `step` is 0 SINGLE, 1 FIRST, 2 ACCUM,
3 LAST (R98); `done` counts vectors written. -/
structure Pass where
  pour : Nat := 0
  act : Nat := 0
  wgt : Nat := 0
  actScale : Bool := false
  wgtScale : Bool := false
  sparse : Bool := false
  accInt : Bool := false
  m : Nat := 0
  k : Nat := 0
  base : Nat := 0
  step : Nat := 0
  push : Bool := false
  outFmt : Nat := 0
  sat : Bool := false
  tile : Tile := {}
  done : Nat := 0
  /-- A parity or accumulator error poisons what the pass writes (R104, R105). -/
  bad : Bool := false
  deriving DecidableEq, Repr

/-- A pour in flight: its record, what it latched of CHG_SYNC (R119, R126), its engaged units and its FX flags (R60). -/
structure Pour where
  id : Nat := 0
  addr : Nat := 0
  event : Bool := false
  endInc : Nat := 0
  remoteEn : Bool := false
  remoteAddr : Nat := 0
  remoteVal : Nat := 0
  arr : Bool := false
  vec : Bool := false
  bnk : Bool := false
  ags : Nat := 0
  fx : Nat := 0
  /-- Queues its units push and pop: unit code of R171 and queue (R149). -/
  prod : List (Nat × Nat) := []
  cons : List (Nat × Nat) := []
  deriving DecidableEq, Repr

/-- An engaged unit before its issue end (R121): the pour it works for and the repeats it has made. -/
structure Run where
  pour : Nat := 0
  done : Nat := 0
  deriving DecidableEq, Repr

/-- A copy-on-write in progress (R300): the append ring entry that met SHARED, and what is copied where. -/
structure Cow where
  entry : Nat := 0
  ctx : Nat := 0
  q : Nat := 0
  stream : Nat := 0
  page : Nat := 0
  src : Nat := 0
  dst : Nat := 0
  deriving DecidableEq, Repr

/-- A core's own state beside its registers, queues, accumulator and address generators. -/
structure CoreSt where
  /-- Words of the record at the front (R110). -/
  words : List Nat := []
  pours : List Pour := []
  nextPour : Nat := 0
  arr : Option Run := none
  vec : Option Run := none
  bnk : Option Run := none
  passes : List Pass := []
  active : Option Tile := none
  shadow : Option Tile := none
  /-- The shadow holds the previous tile while a swap crosses the array (R88). -/
  shadowBusy : Bool := false
  /-- COMMITTED entries in commit order (R99). -/
  order : List Nat := []
  /-- T0-T3, 64 lanes each, T0 first (R175). -/
  t : List Nat := []
  pauseReq : Bool := false
  /-- Cause the drain in progress ends in, 0 for none (R135). -/
  drainErr : Nat := 0
  /-- The record fetch that failed was uncorrectable (R518). -/
  fetchUe : Bool := false
  /-- The CCC has found the stall limit reached (R519). -/
  limit : Bool := false
  /-- A load met a lost word (R224). -/
  loadUe : Bool := false
  /-- QUEUE_STALL events since SEQ_DONE.count last changed, and that count (R519). -/
  stalls : Nat := 0
  stallDone : Nat := 0
  /-- Next entry of the append ring and of the attend ring, in 128-byte entries (R296, R311). -/
  appHead : Nat := 0
  attHead : Nat := 0
  /-- Entries passed over that are still valid, each with the context that wrote it, plus one: set aside, waiting for a
  frame, a restore or an assay (R297, R315). -/
  appAside : List (Nat × Nat) := []
  attAside : List (Nat × Nat) := []
  cows : List Cow := []
  /-- Status of an attend request that named no sequence: it ends the core's item (R313, R518). -/
  attFault : Nat := 0
  deriving DecidableEq, Repr

/-- A queue ring; its entries lie in the core's scratch (R139, R146, R171). -/
structure QueueSt where
  head : Nat := 0
  count : Nat := 0
  used : Nat := 0
  fill : Nat := 0
  stallPush : Bool := false
  stallPop : Bool := false
  deriving DecidableEq, Repr

/-- States of an accumulator entry (R97). -/
inductive AccState where
  | free | openE | committed
  deriving DecidableEq, Repr

/-- An accumulator entry: 64 column values (FP32 codes, or INT32 in two's complement), the mode it was written in, and
the POISON mark (R97, R106). -/
structure AccEnt where
  st : AccState := .free
  v : List Nat := []
  int : Bool := false
  poison : Bool := false
  deriving DecidableEq, Repr

/-- A load issued and not yet pushed: its bytes and whether a segment closes after it (R156, R158). -/
structure Load where
  pour : Nat := 0
  q : Nat := 0
  data : List Byte := []
  close : Bool := false
  deriving DecidableEq, Repr

/-- An address generator: its walk (R156), loads awaiting their push, stores awaiting their acknowledgement by pour. -/
structure AgSt where
  run : Option Run := none
  loads : List Load := []
  stores : List Nat := []
  deriving DecidableEq, Repr

/-! ## Memory -/

/-- What a 64-bit word's codeword holds besides its data: failed bits, the poison mark, raw check bits written through
the test window (R214, R216, R235). `known` marks a word written in a region whose initialisation is not known (R225). -/
structure Mark where
  flips : BitVec 80 := 0
  poison : Bool := false
  raw : Option (BitVec 16) := none
  known : Bool := false
  deriving DecidableEq, Repr

/-- A line of a slice cache (R200). `old` holds the line's bytes while a BSU has written it and no fence has completed
(R269). -/
structure CLine where
  line : Nat
  keep : Bool := false
  old : Option (List Byte) := none
  deriving DecidableEq, Repr

/-- A slice: row and refresh state, its KV frames and its ECC bookkeeping. -/
structure SliceSt where
  /-- Withheld from service by bring-up (R549, R550). -/
  withheld : Bool := false
  /-- Regions whose words hold undefined data since the DRAM was powered up (R225), a 16-bit map. -/
  undef : Nat := 0xFFFF
  /-- Banks that have passed a refresh slot since MC_CFG.refresh changed (R196), a 128-bit map. -/
  slots : Nat := 0
  /-- Regions the fill engine is filling (R226). -/
  filling : Nat := 0
  /-- The slice's free list, a bitmap of bank * 256 + frame (R291). -/
  freeMap : Nat := 0
  /-- Next bank granted a streaming token (R263). -/
  tokNext : Nat := 0
  /-- Ownership regions of the slice that KV_CONFIG designates (R278), a 16-bit map. -/
  kvRegions : Nat := 0
  /-- The channels a lasting verdict took out of use (R584), an 8-bit map. -/
  deadCh : Nat := 0
  /-- Banks whose BSU is off (R549, R584), a 128-bit map. -/
  bsuOff : Nat := 0
  /-- Reclamation in progress or due for this slice (R329). -/
  reclaim : Bool := false
  /-- Releases held because the epoch is 2^14 past the oldest (R304): frame key and the state to release it in. -/
  heldRel : List (Nat × Nat) := []
  /-- Channels the CCC has recalibrated in the current cycle (R478), an 8-bit map. -/
  recal : Nat := 0
  deriving DecidableEq, Repr

/-! ## Bank-side units -/

/-- A bank command (R251): its path and issue number, the fields of CHG_BNK it was built from, its address, argument
bytes, the flask it is checked against, its epoch tag (R246), row bursts made, and the pour that issued it. -/
structure Task where
  path : Nat := 0
  num : Nat := 0
  cmd : Nat := 0
  fmt : Nat := 0
  nq : Nat := 0
  resEn : Bool := false
  addr : Nat := 0
  imm : Nat := 0
  args : List Byte := []
  flask : Nat := 0
  epoch : Nat := 0
  bursts : Nat := 0
  pour : Nat := 0
  deriving DecidableEq, Repr

/-- A bank's BSU: waiting commands in order of arrival, accepted tasks in acceptance order (R244, R245), a streaming
token held (R263), and the token asked for. -/
structure BankSt where
  wait : List Task := []
  ctx : List Task := []
  token : Bool := false
  assay : Bool := false
  deriving DecidableEq, Repr

/-- A command outstanding on a path, in issue order (R249). `fence` is the scope of a BANK_FENCE; `waitFor` the issue
numbers it covers (R270); `done` its result record. -/
structure PathEnt where
  num : Nat := 0
  pour : Nat := 0
  slice : Nat := 0
  bank : Nat := 0
  resEn : Bool := false
  accepted : Bool := false
  fence : Option Nat := none
  waitFor : List Nat := []
  done : Option (List Byte) := none
  /-- The frame the command writes, as an address, until a fence covers it (R269). -/
  wrote : Option Nat := none
  deriving DecidableEq, Repr

/-- A bank-command path (R247): outstanding commands, the next issue number, and frames written by completed commands
that no fence has covered: issue number and frame address. -/
structure PathSt where
  out : List PathEnt := []
  next : Nat := 0
  dirty : List (Nat × Nat) := []
  deriving DecidableEq, Repr

/-! ## KV cache -/

/-- A page descriptor (R286, R287). -/
structure PageDesc where
  refcount : Nat := 0
  epoch : Nat := 0
  owner : Nat := 0
  pend : Bool := false
  state : Nat := 6
  page : Nat := 0
  stream : Nat := 0
  /-- PAGE_RETIRE has named the frame (R237). -/
  retire : Bool := false
  deriving DecidableEq, Repr

/-- A page-table entry (R288). -/
structure Pte where
  kind : Nat := 0
  tokens : Nat := 0
  loc : Nat := 0
  deriving DecidableEq, Repr

/-- A sequence (R289), with what the CCC and the SCH keep about it: its bound context (R524), whether a step is in
flight, the decrements deferred to its end (R302), the order of its last completed step (R331), a copy-on-write in
progress (R302), a swap eviction in progress (R337), and waiting for a frame (R332). -/
structure SeqSt where
  state : Nat := 0
  policy : Nat := 0
  flask : Nat := 0
  spreadN : Nat := 0
  latent : Bool := false
  fmt : Nat := 0
  ptBase : Nat := 0
  /-- Address of the sequence descriptor (R289). -/
  descAddr : Nat := 0
  streams : Nat := 0
  maxPages : Nat := 0
  capacity : Nat := 0
  stride : Nat := 0
  dk : Nat := 0
  dv : Nat := 0
  pos : Nat := 0
  spread : List Nat := []
  ctx : Option Nat := none
  stepOpen : Bool := false
  deferred : List (Nat × Nat) := []
  lastStep : Nat := 0
  cow : Bool := false
  swapping : Bool := false
  waiting : Option Nat := none
  /-- Pages of the swap in progress still to be handled: stream and page (R337). -/
  swapTodo : List (Nat × Nat) := []
  /-- The SCH is asked to pre-empt and hold its contexts (R337, R523). -/
  held : Bool := false
  /-- SWAPPED pages that a request has met: stream and page (R341). -/
  want : List (Nat × Nat) := []
  /-- Set while a SWAP requester waits with no candidate left (R332). -/
  starved : Bool := false
  deriving DecidableEq, Repr

/-- A slag list entry (R335). -/
structure Slag where
  valid : Bool := false
  reason : Nat := 0
  upTo : Nat := 0
  start : Nat := 0
  deriving DecidableEq, Repr

/-- A swap slot that holds a page: the holders' sequence, stream and page, the frame's descriptor and bytes (R338,
R340). -/
structure Slot where
  holders : List (Nat × Nat × Nat) := []
  tokens : List Nat := []
  desc : PageDesc := {}
  deriving DecidableEq, Repr

/-- A flask's KV configuration (R279). -/
structure KvCfg where
  set : Bool := false
  appOff : Nat := 0
  appSize : Nat := 0
  attOff : Nat := 0
  attSize : Nat := 0
  low : Nat := 0
  /-- Addresses of the descriptor base, slag list and accounting record (R286, R335, R342, R497). -/
  descBase : Nat := 0
  slagBase : Nat := 0
  acctBase : Nat := 0
  mergeBase : Nat := 0
  mergeFrames : Nat := 0
  swapArea : Nat := 0
  swapBase : Nat := 0
  swapSlots : Nat := 0
  reclaimHigh : Nat := 0
  deriving DecidableEq, Repr

/-- Event counts of a flask's accounting record (R342). -/
structure Account where
  gen : Nat := 0
  drops : Nat := 0
  swapOuts : Nat := 0
  restores : Nat := 0
  evictions : Nat := 0
  deriving DecidableEq, Repr

/-- An attend request whose partials wait for MEMBER_MERGE (R312-R316): its ring entry and context, its status so far,
whether its slots may be written (R313), what it says, the merge frames it holds in order, and the pages attended. -/
structure Attend where
  site : Nat := 0
  entry : Nat := 0
  ctx : Nat := 0
  status : Nat := 0
  slots : Bool := true
  nq : Nat := 0
  dv : Nat := 0
  m : Nat := 0
  gather : Nat := 0
  mergeSite : Nat := 0
  mct : Nat := 0
  ct : Nat := 0
  seq : Nat := 0
  /-- Frames of each query, first stage first. -/
  frames : List (List Nat) := []
  pages : Nat := 0
  deriving DecidableEq, Repr

/-! ## Host interface and the scheduler -/

/-- A posted mailbox request that passed the checks (R483, R486). -/
structure Req where
  op : Nat := 0
  noEvent : Bool := false
  tag : Nat := 0
  /-- The flask it acts on (R496). -/
  flask : Nat := 0
  /-- The header's own fields, as sent. -/
  hdrFlask : Nat := 0
  ctx : Nat := 0xFFFF
  body : List Byte := []
  crc : Nat := 0
  deriving DecidableEq, Repr

/-- What a deferred request still has to do (R488, R490). -/
inductive Work where
  | done
  | flaskSet (fl : Nat) (clusters regions : List Nat)
  | flaskRemove (fl : Nat) (clusters regions : List Nat)
  | flaskReset (fl : Nat)
  | ctxDestroy (x : Nat)
  | queueDestroy (key : Nat)
  | pageRetire (keys : List Nat)
  | seqEvict (q : Nat) (begun : Bool)
  | jobLeave (fl : Nat)
  deriving DecidableEq, Repr

/-- A deferred request (R490). -/
structure Deferred where
  op : Nat := 0
  tag : Nat := 0
  status : Nat := 0
  work : Work := .done
  deriving DecidableEq, Repr

/-- A function's mailbox and firmware's memory of it (R482, R491, R492). `minor` is none while the firmware's own is in
force. -/
structure FnSt where
  major : Nat := 3
  minor : Option Nat := none
  run : Option Req := none
  /-- Tag, opcode and crc of the last request that reached DONE (R491). -/
  last : Option (Nat × Nat × Nat) := none
  deferred : List Deferred := []
  defSeq : Nat := 0
  deriving DecidableEq, Repr

/-- A work queue (R500, R501, R514): its number, context, ring, accepted tail, entries started and completed. -/
structure WqSt where
  on : Bool := false
  num : Nat := 0
  ctx : Nat := 0
  base : Nat := 0
  log2 : Nat := 4
  tail : Nat := 0
  started : Nat := 0
  completed : Nat := 0
  dying : Bool := false
  deriving DecidableEq, Repr

/-- A work item (R500, R517): its queue and count, the entry's words, and how it goes. -/
structure Item where
  queue : Nat := 0
  idx : Nat := 0
  list : Nat := 0
  event : Bool := false
  addEn : Bool := false
  doneAddr : Nat := 0
  status : Nat := 0
  cause : Nat := 0
  sub : Nat := 0
  fx : Nat := 0
  /-- A stopping fault has ended it; its ranks are being stopped (R518). -/
  failed : Bool := false
  /-- A cluster of its range has been reset (R518). -/
  lost : Bool := false
  /-- A pause has been asked for (R520), and no other will be (R521). -/
  pausing : Bool := false
  noPause : Bool := false
  /-- Pre-empted: the saved SEQ_PC of each rank that was paused (R520). -/
  saved : Option (List (Nat × Nat)) := none
  /-- Sequences whose step it carries (R524). -/
  seqs : List Nat := []
  deriving DecidableEq, Repr

/-- A context (R508): flask, function that made it, priority, the range it brought, its rotation set's first member and
its index there, its current range index, its item and the order in which it began to wait. -/
structure CtxSt where
  on : Bool := false
  flask : Nat := 0
  fn : Nat := 0
  prio : Nat := 0
  first : Nat := 0
  count : Nat := 1
  rot : Option Nat := none
  rotIdx : Nat := 0
  range : Nat := 0
  item : Option Item := none
  nextSlot : Nat := 0
  waitFrom : Nat := 0
  /-- An item has completed since the last rotation (R526). -/
  moved : Bool := false
  /-- CTX_DESTROY is in progress (R513). -/
  dying : Bool := false
  deriving DecidableEq, Repr

/-- What firmware keeps of a flask beside what it owns: the last FLASK_REG words (R527). -/
structure FlaskSt where
  regs : List Nat := []
  deriving DecidableEq, Repr

/-! ## Events, errors and the log -/

/-- A gatherer's pending and active sources (R530, R535). -/
structure Gath where
  pend : List Nat := []
  act : List Nat := []
  deriving DecidableEq, Repr

/-- An error report on its way to a record (R572, R577). `ts` is the detection time. -/
structure Report where
  kind : Nat := 0
  cls : Nat := 0
  id : Nat := 0
  addr : Nat := 0
  syn : Nat := 0
  flask : Nat := 31
  count : Nat := 1
  detail : List Nat := []
  ts : Nat := 0
  tsSrc : Nat := 12
  queued : Bool := false
  deriving DecidableEq, Repr

/-- An assayer (R577-R583): the report under assay, whether it already counts as lasting, the second errors of its unit that
take their records with the verdict (R580), and the waiting reports. -/
structure Assayer where
  run : Option Report := none
  second : Bool := false
  seconds : List Report := []
  queue : List Report := []
  deriving DecidableEq, Repr

/-- A record on its way to the log appender (R473): an error record's words (with its CONT records) or a log record. -/
structure LogItem where
  err : Bool := false
  words : List (List Nat) := []
  deriving DecidableEq, Repr

/-! ## Clusters and stacks -/

/-- A cluster: its good sites' roles (R551, R585), the CCC's health, the causes that hold it in reset (R374: 1 written,
2 region PLL, 4 its stack, 8 held after a second hang), and the flask that owns it (R503). -/
structure ClusterSt where
  /-- Sites in rank order (R509). -/
  ranks : List Nat := []
  spare : Option Nat := none
  reserve : List Nat := []
  /-- The spare has taken a failed core's rank since the last reconfiguration (R585, R507). -/
  spareUsed : Bool := false
  /-- Sites whose rank another site runs, each with that site (R585, R296). -/
  moved : List (Nat × Nat) := []
  /-- Sites whose core is disabled, a 12-bit map (R3). -/
  off : Nat := 0
  cccOff : Bool := false
  causes : Nat := 0
  /-- Cores held in a written reset, a 12-bit map (R378). -/
  coreRst : Nat := 0
  flask : Option Nat := none
  /-- Shared SRAM and scratch have been zeroed since the last reset (R206). -/
  zeroed : Bool := false
  deriving DecidableEq, Repr

/-- A stack: the causes that hold its fabric-plane domain in reset (1 written, 2 fabric PLL, 4 memory PLL, 8 thermal,
16 IOD, 32 module; R371, R378), and whether it is out of service (R549). -/
structure StackSt where
  causes : Nat := 0
  out : Bool := false
  /-- The domain has been in reset and has not come back (R373). -/
  down : Bool := false
  /-- Released by THERM_ACK_TRIP: its DRAM is initialised before it returns (R568). -/
  reinit : Bool := false
  /-- Core clocks of the two regions in MHz (R366). -/
  clk0 : Nat := 1100
  clk1 : Nat := 1100
  /-- Route entries applied and waiting for acknowledgements: destination, 12 the I/O die, and code (R356). -/
  routes : List (Nat × Nat) := []
  deriving DecidableEq, Repr

/-- An ADD that a unit sends to another module, waiting for Brodit to carry it (R36, R170): what sent it, its flask, the
global address and the amount. -/
structure HwAdd where
  src : Issuer
  flask : Nat
  addr : Nat
  value : Nat
  deriving DecidableEq, Repr

/-- A ladle channel that an engine runs (R404, R409): its channel, the descriptor's address and words, its flask, and
whether the descriptor is in progress. -/
structure LadleRun where
  ch : Nat := 0
  flask : Nat := 0
  addr : Nat := 0
  words : List Nat := []
  busy : Bool := false
  deriving DecidableEq, Repr

/-- A ladle engine: its start queue, the channel it runs, and for each channel the function that submitted its chain and
the flask (R403, R409). -/
structure LadleSt where
  queue : List Nat := []
  run : Option LadleRun := none
  subm : List (Nat × Nat × Nat) := []
  deriving DecidableEq, Repr

/-! ## Ports and the fabric -/

/-- A sub-port beside its registers (R420-R425): the window its next qualification uses, the FP_QUAL values latched when
it began (R428), whether that qualification follows an assay, and whether entering FAILED writes a record (R421). -/
structure SubSt where
  full : Bool := true
  qual : List Nat := []
  post : Bool := false
  due : Bool := true
  deriving DecidableEq, Repr

/-- A port: a configuration accepted during an assay (R427), the setting of each lane's equaliser (R426), and the last LLDP
neighbour seen (R418). -/
structure PortSt where
  next : Option (List Byte) := none
  eq : List Int := []
  lldp : List Byte := []
  deriving DecidableEq, Repr

/-- A membership entry (R436). -/
structure Member where
  ep : Nat := 0
  vmax : Nat := 3
  v4 : Bool := false
  base : Nat := 0
  keyId : Nat := 0
  deriving DecidableEq, Repr

/-- A SEND receive ring (R459) and its next slot. -/
structure RxRing where
  base : Nat := 0
  slots : Nat := 0
  size : Nat := 0
  site : Nat := 0
  ct : Nat := 0
  next : Nat := 0
  deriving DecidableEq, Repr

/-- A flask's job (R435-R439, R443). `gone` lists removed peers whose connections drain. -/
structure JobSt where
  on : Bool := false
  job : Nat := 0
  jobMode : Bool := false
  encrypt : Bool := false
  policy : List Byte := []
  ringOff : Nat := 0
  ringEntries : Nat := 0
  rings : List RxRing := []
  epoch : Nat := 0
  table : List Member := []
  /-- Job key of each phase (R442, R621). -/
  keys : List (Nat × List Byte) := []
  phase : Nat := 0
  gone : List Nat := []
  leaving : Bool := false
  deriving DecidableEq, Repr

/-- An operation taken from a command ring, or an ADD of another unit (R453, R170). `left` counts what is still
outstanding: packets to be acknowledged and, for a GET, bytes to arrive. -/
structure FabOp where
  kind : Nat := 0
  /-- Cluster, ring and entry; none for an ADD of a unit. -/
  ring : Option (Nat × Nat × Nat) := none
  hw : Option HwAdd := none
  flask : Nat := 0
  ct : Option Nat := none
  status : Nat := 0
  left : Nat := 0
  deriving DecidableEq, Repr

/-- A DATA packet of a connection (R432, R455): `op` is the operation it belongs to, none for a GET response. -/
structure Pkt where
  psn : Nat := 0
  op : Option Nat := none
  code : Nat := 0
  addr : Nat := 0
  value : Nat := 0
  glen : Nat := 0
  status : Nat := 0
  aux : Nat := 0
  data : List Byte := []
  last : Bool := false
  radd : Bool := false
  cls : Nat := 0
  csn : Nat := 0
  path : Nat := 0
  resends : Nat := 0
  deriving DecidableEq, Repr

/-- A connection (R440-R452). `phase`: 1 INIT sent, 2 INIT_ACK sent, 3 open. -/
structure Conn where
  phase : Nat := 0
  stack : Nat := 0
  flask : Nat := 0
  ep : Nat := 0
  ver : Nat := 3
  peer : Nat := 0
  /-- The peer was removed: the drain window runs (R438). -/
  drain : Bool := false
  /-- INITs sent (R441). -/
  inits : Nat := 0
  /-- Sender: next psn, packets sent and not acknowledged, packets not yet sent, csn of each class. -/
  psn : Nat := 0
  out : List Pkt := []
  queue : List Pkt := []
  csn : List Nat := [0, 0, 0, 0, 0]
  /-- Receiver: cumulative acknowledgement, psn values performed above it, DATA packets since the last ACK, how many of
  them carried CE, statuses to report, remote ADDs held, failed operations by class and csn, and the csn and last psn of the
  last operation whose LASTPKT was performed in each class. -/
  ack : Nat := 0
  got : List Nat := []
  since : Nat := 0
  ece : Nat := 0
  stats : List (Nat × Nat) := []
  radds : List (Nat × Nat × Nat × Nat × Nat) := []
  bad : List (Nat × Nat) := []
  lasts : List (Nat × Nat × Nat) := []
  /-- GET ranges still to arrive: local address, bytes, operation; and the highest psn acknowledged on each path. -/
  gets : List (Nat × Nat × Nat) := []
  seen : List (Nat × Nat) := []
  /-- Path indices of the peer (R441, R451) and the next path dealt. -/
  paths : List Nat := []
  deal : Nat := 0
  /-- Keys (R443): the phase sent, packets sent under the key, the phase received, and whether the old one is held. -/
  txPhase : Nat := 0
  txCount : Nat := 0
  rxPhase : Nat := 0
  rxOld : Bool := false
  /-- Congestion control (R452), rates in 100 MB/s; `free` says that t_dec lies 50 us back. -/
  r : Rat := 0
  t : Rat := 0
  alpha : Rat := 1
  n : Nat := 0
  free : Bool := true
  deriving DecidableEq, Repr

/-- A frame that a stack's Brodit engine has accepted and not yet acted on: its connection, none for an INIT, the flask,
the peer and the sub-port's path index. -/
structure RxItem where
  conn : Option Nat := none
  flask : Nat := 0
  ep : Nat := 0
  path : Nat := 0
  fr : Frame := {}
  deriving DecidableEq, Repr

/-- A stack's Brodit engine: accepted frames in order of arrival, the restart count kept in flash (R443), packets counted
under it, the next connection served (R452), and peers for which a FAB_AUTH record has been written (R445). -/
structure FabSt where
  rx : List RxItem := []
  restarts : Nat := 0
  packets : Nat := 0
  turn : Nat := 0
  auth : List Nat := []
  deriving DecidableEq, Repr


/-! ## Firmware, security and temperature -/

/-- An image bank (R466, R470): the bytes FW_UPDATE has written, none for the set delivered at manufacture. -/
structure ImgBank where
  valid : Bool := true
  trial : Bool := false
  trialCount : Nat := 0
  bytes : List Byte := []
  deriving DecidableEq, Repr

/-- Firmware and its flash (R463-R478): the banks, the boot record, warm re-entries that have not completed in
succession (R567), the trace bitmap, cores restarting and cores that have restarted, TRACE records of the running
millisecond by core, and erase counts of flash blocks with the blocks retired. -/
structure FwSt where
  bankA : ImgBank := {}
  bankB : ImgBank := {}
  running : Nat := 0
  preferred : Nat := 0
  fallback : Bool := false
  warmFails : Nat := 0
  trace : Nat := 0
  restarting : List Nat := []
  restarted : List Nat := []
  traced : List (Nat × Nat) := []
  erases : List (Nat × Nat) := []
  badBlocks : List Nat := []
  deriving DecidableEq, Repr

/-- What the SEC keeps (R609-R622): the counters' flash records and burnt checkpoint bits, the fused floor, the stored
licences, whether debug is open, reports signed since the last IOD reset. -/
structure SecSt where
  boot : Nat := 0
  lic : Nat := 0
  bootBurnt : Nat := 0
  licBurnt : Nat := 0
  floor : Nat := 0
  licences : List (List Byte) := []
  debug : Bool := false
  /-- Scope of the debug token in force (R622). -/
  scope : Nat := 0
  signed : Nat := 0
  deriving DecidableEq, Repr

/-- A shutdown record in flash (R595): its words and whether it has been acknowledged. -/
structure Shut where
  seq : Nat := 0
  unit : Nat := 0
  words : List Nat := []
  acked : Bool := false
  deriving DecidableEq, Repr

/-- What the PMC keeps of a stack, or of the I/O die (R588-R605): suspect diode and its good results in a row, the
logic temperature and the DRAM estimate in mK over 0 degC, the band (0 RAISE, 1 HOLD, 2 LOWER, 3 LIMIT), the clock that
the band and the power loop allow in MHz, quiet 100 us intervals, and whether warming pours run. -/
structure ThSt where
  suspect : Bool := false
  good : Nat := 0
  logic : Int := 0
  dram : Int := 0
  band : Nat := 0
  bandMhz : Nat := 1100
  powerMhz : Nat := 1100
  quiet : Nat := 0
  warming : Bool := false
  /-- A trip whose shutdown record has not been written, and words 1-5 of that record (R595). -/
  due : Bool := false
  words : List Nat := []
  /-- The stack waits for THERM_ACK_TRIP (R568). -/
  held : Bool := false
  /-- Settings stored in flash: cold-boot number plus one, and the temperature (R564). -/
  setBoot : Nat := 0
  setTemp : Int := 0
  deriving DecidableEq, Repr

/-- What the PMC keeps of the tray and the module (R598-R604): the last good figures, failed reads in a row, the tray lost,
the alarm, the setpoint in 0.01 L/min, input power in W. -/
structure ThermSt where
  tray : Option Tray := none
  fails : Nat := 0
  lost : Bool := false
  alarm : Bool := false
  setpoint : Nat := 0
  input : Nat := 0
  /-- Shutdown records written since manufacture. -/
  records : Nat := 0
  /-- Cause of an I/O-die trip latched until the next bring-up (R597). -/
  iodCause : Nat := 0
  deriving DecidableEq, Repr

/-! ## The state -/

/-- A message the module sends out: an MSI-X write, a frame, a completion (R538, R418, R390). -/
inductive Msg where
  | msix (fn vector : Nat)
  /-- A Brodit frame from a path index to a peer's path index (R431). -/
  | frame (path peer : Nat) (f : Frame)
  /-- An LLDP frame (R418), a gratuitous ARP and a neighbour advertisement (R430) from a path index. -/
  | lldp (path : Nat)
  | arp (path addr : Nat)
  | advert (path addr : Nat)
  /-- The completion of a line read through a memory window, and whether it is marked poisoned (R390). -/
  | completion (fn off : Nat) (data : List Byte) (poisoned : Bool)
  /-- A write to a register of the tray (R598). -/
  | tray (reg value : Nat)
  deriving DecidableEq, Repr

/-- What is fixed at manufacture (R1, R2, R7, R549). -/
structure Fuses where
  grade : Nat := 1056
  variantK : Bool := false
  serial : Nat := 0
  macBase : Nat := 0
  /-- Units the fuse map marks bad. -/
  bad : List UnitId := []
  deriving DecidableEq, Repr

/-- Everything of which the module has one. -/
structure Misc where
  /-- Endpoint ID; none while unset (R559). -/
  endpoint : Option Nat := none
  /-- Licence features in force, a bit mask (R499). -/
  licence : Nat := 0
  belowGrade : Bool := false
  /-- Boot: 0 off, 1-7 cold phases, 0x11-0x17 warm steps, 0x20 in service, 0x30 recovery (R545, R563, R570). -/
  phase : Nat := 1
  /-- Address of the log ring's header, and its capacity (R471). -/
  logBase : Nat := 0
  logCap : Nat := 65536
  /-- First address of the save pool (R510, R555). -/
  poolBase : Nat := 0
  /-- Bytes each far unit maps, in unit order: none before the far tier is mapped, 0 for an absent unit (R394-R396). -/
  farCaps : List Nat := []
  /-- Far units whose link is down, an 8-bit map (R398). -/
  farDown : Nat := 0
  /-- The virtual functions are enabled (R385). -/
  vfOn : Bool := false
  /-- The host link is up (R393). -/
  linkUp : Bool := false
  /-- The flash slot that holds the configuration block in use (R556). -/
  cfgSlot : Nat := 0
  /-- CFG_DEFAULTED (R556). -/
  cfgDefaulted : Bool := false
  /-- Operations taken from command rings since reset. -/
  opNext : Nat := 0
  /-- Error reports lost under R581 and R583. -/
  errLost : Nat := 0
  /-- Error records dropped before the error ring (R576). -/
  errDropped : Nat := 0
  /-- Width and rate in GT/s the host link has trained to (R384). -/
  linkWidth : Nat := 16
  linkRate : Nat := 0
  /-- VIN is in range and every module rail is up: PWRGD (R637). -/
  powerGood : Bool := true
  /-- The last power loss was an overvoltage: VIN must fall to 56.5 V (R636). -/
  overVolt : Bool := false
  /-- THERM_ALARM_N is driven low (R633). -/
  alarmPin : Bool := false
  /-- The I/O-die logic is held off after its own trip until the reset input is released (R597). -/
  iodOff : Bool := false
  /-- The tray holds the I3C controller role (R634). -/
  trayRole : Bool := false
  /-- Sites whose scratch warming pours have used (R601). -/
  warmed : List Nat := []
  deriving DecidableEq, Repr

/-- The state of the module. -/
structure State where
  /-- Commands waiting, first in first out. -/
  pending : List Instr := []
  /-- The model's own: free values taken so far (log entry 5). -/
  tick : Nat := 0
  /-- The model's own: what the last read command returned. -/
  rsp : List Byte := []
  /-- The model's own: messages sent out, oldest first. -/
  out : List Msg := []
  fuse : Fuses := {}
  misc : Misc := {}
  regs : Store Nat := []
  shad : Store Nat := []
  mem : Store Byte := []
  marks : Store Mark := []
  /-- Words to be written back corrected, a mask per line (R221). -/
  wb : Store Nat := []
  cache : Store (List CLine) := []
  /-- Open DRAM row of each bank, plus one; 0 none (R191). -/
  openRow : Store Nat := []
  slice : Store SliceSt := []
  owner : Store (Option Nat) := []
  cluster : Store ClusterSt := []
  stack : Store StackSt := []
  /-- Committed members of each flask's job: flask and endpoint (R437). -/
  members : List (Nat × Nat) := []
  hwAdds : List HwAdd := []
  port : Store PortSt := []
  sub : Store SubSt := []
  job : Store JobSt := []
  conn : Store Conn := []
  fabOp : Store FabOp := []
  /-- Next entry of each command ring, keyed cluster * 13 + ring (R453). -/
  cring : Store Nat := []
  fab : Store FabSt := []
  /-- The configuration block in use, empty for the factory defaults, and the copies in the two flash slots (R556). -/
  cfg : List Byte := []
  cfgSlots : List (List Byte) := [[], []]
  ladle : Store LadleSt := []
  /-- Tokens of each regulator's bucket in bytes (R399, R528): keyed 2 * flask + (0 far, 1 host), and from 32 on
  2 * (16 * stack + flask) + (0 die-to-die, 1 fabric). -/
  bucket : Store Int := []
  core : Store CoreSt := []
  queue : Store QueueSt := []
  acc : Store AccEnt := []
  ag : Store AgSt := []
  bank : Store BankSt := []
  path : Store PathSt := []
  page : Store PageDesc := []
  pte : Store Pte := []
  seq : Store SeqSt := []
  slag : Store Slag := []
  slot : Store Slot := []
  kv : Store KvCfg := []
  /-- Mailbox pages, keyed function * 4096 + offset (R480). -/
  mbox : Store Byte := []
  fn : Store FnSt := []
  wq : Store WqSt := []
  ctx : Store CtxSt := []
  /-- Saved rank images, keyed context * 1056 + rank (R510). -/
  image : Store (List Nat) := []
  flaskSt : Store FlaskSt := []
  /-- Host memory as each function reaches it, keyed function * 2^64 + bus address. -/
  hmem : Store Byte := []
  account : Store Account := []
  attend : Store (List Attend) := []
  gath : Store Gath := []
  note : Store Nat := []
  assayer : Store Assayer := []
  lasting : List UnitId := []
  fifo : List LogItem := []
  dropped : Nat := 0
  /-- The retirement record in flash: frame keys in order (R237). -/
  retirements : List Nat := []
  /-- The exclusion record in flash (R549). -/
  excl : List UnitId := []
  /-- Units this bring-up excludes (R549). -/
  excluded : List UnitId := []
  fw : FwSt := {}
  sec : SecSt := {}
  therm : ThermSt := {}
  th : Store ThSt := []
  shut : List Shut := []
  /-- MSI-X messages held while the host link is down, oldest first: function and vector (R393). -/
  held : List (Nat × Nat) := []
  flashLog : List (List Nat) := []
  deriving DecidableEq, Repr

/-- Right after a module reset at power-on. -/
def State.reset : State := {}

end Sys2Proof.Machine
end

