-- ==== Sys2Proof/Machine/Eff.lean ====
section
/-! DEFINITION. The language meanings are written in: an effect is a sequence of primitive updates of single pieces of
State, chosen by reading the state. `applyUpd` is the only code that builds a changed State, so what every command
keeps is proved once for each primitive update. -/
namespace Sys2Proof.Machine

/-- Key of a register field: the instance, then the field. -/
def regKey (r : Fld) (i : Nat) : Nat := i * 512 + r.ctorIdx

/-- Default route entry of a stack for another (R350): 0 NONE, 1 CW, 2 CCW, 3 IOD. -/
def defaultRoute (st dst : Nat) : Nat :=
  let d := (dst + 12 - st) % 12
  if d = 0 then 0 else if d ≤ 2 then 1 else if 10 ≤ d then 2 else 3

/-- The route entries of a stack after a fabric-plane reset (R350, R360). -/
def defaultRoutes (st : Nat) : Nat := ((List.range 12).map (fun t => defaultRoute st t * 4 ^ t)).foldl (· + ·) 0

/-- Reset value of a register field of an instance: the table's, and the default routes of NOC_ROUTE (R350). -/
def regDflt (r : Fld) (i : Nat) : Nat :=
  match r with
  | .NOC_ROUTE_stack => defaultRoutes i
  | .NOC_ROUTE_NEXT_stack => defaultRoutes i
  | _ => r.info.reset

/-- Live value of a register field. -/
def State.reg (s : State) (r : Fld) (i : Nat) : Nat := Store.get (regDflt r i) s.regs (regKey r i)

/-- A one-bit register field as a Bool. -/
def State.flag (s : State) (r : Fld) (i : Nat) : Bool := s.reg r i != 0

/-- Shadow copy of a register field, if one is pending (R22). -/
def State.shadow (s : State) (r : Fld) (i : Nat) : Option Nat :=
  (Store.get none (s.shad.map (fun p => (p.1, some p.2))) (regKey r i))

/-- One primitive update of one piece of State. -/
inductive Upd where
  | tick
  | rsp (d : List Byte)
  | emit (m : Msg)
  | misc (m : Misc)
  | reg (r : Fld) (i v : Nat)
  | shad (r : Fld) (i v : Nat)
  | unshad (r : Fld) (i : Nat)
  | clearRegs (p : Nat → Bool)
  | bytes (a : Nat) (d : List Byte)
  | zero (a len : Nat)
  | mark (w : Nat) (m : Mark)
  | clearMarks (a len : Nat)
  | wb (line mask : Nat)
  | clearWb (a len : Nat)
  | cache (k : Nat) (l : List CLine)
  | clearCache (p : Nat → Bool)
  | openRow (n v : Nat)
  | slice (n : Nat) (v : SliceSt)
  | owner (r : Nat) (f : Option Nat)
  | cluster (n : Nat) (v : ClusterSt)
  | stack (n : Nat) (v : StackSt)
  | members (l : List (Nat × Nat))
  | hwAdds (l : List HwAdd)
  | core (n : Nat) (v : CoreSt)
  | queue (n : Nat) (v : QueueSt)
  | acc (n : Nat) (v : AccEnt)
  | clearAcc (p : Nat → Bool)
  | ag (n : Nat) (v : AgSt)
  | bank (n : Nat) (v : BankSt)
  | path (n : Nat) (v : PathSt)
  | page (n : Nat) (v : PageDesc)
  | pte (n : Nat) (v : Pte)
  | seq (n : Nat) (v : SeqSt)
  | slag (n : Nat) (v : Slag)
  | slot (n : Nat) (v : Slot)
  | kv (n : Nat) (v : KvCfg)
  | account (n : Nat) (v : Account)
  | attend (n : Nat) (v : List Attend)
  | gath (n : Nat) (v : Gath)
  | note (n v : Nat)
  | clearNotes (p : Nat → Bool)
  | assayer (n : Nat) (v : Assayer)
  | lasting (u : UnitId)
  | fifo (l : List LogItem)
  | dropped (n : Nat)
  | fn (n : Nat) (v : FnSt)
  | wq (n : Nat) (v : WqSt)
  | ctx (n : Nat) (v : CtxSt)
  | image (n : Nat) (v : List Nat)
  | flaskSt (n : Nat) (v : FlaskSt)
  | mbox (a : Nat) (d : List Byte)
  | hbytes (a : Nat) (d : List Byte)
  | clearMbox (p : Nat → Bool)
  | clearImages (p : Nat → Bool)
  | ladle (n : Nat) (v : LadleSt)
  | bucket (n : Nat) (v : Int)
  | port (n : Nat) (v : PortSt)
  | sub (n : Nat) (v : SubSt)
  | job (n : Nat) (v : JobSt)
  | conn (n : Nat) (v : Conn)
  | fabOp (n : Nat) (v : FabOp)
  | fab (n : Nat) (v : FabSt)
  | cring (n : Nat) (v : Nat)
  | cfg (v : List Byte)
  | cfgSlots (v : List (List Byte))
  | retirements (v : List Nat)
  | excl (v : List UnitId)
  | excluded (v : List UnitId)
  | fw (v : FwSt)
  | sec (v : SecSt)
  | therm (v : ThermSt)
  | th (n : Nat) (v : ThSt)
  | shut (v : List Shut)
  | held (v : List (Nat × Nat))
  | flashLog (l : List (List Nat))
  | wipe (phase : Nat)

/-- The bytes of a block, each in its place. -/
def putBytes (m : Store Byte) (a : Nat) : List Byte → Store Byte
  | [] => m
  | b :: bs => putBytes (Store.set 0 a b m) (a + 1) bs

/-- The module after a module reset (R371): what DRAM, flash, fuses and the always-on region hold stays, with the host's own
memory; everything else is as at reset. -/
def wiped (s : State) (phase : Nat) : State := {
  pending := s.pending, tick := s.tick, rsp := s.rsp, out := s.out, fuse := s.fuse, hmem := s.hmem
  mem := s.mem, marks := s.marks, regs := Store.clear (fun k => (Fld.ofNat (k % 512)).info.dom != .dram) s.regs
  cfgSlots := s.cfgSlots, retirements := s.retirements, excl := s.excl
  fw := { s.fw with warmFails := 0, trace := 0, restarting := [], restarted := [], traced := [] }
  sec := { s.sec with debug := false, scope := 0, signed := 0 }
  therm := { records := s.therm.records, iodCause := s.therm.iodCause }
  shut := s.shut, flashLog := s.flashLog
  misc := { phase := phase, cfgSlot := s.misc.cfgSlot, powerGood := s.misc.powerGood, alarmPin := s.misc.alarmPin
            iodOff := s.misc.iodOff, overVolt := s.misc.overVolt } }

/-- What a primitive update does. A register field keeps the width its table gives it. -/
def applyUpd (u : Upd) (s : State) : State :=
  match u with
  | .tick => { s with tick := s.tick + 1 }
  | .rsp d => { s with rsp := d }
  | .emit m => { s with out := s.out ++ [m] }
  | .misc m => { s with misc := m }
  | .reg r i v => { s with regs := Store.set (regDflt r i) (regKey r i) (v % 2 ^ r.info.width) s.regs }
  | .shad r i v => { s with shad := Store.put (regKey r i) (v % 2 ^ r.info.width) s.shad }
  | .unshad r i => { s with shad := Store.del (regKey r i) s.shad }
  | .clearRegs p => { s with regs := Store.clear p s.regs, shad := Store.clear p s.shad }
  | .bytes a d => { s with mem := putBytes s.mem a d }
  | .zero a len => { s with mem := Store.clear (fun k => decide (a ≤ k) && decide (k < a + len)) s.mem }
  | .mark w m => { s with marks := Store.set {} w m s.marks }
  | .clearMarks a len => { s with marks := Store.clear (fun k => decide (a ≤ k) && decide (k < a + len)) s.marks }
  | .clearWb a len => { s with wb := Store.clear (fun k => decide (a ≤ k) && decide (k < a + len)) s.wb }
  | .wb line mask => { s with wb := Store.set 0 line mask s.wb }
  | .cache k l => { s with cache := Store.set [] k l s.cache }
  | .clearCache p => { s with cache := Store.clear p s.cache }
  | .openRow n v => { s with openRow := Store.set 0 n v s.openRow }
  | .slice n v => { s with slice := Store.set {} n v s.slice }
  | .owner r f => { s with owner := Store.set none r f s.owner }
  | .cluster n v => { s with cluster := Store.set {} n v s.cluster }
  | .stack n v => { s with stack := Store.set {} n v s.stack }
  | .members l => { s with members := l }
  | .hwAdds l => { s with hwAdds := l }
  | .core n v => { s with core := Store.set {} n v s.core }
  | .queue n v => { s with queue := Store.set {} n v s.queue }
  | .acc n v => { s with acc := Store.set {} n v s.acc }
  | .clearAcc p => { s with acc := Store.clear p s.acc }
  | .ag n v => { s with ag := Store.set {} n v s.ag }
  | .bank n v => { s with bank := Store.set {} n v s.bank }
  | .path n v => { s with path := Store.set {} n v s.path }
  | .page n v => { s with page := Store.set {} n v s.page }
  | .pte n v => { s with pte := Store.set {} n v s.pte }
  | .seq n v => { s with seq := Store.set {} n v s.seq }
  | .slag n v => { s with slag := Store.set {} n v s.slag }
  | .slot n v => { s with slot := Store.set {} n v s.slot }
  | .kv n v => { s with kv := Store.set {} n v s.kv }
  | .account n v => { s with account := Store.set {} n v s.account }
  | .attend n v => { s with attend := Store.set [] n v s.attend }
  | .gath n v => { s with gath := Store.set {} n v s.gath }
  | .note n v => { s with note := Store.set 0 n v s.note }
  | .clearNotes p => { s with note := Store.clear p s.note }
  | .assayer n v => { s with assayer := Store.set {} n v s.assayer }
  | .lasting u => { s with lasting := if u ∈ s.lasting then s.lasting else s.lasting ++ [u] }
  | .fifo l => { s with fifo := l }
  | .dropped n => { s with dropped := n }
  | .fn n v => { s with fn := Store.set {} n v s.fn }
  | .wq n v => { s with wq := Store.set {} n v s.wq }
  | .ctx n v => { s with ctx := Store.set {} n v s.ctx }
  | .image n v => { s with image := Store.set [] n v s.image }
  | .flaskSt n v => { s with flaskSt := Store.set {} n v s.flaskSt }
  | .mbox a d => { s with mbox := putBytes s.mbox a d }
  | .hbytes a d => { s with hmem := putBytes s.hmem a d }
  | .clearMbox p => { s with mbox := Store.clear p s.mbox }
  | .clearImages p => { s with image := Store.clear p s.image }
  | .ladle n v => { s with ladle := Store.set {} n v s.ladle }
  | .bucket n v => { s with bucket := Store.set 0 n v s.bucket }
  | .port n v => { s with port := Store.set {} n v s.port }
  | .sub n v => { s with sub := Store.set {} n v s.sub }
  | .job n v => { s with job := Store.set {} n v s.job }
  | .conn n v => { s with conn := Store.set {} n v s.conn }
  | .fabOp n v => { s with fabOp := Store.set {} n v s.fabOp }
  | .fab n v => { s with fab := Store.set {} n v s.fab }
  | .cring n v => { s with cring := Store.set 0 n v s.cring }
  | .cfg v => { s with cfg := v }
  | .cfgSlots v => { s with cfgSlots := v }
  | .retirements v => { s with retirements := v }
  | .excl v => { s with excl := v }
  | .excluded v => { s with excluded := v }
  | .fw v => { s with fw := v }
  | .sec v => { s with sec := v }
  | .therm v => { s with therm := v }
  | .th n v => { s with th := Store.set {} n v s.th }
  | .shut v => { s with shut := v }
  | .held v => { s with held := v }
  | .flashLog l => { s with flashLog := l }
  | .wipe ph => wiped s ph

/-- An effect: nothing, a primitive update, two effects in order, or an effect chosen by the state. -/
inductive Eff where
  | skip
  | upd (u : Upd)
  | seq (a b : Eff)
  | get (f : State → Eff)

/-- Run an effect. -/
def run : Eff → State → State
  | .skip, s => s
  | .upd u, s => applyUpd u s
  | .seq a b, s => run b (run a s)
  | .get f, s => run (f s) s

/-- Effects in order. -/
def Eff.all : List Eff → Eff
  | [] => .skip
  | e :: es => .seq e (Eff.all es)

/-- An effect when a condition holds. -/
def Eff.when (b : Bool) (e : Eff) : Eff := if b then e else .skip

/-- An effect for each item of a list, in order. -/
def Eff.each {α : Type} (l : List α) (f : α → Eff) : Eff := Eff.all (l.map f)

/-- What an optional value asks for; nothing when there is none. -/
def Eff.opt {α : Type} (o : Option α) (f : α → Eff) : Eff :=
  match o with
  | none => .skip
  | some a => f a

/-- A free value, each one asked for only once (log entry 5). -/
def fresh (k : Nat → Eff) : Eff := .get fun s => .seq (.upd .tick) (k (Config.free s.tick))

/-- Set a register field. -/
def setReg (r : Fld) (i v : Nat) : Eff := .upd (.reg r i v)

/-- Add to a register field, wrapping at its width. -/
def addReg (r : Fld) (i k : Nat) : Eff := .get fun s => .upd (.reg r i (s.reg r i + k))

/-- Add to a register field that saturates at its width. -/
def satReg (r : Fld) (i k : Nat) : Eff :=
  .get fun s => .upd (.reg r i (min (s.reg r i + k) (2 ^ r.info.width - 1)))

/-! Reading and changing the units. -/

def State.coreAt (s : State) (n : Nat) : CoreSt := Store.get {} s.core n
def State.clusterAt (s : State) (c : Nat) : ClusterSt := Store.get {} s.cluster c
def State.stackAt (s : State) (n : Nat) : StackSt := Store.get {} s.stack n
def State.queueAt (s : State) (n q : Nat) : QueueSt := Store.get {} s.queue (n * 16 + q)
def State.accAt (s : State) (n e : Nat) : AccEnt := Store.get {} s.acc (n * 2048 + e % 2048)
def State.agAt (s : State) (n g : Nat) : AgSt := Store.get {} s.ag (n * 8 + g)
def State.sliceAt (s : State) (n : Nat) : SliceSt := Store.get {} s.slice n
def State.bankAt (s : State) (sl b : Nat) : BankSt := Store.get {} s.bank (sl * 128 + b)
def State.pathAt (s : State) (p : Nat) : PathSt := Store.get {} s.path p
def State.seqAt (s : State) (q : Nat) : SeqSt := Store.get {} s.seq q
def State.kvAt (s : State) (f : Nat) : KvCfg := Store.get {} s.kv f
def State.pageAt (s : State) (k : Nat) : PageDesc := Store.get {} s.page k
def State.gathAt (s : State) (g : Nat) : Gath := Store.get {} s.gath g
def State.assayerAt (s : State) (a : Nat) : Assayer := Store.get {} s.assayer a
def State.fnAt (s : State) (f : Nat) : FnSt := Store.get {} s.fn f
def State.wqAt (s : State) (k : Nat) : WqSt := Store.get {} s.wq k
def State.ctxAt (s : State) (x : Nat) : CtxSt := Store.get {} s.ctx x
def State.slotAt (s : State) (fl i : Nat) : Slot := Store.get {} s.slot (fl * 2 ^ 30 + i)
def State.pteAt (s : State) (q st p : Nat) : Pte := Store.get {} s.pte ((q * 65536 + st) * 65536 + p)
def State.ladleAt (s : State) (e : Nat) : LadleSt := Store.get {} s.ladle e
def State.ownerAt (s : State) (r : Nat) : Option Nat := Store.get none s.owner r
def State.accountAt (s : State) (f : Nat) : Account := Store.get {} s.account f

def State.portAt (s : State) (g : Nat) : PortSt := Store.get {} s.port g
def State.subAt (s : State) (i : Nat) : SubSt := Store.get {} s.sub i
def State.jobAt (s : State) (f : Nat) : JobSt := Store.get {} s.job f
def State.connAt (s : State) (i : Nat) : Conn := Store.get {} s.conn i
def State.opAt (s : State) (i : Nat) : FabOp := Store.get {} s.fabOp i
def State.fabAt (s : State) (n : Nat) : FabSt := Store.get {} s.fab n

def setCore (n : Nat) (f : CoreSt → CoreSt) : Eff := .get fun s => .upd (.core n (f (s.coreAt n)))
def setCluster (c : Nat) (f : ClusterSt → ClusterSt) : Eff := .get fun s => .upd (.cluster c (f (s.clusterAt c)))
def setStack (n : Nat) (f : StackSt → StackSt) : Eff := .get fun s => .upd (.stack n (f (s.stackAt n)))
def setQueue (n q : Nat) (f : QueueSt → QueueSt) : Eff := .get fun s => .upd (.queue (n * 16 + q) (f (s.queueAt n q)))
def setAcc (n e : Nat) (v : AccEnt) : Eff := .upd (.acc (n * 2048 + e % 2048) v)
def setAg (n g : Nat) (f : AgSt → AgSt) : Eff := .get fun s => .upd (.ag (n * 8 + g) (f (s.agAt n g)))
def setSlice (n : Nat) (f : SliceSt → SliceSt) : Eff := .get fun s => .upd (.slice n (f (s.sliceAt n)))
def setBank (sl b : Nat) (f : BankSt → BankSt) : Eff := .get fun s => .upd (.bank (sl * 128 + b) (f (s.bankAt sl b)))
def setPath (p : Nat) (f : PathSt → PathSt) : Eff := .get fun s => .upd (.path p (f (s.pathAt p)))
def setSeq (q : Nat) (f : SeqSt → SeqSt) : Eff := .get fun s => .upd (.seq q (f (s.seqAt q)))
def setPage (k : Nat) (f : PageDesc → PageDesc) : Eff := .get fun s => .upd (.page k (f (s.pageAt k)))
def setGath (g : Nat) (f : Gath → Gath) : Eff := .get fun s => .upd (.gath g (f (s.gathAt g)))
def setAccount (fl : Nat) (f : Account → Account) : Eff := .get fun s => .upd (.account fl (f (s.accountAt fl)))
def setFn (f : Nat) (g : FnSt → FnSt) : Eff := .get fun s => .upd (.fn f (g (s.fnAt f)))
def setWq (k : Nat) (g : WqSt → WqSt) : Eff := .get fun s => .upd (.wq k (g (s.wqAt k)))
def setCtx (x : Nat) (g : CtxSt → CtxSt) : Eff := .get fun s => .upd (.ctx x (g (s.ctxAt x)))
def setLadle (e : Nat) (g : LadleSt → LadleSt) : Eff := .get fun s => .upd (.ladle e (g (s.ladleAt e)))
def setPort (g : Nat) (f : PortSt → PortSt) : Eff := .get fun s => .upd (.port g (f (s.portAt g)))
def setSub (i : Nat) (f : SubSt → SubSt) : Eff := .get fun s => .upd (.sub i (f (s.subAt i)))
def setJob (fl : Nat) (f : JobSt → JobSt) : Eff := .get fun s => .upd (.job fl (f (s.jobAt fl)))
def setConn (i : Nat) (f : Conn → Conn) : Eff := .get fun s => .upd (.conn i (f (s.connAt i)))
def setOp (i : Nat) (f : FabOp → FabOp) : Eff := .get fun s => .upd (.fabOp i (f (s.opAt i)))
def setFab (n : Nat) (f : FabSt → FabSt) : Eff := .get fun s => .upd (.fab n (f (s.fabAt n)))
def State.thAt (s : State) (n : Nat) : ThSt := Store.get {} s.th n
def setTh (n : Nat) (f : ThSt → ThSt) : Eff := .get fun s => .upd (.th n (f (s.thAt n)))
def setFw (f : FwSt → FwSt) : Eff := .get fun s => .upd (.fw (f s.fw))
def setSec (f : SecSt → SecSt) : Eff := .get fun s => .upd (.sec (f s.sec))
def setTherm (f : ThermSt → ThermSt) : Eff := .get fun s => .upd (.therm (f s.therm))
def State.flaskStAt (s : State) (f : Nat) : FlaskSt := Store.get {} s.flaskSt f
def setMisc (f : Misc → Misc) : Eff := .get fun s => .upd (.misc (f s.misc))

/-- A raw byte of memory, whatever its codeword says. -/
def State.byteAt (s : State) (a : Nat) : Byte := Store.get 0 s.mem a

/-- Raw bytes of memory. -/
def State.rawBytes (s : State) (a : Nat) (len : Nat) : List Byte := (List.range len).map (fun k => s.byteAt (a + k))

/-- Bytes of host memory as a function reaches them. -/
def State.hostBytes (s : State) (f a len : Nat) : List Byte :=
  (List.range len).map (fun k => Store.get 0 s.hmem (f * 2 ^ 64 + a + k))

/-- Bytes of a function's mailbox page. -/
def State.mboxBytes (s : State) (f off len : Nat) : List Byte :=
  (List.range len).map (fun k => Store.get 0 s.mbox (f * 4096 + off + k))

/-- Little-endian value of bytes (R19). -/
def leNat : List Byte → Nat
  | [] => 0
  | b :: bs => b.toNat + 256 * leNat bs

/-- Little-endian bytes of a value (R19). -/
def leBytes (v : Nat) : Nat → List Byte
  | 0 => []
  | k + 1 => BitVec.ofNat 8 v :: leBytes (v / 256) k

/-- A raw 64-bit word of memory. -/
def State.rawWord (s : State) (a : Nat) : Nat := leNat (s.rawBytes a 8)

end Sys2Proof.Machine
end

