-- ==== Sys2Proof/Machine/Formats.lean ====
section
/-! DEFINITION. The number formats of 02_number_formats.md: decoding of format codes, conversion with rounding and
saturation (R46-R66), exact arithmetic on values and its rounding to FP32 (R70-R75), and the vector unit's
transcendental operations with their special inputs (R180). Codes are Nats; a finite value is (-1)^neg * m * 2^e. -/
namespace Sys2Proof.Machine

/-- A value as the arithmetic rules see it: a NaN has no payload (R55); zero keeps its sign (R54). -/
inductive FV where
  | nan | inf (neg : Bool) | fin (neg : Bool) (m : Nat) (e : Int)
  deriving DecidableEq, Repr

/-- A result with the flags it sets. -/
abbrev Fx (α : Type) := α × Nat

/-- How the top exponent of a float format is used (R48). -/
inductive TopExp where
  | ieee | e4m3 | none
  deriving DecidableEq, Repr

/-- A binary float format: exponent and mantissa widths, bias (R48). -/
structure FloatFmt where
  eb : Nat
  mb : Nat
  bias : Int
  top : TopExp
  deriving DecidableEq, Repr

/-- The float format of a code; none for integers, E8M0 and reserved codes (R46, R48). -/
def floatFmt (fmt : Nat) : Option FloatFmt :=
  match fmt with
  | 0 => some ⟨8, 23, 127, .ieee⟩
  | 1 => some ⟨8, 7, 127, .ieee⟩
  | 2 => some ⟨5, 10, 15, .ieee⟩
  | 3 => some ⟨4, 3, 7, .e4m3⟩
  | 4 => some ⟨5, 2, 15, .ieee⟩
  | 5 => some ⟨3, 2, 3, .none⟩
  | 6 => some ⟨2, 3, 1, .none⟩
  | 7 => some ⟨2, 1, 1, .none⟩
  | _ => none

/-- Width in bits of an element of a format; 0 for a reserved code (R46, R51). -/
def fmtWidth (fmt : Nat) : Nat :=
  match fmt with
  | 0 => 32 | 1 => 16 | 2 => 16 | 3 => 8 | 4 => 8 | 5 => 6 | 6 => 6 | 7 => 4
  | 8 => 8 | 9 => 4 | 10 => 2 | 11 => 8 | _ => 0

/-- INT8, INT4, INT2 (R46). -/
def fmtIsInt (fmt : Nat) : Bool := fmt == 8 || fmt == 9 || fmt == 10

/-- Codes 0xC-0xF (R46). -/
def fmtReserved (fmt : Nat) : Bool := decide (12 ≤ fmt)

/-- Formats that block scales apply to (R62). -/
def fmtScaled (fmt : Nat) : Bool := decide (3 ≤ fmt) && decide (fmt ≤ 10)

/-- emax of the computed scale (R65). -/
def fmtEmax (fmt : Nat) : Int :=
  match fmt with
  | 3 => 8 | 4 => 15 | 5 => 4 | 6 => 2 | 7 => 2 | 8 => 6 | 9 => 2 | _ => 0

/-- The value of a code of a float format (R48). -/
def FloatFmt.decode (f : FloatFmt) (c : Nat) : FV :=
  let s := bit c (f.eb + f.mb)
  let e := bits c (f.eb + f.mb - 1) f.mb
  let m := c % 2 ^ f.mb
  if f.top = .ieee ∧ e = 2 ^ f.eb - 1 then (if m = 0 then .inf s else .nan)
  else if f.top = .e4m3 ∧ e = 15 ∧ m = 7 then .nan
  else if e = 0 then .fin s m (1 - f.bias - f.mb)
  else .fin s (2 ^ f.mb + m) (e - f.bias - f.mb)

/-- Largest finite value of a format: significand and exponent (R48). -/
def FloatFmt.maxFin (f : FloatFmt) : Nat × Int :=
  match f.top with
  | .ieee => (2 ^ (f.mb + 1) - 1, (2 ^ f.eb - 2 : Int) - f.bias - f.mb)
  | .e4m3 => (14, 5)
  | .none => (2 ^ (f.mb + 1) - 1, (2 ^ f.eb - 1 : Int) - f.bias - f.mb)

/-- Divide by 2^k, rounding to nearest, ties to even (R56). -/
def rneShift (m k : Nat) : Nat :=
  let q := m / 2 ^ k
  let r := m % 2 ^ k
  if 2 * r > 2 ^ k || (2 * r == 2 ^ k && k != 0 && q % 2 == 1) then q + 1 else q

/-- Round m*2^e to p+1 significant bits with no quantum below 2^qmin, exponent unbounded above (R56, R58). -/
def roundTo (p : Nat) (qmin : Int) (m : Nat) (e : Int) : Nat × Int :=
  if m = 0 then (0, qmin) else
    let q := max (e + Nat.log2 m - p) qmin
    let m' := if q ≤ e then m * 2 ^ (e - q).toNat else rneShift m (q - e).toNat
    if m' = 2 ^ (p + 1) then (2 ^ p, q + 1) else (m', q)

/-- Sign bit in place. -/
def FloatFmt.signBit (f : FloatFmt) (neg : Bool) : Nat := if neg then 2 ^ (f.eb + f.mb) else 0

/-- Code of a rounded finite value that fits. -/
def FloatFmt.pack (f : FloatFmt) (neg : Bool) (m : Nat) (q : Int) : Nat :=
  f.signBit neg + (if m < 2 ^ f.mb then m else (q + f.bias + f.mb).toNat * 2 ^ f.mb + (m - 2 ^ f.mb))

/-- Canonical NaN of a float format (R55); a format without NaN gives +0 (R59). -/
def FloatFmt.nanCode (f : FloatFmt) : Nat :=
  match f.top with
  | .ieee => (2 ^ f.eb - 1) * 2 ^ f.mb + 2 ^ (f.mb - 1)
  | .e4m3 => 0x7F
  | .none => 0

/-- Infinity of a float format that has one. -/
def FloatFmt.infCode (f : FloatFmt) (neg : Bool) : Nat := f.signBit neg + (2 ^ f.eb - 1) * 2 ^ f.mb

/-- Largest finite code. -/
def FloatFmt.maxCode (f : FloatFmt) (neg : Bool) : Nat := f.pack neg f.maxFin.1 f.maxFin.2

/-- Conversion of a value to a float format (R54-R59), with the flags of R60. -/
def FloatFmt.encode (f : FloatFmt) (sat : Bool) (v : FV) : Fx Nat :=
  match v with
  | .nan => (f.nanCode, fxNan)
  | .inf s => if f.top = .ieee then (f.infCode s, 0) else (f.maxCode s, fxSat)
  | .fin s m e =>
    let (m', q) := roundTo f.mb (1 - f.bias - f.mb) m e
    if q > f.maxFin.2 ∨ (q = f.maxFin.2 ∧ m' > f.maxFin.1) then
      (if sat ∨ f.top ≠ .ieee then (f.maxCode s, fxSat) else (f.infCode s, fxInf))
    else (f.pack s m' q, 0)

/-- Nearest integer of a finite value, ties to even (R56). -/
def rneInt (neg : Bool) (m : Nat) (e : Int) : Int :=
  let a : Int := if 0 ≤ e then (m * 2 ^ e.toNat : Nat) else (rneShift m (-e).toNat : Nat)
  if neg then -a else a

/-- Conversion of a value to a two's complement format of w bits (R54, R58, R59). -/
def intEncode (w : Nat) (v : FV) : Fx Nat :=
  let hi : Int := 2 ^ (w - 1) - 1
  let lo : Int := -(2 ^ (w - 1))
  match v with
  | .nan => (0, fxNan)
  | .inf s => (wrap w (if s then lo else hi), fxSat)
  | .fin s m e =>
    let x := rneInt s m e
    if x > hi then (wrap w hi, fxSat) else if x < lo then (wrap w lo, fxSat) else (wrap w x, 0)

/-- An integer as a value; 0 counts as +0 (R70). -/
def intFV (x : Int) : FV := .fin (decide (x < 0)) x.natAbs 0

/-- The value of a code (R46, R48, R69). A code of a reserved format has no value and is read as a NaN. -/
def ofFmt (fmt c : Nat) : FV :=
  match floatFmt fmt with
  | some f => f.decode c
  | none =>
    if fmtIsInt fmt then intFV (signed (fmtWidth fmt) c)
    else if fmt = 11 then (if c = 255 then .nan else .fin false 1 ((c : Int) - 127))
    else .nan

/-- Conversion of a value to a format (R54-R59). -/
def toFmt (fmt : Nat) (sat : Bool) (v : FV) : Fx Nat :=
  match floatFmt fmt with
  | some f => f.encode sat v
  | none => intEncode (fmtWidth fmt) v

/-- Round to FP32 without saturation (R57, R75). -/
def toF32 (v : FV) : Fx Nat := toFmt 0 false v

/-- The canonical FP32 NaN (R55). -/
def nan32 : Nat := 0x7FC00000

/-- +1.0 in FP32. -/
def one32 : Nat := 0x3F800000

/-- A NaN operand sets FX_NAN (R60). -/
def nanIn (v : FV) : Nat := if v = .nan then fxNan else 0

/-- Exact sum (IEEE 754 zeros; R70, R73). -/
def FV.add (a b : FV) : Fx FV :=
  match a, b with
  | .nan, _ => (.nan, fxNan)
  | _, .nan => (.nan, fxNan)
  | .inf s, .inf t => if s = t then (.inf s, 0) else (.nan, fxInvalid)
  | .inf s, .fin .. => (.inf s, 0)
  | .fin .., .inf t => (.inf t, 0)
  | .fin s m e, .fin t n f =>
    if m = 0 ∧ n = 0 then (.fin (s && t) 0 0, 0)
    else
      let g := min e f
      let x : Int := (m * 2 ^ (e - g).toNat : Nat)
      let y : Int := (n * 2 ^ (f - g).toNat : Nat)
      let z := (if s then -x else x) + (if t then -y else y)
      (.fin (decide (z < 0)) z.natAbs g, 0)

/-- Sign flipped; a NaN keeps no sign. -/
def FV.neg : FV → FV
  | .nan => .nan | .inf s => .inf !s | .fin s m e => .fin (!s) m e

/-- Magnitude. -/
def FV.abs : FV → FV
  | .nan => .nan | .inf _ => .inf false | .fin _ m e => .fin false m e

/-- Exact product; 0 times infinity is invalid (R60, R69, R73). -/
def FV.mul (a b : FV) : Fx FV :=
  match a, b with
  | .nan, _ => (.nan, fxNan)
  | _, .nan => (.nan, fxNan)
  | .inf s, .inf t => (.inf (s != t), 0)
  | .inf s, .fin t n _ => if n = 0 then (.nan, fxInvalid) else (.inf (s != t), 0)
  | .fin s m _, .inf t => if m = 0 then (.nan, fxInvalid) else (.inf (s != t), 0)
  | .fin s m e, .fin t n f => (.fin (s != t) (m * n) (e + f), 0)

/-- Times a power of two, exactly. -/
def FV.scale (a : FV) (k : Int) : FV :=
  match a with
  | .fin s m e => .fin s m (e + k)
  | v => v

/-- a < b on numbers that are not NaN, zeros equal. -/
def FV.lt (a b : FV) : Bool :=
  match a, b with
  | .nan, _ => false
  | _, .nan => false
  | .inf s, .inf t => s && !t
  | .inf s, .fin .. => s
  | .fin .., .inf t => !t
  | .fin s m e, .fin t n f =>
    let g := min e f
    let x : Int := (m * 2 ^ (e - g).toNat : Nat)
    let y : Int := (n * 2 ^ (f - g).toNat : Nat)
    decide ((if s then -x else x) < (if t then -y else y))

/-- The value is a zero. -/
def FV.isZero : FV → Bool
  | .fin _ 0 _ => true
  | _ => false

/-- The sign of a value that is not NaN. -/
def FV.sign : FV → Bool
  | .nan => false | .inf s => s | .fin s _ _ => s

/-- Larger of two, +0 above -0; any NaN gives NaN (R178 MAX). -/
def FV.maxV (a b : FV) : Fx FV :=
  if a = .nan ∨ b = .nan then (.nan, fxNan)
  else if a.isZero && b.isZero then ((if a.sign then b else a), 0)
  else if a.lt b then (b, 0) else (a, 0)

/-- Smaller of two, -0 below +0; any NaN gives NaN (R178 MIN). -/
def FV.minV (a b : FV) : Fx FV :=
  if a = .nan ∨ b = .nan then (.nan, fxNan)
  else if a.isZero && b.isZero then ((if a.sign then a else b), 0)
  else if b.lt a then (b, 0) else (a, 0)

/-- Round an exact result to FP32 and join the flags. -/
def rnd32 (r : Fx FV) : Fx Nat := let (c, f) := toF32 r.1; (c, fxOr r.2 f)

/-- FP32 addition of two codes, rounded once (R75). -/
def add32 (a b : Nat) : Fx Nat := rnd32 ((ofFmt 0 a).add (ofFmt 0 b))
/-- FP32 subtraction of two codes (R178). -/
def sub32 (a b : Nat) : Fx Nat := rnd32 ((ofFmt 0 a).add (ofFmt 0 b).neg)
/-- FP32 product of two codes (R75). -/
def mul32 (a b : Nat) : Fx Nat := rnd32 ((ofFmt 0 a).mul (ofFmt 0 b))
/-- Fused multiply-add, rounded once (R75). -/
def fma32 (a b c : Nat) : Fx Nat :=
  let (p, f) := (ofFmt 0 a).mul (ofFmt 0 b)
  let (r, g) := p.add (ofFmt 0 c)
  rnd32 (r, fxOr f g)

/-- Integer square root from the top bit down (k bits). -/
def isqrt (n : Nat) : Nat → Nat → Nat
  | 0, r => r
  | k + 1, r => isqrt n k (if (r + 2 ^ k) * (r + 2 ^ k) ≤ n then r + 2 ^ k else r)

/-- Correctly rounded square root of an FP32 code (R178, R180). -/
def sqrt32 (a : Nat) : Fx Nat :=
  match ofFmt 0 a with
  | .nan => (nan32, fxNan)
  | .inf true => (nan32, fxInvalid)
  | .inf false => (a, 0)
  | .fin s m e =>
    if m = 0 then (a, 0) else if s then (nan32, fxInvalid) else
      let k := 64 + (e % 2).toNat
      let n := m * 2 ^ k
      let r := isqrt n 60 0
      let h := (e - k) / 2
      rnd32 (.fin false (if r * r = n then 2 * r else 2 * r + 1) (h - 1), 0)

/-- One of the two FP32 neighbours of an inexact result m*2^q, m whole: the choice is the model's free value (R180). -/
def neighbour (op a : Nat) (s : Bool) (lo : Nat) (q : Int) : Fx Nat :=
  rnd32 (.fin s (if Config.roundsUp op a then lo + 1 else lo) q, 0)

/-- Reciprocal (R178, R180): exact powers of two are exact, other results lie within 1 ulp. -/
def rcp32 (a : Nat) : Fx Nat :=
  match ofFmt 0 a with
  | .nan => (nan32, fxNan)
  | .inf s => ((if s then 0x80000000 else 0), 0)
  | .fin s m e =>
    if m = 0 then ((if s then 0xFF800000 else 0x7F800000), fxInf)
    else if m = 2 ^ Nat.log2 m then rnd32 (.fin s 1 (-e - Nat.log2 m), 0)
    else
      let q := max (-e - Nat.log2 m - 1 - 23) (-149)
      neighbour 0x13 a s (2 ^ (-e - q).toNat / m) q

/-- Reciprocal square root (R178, R180): within 1 ulp; for an exact result the free value picks it or a neighbour. -/
def rsqrt32 (a : Nat) : Fx Nat :=
  match ofFmt 0 a with
  | .nan => (nan32, fxNan)
  | .inf true => (nan32, fxInvalid)
  | .inf false => (0, 0)
  | .fin s m e =>
    if m = 0 then ((if s then 0xFF800000 else 0x7F800000), fxInf)
    else if s then (nan32, fxInvalid)
    else
      let x := e + Nat.log2 m
      if m = 2 ^ Nat.log2 m ∧ x % 2 = 0 then
        let (c, f) := rnd32 (.fin false 1 (-(x / 2)), 0)
        (c + Config.transc 0x14 a % 3 - 1, f)
      else
        let y := if x % 2 = 0 then -(x / 2) - 1 else -((x + 1) / 2)
        let q := y - 23
        neighbour 0x14 a false (isqrt (2 ^ (-2 * q - e).toNat / m) 40 0) q

/-- A result R180 only bounds: the free value of the operation and the operand, with the flags its class sets. -/
def free32 (op a : Nat) : Fx Nat :=
  let c := Config.transc op a % 2 ^ 32
  (c, match ofFmt 0 c with | .inf _ => fxInf | .nan => fxNan | _ => 0)

/-- The transcendental micro-operations EXP, EXP2, LOG, TANH, SIGMOID, SILU, GELU (R178) with the special inputs of
R180. -/
def transc32 (op a : Nat) : Fx Nat :=
  match ofFmt 0 a with
  | .nan => (nan32, fxNan)
  | .inf s =>
    if op = 0x10 ∨ op = 0x11 then ((if s then 0 else 0x7F800000), 0)
    else if op = 0x12 then (if s then (nan32, fxInvalid) else (0x7F800000, 0))
    else if op = 0x16 then ((if s then 0xBF800000 else one32), 0)
    else if op = 0x17 then ((if s then 0 else one32), 0)
    else ((if s then 0x80000000 else 0x7F800000), 0)
  | .fin s m _ =>
    if op = 0x12 ∧ m = 0 then (0xFF800000, fxInf)
    else if op = 0x12 ∧ s then (nan32, fxInvalid)
    else free32 op a

/-- Exact sum of a list of values, starting from the first (R70). -/
def sumFV : List FV → Fx FV
  | [] => (.fin false 0 0, 0)
  | v :: vs => vs.foldl (fun acc x => let (r, f) := acc.1.add x; (r, fxOr acc.2 f)) (v, nanIn v)

/-- floor(log2 |v|) of a finite non-zero value. -/
def FV.ilog2 : FV → Int
  | .fin _ m e => e + Nat.log2 m
  | _ => 0

/-- Largest magnitude of a list. -/
def amaxFV (vs : List FV) : FV :=
  vs.foldl (fun a v => if a.lt v.abs then v.abs else a) (.fin false 0 0)

/-- One block converted with a computed scale (R65): scale byte, element codes, flags. -/
def scaleBlock (fmt : Nat) (vs : List FV) : Nat × List Nat × Nat :=
  let special (v : FV) : Bool := match v with | .fin .. => false | _ => true
  if vs.any special then (0xFF, vs.map (fun _ => 0), fxNan)
  else
    let am := amaxFV vs
    if am.isZero then (0, vs.map (fun _ => 0), 0)
    else
      let x := max (-127) (min 127 (am.ilog2 - fmtEmax fmt))
      let rs := vs.map (fun v => toFmt fmt true (v.scale (-x)))
      ((x + 127).toNat, rs.map (·.1), rs.foldl (fun f r => fxOr f r.2) 0)

/-- An element under its block scale: 0xFF makes it a NaN (R66). The product is exact; rounding is the reader's (R57). -/
def scaledFV (v : FV) (c : Nat) : FV := if c = 255 then .nan else v.scale ((c : Int) - 127)

/-- INT32 addition that saturates (R74). -/
def satAdd32 (a b : Int) : Fx Int :=
  let s := a + b
  if s > 2 ^ 31 - 1 then (2 ^ 31 - 1, fxSat) else if s < -(2 ^ 31) then (-(2 ^ 31), fxSat) else (s, 0)

/-- Multiply-accumulates per cell and cycle of an array operand pair, times two; none where R67 does not list it. -/
def pairRate2 (act wgt : Nat) : Option Nat :=
  if act = 1 ∧ wgt = 1 then some 1
  else if act = 2 ∧ wgt = 2 then some 1
  else if act = 3 ∨ act = 4 then (if wgt ∈ [3, 4, 5, 6, 7, 9] then some 2 else none)
  else if act = 5 ∨ act = 6 ∨ act = 7 then (if wgt ∈ [5, 6, 7, 9] then some 4 else none)
  else if act = 8 then (if wgt ∈ [8, 9, 10] then some 2 else none)
  else if act = 9 then (if wgt ∈ [9, 10] then some 4 else none)
  else if act = 10 then (if wgt = 10 then some 8 else none)
  else none

/-- The pair has a sparse rate (R67, R68). -/
def pairSparse (act wgt : Nat) : Bool :=
  (pairRate2 act wgt).isSome && (decide (3 ≤ act ∧ act ≤ 7) || act == 9)

end Sys2Proof.Machine
end

