-- ==== Sys2Proof/Machine/Ops.lean ====
section
/-! DEFINITION. Operations every family uses: which units are in service, event doorbells and host notes, error reports
and the log, and counter ADDs. -/
namespace Sys2Proof.Machine

/-! ## Status codes (R487) -/

def stOk : Nat := 0
def stBadVersion : Nat := 0x101
def stBadLength : Nat := 0x102
def stBadCrc : Nat := 0x103
def stUnknownOp : Nat := 0x104
def stNoResource : Nat := 0x201
def stBusy : Nat := 0x202
def stTargetLost : Nat := 0x301
def stUncorrectable : Nat := 0x302
def stDropped : Nat := 0x303
def stShared : Nat := 0x304
def stDenied : Nat := 0x401
def stNotLicensed : Nat := 0x402

/-- The first status that is not OK of two, in order. -/
def firstBad (a b : Nat) : Nat := if a = 0 then b else a

/-! ## Units in service -/

/-- The stack's fabric-plane domain is in reset, or the stack is out of service (R371, R546, R549). -/
def State.stackHeld (s : State) (st : Nat) : Bool :=
  (s.stackAt st).causes != 0 || (s.stackAt st).down || (s.stackAt st).out || decide (s.misc.phase < 3)

/-- The cluster's domain is in reset (R371, R374). -/
def State.clusterHeld (s : State) (c : Nat) : Bool := (s.clusterAt c).causes != 0 || s.stackHeld (c / 8)

/-- The site's core is disabled (R3). -/
def State.coreOff (s : State) (n : Nat) : Bool := bit (s.clusterAt (n / 12)).off (n % 12)

/-- The core is enabled and out of reset. -/
def State.coreLive (s : State) (n : Nat) : Bool := !s.coreOff n && !s.clusterHeld (n / 12) && !bit (s.clusterAt (n / 12)).coreRst (n % 12)

/-- The cluster's CCC runs. -/
def State.cccLive (s : State) (c : Nat) : Bool := !s.clusterHeld c && !(s.clusterAt c).cccOff

/-- The flask owning the cluster (R38). -/
def State.flaskOf (s : State) (c : Nat) : Option Nat := (s.clusterAt c).flask

/-- The flask of a site's core (R39). -/
def State.coreFlask (s : State) (n : Nat) : Option Nat := s.flaskOf (n / 12)

/-! ## Events -/

/-- Source numbers that R533 lists for a local gatherer. -/
def localSource (src : Nat) : Bool :=
  (decide (src < 0x60) && decide (src % 8 < 5)) || (decide (0x60 ≤ src) && decide (src < 0x6C))
    || src == 0x80 || src == 0x81 || src == 0x82 || (decide (0x90 ≤ src) && decide (src < 0xA0))
    || (decide (0x100 ≤ src) && decide (src < 0x160))

/-- Kinds a function's host interface has (R540): 0-10 in every function, 16-24 in the PF. -/
def hostKind (f kind : Nat) : Bool := decide (kind ≤ 10) || (f == 0 && decide (16 ≤ kind) && decide (kind ≤ 24))

/-- Source numbers that R533 lists for the module gatherer. -/
def moduleSource (src : Nat) : Bool :=
  decide (src < 0xC) || (decide (0x10 ≤ src) && decide (src < 0x1C)) || (decide (0x20 ≤ src) && decide (src < 0x2D))
    || (decide (0x40 ≤ src) && decide (src < 0x4C)) || (decide (0x50 ≤ src) && decide (src < 0x55))
    || (decide (0x60 ≤ src) && decide (src < 0x68)) || (decide (0x80 ≤ src) && decide (src < 0x91))
    || (decide (0xA0 ≤ src) && decide (src < 0xB1)) || (decide (0x100 ≤ src) && decide (src < 0x160))
    || (decide (0x200 ≤ src) && decide (src < 0x220) && hostKind 0 (src - 0x200))
    || (decide (0x220 ≤ src) && decide (src < 0x320) && hostKind 1 ((src - 0x220) % 16))

/-- A doorbell (R530): the source becomes pending, merging with itself; a reserved number sets bad_src. A doorbell
toward a gatherer in reset is discarded (R542). -/
def doorbell (g src : Nat) : Eff := .get fun s =>
  if (if g = 96 then decide (s.misc.phase = 0) else s.clusterHeld g) then .skip
  else if (if g = 96 then moduleSource src else localSource src) then
    setGath g (fun x => if src ∈ x.pend then x else { x with pend := x.pend ++ [src] })
  else setReg .EG_STAT_bad_src g 1

/-- An event of a core to its CCC: 0 CHARGE_MARK, 1 CHARGE_DONE, 2 CHARGE_STOP, 3 QUEUE_STALL, 4 BANK_FAULT (R533). -/
def coreEvent (n e : Nat) : Eff := doorbell (n / 12) (n % 12 * 8 + e)

/-- Module source of a host kind of a function (R533). -/
def hostSource (f kind : Nat) : Nat := if f = 0 then 0x200 + kind else 0x220 + 16 * (f - 1) + kind

/-- MSI-X vectors of a function (R385). -/
def vectorCount (f : Nat) : Nat := if f = 0 then 1024 else 64

/-- The function exists: the PF, or a VF that VF_ENABLE has enabled (R385). -/
def State.fnOn (s : State) (f : Nat) : Bool := f == 0 || s.misc.vfOn

/-- Flask f's VF is bound: the flask exists (R385, R503). -/
def State.flaskExists (s : State) (fl : Nat) : Bool :=
  (List.range 96).any (fun c => s.flaskOf c == some fl) || s.owner.any (fun p => p.2 == some fl)

/-- Emit the MSI-X message of a vector, or hold it in the pending-bit array while it is masked or the link is down
(R386, R393, R538). -/
def sendMsix (f v : Nat) : Eff := .get fun s =>
  let v := if vectorCount f ≤ v then 0 else v
  if s.misc.linkUp && !s.flag .MSIX_mask (f * 1024 + v) then .upd (.emit (.msix f v))
  else .seq (setReg .MSIX_pend (f * 1024 + v) 1)
    (Eff.when (!s.misc.linkUp) (.upd (.held (if (f, v) ∈ s.held then s.held else s.held ++ [(f, v)]))))

/-- Insert into a list that an order has sorted, after the items that go first or equal. -/
def insertBy {α : Type} (before : α → α → Bool) (a : α) : List α → List α
  | [] => [a]
  | b :: bs => if before a b then a :: b :: bs else b :: insertBy before a bs

/-- A list in an order, equal items as they stood. -/
def sortBy {α : Type} (before : α → α → Bool) (l : List α) : List α := l.foldl (fun m a => insertBy before a m) []

/-- Host kinds of a function that R538 lets go, the highest priority first, ties to the lower kind (R531). -/
def State.hostDue (s : State) (f : Nat) : List Nat :=
  let g := s.gathAt 96
  let prio (k : Nat) : Nat := s.reg .EG_HVEC_prio (f * 32 + k)
  if s.flag .EG_HCTL_poll f then []
  else sortBy (fun a b => decide (prio b < prio a)) ((List.range 32).filter fun k =>
    hostKind f k && decide (hostSource f k ∈ g.pend) && !decide (hostSource f k ∈ g.act) && decide (s.reg .EG_HCTL_thresh f < prio k))

/-- Send them: each is marked active and no longer pending, then its message goes out (R538). -/
def hostSend (f : Nat) : Eff := .get fun s => Eff.each (s.hostDue f) fun k => .get fun s =>
  .seq (setGath 96 (fun x => { x with pend := x.pend.filter (· != hostSource f k), act := x.act ++ [hostSource f k] }))
    (sendMsix f (s.reg .EG_HVEC_vector (f * 32 + k)))

/-- A host doorbell (R538, R541): its note first, then the kind pending, then the message if it may go. -/
def hostRing (f kind param : Nat) : Eff := .get fun s =>
  if s.fnOn f then
    let n := s.reg .EG_HNOTE_wr_seq f
    Eff.all [.upd (.note (f * 128 + n % 128) (param % 2 ^ 32 + kind * 2 ^ 32 + n * 2 ^ 64)),
      setReg .EG_HNOTE_wr_seq f (n + 1), doorbell 96 (hostSource f kind), hostSend f]
  else .skip

/-- A host doorbell to the VF of a flask, if it is bound (R385). -/
def flaskRing (fl kind param : Nat) : Eff := .get fun s =>
  Eff.when (decide (fl < 16) && s.flaskExists fl && s.fnOn (fl + 1)) (hostRing (fl + 1) kind param)

/-! ## Error records and the log -/

/-- Send one item to the log appender; a full FIFO of 1,024 records discards it and counts it (R473). -/
def sendLog (x : LogItem) : Eff := .get fun s =>
  if s.fifo.length < 1024 then .upd (.fifo (s.fifo ++ [x]))
  else if x.err then setMisc (fun m => { m with errDropped := m.errDropped + x.words.length })
  else .upd (.dropped (s.dropped + 1))

/-- Words of a log record but for its seq, which the appender gives (R474). -/
def logWords (ts type sev tsSrc cls unit point : Nat) (payload : List Nat) : List Nat :=
  [0, ts % 2 ^ 64, type * 2 ^ 48 + sev * 2 ^ 44 + tsSrc * 2 ^ 40 + cls * 2 ^ 32 + unit % 65536 * 2 ^ 16 + point]
    ++ (payload ++ List.replicate 5 0).take 5

/-- Send a log record (R474). The time stamp is a free value (log entry 12). -/
def logRec (type sev tsSrc cls unit point : Nat) (payload : List Nat) : Eff := fresh fun ts =>
  sendLog { err := false, words := [logWords ts type sev tsSrc cls unit point payload] }

/-- Several free values (log entry 5). -/
def freshWords : Nat → (List Nat → Eff) → Eff
  | 0, k => k []
  | n + 1, k => fresh fun v => freshWords n fun l => k (v :: l)

/-- A log record to which the spec gives neither a severity nor a payload layout: both are free values (log entry 50). -/
def logFree (type cls unit : Nat) (known : List Nat) : Eff := fresh fun v => freshWords 5 fun ws =>
  logRec type (v % 6) 12 cls unit 0 (known ++ ws)

/-- The image bank that runs. -/
def State.runBank (s : State) : ImgBank := if s.fw.running = 0 then s.fw.bankA else s.fw.bankB

/-- Payload of a BOOT record (R570): the code, the running bank and its version, a word each (log entry 50). -/
def State.bootPayload (s : State) (code : Nat) : List Nat := [code, s.fw.running, Config.imageVersion s.runBank.bytes]

/-- A BOOT record (R475, R570) of a unit; its severity is a free value (log entry 50). -/
def bootRecord (cls unit code : Nat) : Eff := .get fun s => logFree 1 cls unit (s.bootPayload code)

/-- Error kinds of R575 with the assay each starts: 0 none, 1 core array, 2 bank, 3 channel, 4 link, 5 SRAM row,
6 sub-port. -/
def assayOf (kind cls : Nat) : Nat :=
  match kind with
  | 0x10 => 1 | 0x11 => 1
  | 0x20 => if cls = 2 then 3 else 2
  | 0x21 => if cls = 2 then 3 else 2
  | 0x23 => if cls = 0 then 1 else 5
  | 0x24 => if cls = 0 then 1 else 5
  | 0x31 => 2 | 0x40 => 4 | 0x51 => 6
  | _ => 0

/-- Duration in microseconds of an assay (R577). -/
def assayUs (a : Nat) : Nat :=
  match a with
  | 1 => 2000 | 2 => 5000 | 3 => 1000 | 4 => 20000 | 5 => 10 | 6 => 20000 | _ => 0

/-- The assayer of a unit (R577): 0-95 the CCC of a cluster, 96-107 the port manager of a stack. -/
def assayerOf (cls id : Nat) : Nat :=
  match cls with
  | 0 => id / 12 | 1 => id / 128 / 12 | 2 => id / 8 / 12 | 3 => id / 12 | 4 => id
  | 5 => id / 3 * 8 | 6 => 96 + id / 4 / 5 | _ => 0

/-- Severity of the ERROR log record (R571). -/
def errSeverity (kind verdict : Nat) : Nat :=
  if verdict = 2 ∨ kind = 0x70 then 5
  else if verdict = 3 then 1
  else if kind = 0x20 ∨ kind = 0x23 ∨ kind = 0x61 then 2
  else 4

/-- Words 6-7 of the main record, then 48 bytes for each CONT record in words 1 and 3-7 (R572). -/
def contWords (w2 : Nat) : Nat → List Nat → List (List Nat)
  | 0, _ => []
  | k + 1, d =>
    if d = [] then [] else
      let x := (d ++ List.replicate 6 0).take 6
      [0, x.getD 0 0, w2 + 2 ^ 49, x.getD 1 0, x.getD 2 0, x.getD 3 0, x.getD 4 0, x.getD 5 0] :: contWords w2 k (d.drop 6)

/-- Words of an error record and its CONT records (R572); the seq words are the appender's. -/
def errWords (r : Report) (verdict : Nat) (second : Bool) (us : Nat) : List (List Nat) :=
  let w2 := r.tsSrc * 2 ^ 60 + r.cls * 2 ^ 56 + verdict * 2 ^ 52 + b2n r.queued * 2 ^ 50 + b2n second * 2 ^ 48
    + r.kind * 2 ^ 32 + r.id % 2 ^ 32
  let main := [0, r.ts % 2 ^ 64, w2, r.addr % 2 ^ 64, r.syn % 2 ^ 64,
    r.count % 2 ^ 32 * 2 ^ 32 + r.flask % 32 * 2 ^ 22 + us % 2 ^ 22, r.detail.getD 0 0, r.detail.getD 1 0]
  main :: contWords w2 16 (r.detail.drop 2)

/-- Write the record of a report with its verdict (R571): it goes to the appender, which writes it, its ERROR log record,
and rings host kind ERROR. -/
def errRecord (r : Report) (verdict : Nat) (second : Bool) (us : Nat) : Eff :=
  sendLog { err := true, words := errWords r verdict second us }

/-- The line lies in a granted test-window region (R234). -/
def State.granted (s : State) (addr : Nat) : Bool :=
  decide (addr < 1152 * 2 ^ 30) && s.flag .ECC_TWG_grant (addr / 2 ^ 30)
    && s.reg .ECC_TWG_region (addr / 2 ^ 30) == addr % 2 ^ 30 / 2 ^ 26

/-- The memory kinds whose reports from a granted region carry TEST (R234, R579). -/
def memKind (k : Nat) : Bool := k == 0x20 || k == 0x21 || k == 0x22

/-- A report for the unit of the running assay counts as lasting (R580); another waits in the queue of 64, merging with
an equal one (R581); with nothing running its assay starts (R577). -/
def askAssay (r : Report) : Eff := .get fun s =>
  let a := assayerOf r.cls r.id
  let x := s.assayerAt a
  match x.run with
  | none => .upd (.assayer a { x with run := some r })
  | some q =>
    if q.cls = r.cls ∧ q.id = r.id then
      .upd (.assayer a { x with second := true, seconds := x.seconds ++ [r] })
    else if x.queue.any (fun y => y.cls == r.cls && y.id == r.id && y.kind == r.kind && y.addr / 64 == r.addr / 64) then
      .upd (.assayer a { x with queue := x.queue.map (fun y =>
        if y.cls == r.cls && y.id == r.id && y.kind == r.kind && y.addr / 64 == r.addr / 64
        then { y with count := y.count + 1 } else y) })
    else if x.queue.length < 64 then
      .upd (.assayer a { x with queue := x.queue ++ [{ r with queued := true }] })
    else setMisc (fun m => { m with errLost := m.errLost + 1 })

/-- The counter behind a report whose writer no rule names (R376, log entry 56): that of the unit's stack, the I/O die's for
a unit there. -/
def unitTs (cls id : Nat) : Nat :=
  match cls with
  | 0 => id / 96 | 1 => id / 128 / 96 | 2 => id / 8 / 96 | 3 => id / 96 | 4 => id / 8 | 5 => id / 3 | 6 => id / 20
  | 9 => if 3 ≤ id then (id - 3) / 8 else 12
  | 13 => if id < 96 then id / 8 else 12
  | _ => 12

/-- An error reported by its detector (R571, R577-R582). The detection time is a free value (log entry 12). -/
def report (kind cls id addr syn flask : Nat) (detail : List Nat := []) (tsSrc : Nat := unitTs cls id) : Eff := fresh fun ts =>
  .get fun s =>
    let r : Report := { kind, cls, id, addr, syn, flask, detail, ts, tsSrc }
    if memKind kind && s.granted addr then errRecord r 3 false 0
    else if assayOf kind cls = 0 then errRecord r 0 false 0
    else if decide ({ cls, id : UnitId } ∈ s.lasting) then errRecord r 2 false 0
    else askAssay r

/-- Unit class and ID an access error names (R573, R575). -/
def issuerUnit : Issuer → Nat × Nat
  | .core n => (0, n.val)
  | .ladle e => (13, e.val)
  | .host f => (12, f.val)
  | .peer e => (11, e)
  | .fw u => (9, u)

/-- The core of a site as an issuer. -/
def coreIss (n : Nat) : Issuer := if h : n < 1152 then .core ⟨n, h⟩ else .fw 0

/-- One record for the unmapped lines and one for the protected lines of an access: the lowest such line, and their
number in word 6 (R34, R39). Which stack's counter stamps a peer's is a free value (log entry 56). -/
def accessRecords (iss : Issuer) (fl : Nat) (unmapped prot : List Nat) : Eff :=
  let u := issuerUnit iss
  let put (kind a n : Nat) : Eff := fresh fun v =>
    report kind u.1 u.2 a 0 fl [n % 2 ^ 32] (if u.1 = 11 then v % 13 else unitTs u.1 u.2)
  .seq (Eff.opt unmapped.head? fun a => put 1 (a % 2 ^ 46) unmapped.length) (Eff.opt prot.head? fun a => put 2 a prot.length)

/-! ## Routes (R350, R351) -/

/-- Stack of an issuer, 12 the I/O die; 13 a peer, which enters at the stack that serves it (R343, R344). -/
def srcOf : Issuer → Nat
  | .core n => n / 96
  | .ladle e => if e.val < 96 then e / 8 else 12
  | .host _ => 12
  | .peer _ => 13
  | .fw u => if 3 ≤ u ∧ u < 99 then (u - 3) / 8 else 12

/-- A link of a stack is up: 0 clockwise, 1 counter-clockwise, 2 to the I/O die (R360). -/
def State.linkUp (s : State) (st k : Nat) : Bool := s.flag .NOC_LINK_up (st * 3 + k)

/-- The next stack in a ring direction: 0 clockwise, 1 counter-clockwise. -/
def ringNext (st k : Nat) : Nat := if k = 0 then (st + 1) % 12 else (st + 11) % 12

/-- The switch reaches a stack: by its IOD link, or over the ring link of a neighbour it reaches (R351). -/
def State.switchTo (s : State) (dst : Nat) : Bool :=
  s.linkUp dst 2 || (s.linkUp ((dst + 11) % 12) 2 && s.linkUp ((dst + 11) % 12) 0)
    || (s.linkUp ((dst + 1) % 12) 2 && s.linkUp ((dst + 1) % 12) 1)

/-- A request on the ring at a stack goes on in its direction; an intermediate stack whose onward link is down sends it
through its own IOD link (R351). -/
def State.ringTo (s : State) (k dst : Nat) : Nat → Nat → Bool
  | 0, _ => false
  | fuel + 1, st =>
    if st = dst then true
    else if s.linkUp st k then s.ringTo k dst fuel (ringNext st k)
    else s.linkUp st 2 && s.linkUp dst 2

/-- Route entry of a stack for another (R350, R360): 0 NONE, 1 CW, 2 CCW, 3 IOD. -/
def State.routeOf (s : State) (st dst : Nat) : Nat := s.reg .NOC_ROUTE_stack st / 4 ^ dst % 4

/-- A request of a source reaches a destination (R351): its own stack always; another by its route entry. -/
def State.pathUp (s : State) (src dst : Nat) : Bool :=
  if src = dst ∨ src = 13 ∨ dst = 13 then true
  else if src = 12 then s.switchTo dst
  else if dst = 12 then
    match s.reg .NOC_ROUTE_iod src with
    | 0 => s.linkUp src 2
    | 1 => s.linkUp src 0 && s.linkUp (ringNext src 0) 2
    | 2 => s.linkUp src 1 && s.linkUp (ringNext src 1) 2
    | _ => false
  else match s.routeOf src dst with
    | 1 => s.linkUp src 0 && s.ringTo 0 dst 12 (ringNext src 0)
    | 2 => s.linkUp src 1 && s.ringTo 1 dst 12 (ringNext src 1)
    | 3 => s.linkUp src 2 && s.switchTo dst
    | _ => false

/-! ## Counters -/

/-- Address of counter CT of a site (R167). -/
def counterAddr (n ct : Nat) : Nat := 0x3F0000000000 + n * 0x10000 + 0x4200 + 8 * ct

/-- The counter at a local address (R167). -/
def counterOf (a : Nat) : Option (Nat × Nat) :=
  if a < 0x3F0000000000 then none else
    let o := a - 0x3F0000000000
    let n := o / 0x10000
    let w := o % 0x10000
    if n < 1152 ∧ 0x4200 ≤ w ∧ w < 0x4240 ∧ w % 8 = 0 then some (n, (w - 0x4200) / 8) else none

/-- Add to CT of a site, modulo 2^32 (R164), resetting the stall count (R153). -/
def ctAdd (n ct v : Nat) : Eff := .seq (addReg .CT_value (n * 8 + ct) v) (setReg .Q_WDOG_idle n 0)

/-- What becomes of an on-module ADD (R167, R168, R370). -/
inductive AddRes where
  | done (n ct : Nat) | denied | protection | lost
  deriving DecidableEq, Repr

/-- Judge an on-module ADD of a flask to a local address: no live counter there is DENIED; the flask must own the
cluster; a core in reset is lost (R167, R168, R370). -/
def judgeAdd (s : State) (src : Nat) (fl : Option Nat) (a : Nat) : AddRes :=
  match counterOf a with
  | none => .denied
  | some (n, ct) =>
    if s.coreOff n then .denied
    else if s.coreFlask n = none ∨ s.coreFlask n ≠ fl then .protection
    else if s.clusterHeld (n / 12) || !s.pathUp src (n / 96) then .lost
    else .done n ct

/-- Perform an on-module ADD: the counter moves, or nothing does and `bad` follows with the status; a failed flask check
also writes a PROTECTION record (R168). -/
def addTo (iss : Issuer) (fl : Option Nat) (a v : Nat) (bad : Nat → Eff) : Eff := .get fun s =>
  match judgeAdd s (srcOf iss) fl a with
  | .done n ct => ctAdd n ct v
  | .denied => bad stDenied
  | .protection =>
    .seq (report 2 (issuerUnit iss).1 (issuerUnit iss).2 a 0 (fl.getD 31) [1]) (bad stDenied)
  | .lost => bad stTargetLost

/-- The endpoint counts as the module's own (R36). -/
def State.ownEndpoint (s : State) (ep : Nat) : Bool :=
  match s.misc.endpoint with
  | none => ep == 0
  | some e => ep == e

/-- An ADD to a global address (R36): a local counter, or another module through Brodit when its endpoint is in the
committed membership of the flask's job, or TARGET_LOST. -/
def addGlobal (iss : Issuer) (fl : Option Nat) (addr v : Nat) (bad : Nat → Eff) : Eff := .get fun s =>
  let ep := addr / 2 ^ 46
  if s.ownEndpoint ep then addTo iss fl (addr % 2 ^ 46) v bad
  else match fl with
    | some f =>
      if (f, ep) ∈ s.members then .upd (.hwAdds (s.hwAdds ++ [{ src := iss, flask := f, addr := addr, value := v }]))
      else bad stTargetLost
    | none => bad stTargetLost

end Sys2Proof.Machine
end

