-- ==== Sys2Proof/Machine/Memory.lean ====
section
/-! DEFINITION. Memory as 01_module_hierarchy.md, 07_stacked_memory.md and 08_error_correction.md lay it out: the local
map, flask protection, the decoder's verdicts, reads and writes of lines with their records, write-backs and slice-cache
effects. -/
namespace Sys2Proof.Machine

/-! ## The local map -/

/-- What a local address names (R31-R33). -/
inductive Target where
  | slice (n : Nat) | far (off : Nat) | csram (c : Nat) | scratch (n : Nat) | none
  deriving DecidableEq, Repr

def farBase : Nat := 0x100000000000
def csramBase : Nat := 0x200000000000
def scratchBase : Nat := 0x200060000000
def stackedEnd : Nat := 1152 * 2 ^ 30

/-- The far tier is licensed (R8, R499). -/
def State.farLicensed (s : State) : Bool := bit s.misc.licence 1

/-- Bytes the far tier maps (R396). -/
def State.farSize (s : State) : Nat := s.misc.farCaps.foldl (· + ·) 0

/-- What an address names, by the units in service (R31-R33, R550). -/
def State.target (s : State) (a : Nat) : Target :=
  if a < stackedEnd then (if (s.sliceAt (a / 2 ^ 30)).withheld then .none else .slice (a / 2 ^ 30))
  else if farBase ≤ a ∧ a < farBase + s.farSize ∧ s.farLicensed then .far (a - farBase)
  else if csramBase ≤ a ∧ a < csramBase + 96 * 2 ^ 24 then .csram ((a - csramBase) / 2 ^ 24)
  else if scratchBase ≤ a ∧ a < scratchBase + 1152 * 2 ^ 21 then
    (if s.coreOff ((a - scratchBase) / 2 ^ 21) then .none else .scratch ((a - scratchBase) / 2 ^ 21))
  else .none

/-- Ownership region of an address (R37): 0-18,431 stacked memory, from 18,432 on the far tier. -/
def regionOf (a : Nat) : Nat := if a < stackedEnd then a / 2 ^ 26 else 18432 + (a - farBase) / 2 ^ 26

/-- The flask that owns the memory an address names (R37, R38). -/
def State.memOwner (s : State) (a : Nat) : Option Nat :=
  match s.target a with
  | .slice _ => s.ownerAt (regionOf a)
  | .far _ => s.ownerAt (regionOf a)
  | .csram c => s.flaskOf c
  | .scratch n => s.coreFlask n
  | .none => Option.none

/-- Every far port or channel holds the same capacity: the far tier is interleaved (R396). -/
def State.interleaved (s : State) : Bool :=
  let n := if s.fuse.variantK then 8 else 4
  let c := s.misc.farCaps
  c.length == n && c.headD 0 != 0 && c.all (· == c.headD 0)

/-- Unit of an offset when the units are concatenated. -/
def concatUnit : List Nat → Nat → Nat
  | [], _ => 0
  | c :: cs, off => if off < c then 0 else 1 + concatUnit cs (off - c)

/-- Far unit of an offset in the far tier (R396). -/
def State.farUnit (s : State) (off : Nat) : Nat :=
  if s.interleaved then off / 256 % s.misc.farCaps.length else concatUnit s.misc.farCaps off

/-- The unit at an address does not answer (R370, R372, R398). -/
def State.unreachable (s : State) (a : Nat) : Bool :=
  match s.target a with
  | .slice n => s.stackHeld (n / 96)
  | .far off => bit s.misc.farDown (s.farUnit off)
  | .csram c => s.clusterHeld c
  | .scratch n => s.clusterHeld (n / 12)
  | .none => false

/-- How one line of an access is judged (R34, R39, R370). -/
inductive LineClass where
  | ok | unmapped | protection | lost
  deriving DecidableEq, Repr

/-- Stack at which an address is at home, 12 the I/O die. -/
def State.homeOf (s : State) (a : Nat) : Nat :=
  match s.target a with
  | .slice n => n / 96
  | .far _ => 12
  | .csram c => c / 8
  | .scratch n => n / 96
  | .none => 13

/-- Judge one line. `chk` is off for firmware's own structures; a flask of none owns nothing. -/
def State.judge (s : State) (src : Nat) (chk : Bool) (fl : Option Nat) (line : Nat) : LineClass :=
  let a := line * 64
  match s.target a with
  | .none => .unmapped
  | _ =>
    if s.unreachable a || !s.pathUp src (s.homeOf a) then .lost
    else if chk && !(fl.isSome && s.memOwner a == fl) then .protection
    else .ok

/-- Lines an access touches. -/
def linesOf (a len : Nat) : List Nat :=
  if len = 0 then [] else (List.range ((a + len - 1) / 64 - a / 64 + 1)).map (· + a / 64)

/-- Bank within the slice of an offset (R187). -/
def bankOf (off : Nat) : Nat := off / 2 ^ 15 % 8 * 16 + off / 2 ^ 18 % 16
/-- Frame in bank of an offset (R187). -/
def frameOf (off : Nat) : Nat := off / 2 ^ 22 % 256
/-- Channel of an offset (R185, R187). -/
def chanOf (off : Nat) : Nat := off / 2 ^ 15 % 8
/-- Row in the bank of an offset (R189). -/
def rowOf (off : Nat) : Nat := frameOf off * 16 + off / 64 % 512 / 32
/-- Address of frame f of bank b in slice n (R188). -/
def frameAddr (n b f : Nat) : Nat := n * 2 ^ 30 + f * 2 ^ 22 + b % 16 * 2 ^ 18 + b / 16 * 2 ^ 15
/-- Page-frame number (R280). -/
def pfn (n b f : Nat) : Nat := n / 96 * 2 ^ 22 + n % 96 * 2 ^ 15 + b * 2 ^ 8 + f
/-- Slice, bank and frame of a PFN (R280). -/
def pfnParts (p : Nat) : Nat × Nat × Nat := (p / 2 ^ 22 % 16 * 96 + p / 2 ^ 15 % 128, p / 2 ^ 8 % 128, p % 256)
/-- The key of a frame's descriptor. -/
def frameKey (n b f : Nat) : Nat := n * 32768 + b * 256 + f
/-- The key of the frame at an address. -/
def keyOfAddr (a : Nat) : Nat := frameKey (a / 2 ^ 30) (bankOf (a % 2 ^ 30)) (frameOf (a % 2 ^ 30))
/-- Address of a frame by its key. -/
def addrOfKey (k : Nat) : Nat := frameAddr (k / 32768) (k / 256 % 128) (k % 256)
/-- PFN of a frame by its key. -/
def pfnOfKey (k : Nat) : Nat := pfn (k / 32768) (k / 256 % 128) (k % 256)
/-- Key of a frame by its PFN. -/
def keyOfPfn (p : Nat) : Nat := let x := pfnParts p; frameKey x.1 x.2.1 x.2.2

/-- Flask of a ladle engine's running descriptor (R39). -/
def State.ladleFlask (s : State) (e : Nat) : Option Nat := (s.ladleAt e).run.map (·.flask)

/-! ## Codewords -/

/-- A word as the decoder delivers it: data, verdict (R215: 0 CLEAN, 1 CORR1, 2 CORR2, 3 UNCORR, 4 POISON), syndrome. -/
structure WordRead where
  data : BitVec 64
  verdict : Nat
  syn : Nat
  deriving DecidableEq, Repr

def State.markAt (s : State) (w : Nat) : Mark := Store.get {} s.marks w

/-- The word lies in memory that holds undefined data: stacked memory since power-up (R225), or scratch that warming pours
have used (R601). -/
def State.undefPlace (s : State) (w : Nat) : Bool :=
  let a := w * 8
  (decide (a < stackedEnd) && bit (s.sliceAt (a / 2 ^ 30)).undef (a % 2 ^ 30 / 2 ^ 26))
    || (decide (scratchBase ≤ a) && decide ((a - scratchBase) / 2 ^ 21 ∈ s.misc.warmed))

/-- The word itself holds undefined data: nothing has written it since. -/
def State.undefWord (s : State) (w : Nat) : Bool := s.undefPlace w && !(s.markAt w).known

/-- Decode a codeword whose stored bits were a word and its check bits, poisoned or not, before the marked bits failed
(R214-R216, R225). -/
def decodeCoded (d : BitVec 64) (flips : BitVec 80) (poison : Bool) : WordRead :=
  let n := popcount flips.toNat 80
  if poison then
    (if n = 0 then ⟨d, 4, 0xA5C3⟩
     else ⟨d, if Config.heavyPoison flips then 4 else 3, (Config.syndrome flips ^^^ 0xA5C3).toNat⟩)
  else if n = 0 then ⟨d, 0, 0⟩
  else if n ≤ 3 then ⟨d, n, (Config.syndrome flips).toNat⟩
  else
    let v := Config.heavyVerdict flips % 4
    ⟨if v = 3 then d else Config.heavyData d flips, v, (Config.syndrome flips).toNat⟩

/-- Decode a word stored with check bits of its own (R235): good and poisoned codewords decode as such. -/
def decodeRaw (d : BitVec 64) (c : BitVec 16) (flips : BitVec 80) : WordRead :=
  if c = Config.bchCheck d then decodeCoded d flips false
  else if c = Config.bchCheck d ^^^ 0xA5C3 then decodeCoded d flips true
  else
    let d := d ^^^ BitVec.ofNat 64 flips.toNat
    let c := c ^^^ BitVec.ofNat 16 (flips.toNat / 2 ^ 64)
    let v := Config.rawVerdict d c % 5
    ⟨if v = 1 ∨ v = 2 then Config.rawData d c else d, v, (c ^^^ Config.bchCheck d).toNat⟩

/-- Decode one codeword (R214-R216, R225, R235, R584). -/
def State.decodeWord (s : State) (w : Nat) : WordRead :=
  let m := s.markAt w
  let d : BitVec 64 := BitVec.ofNat 64 (s.rawWord (w * 8))
  let a := w * 8
  if farBase ≤ a ∧ a < csramBase then
    (if m.poison || (m.flips != 0 && Config.farBad m.flips) then ⟨d, 3, 0⟩ else ⟨d, if m.flips = 0 then 0 else 1, 0⟩)
  else if decide (a < stackedEnd) && bit (s.sliceAt (a / 2 ^ 30)).deadCh (chanOf (a % 2 ^ 30)) then ⟨d, 3, 0⟩
  else if s.undefWord w then
    let u := Config.undefWord s.tick w
    ⟨BitVec.ofNat 64 u, u / 2 ^ 64 % 5, u / 2 ^ 68 % 2 ^ 16⟩
  else match m.raw with
    | some c => decodeRaw d c m.flips
    | none => decodeCoded d m.flips m.poison

/-- Bits that fail stay failed until the word is rewritten. -/
def applyUpsets (ups : List Upset) : Eff := Eff.each ups fun u => .get fun s =>
  let m := s.markAt u.word
  .upd (.mark u.word { m with flips := m.flips ^^^ u.flips })

/-- Eight data bytes of a word. -/
def wordBytes (d : BitVec 64) : List Byte := leBytes d.toNat 8

/-! ## The slice cache (R198-R203) -/

/-- Cache key of a line: its slice and set (R198). -/
def cacheKey (line : Nat) : Nat :=
  let off := line * 64 % 2 ^ 30
  line / 2 ^ 24 * 512 + ((off / 64 % 512) ^^^ (off / 2 ^ 15 % 512))

def State.cacheSet (s : State) (line : Nat) : List CLine := Store.get [] s.cache (cacheKey line)

/-- The cached copy of a line, if any. -/
def State.cached (s : State) (line : Nat) : Option CLine :=
  if line * 64 < stackedEnd then (s.cacheSet line).find? (fun c => c.line == line) else none

/-- KEEP lines a set may hold (R201, R212). -/
def State.keepMax (s : State) (sl : Nat) : Nat := 4 * s.reg .MC_CFG_keep_max sl

/-- Clear the KEEP bit of the least recent KEEP line. -/
def dropKeep (l : List CLine) : List CLine :=
  match l.reverse.find? (·.keep) with
  | none => l
  | some c => l.map (fun x => if x.line == c.line then { x with keep := false } else x)

/-- Set KEEP on a line of a set, dropping the oldest where the set would hold one too many (R201). -/
def setKeep (k : Nat) (line : Nat) (l : List CLine) : List CLine :=
  if k = 0 then l
  else if (l.find? (fun c => c.line == line)).any (·.keep) then l
  else
    let l := if k ≤ (l.filter (·.keep)).length then dropKeep l else l
    l.map (fun x => if x.line == line then { x with keep := true } else x)

/-- Drop the least recent line whose KEEP bit is clear from a full set (R200). -/
def evict (l : List CLine) : List CLine :=
  if l.length < 16 then l
  else match l.reverse.find? (fun c => !c.keep) with
    | none => l
    | some c => l.filter (fun x => x.line != c.line)

/-- Make a line most recent. -/
def touch (line : Nat) (l : List CLine) : List CLine :=
  (l.filter (fun c => c.line == line)) ++ l.filter (fun c => c.line != line)

/-- Make a line least recent. -/
def sink (line : Nat) (l : List CLine) : List CLine :=
  (l.filter (fun c => c.line != line)) ++ l.filter (fun c => c.line == line)

/-- A set after a read or write of a line with a hint (R200): 0 NORMAL, 1 STREAM, 2 KEEP, 3 LAST. -/
def cacheStep (k hint : Nat) (write full : Bool) (line : Nat) (l : List CLine) : List CLine :=
  if (l.find? (fun c => c.line == line)).isSome then
    match hint with
    | 0 => touch line l
    | 2 => setKeep k line (touch line l)
    | 3 => if write then l
           else sink line (l.map (fun x => if x.line == line then { x with keep := false } else x))
    | _ => l
  else
    let alloc (front keep : Bool) : List CLine :=
      let l := evict l
      let l := if front then { line := line } :: l else l ++ [{ line := line }]
      if keep then setKeep k line l else l
    match hint, write with
    | 0, false => alloc true false
    | 1, false => alloc false false
    | 2, false => alloc true true
    | 0, true => if full then alloc true false else l
    | 2, true => if full then alloc true true else l
    | _, _ => l

/-- Cache effect of an access to a line of stacked memory. -/
def cacheEff (hint : Nat) (write full alloc : Bool) (line : Nat) : Eff := .get fun s =>
  let sl := line / 2 ^ 24
  let l := s.cacheSet line
  if s.flag .MC_CFG_cache_en sl && (alloc || (s.cached line).isSome) then
    .upd (.cache (cacheKey line) (cacheStep (s.keepMax sl) hint write full line l))
  else .skip

/-- Drop one line from its cache. -/
def invalLine (line : Nat) : Eff := .get fun s =>
  .upd (.cache (cacheKey line) ((s.cacheSet line).filter (fun c => c.line != line)))

/-- A channel access opens its row and counts a change of rows (R191, R212). -/
def openRow (line : Nat) : Eff := .get fun s =>
  let a := line * 64
  let k := a / 2 ^ 30 * 128 + bankOf (a % 2 ^ 30)
  let r := rowOf (a % 2 ^ 30) + 1
  if Store.get 0 s.openRow k = r then .skip
  else .seq (.upd (.openRow k r)) (addReg .MC_PERF_row_miss (a / 2 ^ 30) 1)

/-! ## Error records of a line -/

/-- Unit class, unit and time-stamp source of a memory error: the channel, the bank over a riser, or the SRAM (R575). -/
def errUnit (s : State) (riser : Bool) (a : Nat) : Nat × Nat × Nat :=
  match s.target a with
  | .slice n =>
    if riser then (1, n * 128 + bankOf (a % 2 ^ 30), n / 96) else (2, n * 8 + chanOf (a % 2 ^ 30), n / 96)
  | .csram c => (4, c, c / 8)
  | .scratch n => (0, n, n / 96)
  | .far off => (10, s.farUnit off, 12)
  | .none => (10, 0, 12)

/-- Syndrome field of a memory record (R222, R572). -/
def synField (w : Nat) (r : WordRead) : Nat := w % 8 * 2 ^ 24 + r.verdict * 2 ^ 16 + r.syn % 2 ^ 16

/-- Records, counts and write-back of the words of one line as read (R221, R222): one record for each kind met. -/
def lineErrors (riser : Bool) (fl : Nat) (line : Nat) (rs : List (Nat × WordRead)) : Eff := .get fun s =>
  let a := line * 64
  let u := errUnit s riser a
  let dram := decide (a < stackedEnd)
  let far := decide (farBase ≤ a) && decide (a < csramBase)
  let sl := a / 2 ^ 30
  let ce := rs.filter (fun x => x.2.verdict == 1 || x.2.verdict == 2)
  let ue := rs.filter (fun x => x.2.verdict == 3)
  let po := rs.filter (fun x => x.2.verdict == 4)
  let rep (kind : Nat) (l : List (Nat × WordRead)) : Eff :=
    Eff.opt l.head? fun x => report kind u.1 u.2.1 a (synField x.1 x.2) fl [] u.2.2
  Eff.all [
    rep (if dram then 0x20 else if far then 0x61 else 0x23) ce,
    rep (if dram then 0x21 else if far then 0x62 else 0x24) ue,
    rep (if dram then 0x22 else if far then 0x62 else 0x24) po,
    Eff.when (dram && !ce.isEmpty) (satReg .ECC_CNT_ce sl 1),
    Eff.when (dram && !ue.isEmpty) (satReg .ECC_CNT_ue sl 1),
    Eff.when (dram && !po.isEmpty) (satReg .ECC_CNT_poison sl 1),
    Eff.when (!ce.isEmpty && !far) (.get fun s =>
      .upd (.wb line (ce.foldl (fun m x => setBit m (x.1 % 8) true) (Store.get 0 s.wb line)))),
    Eff.when (rs.any (fun x => s.undefWord x.1)) (.upd .tick)]

/-- The words of a line as the decoder delivers them now. -/
def State.lineWords (s : State) (line : Nat) : List (Nat × WordRead) :=
  (List.range 8).map (fun k => (line * 8 + k, s.decodeWord (line * 8 + k)))

/-- The bytes a cached copy delivers, where a BSU write has not been fenced. -/
def State.staleBytes (s : State) (line : Nat) : Option (List Byte) := (s.cached line).bind (·.old)

/-- What a read delivers for a word: a cached copy has no cell errors; a poisoned word stays poisoned (R199, R216). -/
def State.deliver (s : State) (w : Nat) : WordRead :=
  match s.cached (w / 8) with
  | none => s.decodeWord w
  | some c =>
    let r := s.decodeWord w
    match c.old with
    | some b => ⟨BitVec.ofNat 64 (leNat ((b.drop (w % 8 * 8)).take 8)), 0, 0⟩
    | none => if r.verdict = 4 then r else ⟨BitVec.ofNat 64 (s.rawWord (w * 8)), 0, 0⟩

/-- Effects of reading one line that passed the checks (R198, R220-R222). -/
def readLine (fl hint line : Nat) : Eff := .get fun s =>
  let a := line * 64
  if a < stackedEnd then
    let sl := a / 2 ^ 30
    if (s.cached line).isSome && s.flag .MC_CFG_cache_en sl then
      Eff.all [addReg .MC_PERF_rd_lines sl 1, addReg .MC_PERF_hits sl 1, cacheEff hint false true true line]
    else
      let ws := s.lineWords line
      Eff.all [addReg .MC_PERF_rd_lines sl 1, openRow line, lineErrors false fl line ws,
        cacheEff hint false true (!ws.any (fun x => x.2.verdict == 3)) line]
  else lineErrors false fl line (s.lineWords line)

/-- What a read returns: bytes (0xFF for a word that is lost, zeros for a suppressed line), whether a word was lost,
which words, and the status (R34, R224, R370). -/
structure Rd where
  data : List Byte := []
  bad : Bool := false
  status : Nat := 0
  deriving DecidableEq, Repr

/-- The result of a read, from the state in which it is judged. -/
def State.readResult (s : State) (src : Nat) (chk : Bool) (fl : Option Nat) (a len : Nat) : Rd :=
  let ws := if len = 0 then [] else (List.range ((a + len - 1) / 8 - a / 8 + 1)).map (· + a / 8)
  let rs := ws.map fun w =>
    if s.judge src chk fl (w / 8) = .ok then
      (let r := s.deliver w
       if r.verdict < 3 then (wordBytes r.data, 0) else (List.replicate 8 (0xFF : Byte), 1))
    else (List.replicate 8 (0 : Byte), 0)
  let cls := (linesOf a len).map (s.judge src chk fl)
  { data := ((rs.flatMap (·.1)).drop (a % 8)).take len
    bad := rs.any (fun r => r.2 == 1)
    status :=
      if cls.any (fun c => c == .unmapped || c == .protection) then stDenied
      else if cls.any (fun c => c == .lost) then stTargetLost
      else if rs.any (fun r => r.2 == 1) then stUncorrectable else 0 }

/-- Bytes a bucket holds at most: burst in KiB; its reserved value 0 acts as the reset value (R18, R401). -/
def burstBytes (b : Nat) : Int := if b = 0 then 64 * 1024 else b * 1024

/-- A bucket refills: by how much is a free value, at most to its burst, and far enough for the waiting request to leave
(R399; log entry 5). With a rate of 0 nothing passes. -/
def refill (k rate burst : Nat) (en : Bool) : Eff :=
  Eff.when (en && decide (0 < rate)) (fresh fun v => .get fun s =>
    .upd (.bucket k (min (burstBytes burst) (max 1 (Store.get 0 s.bucket k + v)))))

/-- Bucket of a stack's die-to-die regulator of a flask (R528). -/
def d2dBucket (st fl : Nat) : Nat := 32 + 2 * (16 * st + fl)

/-- The access leaves its stack for a flask: the register instance of its die-to-die regulator (R528). -/
def State.d2dOf (s : State) (src : Nat) (fl : Option Nat) (a : Nat) : Option Nat :=
  match fl with
  | some f => if src < 12 ∧ f < 16 ∧ s.homeOf a ≠ src ∧ s.homeOf a ≠ 13 then some (src * 16 + f) else none
  | none => none

/-- Bytes that leave a stack are counted and charged; traffic that finds no tokens waits until the bucket refills, for a
number of cycles that is a free value (R528; log entry 5). -/
def d2dCharge (src : Nat) (fl : Option Nat) (a len : Nat) : Eff := .get fun s =>
  Eff.opt (s.d2dOf src fl a) fun r => .seq (addReg .REG_EGB_d2d r len)
    (Eff.when (s.flag .REG_D2D_en r) (.seq
      (Eff.when (decide (Store.get 0 s.bucket (32 + 2 * r) < 1)) (.seq
        (refill (32 + 2 * r) (s.reg .REG_D2D_rate r) (s.reg .REG_D2D_burst r) true)
        (fresh fun v => addReg .REG_EGW_cycles r v)))
      (.get fun s => .upd (.bucket (32 + 2 * r) (Store.get 0 s.bucket (32 + 2 * r) - len)))))

/-- Far bytes of an access are counted, and charged to the flask's far regulator (R399, R400); bytes that leave the stack
go to its die-to-die regulator (R528). -/
def farCharge (src : Nat) (fl : Option Nat) (a len : Nat) : Eff := .seq (d2dCharge src fl a len) (.get fun s =>
  match s.target a, fl with
  | .far _, some f => .seq (addReg .REG_IOB_far f len)
      (Eff.when (s.flag .REG_FAR_en f) (.upd (.bucket (2 * f) (Store.get 0 s.bucket (2 * f) - len))))
  | _, _ => .skip)

/-- What an access counts and charges (R399, R400): a window access of the host is counted and never charged. -/
def accessCharge (iss : Issuer) (fl : Option Nat) (a len : Nat) : Eff :=
  match iss with
  | .host _ => .get fun s => Eff.opt fl fun f =>
      .seq (addReg .REG_IOB_host f len) (match s.target a with | .far _ => addReg .REG_IOB_far f len | _ => .skip)
  | _ => farCharge (srcOf iss) fl a len

/-- A regulator holds a request of a flask to an address: the far one while its bucket is empty (R399), the die-to-die
one while it is empty and never refills (R528). -/
def State.farHeld (s : State) (src : Nat) (fl : Option Nat) (a : Nat) : Bool :=
  (match s.target a, fl with
  | .far _, some f => s.flag .REG_FAR_en f && decide (Store.get 0 s.bucket (2 * f) < 1)
  | _, _ => false) ||
  (s.d2dOf src fl a).any (fun r => s.flag .REG_D2D_en r && s.reg .REG_D2D_rate r == 0
    && decide (Store.get 0 s.bucket (32 + 2 * r) < 1))

/-- A read by an issuer of a flask: records for lines suppressed, then line by line; the result goes on (R34, R39,
R220). -/
def readMem (iss : Issuer) (chk : Bool) (fl : Option Nat) (a len hint : Nat) (k : Rd → Eff) : Eff := .get fun s =>
  let src := srcOf iss
  let ls := linesOf a len
  let um := ls.filter (fun l => s.judge src chk fl l == .unmapped)
  let pr := ls.filter (fun l => s.judge src chk fl l == .protection)
  Eff.all [accessRecords iss (fl.getD 31) (um.map (· * 64)) (pr.map (· * 64)),
    Eff.each (ls.filter (fun l => s.judge src chk fl l == .ok)) (readLine (fl.getD 31) hint),
    accessCharge iss fl a len, k (s.readResult src chk fl a len)]

/-- A clean codeword in place of what the word held. -/
def cleanMark (s : State) (w : Nat) : Mark :=
  { known := s.undefPlace w }

/-- Write one whole word with its own check bits, or poisoned (R216, R223). -/
def putWord (w : Nat) (d : List Byte) (poison : Bool) : Eff := .get fun s =>
  Eff.all [.upd (.bytes (w * 8) d), .upd (.mark w { cleanMark s w with poison := poison }),
    .get fun s => let m := Store.get 0 s.wb (w / 8)
                  if bit m (w % 8) then .upd (.wb (w / 8) (setBit (setBit m (w % 8) false) (8 + w % 8) true)) else .skip]

/-- Write bytes within one word (R223): a whole word is not read; part of one is merged, a lost word is poisoned. -/
def writeWord (fl : Nat) (w off : Nat) (d : List Byte) : Eff := .get fun s =>
  if d.length = 8 then putWord w d false
  else
    let r := s.decodeWord w
    let old := wordBytes r.data
    let new := old.take off ++ d ++ old.drop (off + d.length)
    let u := errUnit s false (w * 8)
    let dram := decide (w * 8 < stackedEnd)
    Eff.all [
      Eff.when (r.verdict == 1 || r.verdict == 2)
        (report (if dram then 0x20 else 0x23) u.1 u.2.1 (w / 8 * 64) (synField w r) fl [] u.2.2),
      Eff.when (r.verdict == 3)
        (report (if dram then 0x21 else 0x24) u.1 u.2.1 (w / 8 * 64) (synField w r) fl [] u.2.2),
      Eff.when (r.verdict == 4)
        (report (if dram then 0x22 else 0x24) u.1 u.2.1 (w / 8 * 64) (synField w r) fl [] u.2.2),
      Eff.when (s.undefWord w) (.upd .tick),
      putWord w new (decide (3 ≤ r.verdict))]

/-- Pieces of a write by word: word, offset in it, bytes. -/
def splitWords : Nat → Nat → List Byte → List (Nat × Nat × List Byte)
  | 0, _, _ => []
  | k + 1, a, d =>
    if d = [] then [] else
      let n := 8 - a % 8
      (a / 8, a % 8, d.take n) :: splitWords k (a + n) (d.drop n)

/-- Effects of writing part of one line that passed the checks (R199, R221, R223): DRAM, cached copy, cache standing. -/
def writeLine (fl hint a : Nat) (d : List Byte) : Eff := .get fun s =>
  let line := a / 64
  let pieces := splitWords 9 a d
  if a < stackedEnd then
    let sl := a / 2 ^ 30
    if bit (s.sliceAt sl).deadCh (chanOf (a % 2 ^ 30)) then .skip
    else Eff.all [
      addReg .MC_PERF_wr_lines sl 1, openRow line,
      Eff.each pieces (fun p => writeWord fl p.1 p.2.1 p.2.2),
      .get fun s => Eff.opt (s.staleBytes line) fun b =>
        let b' := b.take (a % 64) ++ d ++ b.drop (a % 64 + d.length)
        .upd (.cache (cacheKey line) ((s.cacheSet line).map
          (fun c => if c.line == line then { c with old := some b' } else c))),
      cacheEff hint true (decide (d.length = 64)) true line]
  else match s.target a with
    | .far _ => Eff.each pieces (fun p =>
        if p.2.2.length = 8 then putWord p.1 p.2.2 false else .upd (.bytes (p.1 * 8 + p.2.1) p.2.2))
    | _ => Eff.each pieces (fun p => writeWord fl p.1 p.2.1 p.2.2)

/-- Pieces of a write by line: address and bytes. -/
def splitLines : Nat → Nat → List Byte → List (Nat × List Byte)
  | 0, _, _ => []
  | k + 1, a, d =>
    if d = [] then [] else
      let n := 64 - a % 64
      (a, d.take n) :: splitLines k (a + n) (d.drop n)

/-- Lines of a write. -/
def pieces (a : Nat) (d : List Byte) : List (Nat × List Byte) := splitLines (d.length / 64 + 2) a d

/-- Status of a write, from the state in which it is judged. -/
def State.writeStatus (s : State) (src : Nat) (chk : Bool) (fl : Option Nat) (a len : Nat) : Nat :=
  let cls := (linesOf a len).map (s.judge src chk fl)
  if cls.any (fun c => c == .unmapped || c == .protection) then stDenied
  else if cls.any (fun c => c == .lost) then stTargetLost else 0

/-- A write by an issuer of a flask (R34, R39, R199, R223); its status goes on. -/
def writeMem (iss : Issuer) (chk : Bool) (fl : Option Nat) (a hint : Nat) (d : List Byte) (k : Nat → Eff) : Eff :=
  .get fun s =>
    let src := srcOf iss
    let ls := linesOf a d.length
    let um := ls.filter (fun l => s.judge src chk fl l == .unmapped)
    let pr := ls.filter (fun l => s.judge src chk fl l == .protection)
    Eff.all [accessRecords iss (fl.getD 31) (um.map (· * 64)) (pr.map (· * 64)),
      Eff.each ((pieces a d).filter (fun p => s.judge src chk fl (p.1 / 64) == .ok))
        (fun p => writeLine (fl.getD 31) hint p.1 p.2),
      accessCharge iss fl a d.length, k (s.writeStatus src chk fl a d.length)]

/-- Zero a range with full check bits: data, marks and pending write-backs go (R41, R206, R226). -/
def zeroRange (a len : Nat) : Eff := Eff.all [.upd (.zero a len), .upd (.clearMarks (a / 8) (len / 8)),
  .upd (.clearWb (a / 64) (len / 64))]

/-- Firmware writes bytes of a structure of its own with good check bits. -/
def fwWrite (a : Nat) (d : List Byte) : Eff := Eff.each (splitWords (d.length / 8 + 2) a d) fun p => .get fun s =>
  let old := s.rawBytes (p.1 * 8) 8
  putWord p.1 (old.take p.2.1 ++ p.2.2 ++ old.drop (p.2.1 + p.2.2.length)) false

end Sys2Proof.Machine
end

