-- ==== Sys2Proof/Machine/Operands.lean ====
section
/-! DEFINITION. The operand forms of a core: the bit maps of the charge blocks (R116-R119, R140, R142, R155), which
block is busy (R121, R143), shadow and locked writes (R22, R122), queue rings with their pops and pushes (R140-R150),
and the walk of an address generator (R156). -/
namespace Sys2Proof.Machine

abbrev Out := Host.Outcome State Fault Refusal

/-- The outcome of a command: the state its effect leaves. -/
def finish (e : Eff) (s : State) : Out := .next (run e s)

/-! ## Charge blocks -/

/-- Ring field of queue q (R140). -/
def ringFld (q : Nat) : Fld :=
  match q % 16 with
  | 0 => .CHG_QB_q0 | 1 => .CHG_QB_q1 | 2 => .CHG_QB_q2 | 3 => .CHG_QB_q3 | 4 => .CHG_QB_q4 | 5 => .CHG_QB_q5
  | 6 => .CHG_QB_q6 | 7 => .CHG_QB_q7 | 8 => .CHG_QB_q8 | 9 => .CHG_QB_q9 | 10 => .CHG_QB_q10 | 11 => .CHG_QB_q11
  | 12 => .CHG_QB_q12 | 13 => .CHG_QB_q13 | 14 => .CHG_QB_q14 | _ => .CHG_QB_q15

/-- Fields of a charge block: field, word in the block, highest and lowest bit. -/
abbrev Layout := List (Fld × Nat × Nat × Nat)

/-- CHG_ARR (R116). -/
def layArr : Layout := [(.CHG_ARR_k_passes, 0, 56, 48), (.CHG_ARR_m_count, 0, 43, 32), (.CHG_ARR_k_active, 0, 24, 16),
  (.CHG_ARR_acc_seq, 0, 14, 12), (.CHG_ARR_acc_type, 0, 11, 11), (.CHG_ARR_sparse, 0, 10, 10),
  (.CHG_ARR_wgt_scale, 0, 9, 9), (.CHG_ARR_act_scale, 0, 8, 8), (.CHG_ARR_wgt_fmt, 0, 7, 4), (.CHG_ARR_act_fmt, 0, 3, 0),
  (.CHG_ARR_repeats, 1, 43, 32), (.CHG_ARR_sat, 1, 20, 20), (.CHG_ARR_out_fmt, 1, 19, 16), (.CHG_ARR_out_mode, 1, 13, 13),
  (.CHG_ARR_wgt_reuse, 1, 12, 12), (.CHG_ARR_acc_advance, 1, 11, 11), (.CHG_ARR_acc_base, 1, 10, 0)]

/-- CHG_VEC (R117). -/
def layVec : Layout := [(.CHG_VEC_repeats, 0, 51, 32), (.CHG_VEC_n_ops, 0, 19, 16), (.CHG_VEC_in_b_en, 0, 14, 14),
  (.CHG_VEC_out_scale, 0, 13, 13), (.CHG_VEC_sat, 0, 12, 12), (.CHG_VEC_out_fmt, 0, 11, 8), (.CHG_VEC_in_fmt_b, 0, 7, 4),
  (.CHG_VEC_in_fmt_a, 0, 3, 0), (.CHG_VEC_k1, 1, 63, 32), (.CHG_VEC_k0, 1, 31, 0), (.CHG_VEC_slot0_3, 2, 63, 0),
  (.CHG_VEC_slot4_7, 3, 63, 0)]

/-- CHG_AG (R155). -/
def layAg : Layout := [(.CHG_AG_base, 0, 45, 0), (.CHG_AG_len, 1, 60, 48), (.CHG_AG_q, 1, 28, 24),
  (.CHG_AG_seg_lvl, 1, 20, 18), (.CHG_AG_hint, 1, 17, 16), (.CHG_AG_dir, 1, 0, 0),
  (.CHG_AG_count0, 2, 63, 48), (.CHG_AG_stride0, 2, 39, 0), (.CHG_AG_count1, 3, 63, 48), (.CHG_AG_stride1, 3, 39, 0),
  (.CHG_AG_count2, 4, 63, 48), (.CHG_AG_stride2, 4, 39, 0), (.CHG_AG_count3, 5, 63, 48), (.CHG_AG_stride3, 5, 39, 0)]

/-- CHG_QB (R140, R142). -/
def layQb : Layout :=
  (List.range 16).map (fun q => (ringFld q, q / 4, q % 4 * 13 + 12, q % 4 * 13)) ++
  [(.CHG_QB_asc, 0, 63, 60), (.CHG_QB_wgt, 0, 59, 56), (.CHG_QB_act, 0, 55, 52), (.CHG_QB_out, 1, 63, 60),
   (.CHG_QB_meta, 1, 59, 56), (.CHG_QB_wsc, 1, 55, 52), (.CHG_QB_vin_b, 2, 60, 57), (.CHG_QB_vin_a, 2, 56, 52),
   (.CHG_QB_vosc, 3, 59, 56), (.CHG_QB_vout, 3, 55, 52)]

/-- CHG_BNK (R118). -/
def layBnk : Layout := [(.CHG_BNK_count, 0, 51, 32), (.CHG_BNK_arg_en, 0, 29, 29), (.CHG_BNK_res_en, 0, 28, 28),
  (.CHG_BNK_fmt, 0, 27, 24), (.CHG_BNK_nq, 0, 20, 16), (.CHG_BNK_res_q, 0, 15, 12), (.CHG_BNK_arg_q, 0, 11, 8),
  (.CHG_BNK_addr_ag, 0, 6, 4), (.CHG_BNK_cmd, 0, 3, 0), (.CHG_BNK_imm, 1, 63, 0)]

/-- CHG_SYNC (R119). -/
def laySync : Layout := [(.CHG_SYNC_start_sub, 0, 39, 32), (.CHG_SYNC_end_inc, 0, 31, 24), (.CHG_SYNC_eng_ag, 0, 23, 16),
  (.CHG_SYNC_eng_bnk, 0, 2, 2), (.CHG_SYNC_eng_vec, 0, 1, 1), (.CHG_SYNC_eng_arr, 0, 0, 0),
  (.CHG_SYNC_remote_val, 1, 63, 32), (.CHG_SYNC_remote_en, 1, 0, 0), (.CHG_SYNC_remote_addr, 2, 63, 0),
  (.CHG_SYNC_cm_value, 3, 63, 32), (.CHG_SYNC_preset, 3, 31, 24), (.CHG_SYNC_cm_load, 3, 7, 7), (.CHG_SYNC_cm_rel, 3, 6, 5),
  (.CHG_SYNC_cm_ct, 3, 4, 2), (.CHG_SYNC_cm_idx, 3, 1, 0)]

/-- The block of a mask bit (R113). -/
def layout (blk : Nat) : Layout :=
  if blk = 0 then layArr else if blk = 1 then layVec else if blk ≤ 9 then layAg
  else if blk = 10 then layQb else if blk = 11 then layBnk else laySync

/-- Words of a block (R113). -/
def blkWords (blk : Nat) : Nat :=
  if blk = 0 then 2 else if blk = 1 then 4 else if blk ≤ 9 then 6 else if blk = 10 then 4 else if blk = 11 then 2 else 4

/-- Instance of a block's fields at a site. -/
def blkInst (n blk : Nat) : Nat := if 2 ≤ blk ∧ blk ≤ 9 then n * 8 + (blk - 2) else n

/-- The block of a charge field, if it is one. -/
def blockOf (r : Fld) (i : Nat) : Option Nat :=
  if layArr.any (fun x => x.1 == r) then some 0
  else if layVec.any (fun x => x.1 == r) then some 1
  else if layAg.any (fun x => x.1 == r) then some (2 + i % 8)
  else if layQb.any (fun x => x.1 == r) then some 10
  else if layBnk.any (fun x => x.1 == r) then some 11
  else if laySync.any (fun x => x.1 == r) then some 12
  else none

/-- A block is busy from its pour's start to its issue end (R121); CHG_QB until no pour is in flight (R143); CHG_SYNC
never (R119). -/
def State.blkBusy (s : State) (n blk : Nat) : Bool :=
  let c := s.coreAt n
  if blk = 0 then c.arr.isSome else if blk = 1 then c.vec.isSome
  else if blk ≤ 9 then (s.agAt n (blk - 2)).run.isSome
  else if blk = 10 then !c.pours.isEmpty else if blk = 11 then c.bnk.isSome else false

/-- Some field of the block has a shadow value pending (R137 shadow_pend). -/
def State.shadowPend (s : State) (n blk : Nat) : Bool :=
  (layout blk).any (fun x => (s.shadow x.1 (blkInst n blk)).isSome)

/-- Copy the pending shadows of a block to its live fields (R122, R124). -/
def copyShadow (n blk : Nat) : Eff := Eff.each (layout blk) fun x => .get fun s =>
  Eff.opt (s.shadow x.1 (blkInst n blk)) fun v =>
    .seq (setReg x.1 (blkInst n blk) v) (.upd (.unshad x.1 (blkInst n blk)))

/-- The copy R122 makes in the cycle of a block's issue end, for every idle block of the core: whatever looks at the
fields next sees it done. -/
def settle (n : Nat) : Eff := Eff.each (List.range 12) fun blk => .get fun s =>
  Eff.when (!s.blkBusy n blk && s.shadowPend n blk) (copyShadow n blk)

/-! ## Queue rings -/

/-- Base byte offset in scratch and size in entries of a queue's ring; none when it is off (R140, R141). -/
def State.ring (s : State) (n q : Nat) : Option (Nat × Nat) :=
  let v := s.reg (ringFld q) n
  if v % 8 = 0 then none else some (v / 8 * 2048, 16 * 2 ^ (v % 8 - 1))

/-- The ring lies wholly within the 2 MiB of scratch (R149). -/
def State.ringOk (s : State) (n q : Nat) : Bool :=
  match s.ring n q with
  | none => false
  | some (b, z) => decide (b + z * 128 ≤ 2 ^ 21)

/-- Local address of an entry of a queue. -/
def State.entryAddr (s : State) (n q e : Nat) : Nat :=
  match s.ring n q with
  | none => scratchBase + n * 2 ^ 21
  | some (b, z) => scratchBase + n * 2 ^ 21 + b + e % z * 128

/-- Bytes of an entry that a format's elements fill: 120 for the 6-bit formats, else 128 (R51). -/
def payload (fmt : Nat) : Nat := if fmt = 5 ∨ fmt = 6 then 120 else 128

/-- Bytes a consumer may read now, where an entry carries `p` bytes (R146, R148). -/
def State.qHeld (s : State) (n q p : Nat) : Nat := let x := s.queueAt n q; x.count * p - x.used

/-- Bytes a producer may push without a stall (R148). -/
def State.qRoom (s : State) (n q p : Nat) : Nat :=
  match s.ring n q with
  | none => 0
  | some (_, z) => let x := s.queueAt n q; (z - x.count) * p - x.fill

/-- The next bytes of a queue, and whether a word of its scratch is lost: such a word reads as 0xFF (R232). -/
def State.qPeek (s : State) (n q p len : Nat) : List Byte × Bool :=
  let x := s.queueAt n q
  let es := List.range ((x.used + len + p - 1) / p)
  let rs := es.map (fun e => (List.range 16).map (fun k => s.decodeWord (s.entryAddr n q (x.head + e) / 8 + k)))
  let bytes := rs.flatMap (fun ws => (ws.flatMap (fun r =>
    if r.verdict < 3 then wordBytes r.data else List.replicate 8 (0xFF : Byte))).take p)
  ((bytes.drop x.used).take len, rs.any (fun ws => ws.any (fun r => decide (3 ≤ r.verdict))))

/-- Progress for the watchdog (R153). -/
def progress (n : Nat) : Eff := setReg .Q_WDOG_idle n 0

/-- Take bytes from a queue; entries read to the end are freed (R146). -/
def qDrop (n q p len : Nat) : Eff := .get fun s =>
  match s.ring n q with
  | none => .skip
  | some (_, z) => .seq (progress n) (setQueue n q fun x =>
      let k := (x.used + len) / p
      { x with head := (x.head + k) % z, count := x.count - k, used := (x.used + len) % p, stallPop := false })

/-- A consumer's segment boundary: the rest of the head entry is discarded (R146). -/
def qSkip (n q : Nat) : Eff := .get fun s =>
  let x := s.queueAt n q
  Eff.when (x.used != 0) (qDrop n q 128 (128 - x.used))

/-- Write a run of bytes into the ring from an entry and an offset on; the unused end of a full entry is zeros. -/
def ringWrite (s : State) (n q p : Nat) : Nat → Nat → Nat → List Byte → Eff
  | 0, _, _, _ => .skip
  | k + 1, e, off, d =>
    if d = [] then .skip
    else
      let piece := d.take (p - off)
      let piece := if piece.length + off = p then piece ++ List.replicate (128 - p) 0 else piece
      .seq (fwWrite (s.entryAddr n q e + off) piece) (ringWrite s n q p k (e + 1) 0 (d.drop (p - off)))

/-- Push bytes into the open tail entry, closing entries as they fill (R146). -/
def qPush (n q p : Nat) (d : List Byte) : Eff := .get fun s =>
  match s.ring n q with
  | none => .skip
  | some (_, z) =>
    let x := s.queueAt n q
    Eff.all [ringWrite s n q p (d.length / p + 2) ((x.head + x.count) % z) x.fill d, progress n,
      setQueue n q fun x => { x with
        count := x.count + (x.fill + d.length) / p, fill := (x.fill + d.length) % p, stallPush := false }]

/-- A producer's segment boundary: the open entry is filled with zeros and closed (R146). -/
def qClose (n q : Nat) : Eff := .get fun s =>
  let x := s.queueAt n q
  Eff.when (x.fill != 0) (qPush n q 128 (List.replicate (128 - x.fill) 0))

/-- Empty a queue (R144, R151). -/
def qEmpty (n q : Nat) : Eff := .upd (.queue (n * 16 + q) {})

/-- Mark a queue stalled for its consumer or producer (R148). -/
def qStall (n q : Nat) (push : Bool) : Eff :=
  setQueue n q fun x => if push then { x with stallPush := true } else { x with stallPop := true }

/-! ## The walk of an address generator (R156) -/

/-- Count of level L (R155). -/
def agCount (s : State) (n g lvl : Nat) : Nat :=
  s.reg (match lvl with | 0 => .CHG_AG_count0 | 1 => .CHG_AG_count1 | 2 => .CHG_AG_count2 | _ => .CHG_AG_count3) (n * 8 + g)

/-- Signed stride of level L (R155). -/
def agStride (s : State) (n g lvl : Nat) : Int :=
  signed 40 (s.reg (match lvl with
    | 0 => .CHG_AG_stride0 | 1 => .CHG_AG_stride1 | 2 => .CHG_AG_stride2 | _ => .CHG_AG_stride3) (n * 8 + g))

/-- Steps of the whole walk. -/
def agTotal (s : State) (n g : Nat) : Nat :=
  agCount s n g 0 * agCount s n g 1 * agCount s n g 2 * agCount s n g 3

/-- Index of level L at step k. -/
def agIndex (s : State) (n g lvl k : Nat) : Nat :=
  let c := agCount s n g
  match lvl with
  | 0 => k % c 0 | 1 => k / c 0 % c 1 | 2 => k / (c 0 * c 1) % c 2 | _ => k / (c 0 * c 1 * c 2) % c 3

/-- Address of step k, exactly; one outside 46 bits stands for an unmapped address above them (R156). -/
def agAddr (s : State) (n g k : Nat) : Nat :=
  let a : Int := (s.reg .CHG_AG_base (n * 8 + g) : Int)
    + (agIndex s n g 0 k : Int) * agStride s n g 0 + (agIndex s n g 1 k : Int) * agStride s n g 1
    + (agIndex s n g 2 k : Int) * agStride s n g 2 + (agIndex s n g 3 k : Int) * agStride s n g 3
  if 0 ≤ a ∧ a < 2 ^ 46 then a.toNat else wrap 46 a + 2 ^ 46

/-- A segment closes after step k (R156). -/
def agCloses (s : State) (n g k : Nat) : Bool :=
  let last (l : Nat) : Bool := agIndex s n g l k + 1 == agCount s n g l
  let lvl := s.reg .CHG_AG_seg_lvl (n * 8 + g)
  k + 1 == agTotal s n g || (decide (lvl < 4) && (List.range (lvl + 1)).all last)

/-! ## Comparators (R120, R112) -/

/-- A comparator is true while its relation holds on the signed 32-bit difference (R120). -/
def State.cmTrue (s : State) (n m : Nat) : Bool :=
  let ct := s.reg .CT_value (n * 8 + s.reg .CM_ct (n * 4 + m))
  let d := signed 32 (wrap 32 ((ct : Int) - s.reg .CM_value (n * 4 + m)))
  match s.reg .CM_rel (n * 4 + m) with
  | 0 => decide (0 ≤ d)
  | 1 => d == 0
  | 2 => decide (d < 0)
  | _ => d != 0

/-- A comparator selector of a record header (R112). -/
def State.selTrue (s : State) (n sel : Nat) : Bool :=
  if sel < 4 then s.cmTrue n sel else if sel < 8 then !s.cmTrue n (sel - 4) else sel == 8

end Sys2Proof.Machine
end

