-- ==== Sys2Proof/Machine/Sequencer.lean ====
section
/-! DEFINITION. The charge sequencer (04_charge_records.md): record fetch, load, wait, start checks, pours and their
completion, stop and pause. -/
namespace Sys2Proof.Machine

/-! ## Header fields (R111) -/

/-- The header of the record at the front. -/
def CoreSt.hdr (c : CoreSt) : Nat := c.words.headD 0
def hdrType (h : Nat) : Nat := bits h 3 0
def hdrVersion (h : Nat) : Nat := bits h 7 4
def hdrMask (h : Nat) : Nat := bits h 23 8
def hdrLength (h : Nat) : Nat := bits h 35 24
def hdrWait (h : Nat) : Bool := bit h 36
def hdrBranch (h : Nat) : Bool := bit h 37
def hdrLast (h : Nat) : Bool := bit h 38
def hdrEvent (h : Nat) : Bool := bit h 39
def hdrSel (h : Nat) : Nat := bits h 43 40
def hdrOff (h : Nat) : Int := signed 16 (bits h 63 48)

/-- Blocks a mask names, in mask order (R113). -/
def maskBlocks (mask : Nat) : List Nat := (List.range 13).filter (fun b => bit mask b)

/-- Word at which a block starts in the record (R110). -/
def blkStart (mask blk : Nat) : Nat :=
  ((maskBlocks mask).filter (· < blk)).foldl (fun a b => a + blkWords b) 1

/-- Subcode with which a header is refused, 0 if it is not (R114, R138). -/
def headerSub (h : Nat) : Nat :=
  if hdrVersion h ≠ 3 then 1
  else if 2 ≤ hdrType h ∨ 2 ^ 13 ≤ hdrMask h ∨ 9 ≤ hdrSel h ∨ bits h 47 44 ≠ 0 then 2
  else if hdrLength h = 0 ∨ 256 < hdrLength h ∨ hdrLength h < blkStart (hdrMask h) 16 then 3
  else 0

/-- Value a record gives a field of a block. -/
def recValue (c : CoreSt) (blk : Nat) (x : Fld × Nat × Nat × Nat) : Nat :=
  bits (c.words.getD (blkStart (hdrMask c.hdr) blk + x.2.1) 0) x.2.2.1 x.2.2.2

/-! ## Moving between states (R125) -/

def State.seqState (s : State) (n : Nat) : Nat := s.reg .SEQ_STATUS_state n
def setSeqState (n st : Nat) : Eff := setReg .SEQ_STATUS_state n st

/-- Enter ERROR with a cause, a subcode and the record it names; CHARGE_STOP is raised (R125, R131, R138). -/
def seqError (n cause sub addr : Nat) : Eff := Eff.all [
  setSeqState n 7, setReg .SEQ_STATUS_cause n cause, setReg .SEQ_STATUS_sub n sub, setReg .SEQ_ERR_addr n addr,
  coreEvent n 2]

/-- No entry OPEN or COMMITTED, no pass inside, every queue empty, no load in flight: a pre-emption point
(R103, R134, R152). -/
def State.preemptPoint (s : State) (n : Nat) : Bool :=
  (s.coreAt n).passes.isEmpty
  && (s.acc.filter (fun p => p.1 / 2048 == n)).all (fun p => p.2.st == .free)
  && (List.range 16).all (fun q => let x := s.queueAt n q; x.count == 0 && x.fill == 0)
  && (List.range 8).all (fun g => (s.agAt n g).loads.isEmpty)

/-- Record that follows the one at the front (R130). -/
def State.nextRec (s : State) (n : Nat) : Nat := s.reg .SEQ_PC_addr n + hdrLength (s.coreAt n).hdr

/-- Leave the record at the front for another one: fetch it. -/
def fetchAt (n addr : Nat) : Eff := .seq (setReg .SEQ_PC_addr n addr) (setSeqState n 1)

/-- The boundary after a record that is neither BRANCH nor LAST, or the drain that BRANCH, LAST or a pause asks for
(R125, R134). -/
def leaveRecord (n : Nat) : Eff := .get fun s =>
  let c := s.coreAt n
  if hdrBranch c.hdr || hdrLast c.hdr || c.pauseReq then setSeqState n 5 else fetchAt n (s.nextRec n)

/-! ## Control (R125, R133, R134) -/

/-- SEQ_CTL.go: from IDLE at SEQ_LIST, from PAUSED at SEQ_PC; clears cause, sub and fx (R125, R137). -/
def seqGo (n : Nat) : Eff := .get fun s =>
  let clear := Eff.all [setReg .SEQ_STATUS_cause n 0, setReg .SEQ_STATUS_sub n 0, setReg .SEQ_STATUS_fx n 0,
    setCore n (fun c => { c with pauseReq := false, drainErr := 0, fetchUe := false, loadUe := false })]
  if s.seqState n = 0 then .seq clear (fetchAt n (s.reg .SEQ_LIST_addr n))
  else if s.seqState n = 6 then .seq clear (setSeqState n 1)
  else .skip

/-- Queues a pass still inside the array will read or write. -/
def State.passQueues (s : State) (n : Nat) : List Nat :=
  if (s.coreAt n).passes.isEmpty then []
  else [s.reg .CHG_QB_act n, s.reg .CHG_QB_asc n, s.reg .CHG_QB_out n]

/-- Stop the engaged units at their next repeat boundary (R107, R133, R150): passes entered and accesses issued
complete, nothing else starts, no end action is taken; the shadow tile is emptied; queues keep whole entries. -/
def stopUnits (n : Nat) : Eff := .get fun s =>
  let keep := s.passQueues n
  Eff.all [
    setCore n (fun c => { c with
      arr := none, vec := none, bnk := none, pours := [], shadow := if c.shadowBusy then c.shadow else none }),
    Eff.each (List.range 8) (fun g => setAg n g fun a => { a with
      run := none,
      loads := match a.loads.reverse with
        | [] => []
        | l :: ls => ({ l with close := true } :: ls).reverse }),
    Eff.each ((List.range 16).filter (fun q => !(keep.any (· == q)))) (fun q => .get fun s =>
      .seq (qSkip n q)
        (Eff.when ((List.range 8).all (fun g => (s.agAt n g).loads.all (fun l => l.q != q))) (qClose n q)))]

/-- The sequencer stops with a cause: ERROR, with the oldest incomplete pour's record, or the record at the front where
no pour is in flight (R133; log entry 14). -/
def seqStop (n cause : Nat) : Eff := .get fun s =>
  let a := match (s.coreAt n).pours with | p :: _ => p.addr | [] => s.reg .SEQ_PC_addr n
  .seq (stopUnits n) (seqError n cause 0 a)

/-- SEQ_CTL.stop by state (R125, R133, R137). -/
def seqCtlStopEff (n : Nat) : Eff := .get fun s =>
  match s.seqState n with
  | 0 => .skip
  | 7 => setSeqState n 0
  | 6 => seqError n 5 0 (s.reg .SEQ_PC_addr n)
  | _ => seqStop n 5

/-- SEQ_CTL.pause: requested in any state but IDLE, PAUSED and ERROR (R125, R134). -/
def seqPause (n : Nat) : Eff := .get fun s =>
  if s.seqState n = 0 ∨ s.seqState n = 6 ∨ s.seqState n = 7 then .skip else setCore n (fun c => { c with pauseReq := true })

/-- SEQ_CTL_GO (R125). -/
def execSeqCtlGo (n : SiteIx) (s : State) : Out := finish (Eff.when (s.coreLive n) (seqGo n)) s
/-- SEQ_CTL_STOP (R133). -/
def execSeqCtlStop (n : SiteIx) (s : State) : Out := finish (Eff.when (s.coreLive n) (seqCtlStopEff n)) s
/-- SEQ_CTL_PAUSE (R134). -/
def execSeqCtlPause (n : SiteIx) (s : State) : Out := finish (Eff.when (s.coreLive n) (seqPause n)) s

/-! ## Fetch and load -/

/-- Words of a record as read. -/
def wordsOf : Nat → List Byte → List Nat
  | 0, _ => []
  | k + 1, d => leNat (d.take 8) :: wordsOf k (d.drop 8)

/-- The failed fetch drains, then enters ERROR with FETCH_ERROR (R135). -/
def fetchFail (n : Nat) (ue : Bool) : Eff :=
  .seq (setCore n fun c => { c with words := [], drainErr := 3, fetchUe := ue }) (setSeqState n 5)

/-- Read the record at SEQ_PC: its header, then as many words as a legal length asks for (R110, R125, R135). -/
def recordFetchEff (n : Nat) (ups : List Upset) : Eff := .get fun s =>
  if s.seqState n = 1 then
    let a := s.reg .SEQ_PC_addr n * 8
    let fl := s.coreFlask n
    .seq (applyUpsets ups) (.get fun s =>
      let h := leNat (s.readResult (n / 96) true fl a 8).data
      let len := if headerSub h = 0 then hdrLength h else 1
      readMem (coreIss n) true fl a (8 * len) 0 fun r =>
        if r.status = 0 then
          .seq (setCore n fun c => { c with words := wordsOf len r.data }) (setSeqState n 2)
        else fetchFail n (r.status == stUncorrectable))
  else .skip

/-- RECORD_FETCH (R125). -/
def execRecordFetch (n : SiteIx) (ups : List Upset) (s : State) : Out :=
  finish (Eff.when (s.coreLive n) (recordFetchEff n ups)) s

/-- The CHG_SYNC the record carries asks for a preset or programs a comparator (R125). -/
def syncActs (c : CoreSt) : Bool :=
  bit (hdrMask c.hdr) 12 && (recValue c 12 (.CHG_SYNC_preset, 3, 31, 24) != 0 || recValue c 12 (.CHG_SYNC_cm_load, 3, 7, 7) != 0)

/-- A locked field of a busy block would change: the record waits in LOAD (R122, R143). -/
def lockWaits (s : State) (n : Nat) : Bool :=
  let c := s.coreAt n
  (maskBlocks (hdrMask c.hdr)).any fun b => s.blkBusy n b && (layout b).any fun x =>
    x.1.info.cls == .l && recValue c b x != s.reg x.1 (blkInst n b)

/-- The fields R22 and R140 make locked keep their class; CHG_QB's rings and bindings are locked too. -/
def writeField (n blk : Nat) (c : CoreSt) (x : Fld × Nat × Nat × Nat) : Eff := .get fun s =>
  let i := blkInst n blk
  let v := recValue c blk x
  if blk = 10 then
    .seq (Eff.when (x.1.info.width == 13 && v != s.reg x.1 i) (qEmpty n (x.2.1 * 4 + x.2.2.2 / 13))) (setReg x.1 i v)
  else if x.1.info.cls == .s && s.blkBusy n blk then .upd (.shad x.1 i v)
  else setReg x.1 i v

/-- CHG_SYNC's preset, then its cm_load, when the record carries CHG_SYNC (R119, R125). -/
def syncLoad (n : Nat) (c : CoreSt) : Eff :=
  Eff.when (bit (hdrMask c.hdr) 12) (.get fun s => Eff.all [
    Eff.each ((List.range 8).filter (fun k => bit (s.reg .CHG_SYNC_preset n) k)) (fun k => setReg .CT_value (n * 8 + k) 0),
    Eff.when (s.flag .CHG_SYNC_cm_load n) (
      let m := n * 4 + s.reg .CHG_SYNC_cm_idx n
      Eff.all [setReg .CM_value m (s.reg .CHG_SYNC_cm_value n), setReg .CM_rel m (s.reg .CHG_SYNC_cm_rel n),
        setReg .CM_ct m (s.reg .CHG_SYNC_cm_ct n)])])

/-- Load the record (R114, R122, R125); a wait leaves everything as it is. -/
def recordLoadEff (n : Nat) : Eff := .get fun s =>
  let c := s.coreAt n
  if s.seqState n ≠ 2 then .skip
  else if headerSub c.hdr ≠ 0 then seqError n 1 (headerSub c.hdr) (s.reg .SEQ_PC_addr n)
  else if (syncActs c && !c.pours.isEmpty) || lockWaits s n then .skip
  else Eff.all [settle n,
    Eff.each (maskBlocks (hdrMask c.hdr)) (fun b => Eff.each (layout b) (writeField n b c)),
    syncLoad n c,
    if hdrWait c.hdr then setSeqState n 3 else if hdrType c.hdr = 1 then setSeqState n 4 else leaveRecord n]

/-- RECORD_LOAD (R122). -/
def execRecordLoad (n : SiteIx) (s : State) : Out := finish (Eff.when (s.coreLive n) (recordLoadEff n)) s

/-- WAIT ends once the selector is true (R125, R129). -/
def waitReleaseEff (n : Nat) : Eff := .get fun s =>
  let h := (s.coreAt n).hdr
  if s.seqState n = 3 ∧ s.selTrue n (hdrSel h) then
    (if hdrType h = 1 then setSeqState n 4 else leaveRecord n)
  else .skip

/-- WAIT_RELEASE (R129). -/
def execWaitRelease (n : SiteIx) (s : State) : Out := finish (Eff.when (s.coreLive n) (waitReleaseEff n)) s

/-- SHADOW_COPY (R122): the block is past its issue end; its pending shadow values become live. -/
def execShadowCopy (n : SiteIx) (blk : Fin 13) (s : State) : Out :=
  finish (Eff.when (s.coreLive n && !s.blkBusy n blk) (copyShadow n blk)) s

/-! ## The checks at START (R131) -/

/-- 16-bit slot of the vector chain (R117). -/
def State.slotWord (s : State) (n k : Nat) : Nat :=
  if k < 4 then bits (s.reg .CHG_VEC_slot0_3 n) (16 * k + 15) (16 * k)
  else bits (s.reg .CHG_VEC_slot4_7 n) (16 * (k - 4) + 15) (16 * (k - 4))
def slotOp (w : Nat) : Nat := bits w 15 9
def slotSrc1 (w : Nat) : Nat := bits w 8 6
def slotSrc2 (w : Nat) : Nat := bits w 5 3
def slotDst (w : Nat) : Nat := bits w 2 0

/-- The ops of R178. -/
def opKnown (op : Nat) : Bool :=
  decide (1 ≤ op ∧ op ≤ 9) || decide (0x10 ≤ op ∧ op ≤ 0x19) || op == 0x20 || op == 0x21 || op == 0x30
/-- Ops with one source (R177, R178). -/
def opUnary (op : Nat) : Bool :=
  op == 1 || op == 8 || op == 9 || decide (0x10 ≤ op)

/-- Slots of the chain, in order. -/
def State.chain (s : State) (n : Nat) : List Nat := (List.range (min 8 (s.reg .CHG_VEC_n_ops n))).map (s.slotWord n)

/-- The chain writes OUT (R176). -/
def State.writesOut (s : State) (n : Nat) : Bool := (s.chain n).any (fun w => slotDst w == 4)

/-- R177 and R174 (step 5 of R131). -/
def vecBad (s : State) (n : Nat) : Bool :=
  let k := s.reg .CHG_VEC_n_ops n
  let ws := s.chain n
  k == 0 || decide (8 < k) || s.reg .CHG_VEC_repeats n == 0
  || ws.any (fun w => !opKnown (slotOp w) || decide (5 ≤ slotDst w)
      || (slotOp w == 5 && slotDst w == 4) || (slotOp w == 0x30 && slotDst w != 4)
      || (!s.flag .CHG_VEC_in_b_en n && (slotSrc1 w == 1 || (!opUnary (slotOp w) && slotSrc2 w == 1))))
  || decide (1 < (ws.filter (fun w => slotDst w == 4)).length)
  || (s.reg .CHG_QB_vin_a n == 16 && s.reg .CHG_VEC_in_fmt_a n != 0 && s.reg .CHG_VEC_in_fmt_a n != 8)
  || (s.flag .CHG_VEC_out_scale n && (!fmtScaled (s.reg .CHG_VEC_out_fmt n) || (s.ring n (s.reg .CHG_QB_vosc n)).isNone))

/-- R87, the ranges of CHG_ARR (step 4 of R131). -/
def arrBad (s : State) (n : Nat) : Bool :=
  let r (f : Fld) : Nat := s.reg f n
  let k := r .CHG_ARR_k_active
  let sp := s.flag .CHG_ARR_sparse n
  let act := (s.coreAt n).active
  r .CHG_ARR_m_count == 0 || decide (2048 < r .CHG_ARR_m_count)
  || (if sp then k == 0 || decide (256 < k) || k % 4 != 0 else k == 0 || decide (128 < k))
  || decide (5 ≤ r .CHG_ARR_acc_seq)
  || (r .CHG_ARR_acc_seq == 4 && (decide (r .CHG_ARR_k_passes < 2) || decide (256 < r .CHG_ARR_k_passes)))
  || decide (4 < r .CHG_ARR_out_fmt)
  || (s.flag .CHG_ARR_acc_type n && (!fmtIsInt (r .CHG_ARR_act_fmt) || !fmtIsInt (r .CHG_ARR_wgt_fmt)
        || s.flag .CHG_ARR_act_scale n || s.flag .CHG_ARR_wgt_scale n))
  || (s.flag .CHG_ARR_wgt_reuse n && !(act.any (fun t => t.fmt == r .CHG_ARR_wgt_fmt && t.sparse == sp)))
  || r .CHG_ARR_repeats == 0

/-- The command table of R251, the count and the address generator (R250; step 6 of R131). -/
def bnkBad (s : State) (n : Nat) : Bool :=
  let r (f : Fld) : Nat := s.reg f n
  let ar := s.flag .CHG_BNK_arg_en n
  let re := s.flag .CHG_BNK_res_en n
  let nq := r .CHG_BNK_nq
  let f := r .CHG_BNK_fmt
  let g := r .CHG_BNK_addr_ag
  let cmdBad := match r .CHG_BNK_cmd with
    | 1 => decide (1 < f) || nq == 0 || decide (16 < nq) || !ar || !re
    | 2 => decide (1 < f) || nq == 0 || decide (16 < nq) || !ar || !re
    | 3 => f != 0 || nq == 0 || decide (16 < nq) || !ar || !re
    | 4 => decide (1 < f) || nq != 1 || !ar
    | 5 => f != 0 || nq != 1 || ar
    | 6 => f != 0 || nq != 1 || ar
    | 7 => f != 0 || nq != 1 || ar || !re
    | 8 => f != 0 || nq != 1 || ar
    | _ => true
  cmdBad || r .CHG_BNK_count == 0 || !bit (r .CHG_SYNC_eng_ag) g || decide (agTotal s n g < r .CHG_BNK_count)

/-- The address generator the bank-command path drives, if it is engaged. -/
def State.bnkAg (s : State) (n : Nat) : Option Nat :=
  if s.flag .CHG_SYNC_eng_bnk n then some (s.reg .CHG_BNK_addr_ag n) else none

/-- Address generators a pour engages for memory accesses. -/
def State.engAgs (s : State) (n : Nat) : List Nat :=
  (List.range 8).filter (fun g => bit (s.reg .CHG_SYNC_eng_ag n) g && s.bnkAg n != some g)

/-- Scale streams apply only to the formats of R62. -/
def State.actScaled (s : State) (n : Nat) : Bool := s.flag .CHG_ARR_act_scale n && fmtScaled (s.reg .CHG_ARR_act_fmt n)
def State.wgtScaled (s : State) (n : Nat) : Bool := s.flag .CHG_ARR_wgt_scale n && fmtScaled (s.reg .CHG_ARR_wgt_fmt n)

/-- Queues the engaged units pop: unit code of R171 and queue. -/
def State.consOf (s : State) (n : Nat) : List (Nat × Nat) :=
  let r (f : Fld) : Nat := s.reg f n
  (if s.flag .CHG_SYNC_eng_arr n then
    [(1, r .CHG_QB_act)] ++ (if s.actScaled n then [(1, r .CHG_QB_asc)] else [])
    ++ (if s.flag .CHG_ARR_wgt_reuse n then [] else [(1, r .CHG_QB_wgt)]
        ++ (if s.wgtScaled n then [(1, r .CHG_QB_wsc)] else [])
        ++ (if s.flag .CHG_ARR_sparse n then [(1, r .CHG_QB_meta)] else [])) else [])
  ++ (if s.flag .CHG_SYNC_eng_vec n then
    (if r .CHG_QB_vin_a = 16 then [] else [(2, r .CHG_QB_vin_a)])
    ++ (if s.flag .CHG_VEC_in_b_en n then [(2, r .CHG_QB_vin_b)] else []) else [])
  ++ (if s.flag .CHG_SYNC_eng_bnk n && s.flag .CHG_BNK_arg_en n then [(3, r .CHG_BNK_arg_q)] else [])
  ++ ((s.engAgs n).filter (fun g => s.flag .CHG_AG_dir (n * 8 + g) && s.reg .CHG_AG_q (n * 8 + g) != 16)).map
      (fun g => (4 + g, s.reg .CHG_AG_q (n * 8 + g)))

/-- Queues the engaged units push. -/
def State.prodOf (s : State) (n : Nat) : List (Nat × Nat) :=
  let r (f : Fld) : Nat := s.reg f n
  (if s.flag .CHG_SYNC_eng_arr n && s.flag .CHG_ARR_out_mode n then [(1, r .CHG_QB_out)] else [])
  ++ (if s.flag .CHG_SYNC_eng_vec n && s.writesOut n then
    [(2, r .CHG_QB_vout)] ++ (if s.flag .CHG_VEC_out_scale n then [(2, r .CHG_QB_vosc)] else []) else [])
  ++ (if s.flag .CHG_SYNC_eng_bnk n && s.flag .CHG_BNK_res_en n then [(3, r .CHG_BNK_res_q)] else [])
  ++ ((s.engAgs n).filter (fun g => !s.flag .CHG_AG_dir (n * 8 + g))).map (fun g => (4 + g, s.reg .CHG_AG_q (n * 8 + g)))

/-- R149 and R163 (step 7 of R131). -/
def streamBad (s : State) (n : Nat) : Bool :=
  let c := s.coreAt n
  let cons := s.consOf n
  let prod := s.prodOf n
  let allC := cons ++ c.pours.flatMap (·.cons)
  let allP := prod ++ c.pours.flatMap (·.prod)
  (cons ++ prod).any (fun x => decide (16 ≤ x.2) || !s.ringOk n x.2)
  || allC.any (fun x => allC.any (fun y => y.2 == x.2 && y.1 != x.1))
  || allP.any (fun x => allP.any (fun y => y.2 == x.2 && y.1 != x.1))
  || allP.any (fun x => allC.any (fun y => y == x))
  || (s.engAgs n).any (fun g =>
      let i := n * 8 + g
      let q := s.reg .CHG_AG_q i
      (List.range 4).any (fun l => agCount s n g l == 0)
      || s.reg .CHG_AG_len i == 0 || decide (4096 < s.reg .CHG_AG_len i)
      || decide (16 < q) || decide (4 < s.reg .CHG_AG_seg_lvl i)
      || (q == 16 && (!s.flag .CHG_AG_dir i || s.reg .CHG_AG_len i != 256)))
  || ((s.bnkAg n).any fun g => (List.range 4).any (fun l => agCount s n g l == 0))

/-- The format fields of an engaged array, vector unit and bank-command path (R47; step 2 of R131). -/
def formatBad (s : State) (n : Nat) : Bool :=
  let r (f : Fld) : Nat := s.reg f n
  let el (f : Nat) : Bool := fmtReserved f || f == 11
  (s.flag .CHG_SYNC_eng_arr n
    && (el (r .CHG_ARR_act_fmt) || el (r .CHG_ARR_wgt_fmt) || r .CHG_ARR_act_fmt == 0 || r .CHG_ARR_wgt_fmt == 0
        || el (r .CHG_ARR_out_fmt)))
  || (s.flag .CHG_SYNC_eng_vec n && (el (r .CHG_VEC_in_fmt_a) || el (r .CHG_VEC_in_fmt_b) || el (r .CHG_VEC_out_fmt)))
  || (s.flag .CHG_SYNC_eng_bnk n && el (r .CHG_BNK_fmt))

/-- The pair is listed, and has a sparse rate where sparsity is asked for (R67, R68; step 3 of R131). -/
def pairBad (s : State) (n : Nat) : Bool :=
  let a := s.reg .CHG_ARR_act_fmt n
  let w := s.reg .CHG_ARR_wgt_fmt n
  (pairRate2 a w).isNone || (s.flag .CHG_ARR_sparse n && !pairSparse a w)

/-- The 2:4 sparse mode is licensed (R8, R499). -/
def State.sparseLicensed (s : State) : Bool := bit s.misc.licence 5

/-- Cause and subcode with which START refuses the values a pour would latch; none where it starts (R131, R138). -/
def startCheck (s : State) (n : Nat) : Option (Nat × Nat) :=
  let ea := s.flag .CHG_SYNC_eng_arr n
  let ev := s.flag .CHG_SYNC_eng_vec n
  let eb := s.flag .CHG_SYNC_eng_bnk n
  if !ea && !ev && !eb && s.reg .CHG_SYNC_eng_ag n == 0 then some (1, 0x0A)
  else if formatBad s n then some (1, 4)
  else if ea && pairBad s n then some (1, 5)
  else if ea && arrBad s n then some (1, 6)
  else if ev && vecBad s n then some (1, 7)
  else if eb && bnkBad s n then some (1, 8)
  else if streamBad s n || (ev && decide (16 < s.reg .CHG_QB_vin_a n)) then some (1, 9)
  else if ea && s.flag .CHG_ARR_sparse n && !s.sparseLicensed then some (2, 0)
  else none

/-- Every block the pour would engage is idle (R125). -/
def State.engagedIdle (s : State) (n : Nat) : Bool :=
  !(s.flag .CHG_SYNC_eng_arr n && s.blkBusy n 0) && !(s.flag .CHG_SYNC_eng_vec n && s.blkBusy n 1)
  && !(s.flag .CHG_SYNC_eng_bnk n && s.blkBusy n 11)
  && (List.range 8).all (fun g => !(bit (s.reg .CHG_SYNC_eng_ag n) g && s.blkBusy n (2 + g)))

/-- Start the pour (R126): latch CHG_SYNC, apply start_sub, clear the FX flags, start every engaged unit; T0-T3 take K0
and K1 (R175); BNK_ERR starts anew (R276). -/
def startPour (n : Nat) : Eff := .get fun s =>
  let c := s.coreAt n
  let id := c.nextPour
  let ea := s.flag .CHG_SYNC_eng_arr n
  let ev := s.flag .CHG_SYNC_eng_vec n
  let eb := s.flag .CHG_SYNC_eng_bnk n
  let ags := s.reg .CHG_SYNC_eng_ag n
  let p : Pour := {
    id := id, addr := s.reg .SEQ_PC_addr n, event := hdrEvent c.hdr, endInc := s.reg .CHG_SYNC_end_inc n,
    remoteEn := s.flag .CHG_SYNC_remote_en n, remoteAddr := s.reg .CHG_SYNC_remote_addr n,
    remoteVal := s.reg .CHG_SYNC_remote_val n, arr := ea, vec := ev, bnk := eb, ags := ags,
    cons := s.consOf n, prod := s.prodOf n }
  let r : Option Run := some { pour := id }
  let k0 := s.reg .CHG_VEC_k0 n
  let k1 := s.reg .CHG_VEC_k1 n
  Eff.all [
    Eff.each ((List.range 8).filter (fun k => bit (s.reg .CHG_SYNC_start_sub n) k))
      (fun k => ctAdd n k (2 ^ 32 - 1)),
    setCore n (fun c => { c with
      pours := c.pours ++ [p], nextPour := id + 1,
      arr := if ea then r else c.arr, vec := if ev then r else c.vec, bnk := if eb then r else c.bnk,
      t := if ev then List.replicate 128 k0 ++ List.replicate 128 k1 else c.t }),
    Eff.each ((List.range 8).filter (fun g => bit ags g)) (fun g => setAg n g fun a => { a with run := r }),
    Eff.when ea (Eff.all [setReg .ARR_FX_nan n 0, setReg .ARR_FX_sat n 0, setReg .ARR_FX_inf n 0, setReg .ARR_FX_invalid n 0]),
    Eff.when ev (.seq (setReg .VEC_STATUS_fx n 0) (setReg .VEC_STATUS_iter n 0)),
    Eff.when eb (setReg .BNK_ERR_valid n 0)]

/-- START (R125, R126, R131). -/
def pourStartEff (n : Nat) : Eff := .get fun s =>
  if s.seqState n = 4 ∧ s.engagedIdle n ∧ (s.coreAt n).pours.length < 4 then
    .seq (settle n) (.get fun s =>
      match startCheck s n with
      | some (cause, sub) => seqError n cause sub (s.reg .SEQ_PC_addr n)
      | none => .seq (startPour n) (leaveRecord n))
  else .skip

/-- POUR_START (R126). -/
def execPourStart (n : SiteIx) (s : State) : Out := finish (Eff.when (s.coreLive n) (pourStartEff n)) s

/-! ## Completion and draining -/

/-- Every engaged unit of the pour has drained (R127). -/
def State.drained (s : State) (n : Nat) (p : Pour) : Bool :=
  let c := s.coreAt n
  let off (r : Option Run) : Bool := !(r.any (fun x => x.pour == p.id))
  off c.arr && c.passes.all (fun x => x.pour != p.id) && off c.vec && off c.bnk
  && (s.pathAt n).out.all (fun e => e.pour != p.id || (if e.fence.isSome then e.done.isSome else e.accepted))
  && (List.range 8).all (fun g => let a := s.agAt n g
      off a.run && a.loads.all (fun l => l.pour != p.id) && a.stores.all (fun x => x != p.id))

/-- A remote ADD that failed increments nothing; the CCC writes SYNC_LOST naming the target (R132). -/
def syncLost (n addr : Nat) : Eff := .get fun s => report 0x12 0 n addr 0 ((s.coreFlask n).getD 31) [] (n / 96)

/-- The oldest pour completes: its end actions in the order of R128. -/
def pourCompleteEff (n : Nat) : Eff := .get fun s =>
  match (s.coreAt n).pours with
  | [] => .skip
  | p :: ps =>
    if s.drained n p then Eff.all [
      setCore n (fun c => { c with pours := ps }),
      addReg .SEQ_DONE_count n 1, setReg .SEQ_DONE_fx n p.fx, setReg .SEQ_DONE_addr n p.addr,
      setReg .SEQ_STATUS_fx n (fxOr (s.reg .SEQ_STATUS_fx n) p.fx),
      Eff.each ((List.range 8).filter (fun k => bit p.endInc k)) (fun k => ctAdd n k 1),
      Eff.when p.remoteEn (addGlobal (coreIss n) (s.coreFlask n) p.remoteAddr p.remoteVal
        (fun _ => syncLost n p.remoteAddr)),
      Eff.when p.event (coreEvent n 0)]
    else .skip

/-- POUR_COMPLETE (R128). -/
def execPourComplete (n : SiteIx) (s : State) : Out := finish (Eff.when (s.coreLive n) (pourCompleteEff n)) s

/-- DRAIN ends when no pour is in flight: the fetch error, the branch, LAST, the pause or the next record
(R130, R134, R135). -/
def drainEndEff (n : Nat) : Eff := .get fun s =>
  let c := s.coreAt n
  if s.seqState n ≠ 5 ∨ !c.pours.isEmpty then .skip
  else if c.drainErr ≠ 0 then seqError n c.drainErr 0 (s.reg .SEQ_PC_addr n)
  else
    let branch := hdrBranch c.hdr && s.selTrue n (hdrSel c.hdr)
    if !branch && hdrLast c.hdr then
      Eff.all [setSeqState n 0, setCore n (fun c => { c with pauseReq := false }), coreEvent n 1]
    else
      let next := if branch then wrap 43 ((s.reg .SEQ_PC_addr n : Int) + hdrOff c.hdr) else s.nextRec n
      if c.pauseReq && s.preemptPoint n then
        Eff.all [setReg .SEQ_PC_addr n next, setSeqState n 6, setCore n (fun c => { c with pauseReq := false })]
      else fetchAt n next

/-- DRAIN_END (R130). -/
def execDrainEnd (n : SiteIx) (s : State) : Out := finish (Eff.when (s.coreLive n) (drainEndEff n)) s

/-- REMOTE_ADD_FAILURE (R132). -/
def execRemoteAddFailure (n : SiteIx) (addr : Word) (s : State) : Out := finish (syncLost n addr.toNat) s

end Sys2Proof.Machine
end

