-- ==== Sys2Proof/Machine/Queues.lean ====
section
/-! DEFINITION. Queues, address generators, counters and comparators (05_queues_and_address_generation.md). -/
namespace Sys2Proof.Machine

/-- The watchdog of a core counts nothing while progress is made; a lost word met by a unit of a core stops the sequencer
and marks the item uncorrectable (R224, R232). -/
def coreLost (n : Nat) : Eff := .seq (setCore n fun c => { c with loadUe := true }) (seqStop n 5)

/-- A queue pop of a unit: the bytes go on, the queue moves; a lost word is reported and stops the core (R232). -/
def qPop (n q p len : Nat) (k : List Byte → Eff) : Eff := .get fun s =>
  let (d, bad) := s.qPeek n q p len
  Eff.all [qDrop n q p len, k d,
    Eff.when bad (.seq (report 0x24 0 n (s.entryAddr n q (s.queueAt n q).head) 0 ((s.coreFlask n).getD 31) [] (n / 96))
      (coreLost n))]

/-- Queue space that loads already issued will take: where the last of them ends, from the open entry on (R158). -/
def reserved (fill : Nat) (ls : List Load) : Nat :=
  ls.foldl (fun pos l => let p := pos + l.data.length; if l.close then (p + 127) / 128 * 128 else p) fill

/-- The generator's run after one step: over at its last address (R121). -/
def agStep (n g : Nat) (r : Run) (total : Nat) (f : AgSt → AgSt) : Eff :=
  .seq (progress n) (setAg n g fun a =>
    f { a with run := if r.done + 1 = total then none else some { r with done := r.done + 1 } })

/-- Take the oldest COMMITTED accumulator entry as bytes (R100, R106, R161). -/
def popAcc (n : Nat) (k : AccEnt → Eff) : Eff := .get fun s =>
  match (s.coreAt n).order with
  | [] => .skip
  | e :: es => Eff.all [setCore n (fun c => { c with order := es }), setAcc n e {}, k (s.accAt n e)]

/-- FX flags join those of a pour (R60). -/
def pourFx (n pour f : Nat) : Eff := Eff.when (f != 0) (setCore n fun c => { c with
  pours := c.pours.map (fun p => if p.id = pour then { p with fx := fxOr p.fx f } else p) })

/-- One load access (R156-R158). -/
def agLoad (n g : Nat) (r : Run) : Eff := .get fun s =>
  let i := n * 8 + g
  let q := s.reg .CHG_AG_q i
  let len := s.reg .CHG_AG_len i
  let a := agAddr s n g r.done
  let close := agCloses s n g r.done
  match s.ring n q with
  | none => .skip
  | some (_, z) =>
    let x := s.queueAt n q
    if reserved x.fill (s.agAt n g).loads + len ≤ (z - x.count) * 128 then
      readMem (coreIss n) true (s.coreFlask n) a len (s.reg .CHG_AG_hint i) fun rd =>
        .seq (agStep n g r (agTotal s n g) fun a => { a with
            loads := a.loads ++ [{ pour := r.pour, q := q, data := rd.data, close := close }] })
          (Eff.when rd.bad (coreLost n))
    else qStall n q true

/-- One store access (R156, R158, R161). -/
def agStore (n g : Nat) (r : Run) : Eff := .get fun s =>
  let i := n * 8 + g
  let q := s.reg .CHG_AG_q i
  let len := s.reg .CHG_AG_len i
  let a := agAddr s n g r.done
  let close := agCloses s n g r.done
  let write (d : List Byte) : Eff :=
    .seq (writeMem (coreIss n) true (s.coreFlask n) a (s.reg .CHG_AG_hint i) d (fun _ => .skip))
      (agStep n g r (agTotal s n g) fun a => { a with stores := a.stores ++ [r.pour] })
  if q = 16 then popAcc n fun e =>
    .seq (write ((if e.poison then List.replicate 64 nan32 else e.v).flatMap (fun v => leBytes v 4)))
      (Eff.when e.poison (pourFx n r.pour fxNan))
  else if s.qHeld n q 128 < len then qStall n q false
  else qPop n q 128 len fun d => .seq (write d) (Eff.when close (qSkip n q))

/-- AG_ACCESS (R156): the next access of an engaged generator that makes accesses. -/
def agAccess (n g : Nat) (ups : List Upset) : Eff := .get fun s =>
  match (s.agAt n g).run with
  | none => .skip
  | some r =>
    if (s.coreAt n).bnk.isSome && s.reg .CHG_BNK_addr_ag n == g then .skip
    else if s.farHeld (n / 96) (s.coreFlask n) (agAddr s n g r.done) then .skip
    else .seq (applyUpsets ups) (if s.flag .CHG_AG_dir (n * 8 + g) then agStore n g r else agLoad n g r)

/-- AG_ACCESS (R156). -/
def execAgAccess (n : SiteIx) (g : Fin 8) (ups : List Upset) (s : State) : Out :=
  finish (Eff.when (s.coreLive n) (agAccess n g ups)) s

/-- The oldest load's data is pushed, in walk order (R158). -/
def loadPush (n g : Nat) : Eff := .get fun s =>
  match (s.agAt n g).loads with
  | [] => .skip
  | l :: ls => Eff.all [setAg n g (fun a => { a with loads := ls }), qPush n l.q 128 l.data,
      Eff.when l.close (qClose n l.q)]

/-- LOAD_DATA_PUSH (R158). -/
def execLoadDataPush (n : SiteIx) (g : Fin 8) (s : State) : Out := finish (Eff.when (s.coreLive n) (loadPush n g)) s

/-- STORE_ACK (R159): the oldest store of the generator is acknowledged. -/
def storeAckEff (n : SiteIx) (g : Fin 8) : Eff :=
  .seq (progress n) (setAg n g fun a => { a with stores := a.stores.drop 1 })

/-- STORE_ACK (R159): the oldest store of the generator is acknowledged. -/
def execStoreAck (n : SiteIx) (g : Fin 8) (s : State) : Out :=
  finish (Eff.when (s.coreLive n && !(s.agAt n g).stores.isEmpty) (storeAckEff n g)) s

/-- A stall ends once its condition clears (R148). -/
def queueStallEnd (n q : Nat) : Eff := .get fun s => setQueue n q fun x => { x with
  stallPop := x.stallPop && s.qHeld n q 128 == 0, stallPush := x.stallPush && s.qRoom n q 128 == 0 }

/-- QUEUE_STALL_END (R148). -/
def execQueueStallEnd (n : SiteIx) (q : Fin 16) (s : State) : Out :=
  finish (Eff.when (s.coreLive n) (queueStallEnd n q)) s

/-- Unit that produces or consumes a queue, by the pours in flight (R171). -/
def State.qUnit (s : State) (n q : Nat) (prod : Bool) : Nat :=
  (((s.coreAt n).pours.flatMap (fun p => if prod then p.prod else p.cons)).find? (fun x => x.2 == q)).elim 0 (·.1)

/-- Copy every Q_STAT into Q_SNAP, and SEQ_PC (R154). -/
def snapshot (n : Nat) : Eff := Eff.each (List.range 16) fun q => .get fun s =>
  let x := s.queueAt n q
  let i := n * 16 + q
  let z := (s.ring n q).elim 1 (·.2)
  Eff.all [setReg .Q_SNAP_cons i (s.qUnit n q false), setReg .Q_SNAP_prod i (s.qUnit n q true),
    setReg .Q_SNAP_stall_pop i (b2n x.stallPop), setReg .Q_SNAP_stall_push i (b2n x.stallPush),
    setReg .Q_SNAP_open_fill i x.fill, setReg .Q_SNAP_head_used i x.used, setReg .Q_SNAP_count i x.count,
    setReg .Q_SNAP_tail i ((x.head + x.count) % z), setReg .Q_SNAP_head i x.head]

/-- The watchdog reaches 2^20 (R153, R154): the event, the capture or snap_lost, the count reset. -/
def queueStall (n : Nat) : Eff := .get fun s =>
  if (s.coreAt n).pours.isEmpty then .skip
  else Eff.all [setReg .Q_WDOG_idle n 0,
    if s.flag .Q_WDOG_snap_valid n then setReg .Q_WDOG_snap_lost n 1
    else Eff.all [snapshot n, setReg .Q_SNAPPC_addr n (s.reg .SEQ_PC_addr n), setReg .Q_WDOG_snap_valid n 1],
    setCore n (fun c => if c.stallDone = s.reg .SEQ_DONE_count n then { c with stalls := c.stalls + 1 }
      else { c with stalls := 1, stallDone := s.reg .SEQ_DONE_count n }),
    coreEvent n 3]

/-- QUEUE_STALL (R154). -/
def execQueueStall (n : SiteIx) (s : State) : Out := finish (Eff.when (s.coreLive n) (queueStall n)) s

/-- Q_CTL.flush empties the named queues in IDLE, PAUSED or ERROR (R151). -/
def qFlush (n bitmap : Nat) : Eff := .get fun s =>
  let st := s.seqState n
  Eff.when (st == 0 || st == 6 || st == 7)
    (Eff.each ((List.range 16).filter (fun q => bit bitmap q)) (fun q => qEmpty n q))

/-- Q_CTL_FLUSH (R151). -/
def execQCtlFlush (n : SiteIx) (bitmap : BitVec 16) (s : State) : Out :=
  finish (Eff.when (s.coreLive n) (qFlush n bitmap.toNat)) s

/-- COUNTER_ADD (R164, R167, R168): an ADD of an issuer under a flask; the status answers the issuer. -/
def counterAddEff (n : SiteIx) (ct : Fin 8) (v : BitVec 32) (iss : Issuer) (fl : FlaskIx) : Eff :=
  .seq (.upd (.rsp (leBytes stOk 4)))
    (addTo iss (some fl.val) (counterAddr n ct) v.toNat (fun st => .upd (.rsp (leBytes st 4))))

/-- COUNTER_ADD (R164, R167, R168): an ADD of an issuer under a flask; the status answers the issuer. -/
def execCounterAdd (n : SiteIx) (ct : Fin 8) (v : BitVec 32) (iss : Issuer) (fl : FlaskIx) (s : State) : Out :=
  finish (counterAddEff n ct v iss fl) s

end Sys2Proof.Machine
end

