-- ==== Sys2Proof/Machine/Array.lean ====
section
/-! DEFINITION. The matrix array (03_matrix_array.md): tiles, passes, group sums (R70-R74), the south accumulator queue
and the array's errors. -/
namespace Sys2Proof.Machine

/-- Element i of width w of a packed little-endian string (R50). -/
def elemAt (w packed i : Nat) : Nat := packed / 2 ^ (w * i) % 2 ^ w

/-- Codes of width w packed little-endian into bytes (R50). -/
def packCodes (w : Nat) (l : List Nat) : List Byte :=
  leBytes (l.foldr (fun c acc => c % 2 ^ w + 2 ^ w * acc) 0) ((l.length * w + 7) / 8)

/-- Bytes of a weight tile, of its scales and of its metadata (R83, R89). -/
def tileBytes (fmt : Nat) : Nat := 8192 * fmtWidth fmt / 8
def tileScales (sparse : Bool) : Nat := if sparse then 512 else 256
def tileMeta : Nat := 2048

/-- Bytes a vector of activations takes, and its scale bytes (R82, ASC). -/
def actBytes (fmt : Nat) (sparse : Bool) : Nat := (if sparse then 256 else 128) * fmtWidth fmt / 8
def ascBytes (sparse : Bool) : Nat := if sparse then 8 else 4

/-- Passes of the running pour that still need a tile loaded (R89, R91). -/
def State.tilesWanted (s : State) (n : Nat) : Bool :=
  let c := s.coreAt n
  match c.arr with
  | none => false
  | some r => !s.flag .CHG_ARR_wgt_reuse n && decide (r.done < s.reg .CHG_ARR_repeats n) && c.shadow.isNone && !c.shadowBusy

/-- The whole next tile has arrived (R83, R88, R89): its entries leave WGT, WSC and META and the shadow is FULL. An
empty queue sets its stall bit (R84). -/
def tileLoad (n : Nat) : Eff := .get fun s =>
  let f := s.reg .CHG_ARR_wgt_fmt n
  let sp := s.flag .CHG_ARR_sparse n
  let p := payload f
  let wq := s.reg .CHG_QB_wgt n
  let sq := s.reg .CHG_QB_wsc n
  let mq := s.reg .CHG_QB_meta n
  let okW := decide (tileBytes f ≤ s.qHeld n wq p)
  let okS := !s.wgtScaled n || decide (tileScales sp ≤ s.qHeld n sq 128)
  let okM := !sp || decide (tileMeta ≤ s.qHeld n mq 128)
  if s.tilesWanted n then
    if okW && okS && okM then
      qPop n wq p (tileBytes f) fun w =>
        let rest (sc md : List Byte) : Eff := Eff.all [
          qSkip n wq, setReg .ARR_STATUS_stall_wgt n 0, setReg .ARR_STATUS_stall_wsc n 0, setReg .ARR_STATUS_stall_meta n 0,
          setCore n (fun c => { c with shadow := some { fmt := f, sparse := sp, w := w, sc := sc, md := md } })]
        let withMeta (sc : List Byte) : Eff :=
          if sp then qPop n mq 128 tileMeta (fun md => .seq (qSkip n mq) (rest sc md)) else rest sc []
        if s.wgtScaled n then qPop n sq 128 (tileScales sp) (fun sc => .seq (qSkip n sq) (withMeta sc)) else withMeta []
    else Eff.all [
      Eff.when (!okW) (.seq (setReg .ARR_STATUS_stall_wgt n 1) (qStall n wq false)),
      Eff.when (!okS) (.seq (setReg .ARR_STATUS_stall_wsc n 1) (qStall n sq false)),
      Eff.when (!okM) (.seq (setReg .ARR_STATUS_stall_meta n 1) (qStall n mq false))]
  else .skip

/-- TILE_LOAD_COMPLETE (R89). -/
def execTileLoadComplete (n : SiteIx) (s : State) : Out := finish (Eff.when (s.coreLive n) (tileLoad n)) s

/-- SHADOW_RELEASE (R89): the wavefront has passed the last cell. -/
def shadowReleaseEff (n : SiteIx) : Eff :=
  setCore n fun c => { c with shadowBusy := false, shadow := none }

/-- SHADOW_RELEASE (R89): the wavefront has passed the last cell. -/
def execShadowRelease (n : SiteIx) (s : State) : Out :=
  finish (Eff.when (s.coreLive n && (s.coreAt n).shadowBusy) (shadowReleaseEff n)) s

/-- Accumulator step of repeat r of the pour (R98). -/
def passStep (s : State) (n r : Nat) : Nat :=
  let q := s.reg .CHG_ARR_acc_seq n
  if q = 4 then
    let k := s.reg .CHG_ARR_k_passes n
    if r % k = 0 then 1 else if r % k = k - 1 then 3 else 2
  else q

/-- The entry is COMMITTED, or a HOLD pass inside the array will commit it (R101). -/
def State.entryHeld (s : State) (n e : Nat) : Bool :=
  (s.accAt n e).st == .committed ||
  (s.coreAt n).passes.any (fun p => !p.push && (p.step == 0 || p.step == 3) && decide ((e + 2048 - p.base) % 2048 < p.m))

/-- The parameters a pass latches on entry (R86). -/
def latchPass (s : State) (n : Nat) (r : Run) (t : Tile) : Pass where
  pour := r.pour
  act := s.reg .CHG_ARR_act_fmt n
  wgt := s.reg .CHG_ARR_wgt_fmt n
  actScale := s.actScaled n
  wgtScale := s.wgtScaled n
  sparse := s.flag .CHG_ARR_sparse n
  accInt := s.flag .CHG_ARR_acc_type n
  m := s.reg .CHG_ARR_m_count n
  k := s.reg .CHG_ARR_k_active n
  base := s.reg .CHG_ARR_acc_base n
  step := passStep s n r.done
  push := s.flag .CHG_ARR_out_mode n
  outFmt := s.reg .CHG_ARR_out_fmt n
  sat := s.flag .CHG_ARR_sat n
  tile := t

/-- The next pass enters (R86, R88, R91, R101): its tile is active or FULL in the shadow and no entry of its range is
held; a held entry sets stall_acc. The last pass is the issue end (R121); acc_base advances after a LAST step (R85). -/
def passEntry (n : Nat) : Eff := .get fun s =>
  let c := s.coreAt n
  match c.arr with
  | none => .skip
  | some r =>
    let reuse := s.flag .CHG_ARR_wgt_reuse n
    let m := s.reg .CHG_ARR_m_count n
    let base := s.reg .CHG_ARR_acc_base n
    let tile := if reuse then c.active else if c.shadowBusy then none else c.shadow
    match tile with
    | none => .skip
    | some t =>
      if (List.range m).any (fun k => s.entryHeld n (base + k)) then setReg .ARR_STATUS_stall_acc n 1
      else
        let p := latchPass s n r t
        let last := decide (s.reg .CHG_ARR_repeats n ≤ r.done + 1)
        Eff.all [progress n, setReg .ARR_STATUS_stall_acc n 0,
          setCore n (fun c => { c with
            passes := c.passes ++ [p], active := some t,
            shadow := if reuse then c.shadow else none, shadowBusy := if reuse then c.shadowBusy else true,
            arr := if last then none else some { r with done := r.done + 1 } }),
          Eff.when (s.flag .CHG_ARR_acc_advance n && p.step == 3) (setReg .CHG_ARR_acc_base n ((base + m) % 2048))]

/-- PASS_ENTRY (R86). -/
def execPassEntry (n : SiteIx) (s : State) : Out := finish (Eff.when (s.coreLive n) (passEntry n)) s

/-! ## One vector (R70-R74, R93-R96) -/

/-- A vector's operands: packed activations and scales, packed tile, its scales and metadata. -/
structure VecIn where
  act : Nat
  asc : List Byte
  w : Nat
  wsc : List Byte
  md : Nat

/-- Row i of column j: activation element and weight as values; none when the row is beyond the active count
(R85, R93-R95). -/
def rowPair (p : Pass) (x : VecIn) (j i : Nat) : Option (FV × FV) :=
  let el := if p.sparse then
      let nib := x.md / 2 ^ (256 * (i / 2) + 4 * j) % 16
      4 * (i / 2) + (if i % 2 = 0 then nib % 4 else nib / 4)
    else i
  if (if p.sparse then 4 * (i / 2) else i) < p.k then
    some (ofFmt p.act (elemAt (fmtWidth p.act) x.act el), ofFmt p.wgt (elemAt (fmtWidth p.wgt) x.w (64 * i + j)))
  else none

/-- Scale codes of group g for column j; 127 where scaling is off (R63, R96). -/
def groupScales (p : Pass) (x : VecIn) (j g : Nat) : Nat × Nat :=
  (if p.actScale then (x.asc.getD g 127).toNat else 127, if p.wgtScale then (x.wsc.getD (64 * g + j) 127).toNat else 127)

/-- Products of a group: an inactive row gives +0; a 0xFF scale makes the operand a NaN (R66, R69, R85). -/
def groupProducts (p : Pass) (x : VecIn) (j g : Nat) : List (Fx FV) :=
  let rows := if p.sparse then 16 else 32
  let sc := groupScales p x j g
  (List.range rows).map fun k =>
    match rowPair p x j (rows * g + k) with
    | none => (.fin false 0 0, 0)
    | some (a, w) => (if sc.1 = 255 then .nan else a : FV).mul (if sc.2 = 255 then .nan else w)

/-- One group sum as an FP32 code (R70; R71 for the 16-bit pairs). -/
def groupSum (p : Pass) (x : VecIn) (j g : Nat) : Fx Nat :=
  let ps := groupProducts p x j g
  let fl := ps.foldl (fun f r => fxOr f r.2) 0
  if p.act = 1 ∨ p.act = 2 then
    match ps.map (fun r => toF32 r.1) with
    | [] => (0, fl)
    | c :: cs =>
      let r := cs.foldl (fun acc y => let z := add32 acc.1 y.1; (z.1, fxOr acc.2 (fxOr y.2 z.2))) c
      (r.1, fxOr fl r.2)
  else
    let sc := groupScales p x j g
    let e := sumFV (ps.map (·.1))
    let r := toF32 e.1
    let z := toF32 ((ofFmt 0 r.1).scale ((sc.1 : Int) + sc.2 - 254))
    (z.1, fxOr fl (fxOr e.2 (fxOr r.2 z.2)))

/-- One group sum in INT32 accumulation: exact (R74). -/
def groupInt (p : Pass) (x : VecIn) (j g : Nat) : Int :=
  let rows := if p.sparse then 16 else 32
  (List.range rows).foldl (fun acc k =>
    match rowPair p x j (rows * g + k) with
    | some (a, w) => (match (a.mul w).1 with | .fin s m e => acc + rneInt s m e | _ => acc)
    | none => acc) 0

/-- The new value of column j of an entry (R72, R74, R98): `old` is the entry's value under ACCUM and LAST. -/
def column (p : Pass) (x : VecIn) (old : Option Nat) (j : Nat) : Fx Nat :=
  let gs := List.range (if p.sparse then 8 else 4)
  if p.accInt then
    let start : Fx Int := ((old.map (signed 32)).getD 0, 0)
    let r := gs.foldl (fun acc g => let z := satAdd32 acc.1 (groupInt p x j g); (z.1, fxOr acc.2 z.2)) start
    (wrap 32 r.1, r.2)
  else
    let ss := gs.map (groupSum p x j)
    let fold (st : Fx Nat) (l : List (Fx Nat)) : Fx Nat :=
      l.foldl (fun acc y => let z := add32 acc.1 y.1; (z.1, fxOr acc.2 (fxOr y.2 z.2))) st
    match old, ss with
    | some v, l => fold (v, 0) l
    | none, s0 :: l => fold s0 l
    | none, [] => (0, 0)

/-- The pass's FX flags reach the pour and ARR_FX (R60, R108). -/
def arrFx (n pour f : Nat) : Eff := Eff.all [pourFx n pour f,
  Eff.when (bit f 0) (setReg .ARR_FX_nan n 1), Eff.when (bit f 1) (setReg .ARR_FX_sat n 1),
  Eff.when (bit f 2) (setReg .ARR_FX_inf n 1), Eff.when (bit f 3) (setReg .ARR_FX_invalid n 1)]

/-- An array error (R104, R105): the record, and the stop with cause ARRAY_ERROR; passes inside complete. -/
def arrayError (n kind : Nat) : Eff := .get fun s =>
  .seq (report kind 0 n 0 0 ((s.coreFlask n).getD 31) [] (n / 96)) (seqStop n 4)

/-- A corrected accumulator error is counted and recorded (R105, R222). -/
def accCorrected (n : Nat) : Eff := .get fun s => Eff.all [satReg .ARR_ERR_acc_ce_count n 1, setReg .ARR_ERR_acc_ce n 1,
  report 0x23 0 n 0 0 ((s.coreFlask n).getD 31) [] (n / 96)]

/-- The oldest pass after one more vector; its end closes the segments of its streams (R83, R147). -/
def passStepEff (n : Nat) (p : Pass) (bad : Bool) : Eff := .get fun s =>
  if p.m ≤ p.done + 1 then Eff.all [
    setCore n (fun c => { c with passes := c.passes.drop 1 }),
    qSkip n (s.reg .CHG_QB_act n), Eff.when p.actScale (qSkip n (s.reg .CHG_QB_asc n)),
    Eff.when (p.push && (p.step == 0 || p.step == 3)) (qClose n (s.reg .CHG_QB_out n)),
    addReg .ARR_PERF_passes n 1]
  else setCore n (fun c => { c with passes := { p with done := p.done + 1, bad := bad } :: c.passes.drop 1 })

/-- Write one vector's result into its entry and commit it where the step says so (R97-R99, R102, R106). `accErr` is the
number of failed bits met when the entry is read. -/
def writeEntry (n : Nat) (p : Pass) (act asc : List Byte) (parityBad : Bool) (accErr : Nat) : Eff := .get fun s =>
  let e := (p.base + p.done) % 2048
  let old := s.accAt n e
  let keep := p.step = 2 ∨ p.step = 3
  let undef := keep && (old.st == .free || old.int != p.accInt)
  let bad := p.bad || parityBad || decide (3 ≤ accErr)
  let x : VecIn := { act := leNat act, asc := asc, w := leNat p.tile.w, wsc := p.tile.sc, md := leNat p.tile.md }
  let start (j : Nat) : Option Nat :=
    if keep then some (if undef then Config.undefWord s.tick j % 2 ^ 32 else old.v.getD j 0) else none
  let cols := (List.range 64).map (fun j => column p x (start j) j)
  let fx := cols.foldl (fun f c => fxOr f c.2) 0
  let v := cols.map (·.1)
  let poison := bad || (decide keep && old.poison)
  let commit := p.step == 0 || p.step == 3
  Eff.all [
    Eff.when undef (.upd .tick),
    Eff.when (parityBad && !p.bad) (setReg .ARR_ERR_wpar n 1),
    Eff.when (decide (accErr = 1 ∨ accErr = 2)) (accCorrected n),
    Eff.when (decide (3 ≤ accErr)) (setReg .ARR_ERR_acc_ue n 1),
    if commit && p.push then
      let out := (if poison then List.replicate 64 FV.nan else v.map (fun c => if p.accInt then intFV (signed 32 c) else ofFmt 0 c))
      let rs := out.map (toFmt p.outFmt p.sat)
      Eff.all [setAcc n e {}, qPush n (s.reg .CHG_QB_out n) 128 (packCodes (fmtWidth p.outFmt) (rs.map (·.1))),
        arrFx n p.pour (fxOr fx (rs.foldl (fun f r => fxOr f r.2) 0))]
    else Eff.all [
      setAcc n e { st := if commit then .committed else .openE, v := v, int := p.accInt, poison := poison },
      Eff.when commit (setCore n fun c => { c with order := c.order ++ [e] }), arrFx n p.pour fx],
    Eff.when (bad && !p.bad) (Eff.each (List.range p.done) fun k => .get fun s =>
      let y := s.accAt n (p.base + k)
      Eff.when (y.st != .free) (setAcc n (p.base + k) { y with poison := true })),
    passStepEff n p bad,
    Eff.when (parityBad && !p.bad) (arrayError n 0x10),
    Eff.when (decide (3 ≤ accErr) && !p.bad) (arrayError n 0x11)]

/-- The next vector of the oldest pass inside the array (R79, R84, R98). -/
def accWrite (n : Nat) (parityBad : Bool) (accErr : Nat) : Eff := .get fun s =>
  match (s.coreAt n).passes with
  | [] => .skip
  | p :: _ =>
    let aq := s.reg .CHG_QB_act n
    let sq := s.reg .CHG_QB_asc n
    let oq := s.reg .CHG_QB_out n
    let pl := payload p.act
    let okA := decide (actBytes p.act p.sparse ≤ s.qHeld n aq pl)
    let okS := !p.actScale || decide (ascBytes p.sparse ≤ s.qHeld n sq 128)
    let okO := !(p.push && (p.step == 0 || p.step == 3)) || decide (64 * fmtWidth p.outFmt / 8 ≤ s.qRoom n oq 128)
    if okA && okS && okO then
      Eff.all [setReg .ARR_STATUS_stall_act n 0, setReg .ARR_STATUS_stall_asc n 0, setReg .ARR_STATUS_stall_out n 0,
        qPop n aq pl (actBytes p.act p.sparse) fun a =>
          if p.actScale then qPop n sq 128 (ascBytes p.sparse) (fun b => writeEntry n p a b parityBad accErr)
          else writeEntry n p a [] parityBad accErr]
    else Eff.all [
      Eff.when (!okA) (.seq (setReg .ARR_STATUS_stall_act n 1) (qStall n aq false)),
      Eff.when (!okS) (.seq (setReg .ARR_STATUS_stall_asc n 1) (qStall n sq false)),
      Eff.when (!okO) (.seq (setReg .ARR_STATUS_stall_out n 1) (qStall n oq true))]

/-- ACCUMULATOR_WRITE (R98). -/
def execAccumulatorWrite (n : SiteIx) (parityBad : Bool) (accErr : Nat) (s : State) : Out :=
  finish (Eff.when (s.coreLive n) (accWrite n parityBad accErr)) s

/-- A stall bit clears in the cycle after its condition does (R84). -/
def arrayStallEnd (n : Nat) : Eff := .get fun s =>
  let clear (f : Fld) (b : Bool) : Eff := Eff.when b (setReg f n 0)
  let held (q : Fld) : Bool := decide (0 < s.qHeld n (s.reg q n) 128)
  Eff.all [clear .ARR_STATUS_stall_act (held .CHG_QB_act), clear .ARR_STATUS_stall_asc (held .CHG_QB_asc),
    clear .ARR_STATUS_stall_wgt (held .CHG_QB_wgt), clear .ARR_STATUS_stall_wsc (held .CHG_QB_wsc),
    clear .ARR_STATUS_stall_meta (held .CHG_QB_meta),
    clear .ARR_STATUS_stall_out (decide (0 < s.qRoom n (s.reg .CHG_QB_out n) 128)),
    clear .ARR_STATUS_stall_acc (!(List.range (s.reg .CHG_ARR_m_count n)).any
      (fun k => s.entryHeld n (s.reg .CHG_ARR_acc_base n + k)))]

/-- ARRAY_STALL_END (R84). -/
def execArrayStallEnd (n : SiteIx) (s : State) : Out := finish (Eff.when (s.coreLive n) (arrayStallEnd n)) s

/-- Zero the array's performance counters (R108). -/
def arrPerfClear (n : Nat) : Eff := Eff.each [.ARR_PERF_issue, .ARR_PERF_bubble, .ARR_PERF_stall, .ARR_PERF_passes]
  fun r => setReg r n 0

/-- ARR_PERF_CLEAR (R109). -/
def execArrPerfClear (n : SiteIx) (s : State) : Out := finish (Eff.when (s.coreLive n) (arrPerfClear n)) s

end Sys2Proof.Machine
end

