-- ==== Sys2Proof/Machine/MemCmds.lean ====
section
/-! DEFINITION. Commands on stacked memory, its slice caches and its error correction (07_stacked_memory.md,
08_error_correction.md). -/
namespace Sys2Proof.Machine

/-- Flask of the PF's memory window, and of a VF's function (R385, R387, R388). -/
def State.fnFlask (s : State) (f : Nat) : Option Nat :=
  if f = 0 then some (s.reg .WIN_CTL_flask 0) else if s.flaskExists (f - 1) then some (f - 1) else none

/-- Flask an issuer's accesses are checked against (R39); a ladle engine's is its running descriptor's. -/
def State.issFlask (s : State) : Issuer → Option Nat
  | .core n => s.coreFlask n
  | .ladle e => s.ladleFlask e
  | .host f => s.fnFlask f
  | .peer ep => (s.members.find? (fun x => x.2 == ep)).map (·.1)
  | .fw _ => none

/-- Firmware's own accesses are not in R39's table. -/
def issChecked : Issuer → Bool
  | .fw _ => false
  | _ => true

/-- Hint of an issuer's request: host, fabric and firmware requests carry none (R202). -/
def hintOf (iss : Issuer) (hint : Nat) : Nat :=
  match iss with
  | .core _ => hint
  | .ladle _ => hint
  | _ => 0

/-- MEMORY_READ (R220): the response is the status, then the data. -/
def memoryReadEff (iss : Issuer) (addr len : Nat) (hint : Fin 4) (ups : List Upset) : Eff :=
  .seq (applyUpsets ups) (.get fun s =>
    readMem iss (issChecked iss) (s.issFlask iss) addr len (hintOf iss hint) (fun r => .upd (.rsp (leBytes r.status 4 ++ r.data))))

/-- MEMORY_READ (R220): the response is the status, then the data. -/
def execMemoryRead (iss : Issuer) (addr len : Nat) (hint : Fin 4) (ups : List Upset) (s : State) : Out :=
  finish (memoryReadEff iss addr len hint ups) s

/-- MEMORY_WRITE (R199): the response is the status. -/
def memoryWriteEff (iss : Issuer) (addr : Nat) (hint : Fin 4) (data : List Byte) (ups : List Upset) : Eff :=
  .seq (applyUpsets ups) (.get fun s =>
    writeMem iss (issChecked iss) (s.issFlask iss) addr (hintOf iss hint) data (fun st => .upd (.rsp (leBytes st 4))))

/-- MEMORY_WRITE (R199): the response is the status. -/
def execMemoryWrite (iss : Issuer) (addr : Nat) (hint : Fin 4) (data : List Byte) (ups : List Upset) (s : State) : Out :=
  finish (memoryWriteEff iss addr hint data ups) s

/-- The pending write-back of a line: corrected words are stored clean; with every word left out it is skipped
(R221). -/
def writeBack (line : Nat) : Eff := .get fun s =>
  let m := Store.get 0 s.wb line
  let sl := line / 2 ^ 24
  let dram := decide (line * 64 < stackedEnd)
  if m = 0 then .skip
  else Eff.all [.upd (.wb line 0),
    if m % 256 = 0 then Eff.when dram (addReg .ECC_WB_skipped sl 1)
    else Eff.all [
      Eff.each ((List.range 8).filter (fun k => bit m k)) (fun k => .get fun s =>
        let w := line * 8 + k
        let r := s.decodeWord w
        Eff.when (r.verdict == 1 || r.verdict == 2) (putWord w (wordBytes r.data) false)),
      Eff.when dram (addReg .ECC_WB_done sl 1)]]

/-- ECC_WRITE_BACK (R221). -/
def execEccWriteBack (line : Nat) (s : State) : Out := finish (writeBack line) s

/-- The rate MC_CFG.refresh asks for; its reserved values act as the reset value DOUBLE (R18, R212). -/
def State.refreshRate (s : State) (sl : Nat) : Nat := let r := s.reg .MC_CFG_refresh sl; if 2 ≤ r then 1 else r

/-- One row-refresh command of a bank (R193, R196): the bank's row closes; once every bank has passed a slot the rate
asked for is in force. -/
def refreshSlot (sl b : Nat) : Eff := .get fun s =>
  let slots := setBit (s.sliceAt sl).slots b true
  Eff.all [addReg .MC_PERF_refresh sl 1, .upd (.openRow (sl * 128 + b) 0),
    if slots = 2 ^ 128 - 1 then
      .seq (setSlice sl fun x => { x with slots := 0 }) (setReg .MC_STAT_refresh sl (s.refreshRate sl))
    else setSlice sl fun x => { x with slots := slots }]

/-- REFRESH_SLOT (R193): served by the slice controller while the stack runs. -/
def execRefreshSlot (sl : SliceIx) (b : BankIx) (s : State) : Out :=
  finish (Eff.when (!s.stackHeld (sl / 96)) (refreshSlot sl b)) s

/-- SELF_REFRESH_ENTRY (R372): the stack's logic is in reset, or its memory clock is lost. -/
def execSelfRefreshEntry (st : StackIx) (s : State) : Out :=
  finish (Eff.when (s.stackHeld st) (setReg .CRS_STAT_self_refresh st 1)) s

/-- SELF_REFRESH_EXIT (R197, R373): refresh resumes and MC_STAT.sr is set in every slice. -/
def selfRefreshExitEff (st : StackIx) : Eff :=
  .seq (setReg .CRS_STAT_self_refresh st 0)
      (Eff.each (List.range 96) fun k => setReg .MC_STAT_sr (st * 96 + k) 1)

/-- SELF_REFRESH_EXIT (R197, R373): refresh resumes and MC_STAT.sr is set in every slice. -/
def execSelfRefreshExit (st : StackIx) (s : State) : Out :=
  finish (Eff.when (!s.stackHeld st && s.flag .CRS_STAT_self_refresh st) (selfRefreshExitEff st)) s

/-- The frame of an offset is in the slice's ECC_RETIRE table (R237, R239). -/
def State.retired (s : State) (sl b f : Nat) : Bool :=
  (List.range 32).any fun e => s.flag .ECC_RETIRE_valid (sl * 32 + e) && s.reg .ECC_RETIRE_bank (sl * 32 + e) == b
    && s.reg .ECC_RETIRE_frame (sl * 32 + e) == f

/-- The patrol scrubber's next line (R229): initialised regions and frames not retired are read from the DRAM; a
correction is written back, UNCORR is recorded, POISON is left alone. -/
def scrub (sl : Nat) : Eff := .get fun s =>
  let pos := s.reg .ECC_SCRUB_pos sl
  let off := pos * 64
  let line := sl * 2 ^ 24 + pos
  let ws := (s.lineWords line).filter (fun x => x.2.verdict != 4)
  let next := (pos + 1) % 2 ^ 24
  Eff.all [
    Eff.when (bit (s.reg .ECC_INIT_regions sl) (off / 2 ^ 26) && !s.retired sl (bankOf off) (frameOf off))
      (.seq (openRow line) (lineErrors false ((s.ownerAt (regionOf (line * 64))).getD 31) line ws)),
    setReg .ECC_SCRUB_pos sl next, Eff.when (next == 0) (addReg .ECC_SCRUB_passes sl 1)]

/-- SCRUB_READ (R229). -/
def execScrubRead (sl : SliceIx) (ups : List Upset) (s : State) : Out :=
  finish (Eff.when (s.flag .ECC_SCRUB_en sl && !s.stackHeld (sl / 96) && !(s.sliceAt sl).withheld)
    (.seq (applyUpsets ups) (scrub sl))) s

/-- SRAM_SCRUB_READ (R233): one 128-byte unit of cluster shared SRAM or core scratch. -/
def sramScrubReadEff (addr : Nat) (ups : List Upset) : Eff :=
  .seq (applyUpsets ups) (.get fun s =>
    let line := addr / 128 * 2
    match s.target addr with
    | .csram _ => .seq (lineErrors false ((s.memOwner addr).getD 31) line (s.lineWords line))
        (lineErrors false ((s.memOwner addr).getD 31) (line + 1) (s.lineWords (line + 1)))
    | .scratch _ => .seq (lineErrors false ((s.memOwner addr).getD 31) line (s.lineWords line))
        (lineErrors false ((s.memOwner addr).getD 31) (line + 1) (s.lineWords (line + 1)))
    | _ => .skip)

/-- SRAM_SCRUB_READ (R233): one 128-byte unit of cluster shared SRAM or core scratch. -/
def execSramScrubRead (addr : Nat) (ups : List Upset) (s : State) : Out :=
  finish (sramScrubReadEff addr ups) s

/-- Start the fill engine of a slice; while it is busy a start is ignored (R226, R239, R240). -/
def fillStart (sl regions : Nat) : Eff := .get fun s =>
  if s.flag .ECC_FILL_busy sl then .skip
  else Eff.all [setReg .ECC_FILL_regions sl regions, setReg .ECC_FILL_busy sl 1,
    setSlice sl fun x => { x with filling := regions % 2 ^ 16 }]

/-- ECC_FILL_START (R226). -/
def execEccFillStart (sl : SliceIx) (regions : BitVec 16) (s : State) : Out :=
  finish (Eff.when (!s.stackHeld (sl / 96)) (fillStart sl regions.toNat)) s

/-- Zero one ownership region of a slice with full check bits and drop its cached lines (R198, R226, R228). -/
def zeroRegion (sl r : Nat) : Eff := Eff.all [
  zeroRange (sl * 2 ^ 30 + r * 2 ^ 26) (2 ^ 26),
  Eff.each (List.range 512) (fun k => .get fun s =>
    .upd (.cache (sl * 512 + k) ((Store.get [] s.cache (sl * 512 + k)).filter
      (fun c => c.line * 64 / 2 ^ 26 != sl * 16 + r)))),
  setSlice sl (fun x => { x with undef := setBit x.undef r false }),
  .get fun s => setReg .ECC_INIT_regions sl (setBit (s.reg .ECC_INIT_regions sl) r true)]

/-- The fill engine has written every line of its regions (R226, R228). -/
def fillDone (sl : Nat) : Eff := .get fun s =>
  Eff.all [Eff.each ((List.range 16).filter (fun r => bit (s.sliceAt sl).filling r)) (zeroRegion sl),
    setSlice sl (fun x => { x with filling := 0 }), setReg .ECC_FILL_busy sl 0]

/-- FILL_ENGINE_DONE (R228). -/
def execFillEngineDone (sl : SliceIx) (s : State) : Out :=
  finish (Eff.when (s.flag .ECC_FILL_busy sl) (fillDone sl)) s

/-- Raw check bits of a word as stored (R214, R216, R235). -/
def State.rawCheck (s : State) (w : Nat) : BitVec 16 :=
  let m := s.markAt w
  let d : BitVec 64 := BitVec.ofNat 64 (s.rawWord (w * 8))
  match m.raw with
  | some c => c ^^^ BitVec.ofNat 16 (m.flips.toNat / 2 ^ 64)
  | none => Config.bchCheck d ^^^ (if m.poison then 0xA5C3 else 0) ^^^ BitVec.ofNat 16 (m.flips.toNat / 2 ^ 64)

/-- Read the word ECC_TW_ADDR names raw, with its verdict and syndrome; nothing is corrected or recorded (R235). Data and
check bits that nothing has written are free (R225; log entry 10). -/
def twRead (sl : Nat) : Eff := .get fun s =>
  let w := sl * 2 ^ 27 + s.reg .ECC_TW_ADDR_word sl
  let r := s.decodeWord w
  let u := s.undefWord w
  let d : BitVec 64 := BitVec.ofNat 64 (s.rawWord (w * 8)) ^^^ BitVec.ofNat 64 (s.markAt w).flips.toNat
  Eff.all [setReg .ECC_TW_DATA_data sl (if u then r.data else d).toNat,
    setReg .ECC_TW_CHK_check sl (if u then Config.undefWord s.tick w / 2 ^ 84 % 2 ^ 16 else (s.rawCheck w).toNat),
    setReg .ECC_TW_CHK_verdict sl r.verdict, setReg .ECC_TW_CHK_syndrome sl r.syn, Eff.when (s.undefWord w) (.upd .tick)]

/-- ECC_TW_READ (R235): ignored without a grant. -/
def execEccTwRead (sl : SliceIx) (s : State) : Out := finish (Eff.when (s.flag .ECC_TWG_grant sl) (twRead sl)) s

/-- Store data and check bits exactly as given, past the cache, and invalidate the line (R202, R235); a write-back still
pending leaves the word alone (R221). -/
def twWrite (sl : Nat) : Eff := .get fun s =>
  let w := sl * 2 ^ 27 + s.reg .ECC_TW_ADDR_word sl
  Eff.all [.upd (.bytes (w * 8) (leBytes (s.reg .ECC_TW_DATA_data sl) 8)),
    .upd (.mark w { cleanMark s w with raw := some (BitVec.ofNat 16 (s.reg .ECC_TW_CHK_check sl)) }), invalLine (w / 8),
    .get fun s => let m := Store.get 0 s.wb (w / 8)
                  if bit m (w % 8) then .upd (.wb (w / 8) (setBit (setBit m (w % 8) false) (8 + w % 8) true)) else .skip]

/-- ECC_TW_WRITE (R235): ignored without a grant. -/
def execEccTwWrite (sl : SliceIx) (s : State) : Out := finish (Eff.when (s.flag .ECC_TWG_grant sl) (twWrite sl)) s

/-- Invalidate every line of a slice cache (R203). -/
def invalSlice (sl : Nat) : Eff := .seq (.upd (.clearCache (fun k => k / 512 == sl))) (setReg .MC_STAT_inval_busy sl 1)

/-- MC_CTL_INVAL (R203). -/
def execMcCtlInval (sl : SliceIx) (s : State) : Out := finish (Eff.when (!s.stackHeld (sl / 96)) (invalSlice sl)) s
/-- INVALIDATION_COMPLETE (R203). -/
def execInvalidationComplete (sl : SliceIx) (s : State) : Out := finish (setReg .MC_STAT_inval_busy sl 0) s

/-- Zero the performance counters of a slice controller (R212). -/
def mcPerfClear (sl : Nat) : Eff := Eff.each [.MC_PERF_rd_lines, .MC_PERF_wr_lines, .MC_PERF_hits, .MC_PERF_row_miss,
  .MC_PERF_refresh] fun r => setReg r sl 0

/-- MC_PERF_CLEAR (R213). -/
def execMcPerfClear (sl : SliceIx) (s : State) : Out := finish (Eff.when (!s.stackHeld (sl / 96)) (mcPerfClear sl)) s

end Sys2Proof.Machine
end

