-- ==== Sys2Proof/Machine/Bank.lean ====
section
/-! DEFINITION. Bank-side units (09_bank_side_units.md) over KV pages (R281-R285): command paths, contexts, row bursts,
the commands' arithmetic, result records and fences. -/
namespace Sys2Proof.Machine

/-! ## Pages (R281-R285) -/

/-- A page header (R282). -/
structure Header where
  version : Nat
  fmt : Nat
  shared : Bool
  latent : Bool
  dk : Nat
  dv : Nat
  pos : Nat
  capacity : Nat
  fill : Nat
  vOff : Nat
  ksOff : Nat
  vsOff : Nat
  stride : Nat
  stream : Nat
  pos0 : Nat
  deriving DecidableEq, Repr

/-- The header in words 0-3 of a page (R282). -/
def parseHeader (w0 w1 w2 w3 : Nat) : Header where
  version := bits w0 7 0
  fmt := bits w0 11 8
  shared := bit w0 13
  latent := bit w0 14
  dk := bits w0 28 18
  dv := bits w0 39 29
  pos := bits w0 47 40
  capacity := bits w0 58 48
  fill := bits w1 10 0
  vOff := bits w2 15 0
  ksOff := bits w2 31 16
  vsOff := bits w2 47 32
  stride := bits w2 63 48
  stream := bits w3 47 32
  pos0 := bits w3 31 0

/-- Words of a header (R282). -/
def headerWords (h : Header) : List Nat := [
  h.version + h.fmt * 2 ^ 8 + b2n h.shared * 2 ^ 13 + b2n h.latent * 2 ^ 14 + h.dk * 2 ^ 18 + h.dv * 2 ^ 29 + h.pos * 2 ^ 40
    + h.capacity * 2 ^ 48,
  h.fill,
  h.vOff + h.ksOff * 2 ^ 16 + h.vsOff * 2 ^ 32 + h.stride * 2 ^ 48,
  h.pos0 + h.stream * 2 ^ 32]

/-- Round up to a multiple of 8. -/
def up8 (x : Nat) : Nat := (x + 7) / 8 * 8

/-- Blocks of 32 elements. -/
def blocks (n : Nat) : Nat := (n + 31) / 32

/-- The header holds a reserved value (R283). -/
def Header.reserved (h : Header) : Bool :=
  h.version != 1 || !(h.fmt == 3 || h.fmt == 7 || h.fmt == 9)
  || h.capacity == 0 || decide (1024 < h.capacity) || decide (h.capacity < h.fill)
  || decide (32768 < 256 + h.capacity * h.stride)
  || decide (h.stride ≤ h.vOff) || decide (h.stride < h.ksOff + blocks h.dk) || decide (h.stride < h.vsOff + blocks h.dv)
  || (h.latent && (h.dv % 32 != 0 || h.dv == 0 || decide (1024 < h.dv)
      || !(h.pos ∈ [0, 32, 64, 96, 128]) || h.dk != h.dv + h.pos || h.vOff != 0 || h.vsOff != h.ksOff))

/-- Elements of a token record, in header record order (R251, R258, R284, R285). -/
def Header.tlen (h : Header) : Nat := if h.latent then h.dk else h.dk + h.dv

/-- The geometry of a page (R284, R285): v_off, ks_off, vs_off, stride. -/
def geometry (latent : Bool) (fmt dk dv : Nat) : Nat × Nat × Nat × Nat :=
  let w := fmtWidth fmt
  if latent then
    let ks := (dk * w + 7) / 8
    (0, ks, ks, up8 (ks + dk / 32))
  else
    let v := (dk * w + 7) / 8
    let ks := v + (dv * w + 7) / 8
    let vs := ks + blocks dk
    (v, ks, vs, up8 (vs + blocks dv))

/-- Elements of part of a record, dequantised: n elements packed at `off` with scales at `soff` (R255, R284). -/
def recordPart (h : Header) (rec : List Byte) (off soff n : Nat) : List FV :=
  let w := fmtWidth h.fmt
  let packed := leNat (rec.drop off)
  (List.range n).map fun j => scaledFV (ofFmt h.fmt (elemAt w packed j)) (rec.getD (soff + j / 32) 0).toNat

/-- The key and the value of a record (R284, R285). -/
def recordKey (h : Header) (rec : List Byte) : List FV := recordPart h rec 0 h.ksOff h.dk
def recordValue (h : Header) (rec : List Byte) : List FV := recordPart h rec h.vOff h.vsOff h.dv

/-- Quantise a run of elements, a scale for each 32 (R65, R258): scale bytes, codes, flags. -/
def quantise (fmt : Nat) : Nat → List FV → List Byte × List Nat × Nat
  | 0, _ => ([], [], 0)
  | k + 1, vs =>
    if vs.isEmpty then ([], [], 0) else
      let b := scaleBlock fmt (vs.take 32)
      let r := quantise fmt k (vs.drop 32)
      (BitVec.ofNat 8 b.1 :: r.1, b.2.1 ++ r.2.1, fxOr b.2.2 r.2.2)

/-- Pad or cut a run of bytes to a length. -/
def padTo (n : Nat) (d : List Byte) : List Byte := (d ++ List.replicate n 0).take n

/-- A token as a record, padded to its stride (R284, R285). -/
def makeRecord (h : Header) (tok : List FV) : List Byte × Nat :=
  let w := fmtWidth h.fmt
  if h.latent then
    let q := quantise h.fmt 128 tok
    (padTo h.stride (padTo h.ksOff (packCodes w q.2.1) ++ q.1), q.2.2)
  else
    let k := quantise h.fmt 128 (tok.take h.dk)
    let v := quantise h.fmt 128 (tok.drop h.dk)
    (padTo h.stride (padTo h.vOff (packCodes w k.2.1) ++ padTo (h.ksOff - h.vOff) (packCodes w v.2.1) ++ k.1 ++ v.1),
      fxOr k.2.2 v.2.2)

/-! ## Arithmetic (R255-R260) -/

/-- exp of the difference of two FP32 codes; exp of zero is 1 (R256, R260, R318). -/
def expDiff (a b : Nat) : Fx Nat :=
  let d := sub32 a b
  if (ofFmt 0 d.1).isZero then (one32, d.2)
  else
    let r := match ofFmt 0 d.1 with
      | .fin .. => let c := Config.bsuExp a b % 2 ^ 32; (c, match ofFmt 0 c with | .inf _ => fxInf | .nan => fxNan | _ => 0)
      | _ => transc32 0x10 d.1
    (r.1, fxOr d.2 r.2)

/-- Sum FP32 codes in order, each addition rounded. -/
def addAll : List (Fx Nat) → Fx Nat
  | [] => (0, 0)
  | c :: cs => cs.foldl (fun acc y => let z := add32 acc.1 y.1; (z.1, fxOr acc.2 (fxOr y.2 z.2))) c

/-- Exact block sums of 32 products, each rounded once (R255). -/
def blockSums : Nat → List FV → List FV → List (Fx Nat)
  | 0, _, _ => []
  | k + 1, q, x =>
    if q.isEmpty then [] else
      let ps := (q.take 32).zipWith (fun a b => a.mul b) (x.take 32)
      let e := sumFV (ps.map (·.1))
      let r := toF32 e.1
      (r.1, fxOr (ps.foldl (fun f p => fxOr f p.2) 0) (fxOr e.2 r.2)) :: blockSums k (q.drop 32) (x.drop 32)

/-- A score (R255). -/
def score (scale : Nat) (q key : List FV) : Fx Nat :=
  let d := addAll (blockSums 64 q key)
  let r := mul32 scale d.1
  (r.1, fxOr d.2 r.2)

/-- A partial: m, l, o (R256). -/
structure Partial where
  m : Nat := 0xFF800000
  l : Nat := 0
  o : List Nat := []
  deriving DecidableEq, Repr

/-- The empty partial for dv values. -/
def emptyPartial (dv : Nat) : Partial := { o := List.replicate dv 0 }

/-- Elements of two vectors combined, with flags. -/
def zipFx (f : Nat → Nat → Fx Nat) (a b : List Nat) : List Nat × Nat :=
  let rs := a.zipWith f b
  (rs.map (·.1), rs.foldl (fun x r => fxOr x r.2) 0)

/-- One token enters a partial (R256). -/
def attendToken (p : Partial) (s : Nat) (v : List Nat) : Fx Partial :=
  if (ofFmt 0 p.m).lt (ofFmt 0 s) then
    let c := expDiff p.m s
    let l1 := mul32 p.l c.1
    let l2 := add32 l1.1 one32
    let o1 := zipFx (fun o v => let a := mul32 o c.1; let b := add32 a.1 v; (b.1, fxOr a.2 b.2)) p.o v
    ({ m := s, l := l2.1, o := o1.1 }, fxOr c.2 (fxOr l1.2 (fxOr l2.2 o1.2)))
  else
    let c := expDiff s p.m
    let l1 := add32 p.l c.1
    let o1 := zipFx (fun o v => let a := mul32 c.1 v; let b := add32 o a.1; (b.1, fxOr a.2 b.2)) p.o v
    ({ m := p.m, l := l1.1, o := o1.1 }, fxOr c.2 (fxOr l1.2 o1.2))

/-- Merge two partials (R260): one whose m is -infinity returns the other unchanged. -/
def mergePartial (a b : Partial) : Fx Partial :=
  if a.m = 0xFF800000 then (b, 0)
  else if b.m = 0xFF800000 then (a, 0)
  else
    let m := rnd32 ((ofFmt 0 a.m).maxV (ofFmt 0 b.m))
    let ca := expDiff a.m m.1
    let cb := expDiff b.m m.1
    let mix (x y : Nat) : Fx Nat :=
      let p := mul32 x ca.1; let q := mul32 y cb.1; let r := add32 p.1 q.1
      (r.1, fxOr p.2 (fxOr q.2 r.2))
    let l := mix a.l b.l
    let o := zipFx mix a.o b.o
    ({ m := m.1, l := l.1, o := o.1 }, fxOr m.2 (fxOr ca.2 (fxOr cb.2 (fxOr l.2 o.2))))

/-- A partial as bytes: m, l, o (R260, R261). -/
def Partial.bytes (p : Partial) : List Byte := (p.m :: p.l :: p.o).flatMap (fun v => leBytes v 4)

/-- FP32 codes in bytes. -/
def codes32 : Nat → List Byte → List Nat
  | 0, _ => []
  | k + 1, d => leNat (d.take 4) :: codes32 k (d.drop 4)

/-- A partial of dv values read from FP32 codes. -/
def partialOf (l : List Nat) : Partial := { m := l.getD 0 0, l := l.getD 1 0, o := l.drop 2 }

/-! ## Reads and writes over the riser (R220, R266, R267) -/

/-- Bytes a BSU reads straight from the bank, and whether a word is lost. -/
def State.bsuBytes (s : State) (a len : Nat) : List Byte × Bool :=
  let ws := if len = 0 then [] else (List.range ((a + len - 1) / 8 - a / 8 + 1)).map (fun k => s.decodeWord (a / 8 + k))
  (((ws.flatMap (fun r => wordBytes r.data)).drop (a % 8)).take len, ws.any (fun r => decide (3 ≤ r.verdict)))

/-- Records and write-backs of a BSU read (R221, R222, R267). -/
def bsuTouch (fl a len : Nat) : Eff := Eff.each (linesOf a len) fun line => .get fun s =>
  lineErrors true fl line (s.lineWords line)

/-- A cached copy keeps the old line until a fence (R269). -/
def keepOld (line : Nat) : Eff := .get fun s =>
  match s.cached line with
  | none => .skip
  | some c => if c.old.isSome then .skip else
    .upd (.cache (cacheKey line) ((s.cacheSet line).map
      (fun x => if x.line == line then { x with old := some (s.rawBytes (line * 64) 64) } else x)))

/-- A BSU writes whole codewords from its own encoder; part of a word is merged with what its decoder read (R266). -/
def bsuWrite (a : Nat) (d : List Byte) : Eff := .seq (Eff.each (linesOf a d.length) keepOld)
  (Eff.each (splitWords (d.length / 8 + 2) a d) fun p => .get fun s =>
    let old := wordBytes (s.decodeWord p.1).data
    putWord p.1 (old.take p.2.1 ++ p.2.2 ++ old.drop (p.2.1 + p.2.2.length)) false)

/-- The header of the page at a frame address as the BSU reads it; none when a word is lost (R254, R643). -/
def State.pageHeader (s : State) (a : Nat) : Option Header :=
  let r := s.bsuBytes a 32
  if r.2 then none
  else some (parseHeader (leNat (r.1.take 8)) (leNat ((r.1.drop 8).take 8)) (leNat ((r.1.drop 16).take 8)) (leNat (r.1.drop 24)))

/-! ## Commands -/

/-- Bytes of an element of a command's arguments (R251). -/
def argWidth (fmt : Nat) : Nat := fmtWidth fmt / 8

/-- Argument bytes of a command (R251, R252). -/
def argLen (cmd fmt nq imm : Nat) : Nat :=
  match cmd with
  | 1 => nq * bits imm 30 20 * argWidth fmt
  | 2 => nq * bits imm 30 20 * argWidth fmt
  | 3 => nq * bits imm 9 0 * 4
  | 4 => bits imm 11 0 * argWidth fmt
  | _ => 0

/-- imm has a reserved bit set or a value out of range (R252; step 1 of R643). -/
def immBad (cmd imm : Nat) : Bool :=
  match cmd with
  | 1 => bit imm 31 || bits imm 30 20 == 0
  | 2 => bit imm 31 || bits imm 30 20 == 0
  | 3 => bits imm 63 20 != 0 || bits imm 9 0 == 0
  | 4 => bits imm 63 12 != 0 || bits imm 11 0 == 0
  | 5 => false
  | 6 => bits imm 63 8 != 0
  | 7 => bits imm 63 34 != 0 || bits imm 33 32 == 3 || bits imm 31 16 == 0 || decide (4096 < bits imm 31 16)
         || bits imm 15 0 == 0 || decide (2048 < bits imm 15 0)
  | _ => false

/-- FP32 codes of one vector of a REDUCE (R260). -/
def reduceVec (imm : Nat) : Nat := if bits imm 33 32 = 2 then bits imm 15 0 + 2 else bits imm 15 0

/-- Operand bytes from the command's address, judged from the address and imm (R253; step 3 of R643). -/
def operandLen (cmd imm : Nat) : Nat := if cmd = 7 then bits imm 31 16 * reduceVec imm * 4 else 32768

/-- The operands would leave the frame. -/
def placementBad (cmd imm addr : Nat) : Bool := decide (32768 < addr % 32768 + operandLen cmd imm)

/-- Frames a command names: its own, and COPY_PAGE's destination (R253). -/
def frames (cmd imm addr : Nat) : List Nat :=
  let f := addr / 32768 * 32768
  if cmd = 6 then [f, frameAddr (addr / 2 ^ 30) (bankOf (addr % 2 ^ 30)) (bits imm 7 0)] else [f]

/-- The frame a command writes, if it writes one. -/
def writesFrame (cmd imm addr : Nat) : Option Nat :=
  let f := addr / 32768 * 32768
  match cmd with
  | 4 => some f
  | 5 => some f
  | 6 => (frames 6 imm addr)[1]?
  | _ => none

/-- What a command ends with: status, flags, EMPTY, tokens, and its payload; `known` is off when the record's length is
not known (R261, R262). -/
structure Ended where
  status : Nat := 0
  fx : Nat := 0
  empty : Bool := false
  tokens : Nat := 0
  payload : List Byte := []
  known : Bool := true
  deriving DecidableEq, Repr

/-- A result record: the status block, the payload, padded to whole entries (R261, R262). -/
def resultRecord (slice bank epoch : Nat) (e : Ended) : List Byte :=
  let pl := if e.known then e.payload else []
  let n := (16 + pl.length + 127) / 128
  let w0 := n * 2 ^ 48 + e.fx * 2 ^ 36 + b2n e.empty * 2 ^ 34 + e.tokens % 65536 * 2 ^ 16 + e.status
  let w1 := epoch * 2 ^ 16 + (slice * 128 + bank) % 65536
  padTo (n * 128) (leBytes w0 8 ++ leBytes w1 8 ++ pl)

/-- Payload of a command that fails with a known length: the empty partial for ATTEND and REDUCE MERGE, else zeros
(R262). -/
def failPayload (cmd nq imm dv count : Nat) : List Byte :=
  match cmd with
  | 1 => (List.replicate nq (emptyPartial dv).bytes).flatten
  | 2 => List.replicate (nq * count * 4) 0
  | 3 => List.replicate (nq * dv * 4) 0
  | 7 => if bits imm 33 32 = 2 then (emptyPartial (bits imm 15 0)).bytes else List.replicate (bits imm 15 0 * 4) 0
  | _ => []

/-- Issuer of a path's accesses (R39, R294): the core, or firmware of the CCC. -/
def pathIss (p : Nat) : Issuer := if p < 1152 then coreIss p else .fw (3 + (p - 1152))
/-- Flask a path's commands are checked against. -/
def State.pathFlask (s : State) (p : Nat) : Option Nat := if p < 1152 then s.coreFlask p else s.flaskOf (p - 1152)
/-- Stack a path reaches (R247, R294). -/
def pathStack (p : Nat) : Nat := if p < 1152 then p / 96 else (p - 1152) / 8

/-- A command of a path is over: its record waits its turn; a status other than OK is noted in BNK_ERR and raises
BANK_FAULT (R262). -/
def endCommand (t : Task) (epoch : Nat) (e : Ended) : Eff :=
  let sl := t.addr / 2 ^ 30
  let b := bankOf (t.addr % 2 ^ 30)
  Eff.all [
    setPath t.path fun p => { p with
      out := p.out.map (fun x => if x.num = t.num then
        { x with accepted := true, done := some (resultRecord sl b epoch e) } else x),
      dirty := match writesFrame t.cmd t.imm t.addr with
        | some f => if e.status = 0 ∨ t.cmd = 6 then p.dirty ++ [(t.num, f)] else p.dirty
        | none => p.dirty },
    -- a path that was reset has discarded the command and its result (R272)
    .get fun s => Eff.when (decide (e.status ≠ 0) && decide (t.path < 1152)
        && (s.pathAt t.path).out.any (fun x => x.num == t.num)) (.get fun s => Eff.all [
      Eff.when (!s.flag .BNK_ERR_valid t.path) (Eff.all [setReg .BNK_ERR_status t.path e.status,
        setReg .BNK_ERR_addr t.path (t.addr / 2 ^ 16), setReg .BNK_ERR_valid t.path 1]),
      satReg .BNK_ERR_count t.path 1, coreEvent t.path 4])]

/-- Commands of a path that have not completed (R249, R276). -/
def PathSt.outstanding (p : PathSt) : Nat := (p.out.filter (fun e => e.done.isNone)).length

/-- The commands a fence of a scope covers (R270): 0 BANK, 1 SLICE, 2 PATH; the reserved scope acts as BANK. -/
def fenceCovers (p : PathSt) (scope sl b : Nat) : List Nat :=
  (p.out.filter (fun e => e.fence.isNone && (if scope = 2 then true
    else if scope = 1 then e.slice == sl else e.slice == sl && e.bank == b))).map (·.num)

/-- Put a command on its path: one that leaves the stack or the memory ends at once (steps 1 and 2 of R643); the others
go to their bank, and a fence waits for what it covers. -/
def issueCommand (t : Task) : Eff := .get fun s =>
  let p := s.pathAt t.path
  let sl := t.addr / 2 ^ 30
  let b := bankOf (t.addr % 2 ^ 30)
  let t := { t with num := p.next }
  let ent : PathEnt := { num := p.next, pour := t.pour, slice := sl, bank := b, resEn := t.resEn }
  let away := decide (stackedEnd ≤ t.addr) || sl / 96 != pathStack t.path
  let add (e : PathEnt) : Eff := setPath t.path fun p => { p with out := p.out ++ [e], next := p.next + 1 }
  if t.cmd = 8 then
    let scope := t.imm % 4
    let dirtyOf := if scope = 2 ∨ away = false then fenceCovers p scope sl b else []
    if scope ≠ 2 ∧ away then
      .seq (add { ent with fence := some scope }) (endCommand t 0 { status := stDenied })
    else add { ent with fence := some scope, waitFor := dirtyOf, accepted := true }
  else if immBad t.cmd t.imm then
    .seq (add ent) (endCommand t 0 { status := stBadLength, known := t.cmd == 4 || t.cmd == 5 || t.cmd == 6 })
  else if away then
    .seq (add ent) (endCommand t 0 {
      status := stDenied, known := decide (4 ≤ t.cmd), payload := failPayload t.cmd t.nq t.imm 0 0 })
  else .seq (add ent) (setBank sl b fun x => { x with wait := x.wait ++ [t] })

/-- The path's next command of the pour in progress (R247-R249): its address from the walk, its arguments as whole
entries; 64 outstanding commands or missing arguments stall it. -/
def bankIssue (n : Nat) : Eff := .get fun s =>
  match (s.coreAt n).bnk with
  | none => .skip
  | some r =>
    let g := s.reg .CHG_BNK_addr_ag n
    let cmd := s.reg .CHG_BNK_cmd n
    let fmt := s.reg .CHG_BNK_fmt n
    let nq := s.reg .CHG_BNK_nq n
    let imm := s.reg .CHG_BNK_imm n
    let aq := s.reg .CHG_BNK_arg_q n
    let al := if s.flag .CHG_BNK_arg_en n then argLen cmd fmt nq imm else 0
    let take := (al + 127) / 128 * 128
    let last := decide (s.reg .CHG_BNK_count n ≤ r.done + 1)
    let go (args : List Byte) : Eff := Eff.all [progress n,
      setReg .BNK_STATUS_stall_arg n 0, setReg .BNK_STATUS_stall_ctx n 0,
      issueCommand ({ path := n, cmd := cmd, fmt := fmt, nq := nq, resEn := s.flag .CHG_BNK_res_en n,
                      addr := agAddr s n g r.done, imm := imm, args := args.take al, flask := (s.coreFlask n).getD 31,
                      pour := r.pour } : Task),
      setCore n (fun c => { c with bnk := if last then none else some { r with done := r.done + 1 } }),
      setAg n g (fun a => { a with run := if last then none else a.run }),
      Eff.when (last && s.flag .CHG_BNK_arg_en n) (qSkip n aq)]
    if 64 ≤ (s.pathAt n).outstanding then setReg .BNK_STATUS_stall_ctx n 1
    else if s.qHeld n aq 128 < take then .seq (setReg .BNK_STATUS_stall_arg n 1) (qStall n aq false)
    else if take = 0 then go [] else qPop n aq 128 take go

/-- BANK_COMMAND_ISSUE (R247). -/
def execBankCommandIssue (n : SiteIx) (s : State) : Out := finish (Eff.when (s.coreLive n) (bankIssue n)) s

/-- The bank's assay is running (R268, R577). -/
def State.bankAssay (s : State) (sl b : Nat) : Bool :=
  ((s.assayerAt (sl / 12)).run).any (fun r => r.cls == 1 && r.id == sl * 128 + b)

/-- The next waiting command is accepted when a context is free (R244, R246), or ends by the checks of R643, steps 3
and 4, by an assay (R268) or by an excluded BSU (R549). -/
def bankAccept (sl b : Nat) : Eff := .get fun s =>
  let x := s.bankAt sl b
  match x.wait with
  | [] => .skip
  | t :: ws =>
    if 8 ≤ x.ctx.length then .skip
    else
      let ep := s.reg .BSU_EPOCH_current sl
      let pop := setBank sl b fun x => { x with wait := ws }
      let fail (st : Nat) : Ended := { status := st, known := decide (4 ≤ t.cmd), payload := failPayload t.cmd t.nq t.imm 0 0 }
      let bad := (frames t.cmd t.imm t.addr).filter (fun f => s.judge (pathStack t.path) true (s.pathFlask t.path) (f / 64) != .ok)
      if bit (s.sliceAt sl).bsuOff b then .seq pop (endCommand t ep (fail stTargetLost))
      else if s.bankAssay sl b then .seq pop (endCommand t ep (fail stBusy))
      else if placementBad t.cmd t.imm t.addr then Eff.all [pop,
        report 0x30 1 (sl * 128 + b) t.addr 0 t.flask [] (sl / 96), endCommand t ep (fail stDenied)]
      else match bad with
        | f :: fs => Eff.all [pop,
            (match s.judge (pathStack t.path) true (s.pathFlask t.path) (f / 64) with
             | .unmapped => accessRecords (pathIss t.path) t.flask (f :: fs) []
             | .protection => accessRecords (pathIss t.path) t.flask [] (f :: fs)
             | _ => .skip),
            endCommand t ep (fail stDenied)]
        | [] => Eff.all [
            setBank sl b fun x => { x with wait := ws, ctx := x.ctx ++ [{ t with epoch := ep }] },
            setPath t.path fun p => { p with
              out := p.out.map (fun e => if e.num = t.num then { e with accepted := true } else e) }]

/-- BANK_COMMAND_ACCEPT (R244). -/
def execBankCommandAccept (sl : SliceIx) (b : BankIx) (s : State) : Out :=
  finish (Eff.when (!s.stackHeld (sl / 96)) (bankAccept sl b)) s

/-- Streaming tokens a slice's banks hold (R263, R275). -/
def State.streaming (s : State) (sl : Nat) : Nat :=
  (s.bank.filter (fun p => p.1 / 128 == sl && p.2.token)).length

/-- Grant one token to the next waiting bank in round-robin order (R263). -/
def tokenGrant (sl : Nat) : Eff := .get fun s =>
  let start := (s.sliceAt sl).tokNext
  let cap := s.reg .BSU_CAP_streams sl
  let order := (List.range 128).map (fun k => (start + k) % 128)
  match order.find? (fun b => !(s.bankAt sl b).ctx.isEmpty && !(s.bankAt sl b).token) with
  | none => .skip
  | some b =>
    if s.streaming sl < cap then
      .seq (setBank sl b fun x => { x with token := true }) (setSlice sl fun x => { x with tokNext := (b + 1) % 128 })
    else .skip

/-- STREAM_TOKEN_GRANT (R263). -/
def execStreamTokenGrant (sl : SliceIx) (s : State) : Out :=
  finish (Eff.when (!s.stackHeld (sl / 96)) (tokenGrant sl)) s

/-- No earlier accepted task writes a frame the task names (R245). -/
def taskReady (ctx : List Task) (t : Task) : Bool :=
  (ctx.takeWhile (fun u => !(u.path == t.path && u.num == t.num))).all fun u =>
    match writesFrame u.cmd u.imm u.addr with
    | none => true
    | some f => !((frames t.cmd t.imm t.addr).any (· == f))

/-- One row burst of the next ready task in turn: the token returns, the row closes (R242, R245, R263). -/
def rowBurst (sl b : Nat) (ups : List Upset) : Eff := .get fun s =>
  let x := s.bankAt sl b
  let ready := x.ctx.filter (taskReady x.ctx)
  let least := ready.foldl (fun m t => min m t.bursts) (ready.headD {}).bursts
  match ready.find? (fun t => t.bursts == least) with
  | none => .skip
  | some t =>
    if x.token then Eff.all [applyUpsets ups,
      setBank sl b fun x => { x with
        token := false,
        ctx := x.ctx.map (fun u => if u.path == t.path && u.num == t.num then { u with bursts := u.bursts + 1 } else u) },
      .upd (.openRow (sl * 128 + b) 0), addReg .BSU_PERF_bursts sl 1]
    else .skip

/-- ROW_BURST (R242). -/
def execRowBurst (sl : SliceIx) (b : BankIx) (ups : List Upset) (s : State) : Out :=
  finish (Eff.when (!s.stackHeld (sl / 96)) (rowBurst sl b ups)) s

/-! ## The commands' work -/

/-- Token range of a command, clipped to the fill count (R252). -/
def tokenRange (h : Header) (first count : Nat) : Nat × Nat :=
  (first, if count = 0 then h.fill else min (first + count) h.fill)

/-- Queries of a command, widened (R255). -/
def queryVec (fmt qlen : Nat) (args : List Byte) (j : Nat) : List FV :=
  let packed := leNat ((args.drop (j * qlen * argWidth fmt)).take (qlen * argWidth fmt))
  (List.range qlen).map (fun k => ofFmt fmt (elemAt (fmtWidth fmt) packed k))

/-- Records of a page's tokens first to last - 1. -/
def State.records (s : State) (a : Nat) (h : Header) (first last : Nat) : List (List Byte) × Bool :=
  let rs := (List.range (last - first)).map (fun k => s.bsuBytes (a + 256 + (first + k) * h.stride) h.stride)
  (rs.map (·.1), rs.any (·.2))

/-- FP32 codes of values, with flags. -/
def roundAll (vs : List FV) : List Nat × Nat :=
  let rs := vs.map (fun v => let c := toF32 v; (c.1, fxOr c.2 (nanIn v)))
  (rs.map (·.1), rs.foldl (fun f r => fxOr f r.2) 0)

/-- ATTEND over records (R256): the partials of every query. -/
def attendRecords (h : Header) (scale : Nat) (qs : List (List FV)) (recs : List (List Byte)) : List Partial × Nat :=
  let kv := recs.map (fun r => (recordKey h r, roundAll (recordValue h r)))
  let rs := qs.map (fun q => kv.foldl (fun (acc : Fx Partial) x =>
    let sc := score scale q x.1
    let p := attendToken acc.1 sc.1 x.2.1
    (p.1, fxOr acc.2 (fxOr sc.2 (fxOr x.2.2 p.2)))) (emptyPartial h.dv, 0))
  (rs.map (·.1), rs.foldl (fun f r => fxOr f r.2) 0)

/-- ATTEND and SCORE after the header (R254-R257, R643 steps 5 and 6). -/
def runAttend (s : State) (t : Task) : Ended :=
  match s.pageHeader t.addr with
  | none => { status := stUncorrectable, known := false }
  | some h =>
    if h.reserved then { status := stDenied, known := false }
    else
      let qlen := bits t.imm 30 20
      let r := tokenRange h (bits t.imm 19 10) (bits t.imm 9 0)
      let n := r.2 - r.1
      let fail (st : Nat) : Ended := { status := st, payload := failPayload t.cmd t.nq t.imm h.dv n }
      if qlen ≠ h.dk then fail stBadLength
      else
        let recs := s.records t.addr h r.1 r.2
        if recs.2 then fail stUncorrectable
        else
          let qs := (List.range t.nq).map (queryVec t.fmt qlen t.args)
          let scale := bits t.imm 63 32
          if t.cmd = 1 then
            let p := attendRecords h scale qs recs.1
            { fx := p.2, empty := n == 0, tokens := n, payload := p.1.flatMap Partial.bytes }
          else
            let sc := qs.map (fun q => recs.1.map (fun r => score scale q (recordKey h r)))
            { fx := sc.flatten.foldl (fun f r => fxOr f r.2) 0, empty := n == 0, tokens := n,
              payload := sc.flatten.flatMap (fun r => leBytes r.1 4) }

/-- VALUE (R257). -/
def runValue (s : State) (t : Task) : Ended :=
  match s.pageHeader t.addr with
  | none => { status := stUncorrectable, known := false }
  | some h =>
    if h.reserved then { status := stDenied, known := false }
    else
      let count := bits t.imm 9 0
      let r := tokenRange h (bits t.imm 19 10) count
      let n := r.2 - r.1
      let recs := s.records t.addr h r.1 r.2
      if recs.2 then { status := stUncorrectable, payload := failPayload 3 t.nq t.imm h.dv n }
      else
        let ws := codes32 (t.nq * count) t.args
        let vs := recs.1.map (fun x => roundAll (recordValue h x))
        let outs := (List.range t.nq).map fun j => (List.range h.dv).map fun e =>
          addAll ((List.range n).map (fun k => mul32 (ws.getD (j * count + k) 0) ((vs.getD k ([], 0)).1.getD e 0)))
        { fx := fxOr (vs.foldl (fun f v => fxOr f v.2) 0) (outs.flatten.foldl (fun f r => fxOr f r.2) 0),
          empty := n == 0, tokens := n, payload := outs.flatten.flatMap (fun r => leBytes r.1 4) }

/-- How an append to the page at a frame ends (R258, R643 steps 5 to 7): its status and, where it succeeds, the index,
the record and the flags. -/
def appendResult (s : State) (addr tlen : Nat) (tok : List FV) : Nat × Nat × List Byte × Nat :=
  match s.pageHeader addr with
  | none => (stUncorrectable, 0, [], 0)
  | some h =>
    if h.reserved then (stDenied, 0, [], 0)
    else if tlen ≠ h.tlen then (stBadLength, 0, [], 0)
    else if h.shared then (stShared, 0, [], 0)
    else if h.fill = h.capacity then (stNoResource, 0, [], 0)
    else let r := makeRecord h tok; (0, h.fill, r.1, r.2)

/-- Write an appended record and count it in the header's fill word (R258, R282). -/
def appendWrite (s : State) (addr idx : Nat) (rec : List Byte) : Eff :=
  match s.pageHeader addr with
  | none => .skip
  | some h => .seq (bsuWrite (addr + 256 + idx * h.stride) rec) (bsuWrite (addr + 8) (leBytes (idx + 1) 8))

/-- Copy a frame corrected; a lost word is written poisoned (R259). -/
def copyFrame (src dst : Nat) : Eff := .get fun s =>
  .seq (Eff.each (List.range 512) fun k => keepOld (dst / 64 + k)) (Eff.each (List.range 4096) fun k => .get fun _ =>
    let r := s.decodeWord (src / 8 + k)
    putWord (dst / 8 + k) (wordBytes r.data) (decide (3 ≤ r.verdict)))

/-- REDUCE (R260). -/
def runReduce (s : State) (t : Task) : Ended :=
  let n := bits t.imm 31 16
  let len := reduceVec t.imm
  let op := bits t.imm 33 32
  let d := s.bsuBytes t.addr (n * len * 4)
  if d.2 then { status := stUncorrectable, payload := failPayload 7 1 t.imm 0 0 }
  else
    let cs := codes32 (n * len) d.1
    let vecs := (List.range n).map (fun k => (cs.drop (k * len)).take len)
    if op = 2 then
      match vecs.map partialOf with
      | [] => {}
      | p :: ps =>
        let r := ps.foldl (fun (acc : Fx Partial) x => let m := mergePartial acc.1 x; (m.1, fxOr acc.2 m.2)) (p, 0)
        { fx := r.2, empty := (ofFmt 0 r.1.l).isZero, tokens := 0, payload := r.1.bytes }
    else
      match vecs with
      | [] => {}
      | v :: vs =>
        let f (a b : Nat) : Fx Nat := if op = 0 then add32 a b else rnd32 ((ofFmt 0 a).maxV (ofFmt 0 b))
        let r := vs.foldl (fun (acc : List Nat × Nat) x => let z := zipFx f acc.1 x; (z.1, fxOr acc.2 z.2)) (v, 0)
        { fx := r.2, payload := r.1.flatMap (fun c => leBytes c 4) }

/-- Tokens of an APPEND_Q's arguments. -/
def tokenOf (fmt tlen : Nat) (args : List Byte) : List FV := queryVec fmt tlen args 0

/-- A task ends: its context is released, its result goes to its path, the command counts (R244, R275). -/
def endTask (sl b : Nat) (t : Task) (e : Ended) : Eff := Eff.all [
  setBank sl b fun x => { x with ctx := x.ctx.filter (fun u => !(u.path == t.path && u.num == t.num)) },
  addReg .BSU_PERF_commands sl 1, endCommand t t.epoch e]

/-- The oldest ready task of a command code that has had a row burst runs to its end (R245). -/
def runCommand (sl b : Nat) (cmd : Nat) (work : State → Task → Eff × Ended)
    (touch : State → Task → List (Nat × Nat)) : Eff := .get fun s =>
  let x := s.bankAt sl b
  match x.ctx.find? (fun t => t.cmd == cmd && decide (0 < t.bursts) && taskReady x.ctx t) with
  | none => .skip
  | some t =>
    let w := work s t
    Eff.all [Eff.each (touch s t) (fun p => bsuTouch t.flask p.1 p.2), w.1, endTask sl b t w.2]

/-- Bytes of its page that a command reads for its header: address and length (R254). -/
def headerSpan (t : Task) : List (Nat × Nat) := [(t.addr, 256)]

/-- Bytes of its page that ATTEND, SCORE or VALUE reads: the header, and the records of its range where the header lets it
go on (R254, R643). -/
def pageSpan (s : State) (t : Task) : List (Nat × Nat) :=
  match s.pageHeader t.addr with
  | none => headerSpan t
  | some h =>
    if h.reserved || (t.cmd != 3 && bits t.imm 30 20 != h.dk) then headerSpan t
    else
      let r := tokenRange h (bits t.imm 19 10) (bits t.imm 9 0)
      headerSpan t ++ [(t.addr + 256 + r.1 * h.stride, (r.2 - r.1) * h.stride)]

/-- ATTEND (R256). -/
def attendCmdEff (sl : SliceIx) (b : BankIx) : Eff :=
  runCommand sl b 1 (fun s t => (.skip, runAttend s t)) pageSpan

/-- ATTEND (R256). -/
def execAttendCmd (sl : SliceIx) (b : BankIx) (s : State) : Out :=
  finish (attendCmdEff sl b) s
/-- SCORE (R257). -/
def scoreCmdEff (sl : SliceIx) (b : BankIx) : Eff :=
  runCommand sl b 2 (fun s t => (.skip, runAttend s t)) pageSpan

/-- SCORE (R257). -/
def execScoreCmd (sl : SliceIx) (b : BankIx) (s : State) : Out :=
  finish (scoreCmdEff sl b) s
/-- VALUE (R257). -/
def valueCmdEff (sl : SliceIx) (b : BankIx) : Eff :=
  runCommand sl b 3 (fun s t => (.skip, runValue s t)) pageSpan

/-- VALUE (R257). -/
def execValueCmd (sl : SliceIx) (b : BankIx) (s : State) : Out :=
  finish (valueCmdEff sl b) s
/-- APPEND_Q (R258). -/
def appendQCmdEff (sl : SliceIx) (b : BankIx) : Eff :=
  runCommand sl b 4 (fun s t =>
    let tlen := bits t.imm 11 0
    let r := appendResult s t.addr tlen (tokenOf t.fmt tlen t.args)
    if r.1 = 0 then (appendWrite s t.addr r.2.1 r.2.2.1, { fx := r.2.2.2, tokens := r.2.1 })
    else (.skip, { status := r.1 })) (fun _ t => headerSpan t)

/-- APPEND_Q (R258). -/
def execAppendQCmd (sl : SliceIx) (b : BankIx) (s : State) : Out :=
  finish (appendQCmdEff sl b) s
/-- FILL (R259). -/
def fillCmdEff (sl : SliceIx) (b : BankIx) : Eff :=
  runCommand sl b 5 (fun _ t =>
    let f := t.addr / 32768 * 32768
    (.seq (Eff.each (List.range 512) fun k => keepOld (f / 64 + k))
      (Eff.each (List.range 4096) fun k => putWord (f / 8 + k) (leBytes t.imm 8) false), {})) (fun _ _ => [])

/-- FILL (R259). -/
def execFillCmd (sl : SliceIx) (b : BankIx) (s : State) : Out :=
  finish (fillCmdEff sl b) s
/-- COPY_PAGE (R259). -/
def copyPageCmdEff (sl : SliceIx) (b : BankIx) : Eff :=
  runCommand sl b 6 (fun s t =>
    let src := t.addr / 32768 * 32768
    (copyFrame src (((frames 6 t.imm t.addr)[1]?).getD src),
      { status := if (s.bsuBytes src 32768).2 then stUncorrectable else 0 })) (fun _ t => [(t.addr / 32768 * 32768, 32768)])

/-- COPY_PAGE (R259). -/
def execCopyPageCmd (sl : SliceIx) (b : BankIx) (s : State) : Out :=
  finish (copyPageCmdEff sl b) s
/-- REDUCE (R260). -/
def reduceCmdEff (sl : SliceIx) (b : BankIx) : Eff :=
  runCommand sl b 7 (fun s t => (.skip, runReduce s t)) (fun _ t => [(t.addr, operandLen 7 t.imm)])

/-- REDUCE (R260). -/
def execReduceCmd (sl : SliceIx) (b : BankIx) (s : State) : Out :=
  finish (reduceCmdEff sl b) s

/-- The oldest fence of the path whose commands are all complete: the frames they wrote leave the slice cache, and the
fence is OK (R270, R271). -/
def bankFence (pa : Nat) : Eff := .get fun s =>
  let p := s.pathAt pa
  let open' (k : Nat) : Bool := p.out.any (fun e => e.num == k && e.done.isNone)
  match p.out.find? (fun e => e.fence.isSome && e.done.isNone && e.waitFor.all (fun k => !open' k)) with
  | none => .skip
  | some f =>
    let scope := f.fence.getD 0
    let covered (d : Nat × Nat) : Bool := decide (d.1 < f.num) && (scope == 2 ||
      (d.2 / 2 ^ 30 == f.slice && (scope == 1 || bankOf (d.2 % 2 ^ 30) == f.bank)))
    Eff.all [
      Eff.each ((p.dirty.filter covered).map (·.2)) (fun a => Eff.each (List.range 512) fun k => invalLine (a / 64 + k)),
      setPath pa fun p => { p with
        dirty := p.dirty.filter (fun d => !covered d),
        out := p.out.map (fun e => if e.num = f.num then { e with done := some (resultRecord f.slice f.bank 0 {}) } else e) }]

/-- BANK_FENCE (R270). -/
def execBankFence (pa : PathIx) (s : State) : Out := finish (bankFence pa) s

/-- Results leave the path in issue order (R249): the ones without res_en silently, the next one into res_q when it has
room; a full res_q stalls the path. At the end of the pour its segment closes (R147). -/
def resultPush (pa : Nat) : Eff := .get fun s =>
  let p := s.pathAt pa
  let rest := p.out.dropWhile (fun e => e.done.isSome && !e.resEn)
  match rest with
  | [] => setPath pa fun p => { p with out := [] }
  | e :: es =>
    match e.done with
    | none => setPath pa fun p => { p with out := rest }
    | some d =>
      let q := s.reg .CHG_BNK_res_q pa
      if 1152 ≤ pa then setPath pa fun p => { p with out := es }
      else if d.length ≤ s.qRoom pa q 128 then Eff.all [setReg .BNK_STATUS_stall_res pa 0,
        setPath pa fun p => { p with out := es }, qPush pa q 128 d]
      else .seq (setReg .BNK_STATUS_stall_res pa 1) (qStall pa q true)

/-- BANK_RESULT_PUSH (R261). -/
def execBankResultPush (pa : PathIx) (s : State) : Out := finish (resultPush pa) s

/-- How a task that a fault ends is recorded: the length is known once a valid header has been read (R262). -/
def faultEnd (s : State) (t : Task) : Ended :=
  let known (dv n : Nat) : Ended := { status := stUncorrectable, payload := failPayload t.cmd t.nq t.imm dv n }
  if 4 ≤ t.cmd then known 0 0
  else match s.pageHeader t.addr with
    | none => { status := stUncorrectable, known := false }
    | some h =>
      if t.bursts = 0 || h.reserved then { status := stUncorrectable, known := false }
      else
        let r := tokenRange h (bits t.imm 19 10) (bits t.imm 9 0)
        known h.dv (r.2 - r.1)

/-- A parity fault in the BSU's datapath or row buffers: the oldest task ends UNCORRECTABLE, the CCC writes BSU_FAULT
and starts the bank assay (R268). -/
def bsuFault (sl b : Nat) : Eff := .get fun s =>
  let fl := ((s.bankAt sl b).ctx.head?.map (·.flask)).getD 31
  .seq (Eff.opt (s.bankAt sl b).ctx.head? fun t => endTask sl b t (faultEnd s t))
    (report 0x31 1 (sl * 128 + b) 0 0 fl [] (sl / 96))

/-- BSU_FAULT (R268). -/
def execBsuFault (sl : SliceIx) (b : BankIx) (s : State) : Out := finish (Eff.when (!s.stackHeld (sl / 96)) (bsuFault sl b)) s

/-- Zero the performance counters of a slice's BSUs (R275). -/
def bsuPerfClear (sl : Nat) : Eff := Eff.each [.BSU_PERF_bursts, .BSU_PERF_cap_wait, .BSU_PERF_commands]
  fun r => setReg r sl 0

/-- BSU_PERF_CLEAR (R277). -/
def execBsuPerfClear (sl : SliceIx) (s : State) : Out := finish (Eff.when (!s.stackHeld (sl / 96)) (bsuPerfClear sl)) s

end Sys2Proof.Machine
end

