-- ==== Sys2Proof/Machine/Kv.lean ====
section
/-! DEFINITION. KV frames, free lists, releases and page sharing (10_kv_cache_pages.md), and what eviction, swap and
restore do to them (12_cache_pressure.md). The descriptors, page tables, sequence descriptors, slag lists and accounting
records are typed state; every change is also written to the memory that holds them. -/
namespace Sys2Proof.Machine

/-! ## The structures in memory (R286-R289, R335, R342) -/

/-- Words of a page descriptor (R286). -/
def PageDesc.words (d : PageDesc) : List Nat := [
  d.refcount % 65536 * 2 ^ 48 + d.epoch % 65536 * 2 ^ 32 + d.owner * 2 ^ 16 + b2n d.pend * 8 + d.state,
  d.page * 2 ^ 32 + d.stream * 2 ^ 16]

/-- A page-table entry as its word (R288). -/
def Pte.word (e : Pte) : Nat := e.kind * 2 ^ 62 + e.tokens * 2 ^ 51 + e.loc

/-- Four spread members of a descriptor word (R289). -/
def spreadWord (l : List Nat) (m : Nat) : Nat :=
  l.getD m 0 + l.getD (m + 1) 0 * 2 ^ 16 + l.getD (m + 2) 0 * 2 ^ 32 + l.getD (m + 3) 0 * 2 ^ 48

/-- Words of a sequence descriptor (R289). -/
def SeqSt.words (q : SeqSt) (n : Nat) : List Nat := [
  q.state * 2 ^ 60 + q.policy * 2 ^ 59 + q.flask * 2 ^ 55 + q.spreadN * 2 ^ 50 + b2n q.latent * 2 ^ 49 + q.fmt * 2 ^ 45 + n,
  q.ptBase,
  q.streams * 2 ^ 48 + q.maxPages * 2 ^ 32 + q.capacity * 2 ^ 16 + q.stride,
  q.dk * 2 ^ 32 + q.dv * 2 ^ 16 + q.pos,
  spreadWord q.spread 0, spreadWord q.spread 4, spreadWord q.spread 8, spreadWord q.spread 12]

/-- Words of a slag list entry (R335). -/
def Slag.words (g : Slag) (q : Nat) : List Nat :=
  [b2n g.valid * 2 ^ 63 + g.reason * 2 ^ 61 + q, g.upTo * 2 ^ 32 + g.start]

/-- Words as little-endian bytes (R19). -/
def wordsBytes (l : List Nat) : List Byte := l.flatMap (fun v => leBytes v 8)

/-- Change a page descriptor, in State and in the flask's table (R286). -/
def setDesc (k : Nat) (f : PageDesc → PageDesc) : Eff := .seq (setPage k f) (.get fun s =>
  Eff.opt (s.flaskOf (k / 32768 / 12)) fun fl =>
    fwWrite ((s.kvAt fl).descBase + k * 16) (wordsBytes (s.pageAt k).words))

/-- Change a page-table entry (R288). -/
def setPte (q st p : Nat) (e : Pte) : Eff := .get fun s =>
  .seq (.upd (.pte ((q * 65536 + st) * 65536 + p) e))
    (fwWrite ((s.seqAt q).ptBase + (st * (s.seqAt q).maxPages + p) * 8) (leBytes e.word 8))

/-- Change a sequence descriptor (R289). -/
def setSeqD (q : Nat) (f : SeqSt → SeqSt) : Eff := .seq (setSeq q f) (.get fun s =>
  fwWrite (s.seqAt q).descAddr (wordsBytes ((s.seqAt q).words q)))

def State.slagAt (s : State) (q : Nat) : Slag := Store.get {} s.slag q

/-- Change a slag list entry (R335). -/
def setSlag (q : Nat) (g : Slag) : Eff := .get fun s =>
  .seq (.upd (.slag q g)) (fwWrite ((s.kvAt (s.seqAt q).flask).slagBase + q * 16) (wordsBytes (g.words q)))

/-- Keys of a flask's frames that satisfy a test. -/
def State.framesWith (s : State) (fl : Nat) (p : PageDesc → Bool) : Nat :=
  (s.page.filter (fun x => s.flaskOf (x.1 / 32768 / 12) == some fl && p x.2)).length

/-- Slots of a flask that hold pages (R338). -/
def State.slotsUsed (s : State) (fl : Nat) : List Nat :=
  (s.slot.filter (fun x => x.1 / 2 ^ 30 == fl)).map (fun x => x.1 % 2 ^ 30)

/-- Words of a flask's accounting record (R342). -/
def State.acctWords (s : State) (fl : Nat) : List Nat :=
  let cnt := s.framesWith fl
  let a := s.accountAt fl
  let seqs (p : SeqSt → Bool) : Nat := (s.seq.filter (fun x => x.2.flask == fl && p x.2)).length
  [cnt (fun d => d.state != 6),
   cnt (fun d => d.state == 1 || d.state == 3) * 2 ^ 32 + cnt (fun d => d.state == 2),
   cnt (·.pend) * 2 ^ 32 + cnt (fun d => d.state == 0 && !d.pend),
   (s.kvAt fl).swapSlots * 2 ^ 32 + (s.slotsUsed fl).length,
   a.drops * 2 ^ 32 + a.swapOuts,
   a.restores * 2 ^ 32 + a.evictions,
   seqs (fun q => q.state == 2) * 2 ^ 48 + seqs (fun q => q.state == 3) * 2 ^ 32 + seqs (·.starved) * 2 ^ 16,
   0]

/-- Bring a flask's accounting record up to date, its generation moved by two (R342). -/
def acctSync (fl : Nat) : Eff := .get fun s =>
  let cfg := s.kvAt fl
  if cfg.set then .seq (setAccount fl fun a => { a with gen := (a.gen + 2) % 2 ^ 32 }) (.get fun s =>
    match s.acctWords fl with
    | w :: ws => fwWrite cfg.acctBase (wordsBytes ((w + (s.accountAt fl).gen * 2 ^ 32) :: ws))
    | [] => .skip)
  else .skip

/-- Count events of a flask (R342). -/
def countDrops (fl k : Nat) : Eff := setAccount fl fun a => { a with drops := (a.drops + k) % 2 ^ 32 }

/-! ## Free lists (R291, R292) -/

/-- Lowest free frame of a bank in a free map. -/
def freeInBank (m b : Nat) : Option Nat := findNat (fun f => bit m (b * 256 + f)) 256 0

/-- Free frames of a slice (R292 count). -/
def State.freeCount (s : State) (sl : Nat) : Nat := popcount (s.sliceAt sl).freeMap 32768

/-- KV_FREE_LOW is raised when the count falls below low (R292). -/
def checkLow (sl before : Nat) : Eff := .get fun s =>
  let low := s.reg .KV_FL_CTL_low sl
  Eff.when (decide (low ≤ before) && decide (s.freeCount sl < low)) (.seq (doorbell (sl / 12) (0x60 + sl % 12))
    (setSlice sl fun x => { x with reclaim := true }))

/-- Take a frame of a bank off the list. -/
def takeFrame (sl b f : Nat) : Eff := .get fun s =>
  .seq (setSlice sl fun x => { x with freeMap := setBit x.freeMap (b * 256 + f) false }) (checkLow sl (s.freeCount sl))

/-- The frame KV_FL_POP returns: banks searched cyclically from next_bank (R291). -/
def State.popChoice (s : State) (sl : Nat) : Option (Nat × Nat) :=
  let next := s.reg .KV_FL_STAT_next_bank sl
  let m := (s.sliceAt sl).freeMap
  ((List.range 128).map (fun k => (next + k) % 128)).findSome? (fun b => (freeInBank m b).map (fun f => (b, f)))

/-- KV_FL_POP (R291): the frame goes on. -/
def flPop (sl : Nat) (k : Option (Nat × Nat) → Eff) : Eff := .get fun s =>
  match s.popChoice sl with
  | none => k none
  | some (b, f) => Eff.all [takeFrame sl b f, setReg .KV_FL_STAT_next_bank sl ((b + 1) % 128), k (some (b, f))]

/-- KV_FL_POPB (R291) of a bank. -/
def flPopB (sl b : Nat) (k : Option (Nat × Nat) → Eff) : Eff := .get fun s =>
  match freeInBank (s.sliceAt sl).freeMap b with
  | none => k none
  | some f => .seq (takeFrame sl b f) (k (some (b, f)))

/-- KV_FL_PUSH (R291): a frame already free is ignored and sets dup_push. -/
def flPush (sl b f : Nat) : Eff := .get fun s =>
  if bit (s.sliceAt sl).freeMap (b * 256 + f) then setReg .KV_FL_STAT_dup_push sl 1
  else setSlice sl fun x => { x with freeMap := setBit x.freeMap (b * 256 + f) true }

/-- What a read of a pop register returns (R292). -/
def popWord (r : Option (Nat × Nat)) : Nat :=
  match r with
  | none => 0
  | some (b, f) => 2 ^ 31 + b * 256 + f

/-- KV_FL_POP (R291). -/
def execKvFlPop (sl : SliceIx) (s : State) : Out :=
  finish (Eff.when (!s.stackHeld (sl / 96)) (flPop sl fun r => .upd (.rsp (leBytes (popWord r) 4)))) s

/-- KV_FL_POPB (R291): bank KV_FL_CTL.bank. -/
def kvFlPopbEff (sl : SliceIx) (s : State) : Eff :=
  flPopB sl (s.reg .KV_FL_CTL_bank sl) fun r => .upd (.rsp (leBytes (popWord r) 4))

/-- KV_FL_POPB (R291): bank KV_FL_CTL.bank. -/
def execKvFlPopb (sl : SliceIx) (s : State) : Out :=
  finish (Eff.when (!s.stackHeld (sl / 96)) (kvFlPopbEff sl s)) s

/-- KV_FL_PUSH (R291). -/
def execKvFlPush (sl : SliceIx) (b : BankIx) (fr : Fin 256) (s : State) : Out :=
  finish (Eff.when (!s.stackHeld (sl / 96)) (flPush sl b fr)) s

/-! ## Releases (R302-R304) -/

/-- BSU_EPOCH.oldest: the oldest tag of a task in the slice, or the current epoch (R246, R275). -/
def State.bsuOldest (s : State) (sl : Nat) : Nat :=
  let cur := s.reg .BSU_EPOCH_current sl
  let age (e : Nat) : Nat := wrap 16 ((cur : Int) - e)
  let ages := (s.bank.filter (fun p => p.1 / 128 == sl)).flatMap (fun p => p.2.ctx.map (fun t => age t.epoch))
  wrap 16 ((cur : Int) - (ages.foldl max 0 : Nat))

/-- Release a frame whose refcount is 0 (R303), or hold the release at the epoch's limit (R304). -/
def release (k st : Nat) : Eff := .get fun s =>
  let sl := k / 32768
  let e := s.reg .BSU_EPOCH_current sl
  if 2 ^ 14 ≤ wrap 16 ((e : Int) - s.bsuOldest sl) then setSlice sl fun x => { x with heldRel := x.heldRel ++ [(k, st)] }
  else .seq (setDesc k fun d => { d with refcount := 0, state := st, pend := true, epoch := e })
    (setReg .BSU_EPOCH_current sl (e + 1))

/-- Apply one decrement; at 0 the frame is released in a state (R303, R334, R337). -/
def decrement (k st : Nat) : Eff := .get fun s =>
  let d := s.pageAt k
  if d.refcount ≤ 1 then .seq (setDesc k fun d => { d with refcount := 0 }) (release k st)
  else setDesc k fun d => { d with refcount := d.refcount - 1 }

/-- A sequence gives up a page: at its step end if a step is in flight, else at once (R302). -/
def dropRef (q k st : Nat) : Eff := .get fun s =>
  if (s.seqAt q).stepOpen then setSeq q fun x => { x with deferred := x.deferred ++ [(k, st)] } else decrement k st

/-- A step of the sequence ends: its deferred decrements are applied in order (R302, R524). -/
def stepEnd (q : Nat) : Eff := .get fun s =>
  let x := s.seqAt q
  Eff.when x.stepOpen (Eff.all [
    setSeq q fun x => { x with
      stepOpen := false, deferred := [],
      lastStep := (s.seq.foldl (fun m p => max m p.2.lastStep) 0) + 1 },
    Eff.each x.deferred (fun d => decrement d.1 d.2), acctSync x.flask])

/-- STEP_END (R302). -/
def execStepEnd (q : SeqIx) (s : State) : Out := finish (stepEnd q) s

/-- Frames of the slice whose epoch has drained leave pend: a retired one, and one whose BSU is off, is withheld, the others are
pushed (R237, R303, R584); held releases follow once oldest has moved (R304). -/
def epochDrain (sl : Nat) : Eff := .get fun s =>
  let old := s.bsuOldest sl
  let due := s.page.filter (fun p => p.1 / 32768 == sl && p.2.pend
    && decide (0 < signed 16 (wrap 16 ((old : Int) - p.2.epoch))))
  Eff.all [
    Eff.each due (fun p =>
      if p.2.retire || bit (s.sliceAt sl).bsuOff (p.1 / 256 % 128) then setDesc p.1 fun d => { d with pend := false, state := 6 }
      else .seq (setDesc p.1 fun d => { d with pend := false, state := 0 })
        (flPush sl (p.1 / 256 % 128) (p.1 % 256))),
    Eff.each (s.sliceAt sl).heldRel (fun h => .seq
      (setSlice sl fun x => { x with heldRel := x.heldRel.filter (fun y => y.1 != h.1) }) (release h.1 h.2)),
    Eff.opt (s.flaskOf (sl / 12)) acctSync]

/-- EPOCH_DRAIN (R303). -/
def execEpochDrain (sl : SliceIx) (s : State) : Out := finish (Eff.when (s.cccLive (sl / 12)) (epochDrain sl)) s

/-! ## Streams -/

/-- Index of the last entry of a stream that is not EMPTY, plus one. -/
def State.lastPage (s : State) (q st : Nat) : Nat :=
  let base := (q * 65536 + st) * 65536
  s.pte.foldl (fun m p => if base ≤ p.1 ∧ p.1 < base + 65536 ∧ p.2.kind ≠ 0 then max m (p.1 - base + 1) else m) 0

/-- Tokens of a stream (R297). -/
def State.streamTokens (s : State) (q st : Nat) : Nat :=
  let n := s.lastPage q st
  if n = 0 then 0 else (n - 1) * (s.seqAt q).capacity + (s.pteAt q st (n - 1)).tokens

/-- Every entry of a sequence that is not EMPTY: stream, page, entry. -/
def State.ptes (s : State) (q : Nat) : List (Nat × Nat × Pte) :=
  (s.pte.filter (fun p => p.1 / 2 ^ 32 == q && p.2.kind != 0)).map
    (fun p => (p.1 / 65536 % 65536, p.1 % 65536, p.2))

/-- The slice in which logical page p is allocated (R290). -/
def SeqSt.sliceOf (x : SeqSt) (p : Nat) : Nat := x.spread.getD (p % max 1 x.spreadN) 0

/-- Key of the frame a RESIDENT entry names. -/
def Pte.key (e : Pte) : Nat := keyOfPfn (e.loc % 2 ^ 26)

/-- The header of a sequence's page (R282). -/
def SeqSt.header (x : SeqSt) (st p : Nat) : Header :=
  let g := geometry x.latent x.fmt x.dk x.dv
  { version := 1, fmt := x.fmt, shared := false, latent := x.latent, dk := x.dk, dv := x.dv, pos := x.pos
    capacity := x.capacity, fill := 0, vOff := g.1, ksOff := g.2.1, vsOff := g.2.2.1, stride := x.stride
    stream := st, pos0 := p * x.capacity % 2 ^ 32 }

/-- Elements of a sequence's token records (R258). -/
def SeqSt.tlen (x : SeqSt) : Nat := if x.latent then x.dk else x.dk + x.dv

/-- Write one word of a page header over the riser or the channel; cached lines follow (R265). -/
def headerWord (k i v : Nat) : Eff := fwWrite (addrOfKey k + 8 * i) (leBytes v 8)

/-- Write the header words 0-3 of a new page. -/
def writeHeader (k : Nat) (h : Header) : Eff := fwWrite (addrOfKey k) (wordsBytes (headerWords h))

/-- Set or clear the SHARED bit of a page's header (R299, R301). -/
def setShared (k : Nat) (v : Bool) : Eff := .get fun s =>
  headerWord k 0 (setBit (s.rawWord (addrOfKey k)) 13 v)

/-! ## Swap slots (R338) -/

/-- Where a swap slot lies: host memory of the flask's function, or far memory. -/
def slotAddr (cfg : KvCfg) (i : Nat) : Nat := cfg.swapBase + i * 32768

/-- Bytes of a slot. -/
def State.slotBytes (s : State) (fl i : Nat) : List Byte :=
  let cfg := s.kvAt fl
  if cfg.swapArea = 0 then s.hostBytes (fl + 1) (slotAddr cfg i) 32768 else s.rawBytes (slotAddr cfg i) 32768

/-- Write a slot. -/
def writeSlot (fl i : Nat) (d : List Byte) : Eff := .get fun s =>
  let cfg := s.kvAt fl
  if cfg.swapArea = 0 then .upd (.hbytes ((fl + 1) * 2 ^ 64 + slotAddr cfg i) d) else .upd (.bytes (slotAddr cfg i) d)

/-- The lowest slot that holds no page. -/
def State.freeSlot (s : State) (fl : Nat) : Option Nat :=
  findNat (fun i => (s.slotAt fl i).holders.isEmpty) (s.kvAt fl).swapSlots 0

/-- The slot a SWAPPED entry names. -/
def Pte.slotIx (e : Pte) : Nat := e.loc % 2 ^ 30

/-- A holder leaves a slot; the last one frees it. -/
def leaveSlot (fl i q st p : Nat) : Eff := .get fun s =>
  let x := s.slotAt fl i
  let hs := (x.holders.zip x.tokens).filter (fun h => h.1 != (q, st, p))
  .upd (.slot (fl * 2 ^ 30 + i) (if hs.isEmpty then {} else { x with holders := hs.map (·.1), tokens := hs.map (·.2) }))

/-! ## Eviction (R329-R340) -/

/-- Whether evicting a sequence frees the frame behind one of its entries in a slice (R330). -/
def State.freesFrame (s : State) (sl : Nat) (e : Pte) : Bool :=
  e.kind == 1 && e.key / 32768 == sl && decide ((s.pageAt e.key).refcount ≤ 1)

/-- Free frames and frames with pend = 1 of a slice (R329). -/
def State.comingFrames (s : State) (sl : Nat) : Nat :=
  s.freeCount sl + (s.page.filter (fun p => p.1 / 32768 == sl && p.2.pend)).length

/-- The target of reclamation in a slice (R329). -/
def State.reclaimTarget (s : State) (sl : Nat) : Nat :=
  match s.flaskOf (sl / 12) with
  | none => 0
  | some fl => max (s.kvAt fl).reclaimHigh (s.reg .KV_FL_CTL_low sl)

/-- Frames still needed in the slice. -/
def State.needed (s : State) (sl : Nat) : Nat := s.reclaimTarget sl - s.comingFrames sl

/-- Priority of a sequence's bound context (R331); unbound sequences rank lowest. -/
def State.seqPrio (s : State) (x : SeqSt) : Nat := x.ctx.elim 0 (fun c => (s.ctxAt c).prio + 1)

/-- Order of victims: the first one in this order is evicted (R331). -/
def victimBefore (s : State) (a b : Nat × SeqSt) : Bool :=
  if a.2.policy ≠ b.2.policy then decide (a.2.policy < b.2.policy)
  else if s.seqPrio a.2 ≠ s.seqPrio b.2 then decide (s.seqPrio a.2 < s.seqPrio b.2)
  else if a.2.lastStep ≠ b.2.lastStep then decide (a.2.lastStep < b.2.lastStep)
  else decide (a.1 < b.1)

/-- Sequences that wait for a frame of a slice (R332). -/
def State.waitsIn (s : State) (q sl : Nat) : Bool := (s.seqAt q).waiting == some sl

/-- The candidates for a slice (R331): ACTIVE sequences of its flask, no requester, no copy-on-write or swap in progress
(R333), holding a page there whose frame would come free. -/
def State.candidates (s : State) (sl : Nat) : List (Nat × SeqSt) :=
  match s.flaskOf (sl / 12) with
  | none => []
  | some fl => s.seq.filter fun x => x.2.state == 1 && x.2.flask == fl && !s.waitsIn x.1 sl && !x.2.cow && !x.2.swapping
      && (s.ptes x.1).any (fun e => s.freesFrame sl e.2.2)

/-- The victim of a slice (R331). -/
def State.victim (s : State) (sl : Nat) : Option Nat :=
  (s.candidates sl).foldl (fun (m : Option (Nat × SeqSt)) x =>
    match m with
    | none => some x
    | some y => if victimBefore s x y then some x else some y) none |>.map (·.1)

/-- Drop page (R334): the largest page index from which on enough frames of the slice come free; 0 if none is. -/
def State.dropPage (s : State) (q sl need : Nat) : Nat :=
  let es := s.ptes q
  let freed (d : Nat) : Nat := (es.filter (fun e => decide (d ≤ e.2.1) && s.freesFrame sl e.2.2)).length
  let top := es.foldl (fun m e => max m e.2.1) 0
  ((List.range (top + 1)).reverse.find? (fun d => decide (need ≤ freed d))).getD 0

/-- Tokens of the longest stream. -/
def State.longest (s : State) (q : Nat) : Nat :=
  ((s.ptes q).map (fun e => e.1)).foldl (fun m st => max m (s.streamTokens q st)) 0

/-- Drop a sequence's pages from a page index on (R334): state, entries, decrements, slag entry, KV_SLAG. -/
def dropFrom (q d reason : Nat) : Eff := .get fun s =>
  let x := s.seqAt q
  let gone := (s.ptes q).filter (fun e => decide (d ≤ e.2.1) && e.2.2.kind != 3)
  let old := s.slagAt q
  Eff.all [
    setSeqD q fun x => { x with state := 2, waiting := none, starved := false, swapping := false, swapTodo := [] },
    Eff.each gone (fun e => Eff.all [
      setPte q e.1 e.2.1 { kind := 3 },
      if e.2.2.kind = 1 then dropRef q e.2.2.key 4
      else if e.2.2.kind = 2 then leaveSlot x.flask e.2.2.slotIx q e.1 e.2.1 else .skip]),
    setSlag q (if old.valid then { old with start := d * x.capacity }
      else { valid := true, reason := reason, upTo := s.longest q, start := d * x.capacity }),
    countDrops x.flask gone.length,
    flaskRing x.flask 5 q]

/-- Evict a sequence under the DROP rules (R334). -/
def dropEvict (q d reason : Nat) : Eff := .get fun s =>
  Eff.all [dropFrom q d reason,
    setAccount (s.seqAt q).flask (fun a => { a with evictions := (a.evictions + 1) % 2 ^ 32 }), acctSync (s.seqAt q).flask]

/-- Entries in page order, those of one page in stream order (R337 step 3, log entry 22). -/
def byPage (l : List (Nat × Nat × Pte)) : List (Nat × Nat × Pte) :=
  (List.range (l.foldl (fun m e => max m (e.2.1 + 1)) 0)).flatMap fun p => l.filter (fun e => e.2.1 == p)

/-- Begin the eviction of a SWAP victim (R337 step 1). -/
def swapBegin (q : Nat) : Eff := .get fun s =>
  let todo := byPage ((s.ptes q).filter (fun e => e.2.2.kind == 1 && (s.pageAt e.2.2.key).state == 1))
  Eff.all [
    setSeqD q fun x => { x with state := 3, swapping := true, held := true, swapTodo := todo.map (fun e => (e.1, e.2.1)) },
    setAccount (s.seqAt q).flask (fun a => { a with evictions := (a.evictions + 1) % 2 ^ 32 }),
    acctSync (s.seqAt q).flask]

/-- Evict a sequence by its own class; the target of a slice gives the drop page (R331, R334, R337). -/
def evictSeq (q sl need reason : Nat) : Eff := .get fun s =>
  if (s.seqAt q).policy = 0 then dropEvict q (s.dropPage q sl need) reason else swapBegin q

/-- The pages of a sequence's swap have all been handled (R337). -/
def swapDone (q : Nat) : Eff := .get fun s =>
  .seq (setSeq q fun x => { x with swapping := false, swapTodo := [] }) (flaskRing (s.seqAt q).flask 7 q)

/-- Every holder of a frame: sequence, stream, page, tokens. -/
def State.holdersOf (s : State) (k : Nat) : List (Nat × Nat × Nat × Nat) :=
  (s.pte.filter (fun p => p.2.kind == 1 && p.2.key == k)).map
    (fun p => (p.1 / 2 ^ 32, p.1 / 65536 % 65536, p.1 % 65536, p.2.tokens))

/-- The page of a swap that is handled next: the first OWNED one left, or a SHARED page all of whose holders are
PREEMPTED (R337, R340). -/
def State.swapNext (s : State) (q : Nat) : Option (Nat × Nat) :=
  let x := s.seqAt q
  match x.swapTodo with
  | e :: _ => some e
  | [] => ((s.ptes q).find? (fun e => e.2.2.kind == 1 && (s.pageAt e.2.2.key).state == 2
      && (s.holdersOf e.2.2.key).all (fun h => (s.seqAt h.1).state == 3))).map (fun e => (e.1, e.2.1))

/-- A page of a swap has been handled: it leaves the list. -/
def swapHandled (q : Nat) (e : Nat × Nat) : Eff := setSeq q fun x => { x with swapTodo := x.swapTodo.filter (· != e) }

/-- A page that cannot be swapped is dropped, with those after it (R339). -/
def swapFail (q p reason : Nat) : Eff := .get fun s =>
  .seq (dropFrom q p reason) (acctSync (s.seqAt q).flask)

/-- Copy a frame to a slot: every holder's entry becomes SWAPPED, the frame is released with state SWAPPED (R337,
R340). -/
def swapOut (fl k i : Nat) : Eff := .get fun s =>
  let hs := s.holdersOf k
  let d := s.pageAt k
  let loc := (s.kvAt fl).swapArea * 2 ^ 30 + i
  Eff.all [
    writeSlot fl i (s.bsuBytes (addrOfKey k) 32768).1,
    .upd (.slot (fl * 2 ^ 30 + i) { holders := hs.map (fun h => (h.1, h.2.1, h.2.2.1)), tokens := hs.map (·.2.2.2), desc := d }),
    Eff.each hs (fun h => setPte h.1 h.2.1 h.2.2.1 { kind := 2, tokens := h.2.2.2, loc := loc }),
    setDesc k fun d => { d with refcount := 0 }, release k 5,
    setAccount fl (fun a => { a with swapOuts := (a.swapOuts + 1) % 2 ^ 32 })]

/-- Bring a slot back into a frame (R341): the descriptor and every recorded holder's entry as before. -/
def swapIn (fl i k : Nat) : Eff := .get fun s =>
  let x := s.slotAt fl i
  Eff.all [
    fwWrite (addrOfKey k) (s.slotBytes fl i),
    Eff.each (List.range 512) (fun n => invalLine (addrOfKey k / 64 + n)),
    setDesc k fun _ => { x.desc with pend := false },
    Eff.each (x.holders.zip x.tokens) (fun h =>
      setPte h.1.1 h.1.2.1 h.1.2.2 { kind := 1, tokens := h.2, loc := pfnOfKey k }),
    .upd (.slot (fl * 2 ^ 30 + i) {}),
    setAccount fl (fun a => { a with restores := (a.restores + 1) % 2 ^ 32 })]

/-- A sequence waits for a frame of a slice: reclamation starts there (R329). -/
def waitFrame (q sl : Nat) : Eff := .seq (setSeq q fun x => { x with waiting := some sl })
  (setSlice sl fun x => { x with reclaim := true })

end Sys2Proof.Machine
end

