-- ==== Sys2Proof/Machine/Sched.lean ====
section
/-! DEFINITION. Contexts as the other chapters see them (21_contexts_and_flasks.md): ranks and their sites, the item that
runs on a core, saved images, and the completion ADD that follows a context that is switched out. -/
namespace Sys2Proof.Machine

/-- Active cores per cluster of the grade (R509). -/
def State.perCluster (s : State) : Nat := s.fuse.grade / 96

/-- First cluster of a context's current range (R525). -/
def State.rangeFirst (s : State) (x : CtxSt) : Nat :=
  match x.rot with
  | none => x.first
  | some r => ((s.ctx.find? (fun p => p.2.on && p.2.rot == some r && p.2.rotIdx == x.range)).map (·.2.first)).getD x.first

/-- Clusters of a context's current range. -/
def State.rangeOf (s : State) (x : CtxSt) : List Nat := (List.range x.count).map (· + s.rangeFirst x)

/-- The site each rank runs on, none for one that is not run (R509). -/
def State.ranksOf (s : State) (x : CtxSt) : List (Option Nat) :=
  (s.rangeOf x).flatMap fun c => (List.range s.perCluster).map fun k => (s.clusterAt c).ranks[k]?

/-- Sites of a context, with their ranks. -/
def State.sitesOf (s : State) (x : CtxSt) : List (Nat × Nat) :=
  (s.ranksOf x).zipIdx.filterMap (fun p => p.1.map (fun n => (p.2, n)))

/-- The context's item occupies its cores: started and not saved by a pre-emption. -/
def CtxSt.running (x : CtxSt) : Bool := x.item.any (fun i => i.saved.isNone)

/-- The context whose item runs on a site. -/
def State.ctxOn (s : State) (n : Nat) : Option Nat :=
  (s.ctx.find? (fun p => p.2.on && p.2.running && (s.sitesOf p.2).any (fun r => r.2 == n))).map (·.1)

/-- Two lists of clusters share one. -/
def overlaps (a b : List Nat) : Bool := a.any (fun c => b.any (· == c))

/-- A context is exclusive (R510). -/
def State.exclusive (s : State) (x : Nat) : Bool :=
  let c := s.ctxAt x
  c.rot.isNone && !(s.ctx.any (fun p => p.1 != x && p.2.on && overlaps (s.rangeOf c) (s.rangeOf p.2)))

/-! ## Images (R510) -/

/-- Fields of an image: field, instances per site, which of them. -/
def imageFields : List (Fld × Nat × Nat) :=
  (.SEQ_PC_addr, 1, 0) ::
  ((List.range 13).flatMap (fun b => (layout b).map (fun x => if 2 ≤ b ∧ b ≤ 9 then (x.1, 8, b - 2) else (x.1, 1, 0)))) ++
  ((List.range 8).map (fun k => (Fld.CT_value, 8, k))) ++
  ((List.range 4).flatMap (fun k => [(Fld.CM_value, 4, k), (Fld.CM_rel, 4, k), (Fld.CM_ct, 4, k)]))

/-- The image of a site as it stands. -/
def State.imageOf (s : State) (n : Nat) : List Nat := imageFields.map (fun x => s.reg x.1 (n * x.2.1 + x.2.2))

/-- Load an image into a site; none stands for the reset state. -/
def loadImage (n : Nat) (img : List Nat) : Eff :=
  Eff.each imageFields.zipIdx fun x => setReg x.1.1 (n * x.1.2.1 + x.1.2.2) (img.getD x.2 x.1.1.info.reset)

/-- Position of counter CT in an image. -/
def imageCt (ct : Nat) : Nat := (imageFields.findIdx (fun x => x == (Fld.CT_value, 8, ct)))

/-- The saved image of a rank: the reset state before the first switch (R510). -/
def State.savedImage (s : State) (x r : Nat) : List Nat :=
  let i := Store.get [] s.image (x * 1056 + r)
  if i = [] then imageFields.map (fun f => f.1.info.reset) else i

/-- Save a rank's image. -/
def saveImage (x r : Nat) (img : List Nat) : Eff := .upd (.image (x * 1056 + r) img)

/-- A context's state is out of its cores: only an exclusive context leaves it there between items (R510, R512). -/
def State.switchedOut (s : State) (x n : Nat) : Bool := !s.exclusive x && s.ctxOn n != some x

/-- The completion ADD of an append or attend request (R297, R316): CT of the requester's core, or of its saved image
(R512). `x` is the context that wrote the request plus one, 0 for none. -/
def requestAdd (n x ct : Nat) : Eff := .get fun s =>
  if s.clusterHeld (n / 12) then .skip
  else if x ≠ 0 ∧ s.switchedOut (x - 1) n then
    match (s.sitesOf (s.ctxAt (x - 1))).find? (fun r => r.2 == n) with
    | none => .skip
    | some r =>
      let i := s.savedImage (x - 1) r.1
      saveImage (x - 1) r.1 (i.set (imageCt ct) ((i.getD (imageCt ct) 0 + 1) % 2 ^ 32))
  else ctAdd n ct 1

/-! ## Statuses and steps (R313, R517, R524) -/

/-- A non-OK status of a request is reported to the SCH for the item of the requester's context (R313, R517). -/
def reportStatus (n st : Nat) : Eff := .get fun s =>
  Eff.when (st != 0) (Eff.opt (s.ctxOn n) fun x => setCtx x fun c =>
    { c with item := c.item.map (fun i => { i with status := firstBad i.status st }) })

/-- A work item has issued a request for a sequence: its step is in flight (R524). -/
def stepBegins (n q : Nat) : Eff := .get fun s =>
  Eff.opt (s.ctxOn n) fun x => .seq (setSeq q fun y => { y with stepOpen := true })
    (setCtx x fun c => { c with item := c.item.map (fun i => if q ∈ i.seqs then i else { i with seqs := i.seqs ++ [q] }) })

end Sys2Proof.Machine
end

