-- ==== Sys2Proof/Machine/Append.lean ====
section
/-! DEFINITION. Appends and copy-on-write (R294-R305, R644): what a CCC does with the requests of an append ring. -/
namespace Sys2Proof.Machine

/-! ## Rings -/

/-- Issuer of a CCC's own accesses: firmware unit 3 + cluster (R463). -/
def cccIss (c : Nat) : Issuer := .fw (3 + c)

/-- The site that runs a site's work: itself, or the one that took its rank (R296, R585). -/
def State.runner (s : State) (n : Nat) : Nat :=
  match (s.clusterAt (n / 12)).moved.find? (fun p => p.1 == n) with
  | some p => p.2
  | none => n

/-- Address of a site's ring at an offset with a size (R296, R311). -/
def ringAddr (n off size : Nat) : Nat := csramBase + n / 12 * 2 ^ 24 + off + n % 12 * size

/-- Bytes of a request from an entry on, circular in whole entries (R296). -/
def State.ringBytes (s : State) (base size e len : Nat) : Rd :=
  let n := max 1 (size / 128)
  let rs := (List.range ((len + 127) / 128)).map (fun k => s.readResult 13 false none (base + (e + k) % n * 128) 128)
  { data := (rs.flatMap (·.data)).take len, bad := rs.any (·.bad) }

/-- Words of a run of bytes. -/
def wordOf (d : List Byte) (k : Nat) : Nat := leNat ((d.drop (k * 8)).take 8)

/-- An append request (R296). -/
structure AppReq where
  valid : Bool := false
  fmt : Nat := 0
  ct : Nat := 0
  stream : Nat := 0
  seq : Nat := 0
  position : Nat := 0
  /-- A reserved field is not 0, or src_fmt is reserved (R644 step 1). -/
  bad : Bool := false
  w0 : Nat := 0
  deriving DecidableEq, Repr

/-- The request whose tag is at an entry of a site's append ring. -/
def State.appReq (s : State) (n e : Nat) : AppReq :=
  let cfg := s.kvAt ((s.coreFlask n).getD 16)
  let d := (s.ringBytes (ringAddr n cfg.appOff cfg.appSize) cfg.appSize e 16).data
  let w0 := wordOf d 0
  let w1 := wordOf d 1
  { valid := bit w0 63, fmt := bits w0 59 56, ct := bits w0 55 53, stream := bits w0 47 32, seq := bits w0 12 0
    position := bits w1 31 0, w0 := w0
    bad := bits w0 62 60 != 0 || decide (1 < bits w0 59 56) || bits w0 52 48 != 0 || bits w0 15 13 != 0 || bits w1 63 32 != 0 }

/-- Entries a request occupies (R296); one when its sequence is FREE and gives no record length (log entry 20). -/
def State.appEntries (s : State) (r : AppReq) : Nat :=
  let q := s.seqAt r.seq
  if q.state = 0 then 1 else (16 + q.tlen * argWidth r.fmt + 127) / 128

/-- The frame pools of an append find no bank for it now: no frame, an assay, a swapped page, another request of the
sequence in hand, or the sequence is PREEMPTED. -/
def State.appBlocked (s : State) (r : AppReq) : Bool :=
  let q := s.seqAt r.seq
  let p := r.position / max 1 q.capacity
  let e := s.pteAt r.seq r.stream p
  let sl := q.sliceOf p
  !r.bad && (q.state == 3 || (q.state == 1 && s.cccLive (sl / 12) && (q.cow || e.kind == 2
    || (e.kind == 0 && (s.popChoice sl).isNone)
    || (e.kind == 1 && (s.bankAssay sl (e.key / 256 % 128)
        || ((s.pageAt e.key).state == 2 && decide (2 ≤ (s.pageAt e.key).refcount) && (s.popChoice sl).isNone))))))

/-- Put a request aside: it stays valid, and others go on (R297). -/
def appAside (n e x : Nat) : Eff := setCore n fun c =>
  { c with appAside := if c.appAside.any (fun y => y.1 == e) then c.appAside else c.appAside ++ [(e, x)] }

/-- Complete an append: status and valid in the tag, then the ADD (R297). -/
def appDone (n e x : Nat) (r : AppReq) (st : Nat) : Eff := .get fun s =>
  let cfg := s.kvAt ((s.coreFlask n).getD 16)
  let w := r.w0 % 2 ^ 63 / 2 ^ 32 * 2 ^ 32 + st * 2 ^ 16 + r.w0 % 2 ^ 16
  Eff.all [fwWrite (ringAddr n cfg.appOff cfg.appSize + e * 128) (leBytes w 8),
    setCore n (fun c => { c with appAside := c.appAside.filter (fun y => y.1 != e) }),
    setSeq r.seq (fun q => if q.waiting.isSome then { q with waiting := none, starved := false } else q),
    requestAdd (s.runner n) x r.ct]

/-- APPEND_Q on the port to a RESIDENT page, and what its result asks for (R297, R300, R301, R305). The take-over
clears SHARED first and then writes, so it needs no second round. -/
def appendInto (n e x : Nat) (r : AppReq) (p : Nat) : Eff := .get fun s =>
  let q := s.seqAt r.seq
  let cfg := s.kvAt q.flask
  let k := (s.pteAt r.seq r.stream p).key
  let sl := k / 32768
  let b := k / 256 % 128
  let addr := addrOfKey k
  let d := s.ringBytes (ringAddr n cfg.appOff cfg.appSize) cfg.appSize e (16 + q.tlen * argWidth r.fmt)
  let tok := tokenOf r.fmt q.tlen (d.data.drop 16)
  let store (res : Nat × Nat × List Byte × Nat) : Eff := .get fun s => Eff.all [
    appendWrite s addr res.2.1 res.2.2.1, addReg .BSU_PERF_commands sl 1,
    setPte r.seq r.stream p { s.pteAt r.seq r.stream p with tokens := res.2.1 + 1 }, appDone n e x r 0]
  if d.bad then appDone n e x r stUncorrectable
  else if bit (s.sliceAt sl).bsuOff b then appDone n e x r stTargetLost
  else if s.bankAssay sl b then appAside n e x
  else
    let res := appendResult s addr q.tlen tok
    .seq (bsuTouch q.flask addr 32)
    (if res.1 = 0 then store res
     else if res.1 = stShared then
      (if 2 ≤ (s.pageAt k).refcount then
        flPopB sl b fun f1 =>
          let go (f : Nat × Nat) : Eff :=
            let dst := frameKey sl f.1 f.2
            Eff.all [
              setDesc dst fun _ => { refcount := 1, owner := r.seq, state := 3, page := p, stream := r.stream },
              setSeq r.seq fun y => { y with cow := true, waiting := none },
              setCore n fun c => { c with
                cows := c.cows ++ [{ entry := e, ctx := x, q := r.seq, stream := r.stream, page := p, src := k, dst := dst }] },
              appAside n e x]
          match f1 with
          | some f => go f
          | none => flPop sl fun f2 =>
            match f2 with
            | some f => go f
            | none => .seq (waitFrame r.seq sl) (appAside n e x)
       else Eff.all [setShared k false,
        setDesc k fun y => { y with state := 1, owner := r.seq, stream := r.stream, page := p },
        .get fun s => store (appendResult s addr q.tlen tok)])
     else if res.1 = stNoResource then appAside n e x
     else if res.1 = stUncorrectable then .seq (dropFrom r.seq p 1) (appDone n e x r stUncorrectable)
     else appDone n e x r res.1)

/-- One append request (R297, R644). A request that was waiting when its sequence lost its pages ends with DROPPED (R332, log
entry 21). -/
def appendTry (n e x : Nat) : Eff := .get fun s =>
  let r := s.appReq n e
  let q := s.seqAt r.seq
  let p := r.position / max 1 q.capacity
  let sl := q.sliceOf p
  let t := s.pteAt r.seq r.stream p
  if r.bad then appDone n e x r stBadLength
  else if q.state = 0 ∨ s.coreFlask n ≠ some q.flask then appDone n e x r stDenied
  else if q.streams ≤ r.stream then appDone n e x r stBadLength
  else if q.state = 2 ∧ (s.coreAt n).appAside.any (fun y => y.1 == e) = true then appDone n e x r stDropped
  else if r.position ≠ s.streamTokens r.seq r.stream then appDone n e x r stBadLength
  else if q.state = 3 then appAside n e x
  else if q.state = 2 ∨ t.kind = 3 then appDone n e x r stDropped
  else if q.maxPages ≤ p then appDone n e x r stBadLength
  else if (sl / 12 ≠ n / 12) ∧ s.cccLive (sl / 12) = false then appDone n e x r stTargetLost
  else if q.cow then appAside n e x
  else if t.kind = 2 then .seq (setSeq r.seq fun y => { y with want := if (r.stream, p) ∈ y.want then y.want else y.want ++ [(r.stream, p)] })
    (appAside n e x)
  else if t.kind = 0 then flPop sl fun f =>
    match f with
    | none => .seq (waitFrame r.seq sl) (appAside n e x)
    | some bf =>
      let k := frameKey sl bf.1 bf.2
      Eff.all [writeHeader k (q.header r.stream p),
        setDesc k fun _ => { refcount := 1, owner := r.seq, state := 1, page := p, stream := r.stream },
        setPte r.seq r.stream p { kind := 1, tokens := 0, loc := pfnOfKey k },
        setSeq r.seq fun y => { y with waiting := none, starved := false },
        appendInto n e x r p]
  else appendInto n e x r p

/-- The first request set aside that can go on, with no earlier one of its sequence before it (R297). -/
def State.appNext (s : State) (n : Nat) : Option (Nat × Nat) :=
  let l := (s.coreAt n).appAside
  (l.zipIdx.find? (fun y => !s.appBlocked (s.appReq n y.1.1)
    && (l.take y.2).all (fun z => (s.appReq n z.1).seq != (s.appReq n y.1.1).seq))).map (·.1)

/-- Pass over entries set aside that the head meets again (R297). -/
def State.appHeadAt (s : State) (n : Nat) : Nat → Nat → Nat
  | 0, h => h
  | k + 1, h =>
    if (s.coreAt n).appAside.any (fun y => y.1 == h) then
      s.appHeadAt n k ((h + s.appEntries (s.appReq n h)) % max 1 ((s.kvAt ((s.coreFlask n).getD 16)).appSize / 128))
    else h

/-- APPEND_REQUEST of a site's ring: a request set aside that can go on, or the next one in ring order. -/
def appendRequest (n : Nat) : Eff := .get fun s =>
  let cfg := s.kvAt ((s.coreFlask n).getD 16)
  let size := cfg.appSize / 128
  if !cfg.set || size == 0 then .skip
  else match s.appNext n with
  | some a => appendTry n a.1 a.2
  | none =>
    let h := s.appHeadAt n 1024 ((s.coreAt n).appHead % size)
    let r := s.appReq n h
    let x := (s.ctxOn (s.runner n)).elim 0 (· + 1)
    if !r.valid || (s.coreAt n).appAside.any (fun y => y.1 == h) then .skip
    else Eff.all [
      setCore n (fun c => { c with appHead := (h + s.appEntries r) % size }),
      Eff.when (decide ((s.seqAt r.seq).state ≠ 0) && s.coreFlask n == some (s.seqAt r.seq).flask)
        (stepBegins (s.runner n) r.seq),
      if (s.coreAt n).appAside.any (fun y => (s.appReq n y.1).seq == r.seq) && !r.bad then appAside n h x
      else appendTry n h x]

/-- APPEND_REQUEST (R297). -/
def execAppendRequest (n : SiteIx) (s : State) : Out :=
  finish (Eff.when (s.cccLive (n / 12)) (.seq (appendRequest n) (Eff.opt (s.coreFlask n) acctSync))) s

/-- The oldest copy-on-write of a site completes (R300 steps 3 to 6): the copy, its header, the remap, the decrement of
the old page, and the append again. A lost header word ends the old page's life instead (R305). -/
def copyOnWrite (n : Nat) : Eff := .get fun s =>
  match (s.coreAt n).cows with
  | [] => .skip
  | c :: cs =>
    let src := addrOfKey c.src
    let dst := addrOfKey c.dst
    let fl := (s.seqAt c.q).flask
    let ended := .seq (setCore n fun x => { x with cows := cs }) (setSeq c.q fun y => { y with cow := false })
    if (s.bsuBytes src 32).2 then Eff.all [ended, bsuTouch fl src 32, setDesc c.dst fun d => { d with refcount := 0 },
      release c.dst 0, dropFrom c.q c.page 1, appDone n c.entry c.ctx (s.appReq n c.entry) stUncorrectable]
    else Eff.all [ended, bsuTouch fl src 32768, copyFrame src dst,
      .get fun s => headerWord c.dst 0 (setBit (s.rawWord dst) 13 false),
      Eff.each (List.range 512) (fun k => invalLine (dst / 64 + k)),
      setDesc c.dst fun d => { d with state := 1 },
      .get fun s => setPte c.q c.stream c.page { s.pteAt c.q c.stream c.page with kind := 1, loc := pfnOfKey c.dst },
      dropRef c.q c.src 0,
      appendTry n c.entry c.ctx]

/-- COPY_ON_WRITE (R300). -/
def execCopyOnWrite (n : SiteIx) (s : State) : Out :=
  finish (Eff.when (s.cccLive (n / 12)) (.seq (copyOnWrite n) (Eff.opt (s.coreFlask n) acctSync))) s

/-- SEQ_FREE of a PREEMPTED sequence completes its set-aside requests with DENIED (R297). -/
def denyAside (q : Nat) : Eff := .get fun s => Eff.each s.core fun c =>
  Eff.each (c.2.appAside.filter (fun e => (s.appReq c.1 e.1).seq == q)) fun e =>
    appDone c.1 e.1 e.2 (s.appReq c.1 e.1) stDenied

end Sys2Proof.Machine
end

