-- ==== Sys2Proof/Machine/Attend.lean ====
section
/-! DEFINITION. Attend requests and the member merge (11_attention_execution.md). -/
namespace Sys2Proof.Machine

/-- An attend request (R311). -/
structure AttReq where
  valid : Bool := false
  fmt : Nat := 0
  ct : Nat := 0
  mct : Nat := 0
  nq : Nat := 0
  stream : Nat := 0
  seq : Nat := 0
  scale : Nat := 0
  qOff : Nat := 0
  lo : Nat := 0
  hi : Nat := 0
  m : Nat := 0
  gather : Nat := 0
  bad : Bool := false
  w0 : Nat := 0
  deriving DecidableEq, Repr

/-- Address of an entry of a site's attend ring. -/
def State.attAddr (s : State) (n e : Nat) : Nat :=
  let cfg := s.kvAt ((s.coreFlask n).getD 16)
  ringAddr n cfg.attOff cfg.attSize + e * 128

/-- The request at an entry of a site's attend ring (R311, R644 step 1). -/
def State.attReq (s : State) (n e : Nat) : AttReq :=
  let d := (s.readResult 13 false none (s.attAddr n e) 128).data
  let w0 := wordOf d 0
  let w1 := wordOf d 1
  let w2 := wordOf d 2
  let w3 := wordOf d 3
  { valid := bit w0 63, fmt := bits w0 62 59, ct := bits w0 58 56, mct := bits w0 55 53, nq := bits w0 52 48
    stream := bits w0 47 32, seq := bits w0 12 0, scale := bits w1 63 32, qOff := bits w1 23 0
    lo := bits w2 63 32, hi := bits w2 31 0, m := bits w3 63 60, gather := bits w3 45 0, w0 := w0
    bad := bits w0 15 13 != 0 || bits w1 31 24 != 0 || bits w3 59 46 != 0 || (d.drop 32).any (· != 0)
      || decide (1 < bits w0 62 59) || bits w0 52 48 == 0 || decide (16 < bits w0 52 48)
      || bits w1 23 0 % 128 != 0 || bits w3 45 0 % 8 != 0 }

/-- Address of a gather slot (R316). -/
def gatherSlot (gather j m dv : Nat) : Nat := gather + j * 0x8000 + m * (dv + 2) * 4

/-- The gather slots of a request break R316. -/
def slotsBad (r : AttReq) (q : SeqSt) : Bool :=
  let size := (q.dv + 2) * 4
  decide (32768 < r.gather % 0x8000 + (r.m + 1) * size)
  || (List.range r.nq).any fun j =>
    let a := gatherSlot r.gather j r.m q.dv
    decide (stackedEnd < a + size) || a / 2 ^ 30 / 96 != q.sliceOf 0 / 96

/-- Pages of the request's stream that its member handles, ascending: page, entry, first and last token in range
(R312). -/
def State.attPages (s : State) (r : AttReq) : List (Nat × Pte × Nat × Nat) :=
  let q := s.seqAt r.seq
  let n := max 1 q.spreadN
  ((List.range (s.lastPage r.seq r.stream)).filter (fun p => p % n == r.m % n)).map fun p =>
    let e := s.pteAt r.seq r.stream p
    let b := p * q.capacity
    (p, e, max r.lo b - b, min r.hi (b + (if e.kind = 3 then q.capacity else e.tokens)) - b)

/-- The pages with a token in range. -/
def State.attRange (s : State) (r : AttReq) : List (Nat × Pte × Nat × Nat) :=
  (s.attPages r).filter (fun x => decide (x.2.2.1 < x.2.2.2))

/-- Partials a merge frame holds (R314). -/
def perFrame (dv : Nat) : Nat := 32768 / ((dv + 2) * 4)

/-- Groups of each stage of a query's merge (R314, R315). -/
def stages (f : Nat) : Nat → Nat → List Nat
  | 0, _ => []
  | k + 1, p =>
    if p = 0 then [] else
      let g := (p + f - 1) / f
      if g ≤ 1 then [g] else g :: stages f k g

/-- Merge frames a request needs for each query (R315). -/
def framesFor (dv pages : Nat) : Nat := (stages (max 1 (perFrame dv)) 64 pages).foldl (· + ·) 0

/-- The merge frames of a cluster's CCC (R315). -/
def State.mergeShare (s : State) (c : Nat) : List Nat :=
  match s.flaskOf c with
  | none => []
  | some fl =>
    let cfg := s.kvAt fl
    let cs := (List.range 96).filter (fun k => s.flaskOf k == some fl)
    let per := cfg.mergeFrames / max 1 cs.length
    let ix := (cs.filter (· < c)).length
    (List.range per).map (fun k => cfg.mergeBase + (ix * per + k) * 32768)

def State.attendsAt (s : State) (c : Nat) : List Attend := Store.get [] s.attend c

/-- Merge frames of the share that no request holds. -/
def State.freeMerge (s : State) (c : Nat) : List Nat :=
  let held := (s.attendsAt c).flatMap (fun a => a.frames.flatten)
  (s.mergeShare c).filter (fun f => !(held.any (· == f)))

/-- The request has to wait: a copy-on-write of its sequence, a page to restore, an assay, or merge frames (R312, R315,
R333). -/
def State.attBlocked (s : State) (n : Nat) (r : AttReq) : Bool :=
  let q := s.seqAt r.seq
  let ps := s.attRange r
  let need := r.nq * framesFor q.dv (ps.filter (fun x => x.2.1.kind != 3)).length
  !r.bad && q.state == 1 && decide (r.stream < q.streams) && decide (r.lo ≤ r.hi)
    && (q.cow || ps.any (fun x => x.2.1.kind == 2)
      || ps.any (fun x => x.2.1.kind == 1 && s.bankAssay (x.2.1.key / 32768) (x.2.1.key / 256 % 128))
      || (decide (need ≤ (s.mergeShare (n / 12)).length) && decide ((s.freeMerge (n / 12)).length < need)))

/-- Put an attend request aside. -/
def attAside (n e x : Nat) : Eff := setCore n fun c =>
  { c with attAside := if c.attAside.any (fun y => y.1 == e) then c.attAside else c.attAside ++ [(e, x)] }

/-- Write the status, clear valid, ADD CT[ct] (R316). -/
def attDone (n e x : Nat) (w0 st ct : Nat) : Eff := .get fun s =>
  Eff.all [fwWrite (s.attAddr n e) (leBytes (w0 % 2 ^ 63 / 2 ^ 32 * 2 ^ 32 + st * 2 ^ 16 + w0 % 2 ^ 16) 8),
    setCore n (fun c => { c with attAside := c.attAside.filter (fun y => y.1 != e) }),
    requestAdd (s.runner n) x ct, reportStatus (s.runner n) st]

/-- ATTEND of one page on the CCC's port: status and payload (R256, R312). -/
def attendPage (s : State) (n : Nat) (r : AttReq) (args : List Byte) (x : Nat × Pte × Nat × Nat) : Nat × List Byte :=
  let q := s.seqAt r.seq
  let k := x.2.1.key
  let none' := (List.replicate r.nq (emptyPartial q.dv).bytes).flatten
  if k / 32768 / 96 ≠ n / 96 then (stDenied, none')
  else if bit (s.sliceAt (k / 32768)).bsuOff (k / 256 % 128) then (stTargetLost, none')
  else
    let cnt := if x.2.2.2 - x.2.2.1 = 1024 then 0 else x.2.2.2 - x.2.2.1
    let e := runAttend s { cmd := 1, fmt := r.fmt, nq := r.nq, addr := addrOfKey k, args := args
                           imm := r.scale * 2 ^ 32 + q.dk * 2 ^ 20 + x.2.2.1 * 2 ^ 10 + cnt }
    (e.status, if e.status = 0 then e.payload else none')

/-- Write the partials of one query in page order, F to a frame (R314). -/
def writePartials (f size : Nat) (frames : List Nat) (parts : List (List Byte)) : Eff :=
  Eff.each parts.zipIdx fun p => fwWrite (frames.getD (p.2 / f) 0 + p.2 % f * size) p.1

/-- Split a list into runs of a length. -/
def runsOf {α : Type} (k : Nat) : Nat → List α → List (List α)
  | 0, _ => []
  | n + 1, l => l.take k :: runsOf k n (l.drop k)

/-- A request with its pages: the ATTENDs, their partials in the merge frames, and its place among the requests that
wait for their merge (R312, R314, R315). -/
def attendPages (n e x : Nat) (r : AttReq) : Eff := .get fun s =>
  let q := s.seqAt r.seq
  let c := n / 12
  let ps := (s.attRange r).filter (fun p => p.2.1.kind == 1)
  let per := framesFor q.dv ps.length
  let qd := s.readResult 13 false none (csramBase + c * 2 ^ 24 + r.qOff) (r.nq * q.dk * argWidth r.fmt)
  let base : Attend := {
    site := n, entry := e, ctx := x, nq := r.nq, dv := q.dv, m := r.m, gather := r.gather
    mergeSite := q.sliceOf 0, mct := r.mct, ct := r.ct, seq := r.seq }
  let wait (a : Attend) : Eff := .upd (.attend c (s.attendsAt c ++ [a]))
  if (s.mergeShare c).length < r.nq * per then wait { base with status := stNoResource }
  else if qd.bad then wait { base with status := stUncorrectable }
  else
    let rs := ps.map (attendPage s n r qd.data)
    -- pages in page order: a DROPPED page's status stands at its place (R312, R313)
    let sts := ((s.attRange r).map (fun p => if p.2.1.kind = 3 then stDropped
      else ((ps.zip rs).find? (fun y => y.1.1 == p.1)).elim 0 (·.2.1)))
    let frames := runsOf per r.nq ((s.freeMerge c).take (r.nq * per))
    let size := (q.dv + 2) * 4
    Eff.all [
      Eff.each ps (fun p => .seq (bsuTouch q.flask (addrOfKey p.2.1.key) 32768)
        (addReg .BSU_PERF_commands (p.2.1.key / 32768) 1)),
      Eff.each frames.zipIdx (fun f => writePartials (max 1 (perFrame q.dv)) size f.1
        (rs.map (fun y => (y.2.drop (f.2 * size)).take size))),
      wait { base with status := sts.foldl firstBad 0, frames := frames, pages := ps.length }]

/-- One attend request (R312, R313, R644); its sequence's state is judged after the range, but for a request that was waiting
(log entry 21). -/
def attendTry (n e x : Nat) : Eff := .get fun s =>
  let r := s.attReq n e
  let q := s.seqAt r.seq
  let c := n / 12
  let later (st : Nat) (slots : Bool) : Eff := .seq
    (setCore n (fun y => { y with attAside := y.attAside.filter (fun z => z.1 != e) }))
    (.upd (.attend c (s.attendsAt c ++ [{
      site := n, entry := e, ctx := x, status := st, slots := slots, nq := r.nq, dv := q.dv, m := r.m, gather := r.gather
      mergeSite := q.sliceOf 0, mct := r.mct, ct := r.ct, seq := r.seq }])))
  let ends (st : Nat) : Eff := .seq (attDone n e x r.w0 st r.ct)
    (setCore (s.runner n) fun y => { y with attFault := if y.attFault = 0 then st else y.attFault })
  if r.bad then ends stBadLength
  else if q.state = 0 ∨ s.coreFlask n ≠ some q.flask then ends stDenied
  else if q.streams ≤ r.stream then later stBadLength true
  else if slotsBad r q then later stBadLength false
  else if q.state = 2 ∧ (s.coreAt n).attAside.any (fun y => y.1 == e) = true then later stDropped true
  else if r.hi < r.lo ∨ s.streamTokens r.seq r.stream < r.hi then later stBadLength true
  else if q.state = 2 then later stDropped true
  else if q.state = 3 then later stBusy true
  else if s.attBlocked n r then .seq
    (setSeq r.seq fun y => { y with want := y.want ++ (((s.attRange r).filter (fun p => p.2.1.kind == 2)).map
      (fun p => (r.stream, p.1))).filter (fun w => !(w ∈ y.want)) })
    (attAside n e x)
  else .seq (setCore n (fun y => { y with attAside := y.attAside.filter (fun z => z.1 != e) })) (attendPages n e x r)

/-- Pass over entries set aside, or still being merged, that the head meets again. -/
def State.attHeadAt (s : State) (n size : Nat) : Nat → Nat → Nat
  | 0, h => h
  | k + 1, h =>
    if (s.coreAt n).attAside.any (fun y => y.1 == h)
        || (s.attendsAt (n / 12)).any (fun a => a.site == n && a.entry == h) then s.attHeadAt n size k ((h + 1) % size)
    else h

/-- ATTEND_REQUEST of a site's ring: a request set aside that can go on, or the next one in ring order. -/
def attendRequest (n : Nat) : Eff := .get fun s =>
  let cfg := s.kvAt ((s.coreFlask n).getD 16)
  let size := cfg.attSize / 128
  let busy (h : Nat) : Bool := (s.coreAt n).attAside.any (fun y => y.1 == h)
    || (s.attendsAt (n / 12)).any (fun a => a.site == n && a.entry == h)
  if !cfg.set || size == 0 then .skip
  else match (s.coreAt n).attAside.find? (fun y => !s.attBlocked n (s.attReq n y.1)) with
  | some a => attendTry n a.1 a.2
  | none =>
    let h := s.attHeadAt n size 4096 ((s.coreAt n).attHead % size)
    let r := s.attReq n h
    let x := (s.ctxOn (s.runner n)).elim 0 (· + 1)
    if !r.valid || busy h then .skip
    else Eff.all [
      setCore n (fun c => { c with attHead := (h + 1) % size }),
      Eff.when (!r.bad && decide ((s.seqAt r.seq).state ≠ 0) && s.coreFlask n == some (s.seqAt r.seq).flask)
        (stepBegins (s.runner n) r.seq),
      attendTry n h x]

/-- ATTEND_REQUEST (R312). -/
def execAttendRequest (n : SiteIx) (s : State) : Out := finish (Eff.when (s.cccLive (n / 12)) (attendRequest n)) s

/-- REDUCE MERGE over the groups of a stage, and the later stages over their results (R314): the merged partial and the
first bad status go on. -/
def mergeQuery (dv f : Nat) : Nat → List Nat → Nat → Nat → (List Byte → Nat → Eff) → Eff
  | 0, _, _, st, k => k (emptyPartial dv).bytes st
  | fuel + 1, frames, parts, st, k => .get fun s =>
    let g := (parts + f - 1) / f
    let rs := (List.range g).map fun i => runReduce s {
      cmd := 7, addr := frames.getD i 0
      imm := 2 * 2 ^ 32 + min f (parts - i * f) * 2 ^ 16 + dv }
    let st := rs.foldl (fun a r => firstBad a r.status) st
    if g ≤ 1 then k ((rs.map (·.payload)).headD (emptyPartial dv).bytes) st
    else .seq (writePartials f ((dv + 2) * 4) (frames.drop g) (rs.map (·.payload)))
      (mergeQuery dv f fuel (frames.drop g) g st k)

/-- Merge and write the gather slots of the queries one by one; the status goes on (R314, R316). -/
def mergeAll (c fl : Nat) (a : Attend) : List Nat → Nat → (Nat → Eff) → Eff
  | [], st, k => k st
  | j :: js, st, k =>
    let put (d : List Byte) (st : Nat) : Eff :=
      if a.slots then writeMem (cccIss c) true (some fl) (gatherSlot a.gather j a.m a.dv) 0 d
        (fun w => mergeAll c fl a js (firstBad st w) k)
      else mergeAll c fl a js st k
    if a.pages = 0 then put (emptyPartial a.dv).bytes st
    else mergeQuery a.dv (max 1 (perFrame a.dv)) 64 (a.frames.getD j []) a.pages 0 fun d w =>
      put (if w = 0 then d else (emptyPartial a.dv).bytes) (firstBad st w)

/-- The oldest request of a site that waits for its merge: slots, CT[mct], status, CT[ct] (R313-R316). -/
def memberMerge (n : Nat) : Eff := .get fun s =>
  let c := n / 12
  match (s.attendsAt c).find? (fun a => a.site == n) with
  | none => .skip
  | some a => mergeAll c ((s.flaskOf c).getD 16) a (List.range a.nq) a.status fun st => .get fun s => Eff.all [
      .upd (.attend c ((s.attendsAt c).filter (fun b => !(b.site == n && b.entry == a.entry)))),
      requestAdd (s.runner a.mergeSite) a.ctx a.mct,
      attDone n a.entry a.ctx (s.attReq n a.entry).w0 st a.ct]

/-- MEMBER_MERGE (R314). -/
def execMemberMerge (n : SiteIx) (s : State) : Out := finish (Eff.when (s.cccLive (n / 12)) (memberMerge n)) s

end Sys2Proof.Machine
end

