-- ==== Sys2Proof/Machine/Ladle.lean ====
section
/-! DEFINITION. Ladle engines (16_ladle_dma.md) and the regulators of the I/O-die switch (R399, R400). -/
namespace Sys2Proof.Machine

/-- The engine as an issuer. -/
def ladleIss (e : Nat) : Issuer := if h : e < 104 then .ladle ⟨e, h⟩ else .fw 0

/-- The engine's reset domain is out of reset: its cluster's, or the I/O die's. -/
def State.ladleLive (s : State) (e : Nat) : Bool := if e < 96 then !s.clusterHeld e else decide (s.misc.phase ≠ 0)

/-! ## Regulators -/

/-- The host regulator of a flask holds its requests (R399). -/
def State.hostHeld (s : State) (fl : Nat) : Bool :=
  s.flag .REG_HOST_en fl && decide (Store.get 0 s.bucket (2 * fl + 1) < 1)

/-- Host bytes are counted, and charged to the host regulator when they are a ladle copy's (R400). -/
def hostCharge (fl len : Nat) (paced : Bool) : Eff := .seq (addReg .REG_IOB_host fl len) (.get fun s =>
  Eff.when (paced && s.flag .REG_HOST_en fl)
    (.upd (.bucket (2 * fl + 1) (Store.get 0 s.bucket (2 * fl + 1) - len))))

/-- REGULATOR_RELEASE (R399): of a flask's host or far regulator, with the cycles its request waited a free value. -/
def regulatorReleaseEff (host : Bool) (fl : FlaskIx) (s : State) : Eff :=
  let (r, b, e) : Fld × Fld × Fld := if host then (.REG_HOST_rate, .REG_HOST_burst, .REG_HOST_en) else (.REG_FAR_rate, .REG_FAR_burst, .REG_FAR_en)
  Eff.when (s.flag e fl && s.reg r fl != 0) (.seq (refill (2 * fl + b2n host) (s.reg r fl) (s.reg b fl) true)
    (fresh fun v => addReg .REG_IOW_cycles fl v))

/-- REGULATOR_RELEASE (R399): of a flask's host or far regulator, with the cycles its request waited a free value. -/
def execRegulatorRelease (host : Bool) (fl : FlaskIx) (s : State) : Out :=
  finish (regulatorReleaseEff host fl s) s

/-! ## Channels -/

/-- Show the engine's queue in LDL_STAT (R414). -/
def ladleStat (e : Nat) : Eff := .get fun s =>
  let x := s.ladleAt e
  Eff.all [setReg .LDL_STAT_queued e x.queue.length, setReg .LDL_STAT_active e (b2n x.run.isSome),
    setReg .LDL_STAT_running e (x.run.elim 0 (·.ch))]

/-- Start a channel with the submitter of its chain and the flask (R409). -/
def ladleStart (e ch head fn fl : Nat) : Eff := .get fun s =>
  if s.flag .LDL_CTL_disable e then .skip
  else if s.reg .LDL_CH_state (e * 16 + ch) = 1 ∨ s.reg .LDL_CH_state (e * 16 + ch) = 2 then setReg .LDL_STAT_busy_err e 1
  else Eff.all [setReg .LDL_CH_head (e * 16 + ch) head, setReg .LDL_CH_state (e * 16 + ch) 1,
    setLadle e fun x => { x with queue := x.queue ++ [ch], subm := (ch, fn, fl) :: x.subm.filter (fun y => y.1 != ch) },
    ladleStat e]

/-- Firmware starts a channel (R409): a cluster engine's chain is its cluster's flask's. -/
def ladleHead (e ch head : Nat) : Eff := .get fun s =>
  ladleStart e ch head 17 ((if e < 96 then s.flaskOf e else none).getD 16)

/-- LDL_CH_HEAD_WRITE (R409). -/
def execLdlChHeadWrite (e : EngIx) (ch : Fin 16) (head : BitVec 46) (s : State) : Out :=
  finish (Eff.when (s.ladleLive e) (ladleHead e ch head.toNat)) s

/-- Zero an engine's performance counters (R414). -/
def ldlPerfClear (e : Nat) : Eff := Eff.each [.LDL_PERF_bytes, .LDL_PERF_reg_wait] fun r => setReg r e 0

/-- LDL_PERF_CLEAR (R414). -/
def execLdlPerfClear (e : EngIx) (s : State) : Out := finish (Eff.when (s.ladleLive e) (ldlPerfClear e)) s

/-! ## Descriptors -/

/-- Words of a descriptor (R404). -/
structure Desc where
  src : Nat := 0
  dst : Nat := 0
  srcHost : Bool := false
  dstHost : Bool := false
  hint : Nat := 0
  convert : Bool := false
  event : Bool := false
  addEn : Bool := false
  len : Nat := 0
  sat : Bool := false
  dstFmt : Nat := 0
  srcFmt : Nat := 0
  next : Nat := 0
  doneAddr : Nat := 0
  /-- A reserved field or encoding is non-zero (R405). -/
  bad : Bool := false
  deriving DecidableEq, Repr

/-- Read a descriptor from its words (R404). -/
def parseDesc (w : List Nat) : Desc :=
  let w2 := w.getD 2 0
  let w3 := w.getD 3 0
  let w4 := w.getD 4 0
  let space (v : Nat) (sp : Nat) : Nat := if sp = 0 then v % 2 ^ 46 else v
  { src := space (w.getD 0 0) (bits w2 63 62), dst := space (w.getD 1 0) (bits w2 61 60)
    srcHost := bits w2 63 62 == 1, dstHost := bits w2 61 60 == 1, hint := bits w2 59 58, convert := bit w2 57
    event := bit w2 56, addEn := bit w2 55, len := bits w2 35 0, sat := bit w3 44, dstFmt := bits w3 43 40
    srcFmt := bits w3 39 36, next := w4 % 2 ^ 46, doneAddr := w.getD 5 0
    bad := (bits w2 63 62 == 0 && decide (2 ^ 46 ≤ w.getD 0 0)) || (bits w2 61 60 == 0 && decide (2 ^ 46 ≤ w.getD 1 0))
      || decide (1 < bits w2 63 62) || decide (1 < bits w2 61 60) || bits w2 54 36 != 0 || bits w3 63 45 != 0
      || bits w3 35 4 != 0 || decide (2 ^ 46 ≤ w4) || w4 % 64 != 0 || w.getD 6 0 != 0 || bits (w.getD 7 0) 43 36 != 0 }

/-- A conversion breaks R407. -/
def Desc.badConvert (d : Desc) : Bool :=
  d.convert && (decide (10 < d.srcFmt) || decide (10 < d.dstFmt) || d.len % 64 != 0 || d.src % 64 != 0 || d.dst % 64 != 0
    || d.srcHost || d.dstHost)

/-- The flask has a function whose host memory its copies can name (R385). -/
def State.bound (s : State) (fl : Nat) : Bool := decide (fl < 16) && s.misc.vfOn && s.flaskExists fl

/-- Bytes a descriptor reads and writes. -/
def Desc.srcLen (d : Desc) : Nat := if d.convert then d.len * fmtWidth d.srcFmt / 8 else d.len
def Desc.dstLen (d : Desc) : Nat := if d.convert then d.len * fmtWidth d.dstFmt / 8 else d.len

/-- A descriptor is refused (R405). -/
def State.descBad (s : State) (e fl : Nat) (d : Desc) : Bool :=
  d.bad || d.len == 0 || d.badConvert || ((d.srcHost || d.dstHost) && decide (e < 96) && !s.bound fl)

/-- Bytes of a range before its first line that fails, with the failure's status: all of them when none fails (R411). -/
def State.goodRun (s : State) (src : Nat) (fl : Nat) (a len : Nat) : Nat × Nat :=
  match (linesOf a len).find? (fun l => s.judge src true (some fl) l != .ok) with
  | none => (len, 0)
  | some l => (l * 64 - a, if s.judge src true (some fl) l = .lost then stTargetLost else stDenied)

/-- Bytes of a range that lie in a lost word, as indexes. -/
def State.lostBytes (s : State) (a len : Nat) : List Nat :=
  (List.range len).filter (fun i => decide (3 ≤ (s.deliver ((a + i) / 8)).verdict))

/-- Convert elements at face value (R407). -/
def convertElems (d : Desc) (data : List Byte) : List Byte × Nat :=
  let packed := leNat data
  let rs := (List.range d.len).map fun i =>
    let v := ofFmt d.srcFmt (elemAt (fmtWidth d.srcFmt) packed i)
    let r := toFmt d.dstFmt d.sat v
    (r.1, fxOr r.2 (nanIn v))
  (packCodes (fmtWidth d.dstFmt) (rs.map (·.1)), rs.foldl (fun f r => fxOr f r.2) 0)

/-- Function whose host memory a flask's copies reach (R391). -/
def hostFn (fl : Nat) : Nat := if fl < 16 then fl + 1 else 0

/-- The two ranges of a descriptor overlap (R408). -/
def Desc.overlaps (d : Desc) : Bool :=
  d.srcHost == d.dstHost && decide (d.src < d.dst + d.dstLen) && decide (d.dst < d.src + d.srcLen)

/-- Units of a descriptor's copy: bits of one at the source and at the destination. A unit is a byte, or an element under
convert (R404). -/
def Desc.units (d : Desc) : Nat × Nat := if d.convert then (fmtWidth d.srcFmt, fmtWidth d.dstFmt) else (8, 8)

/-- What the first m units of the source become at the destination: bytes, FX flags (R406, R407). -/
def Desc.convertRun (d : Desc) (m : Nat) (data : List Byte) : List Byte × Nat :=
  if d.convert then convertElems { d with len := m } data else (data, 0)

/-- Words of the destination that take bytes of a lost source word are written poisoned (R411). -/
def poisonWords (d : Desc) (bad : List Nat) (n : Nat) : Eff :=
  let u := d.units
  Eff.each (((bad.map (fun i => i * u.2 / u.1)).filter (· < n)).map (fun i => (d.dst + i) / 8)) fun w => .get fun s =>
    putWord w (s.rawBytes (w * 8) 8) true

/-- The line of a range behind its good bytes fails for this reason: its record is written (R34, R39). -/
def failRecord (iss : Issuer) (fl a : Nat) : Eff := .get fun s =>
  let c := s.judge (srcOf iss) true (some fl) (a / 64)
  accessRecords iss fl (if c = .unmapped then [a / 64 * 64] else []) (if c = .protection then [a / 64 * 64] else [])

/-- Carry out a descriptor's copy (R406, R407, R411), up to its first line that fails: status, flags and the units done go
on. Where the ranges overlap, what is written is a free value (R408, log entry 5). -/
def copyLines (e fl : Nat) (d : Desc) (k : Nat → Nat → Nat → Eff) : Eff := .get fun s =>
  let iss := ladleIss e
  let at' := srcOf iss
  let u := d.units
  let sr := if d.srcHost then (d.srcLen, 0) else s.goodRun at' fl d.src d.srcLen
  let ds := if d.dstHost then (d.dstLen, 0) else s.goodRun at' fl d.dst d.dstLen
  let m := min d.len (min (sr.1 * 8 / u.1) (ds.1 * 8 / u.2))
  let srcStops := sr.2 != 0 && decide (sr.1 * 8 / u.1 ≤ ds.1 * 8 / u.2)
  let stop := if srcStops then sr.2 else ds.2
  let sn := m * u.1 / 8
  let n := m * u.2 / 8
  let move (data : List Byte) (bad : List Nat) : Eff := fresh fun v =>
    let c := d.convertRun m data
    let out := if d.overlaps then leBytes v n else c.1.take n
    Eff.all [
      if d.dstHost then .seq (.upd (.hbytes (hostFn fl * 2 ^ 64 + d.dst) out)) (hostCharge fl n true)
        else writeMem iss true (some fl) d.dst d.hint out fun _ => poisonWords d bad n,
      Eff.when (stop != 0) (failRecord iss fl (if srcStops then d.src + sr.1 else d.dst + ds.1)),
      addReg .LDL_PERF_bytes e n,
      k (if stop ≠ 0 then stop else if bad.isEmpty then 0 else stUncorrectable) c.2 m]
  if d.srcHost then .seq (hostCharge fl sn true) (move (s.hostBytes (hostFn fl) d.src sn) [])
  else readMem iss true (some fl) d.src sn d.hint fun rd => move rd.data (if rd.bad then s.lostBytes d.src sn else [])

/-- Some lines of the descriptor in progress reach their targets, whole, and the others do not: which, is a free value
(R355, R412, R413, log entry 5). The bytes written go on. -/
def copySome (e fl : Nat) (d : Desc) (k : Nat → Eff) : Eff := fresh fun v => fresh fun w => .get fun s =>
  let at' := srcOf (ladleIss e)
  let rd : Rd := if d.srcHost then { data := s.hostBytes (hostFn fl) d.src d.srcLen } else s.readResult at' true (some fl) d.src d.srcLen
  let out := if d.overlaps then leBytes w d.dstLen else (d.convertRun d.len rd.data).1
  let ps := ((pieces d.dst out).zipIdx.filter (fun p => bit v p.2
    && (d.dstHost || s.judge at' true (some fl) (p.1.1 / 64) == .ok))).map (·.1)
  let bad := (if rd.bad then s.lostBytes d.src d.srcLen else []).filter
    (fun i => ps.any (fun p => (d.dst + i * d.units.2 / d.units.1) / 64 == p.1 / 64))
  if s.descBad e fl d || rd.status == stDenied || rd.status == stTargetLost || ((d.srcHost || d.dstHost) && !s.misc.linkUp) then k 0
  else .seq (Eff.each ps fun p =>
      if d.dstHost then .upd (.hbytes (hostFn fl * 2 ^ 64 + p.1) p.2) else writeLine fl d.hint p.1 p.2)
    (.seq (Eff.when (!d.dstHost) (poisonWords d bad d.dstLen)) (k ((ps.map (fun p => p.2.length)).foldl (· + ·) 0)))

/-- The copy of a descriptor as it ends (R405, R411, R355, R393): refused, cut short by a lost target or link, or carried
out. -/
def copyDesc (e fl : Nat) (d : Desc) (lost : Bool) (k : Nat → Nat → Nat → Eff) : Eff := .get fun s =>
  if s.descBad e fl d then k stBadLength 0 0
  else if (d.srcHost || d.dstHost) && !s.misc.linkUp then k stTargetLost 0 0
  else if lost then copySome e fl d fun n => .seq (addReg .LDL_PERF_bytes e n) (k stTargetLost 0 (n * 8 / d.units.2))
  else copyLines e fl d k

/-! ## Disable and reset -/

/-- The descriptor in progress is cut off (R412): lines whose writes had been issued are performed, the byte count is a free
value. -/
def cutOff (e : Nat) (r : LadleRun) : Eff := Eff.when r.busy
  (copySome e r.flask (parseDesc r.words) fun _ => fresh fun v => setReg .LDL_PERF_bytes e v)

/-- Stop an engine at once (R412): queued and running channels are ABORTED, no word 7 is written. -/
def ladleAbort (e : Nat) : Eff := .get fun s =>
  let x := s.ladleAt e
  Eff.all [Eff.opt x.run (cutOff e), Eff.each (x.queue ++ (x.run.map (·.ch)).toList) (fun ch => setReg .LDL_CH_state (e * 16 + ch) 4),
    .upd (.ladle e {}), ladleStat e]

/-- LDL_CTL_DISABLE (R412). -/
def execLdlCtlDisable (e : EngIx) (s : State) : Out :=
  finish (Eff.when (s.ladleLive e) (.seq (setReg .LDL_CTL_disable e 1) (ladleAbort e))) s

/-- Firmware enables an engine again (R412): it is idle and every channel is IDLE. -/
def ladleEnable (e : Nat) : Eff := .get fun s => Eff.when (s.flag .LDL_CTL_disable e)
  (.seq (setReg .LDL_CTL_disable e 0) (Eff.each (List.range 16) fun ch => setReg .LDL_CH_state (e * 16 + ch) 0))

/-- Abort the channels of a flask (R413); the others run on. -/
def ladleAbortFlask (e fl : Nat) : Eff := .get fun s =>
  let x := s.ladleAt e
  let mine (ch : Nat) : Bool := x.subm.any (fun y => y.1 == ch && y.2.2 == fl)
  let stop := x.queue.filter mine ++ (x.run.filter (fun r => mine r.ch)).toList.map (·.ch)
  Eff.all [Eff.opt (x.run.filter (fun r => mine r.ch)) (cutOff e), Eff.each stop (fun ch => setReg .LDL_CH_state (e * 16 + ch) 4),
    setLadle e (fun x => { x with queue := x.queue.filter (fun c => !mine c), run := x.run.filter (fun r => !mine r.ch) }),
    ladleStat e]

/-! ## Chains -/

/-- Fetch the next descriptor of the running chain, or of the next channel in the start queue (R409). A descriptor
that waits for a regulator's tokens holds its engine (R410). -/
def descStart (e : Nat) : Eff := .get fun s =>
  let x := s.ladleAt e
  let fetch (ch addr : Nat) : Eff := .get fun s =>
    let ws := (List.range 8).map (fun k => leNat (s.readResult 13 false none (addr + 8 * k) 8).data)
    let fl := if e < 96 then (s.flaskOf e).getD 16 else bits (ws.getD 3 0) 3 0
    .seq (setLadle e fun x => { x with run := some { ch := ch, flask := fl, addr := addr, words := ws, busy := true } }) (ladleStat e)
  match x.run with
  | some r => if r.busy then .skip else fetch r.ch r.addr
  | none =>
    match x.queue with
    | [] => .skip
    | ch :: rest => Eff.all [setLadle e (fun x => { x with queue := rest }),
        setReg .LDL_CH_state (e * 16 + ch) 2, setReg .LDL_CH_status (e * 16 + ch) 0, setReg .LDL_CH_fx (e * 16 + ch) 0,
        setReg .LDL_CH_descs (e * 16 + ch) 0, fetch ch (s.reg .LDL_CH_head (e * 16 + ch))]

/-- LADLE_DESCRIPTOR_START (R409). -/
def execLadleDescriptorStart (e : EngIx) (ups : List Upset) (s : State) : Out :=
  finish (Eff.when (s.ladleLive e) (.seq (applyUpsets ups) (descStart e))) s

/-- Raise LADLE_DONE to the submitter: the cluster's gatherer, or the SCH and the function that submitted the chain
(R404, R533, R540). -/
def ladleDone (e ch : Nat) : Eff := .get fun s =>
  if e < 96 then doorbell e (0x90 + ch)
  else .seq (doorbell 96 (0x60 + (e - 96)))
    (Eff.opt ((s.ladleAt e).subm.find? (fun y => y.1 == ch)) fun y =>
      Eff.when (decide (y.2.1 < 17)) (hostRing y.2.1 4 ((e - 96) * 16 + ch)))

/-- The descriptor in progress ends (R411): word 7, the ADD, the event; the chain goes on or stops. -/
def descDone (e : Nat) (lost : Bool) : Eff := .get fun s =>
  let x := s.ladleAt e
  match x.run with
  | none => .skip
  | some r =>
    let d := parseDesc r.words
    let i := e * 16 + r.ch
    let held := (!d.srcHost && s.farHeld (srcOf (ladleIss e)) (some r.flask) d.src) || (!d.dstHost && s.farHeld (srcOf (ladleIss e)) (some r.flask) d.dst)
      || ((d.srcHost || d.dstHost) && s.hostHeld r.flask)
    if !r.busy then .skip
    else if held && !s.descBad e r.flask d then fresh fun v => addReg .LDL_PERF_reg_wait e v
    else copyDesc e r.flask d lost fun st fx n => Eff.all [
      fwWrite (r.addr + 56) (leBytes (st * 2 ^ 48 + fx * 2 ^ 44 + n % 2 ^ 36) 8),
      .get fun s => setReg .LDL_CH_status i (firstBad (s.reg .LDL_CH_status i) st),
      .get fun s => setReg .LDL_CH_fx i (fxOr (s.reg .LDL_CH_fx i) fx),
      satReg .LDL_CH_descs i 1,
      Eff.when d.addEn (addGlobal (ladleIss e) (some r.flask) d.doneAddr 1
        (fun _ => report 0x60 13 e d.doneAddr 0 r.flask)),
      Eff.when d.event (ladleDone e r.ch),
      if (st = 0 ∨ st = stUncorrectable) ∧ d.next ≠ 0 then
        setLadle e fun x => { x with run := some { r with addr := d.next, busy := false } }
      else .seq (setReg .LDL_CH_state i 3) (setLadle e fun x => { x with run := none }),
      ladleStat e]

/-- LADLE_DESCRIPTOR_DONE (R411). -/
def execLadleDescriptorDone (e : EngIx) (lost : Bool) (s : State) : Out :=
  finish (Eff.when (s.ladleLive e) (descDone e lost)) s

/-- Firmware programs a module engine for a function's chain (R403): the flask field of every descriptor is written, and
the first channel that is not busy on the engines in order is started; whether one was found goes on. -/
def writeFlask (fl : Nat) : Nat → Nat → Eff
  | 0, _ => .skip
  | k + 1, a => if a = 0 then .skip else .get fun s =>
      let w3 := s.rawWord (a + 24)
      let next := s.rawWord (a + 32) % 2 ^ 46
      .seq (fwWrite (a + 24) (leBytes (w3 / 16 * 16 + fl) 8)) (writeFlask fl k (next / 64 * 64))

/-- The first module-engine channel that may start. -/
def State.freeChannel (s : State) : Option (Nat × Nat) :=
  ((List.range 16).flatMap (fun ch => (List.range 8).map (fun e => (96 + e, ch)))).find? fun x =>
    !s.flag .LDL_CTL_disable x.1 && s.reg .LDL_CH_state (x.1 * 16 + x.2) != 1 && s.reg .LDL_CH_state (x.1 * 16 + x.2) != 2

end Sys2Proof.Machine
end

