-- ==== Sys2Proof/Machine/Flash.lean ====
section
/-! DEFINITION. CRC-32C (R485) and the configuration block (R556-R558). -/
namespace Sys2Proof.Machine

/-- One bit of the reflected CRC-32C. -/
def crcBit (c : Nat) : Nat := if c % 2 = 1 then (c / 2) ^^^ 0x82F63B78 else c / 2

/-- One byte of the CRC. -/
def crcByte (c : Nat) (b : Byte) : Nat := crcBit (crcBit (crcBit (crcBit (crcBit (crcBit (crcBit (crcBit (c ^^^ b.toNat))))))))

/-- CRC-32C of bytes (R485). -/
def crc32c (d : List Byte) : Nat := d.foldl crcByte 0xFFFFFFFF ^^^ 0xFFFFFFFF

/-- Bytes with some replaced from an offset on. -/
def putAt (l : List Byte) (off : Nat) (d : List Byte) : List Byte := l.take off ++ d ++ l.drop (off + d.length)

/-- Little-endian field of bytes. -/
def field (d : List Byte) (off len : Nat) : Nat := leNat ((d.drop off).take len)

/-- FP_QUAL at its reset value (R428). -/
def qualReset : Nat := 16 * 2 ^ 48 + 37 * 2 ^ 42 + 33 * 2 ^ 36 + 1 * 2 ^ 12 + 4 * 2 ^ 8 + 1 * 2 ^ 4 + 5

/-- A block with its generation and its check word (R556, R557). -/
def stampBlock (gen : Nat) (d : List Byte) : List Byte :=
  let d := putAt d 8 (leBytes gen 8)
  d.take 4092 ++ leBytes (crc32c (d.take 4092)) 4

/-- The factory defaults (R557). -/
def factoryBlock : List Byte := stampBlock 0
  (leBytes 0x4743374D 4 ++ leBytes 1 2 ++ List.replicate 18 0 ++ leBytes 0xFFFFFFFF 4 ++ leBytes 65536 4
    ++ List.replicate 32 0 ++ (List.range 60).flatMap (fun _ => leBytes (2 ^ 16) 8 ++ leBytes qualReset 8)
    ++ List.replicate 3072 0)

/-- The configuration block in use. -/
def State.cfgBlock (s : State) : List Byte := if s.cfg = [] then factoryBlock else s.cfg

/-- A copy passes its check (R556). -/
def blockOk (d : List Byte) : Bool :=
  d.length == 4096 && field d 0 4 == 0x4743374D && field d 4 2 == 1 && field d 4092 4 == crc32c (d.take 4092)

/-- Write a new copy with a change, to the slot not in use (R558). -/
def writeCfg (f : List Byte → List Byte) : Eff := .get fun s =>
  let d := stampBlock (field s.cfgBlock 8 8 + 1) (f s.cfgBlock)
  let k := 1 - s.misc.cfgSlot
  Eff.all [.upd (.cfg d), .upd (.cfgSlots (s.cfgSlots.set k d)), setMisc fun m => { m with cfgSlot := k }]

/-- IPv6 and IPv4 base (R430). -/
def State.v6Base (s : State) : Nat := field s.cfgBlock 32 16
def State.v4Base (s : State) : Nat := field s.cfgBlock 48 4

end Sys2Proof.Machine
end

