-- ==== Sys2Proof/Machine/Ports.lean ====
section
/-! DEFINITION. Fabric ports (17_fabric_ports.md): sub-port states, training, qualification, degrading, assay, drops and
the frames of the port manager. -/
namespace Sys2Proof.Machine

/-! ## Modes and lanes (R415) -/

/-- Stack of a global port. -/
def portStack (g : Nat) : Nat := g / 5

/-- Sub-ports of a mode; a reserved mode acts as the reset mode (R18). -/
def modeWays (m : Nat) : Nat := match m with | 1 => 2 | 2 => 4 | 4 => 2 | 5 => 4 | _ => 1

/-- Sub-ports of a port in its mode. -/
def State.ways (s : State) (g : Nat) : Nat := modeWays (s.reg .FP_CFG_mode g)

/-- Lanes of sub-port k of an n-way mode. -/
def subLanes (n k : Nat) : List Nat := (List.range (8 / n)).map (· + 8 * k / n)

/-- State of a sub-port (R420): 0 DISABLED, 1 TRAINING, 2 QUALIFYING, 3 READY, 4 DEGRADED, 5 ASSAY, 6 FAILED. -/
def State.subState (s : State) (g k : Nat) : Nat := s.reg .SP_STAT_state (g * 4 + k)

/-- The sub-port belongs to the port's mode. -/
def State.subUsed (s : State) (g k : Nat) : Bool := decide (k < s.ways g)

/-- The sub-port carries Brodit (R420). -/
def State.subCarries (s : State) (g k : Nat) : Bool := s.subState g k == 3 || s.subState g k == 4

def setSub_ (g k st : Nat) : Eff := setReg .SP_STAT_state (g * 4 + k) st

/-- The port manager of a stack runs: the CCC of its cluster 0 (R463), with the stack's fabric plane. -/
def State.portLive (s : State) (g : Nat) : Bool := !s.stackHeld (portStack g)
def State.managed (s : State) (g : Nat) : Bool := s.cccLive (portStack g * 8) && s.portLive g

/-- Flag a value of 0 or out of range as reserved: it acts as the reset value (R18). -/
def inRange (lo hi dflt v : Nat) : Nat := if lo ≤ v ∧ v ≤ hi then v else dflt

/-- The FP_QUAL values that a qualification begun now uses (R428). -/
def State.qualNow (s : State) (g : Nat) : List Nat := [s.reg .FP_QUAL_uc_max g,
  inRange 30 40 37 (s.reg .FP_QUAL_win_full g), inRange 30 40 33 (s.reg .FP_QUAL_win_short g),
  inRange 1 15 1 (s.reg .FP_QUAL_deg_mant g), inRange 1 15 4 (s.reg .FP_QUAL_deg_exp g),
  inRange 1 15 1 (s.reg .FP_QUAL_qual_mant g), inRange 1 15 5 (s.reg .FP_QUAL_qual_exp g)]

/-- A lane's rate is above mant * 10^-exp (R422, R423). -/
def rateAbove (corrected bits mant exp : Nat) : Bool := decide (mant * bits < corrected * 10 ^ exp)

/-! ## State changes -/

/-- Note parameter of a sub-port (R540). -/
def portParam (g k : Nat) : Nat := g + k * 2 ^ 8

/-- Enter TRAINING with the window the next qualification uses. -/
def startTraining (g k : Nat) (full : Bool) : Eff := .seq (setSub_ g k 1)
  (setSub (g * 4 + k) fun x => { x with full := full, post := false })

/-- Enter QUALIFYING: the FP_QUAL values are latched (R428). -/
def startQual (g k : Nat) (full post : Bool) : Eff := .get fun s => .seq (setSub_ g k 2)
  (setSub (g * 4 + k) fun x => { x with full := full, post := post, qual := s.qualNow g })

/-- Enter FAILED; only the first entry after a READY period writes a record (R421). -/
def portFailed (g k : Nat) : Eff := .get fun s => Eff.all [setSub_ g k 6,
  Eff.when (s.subAt (g * 4 + k)).due (report 0x50 6 (g * 4 + k) 0 0 31 [] (portStack g)),
  setSub (g * 4 + k) fun x => { x with due := false },
  hostRing 0 16 (portParam g k)]

/-- The assay's verdict, or what counts as it, is LASTING: the sub-port enters FAILED (R424). -/
def assayFailed (g k : Nat) : Eff := .seq (setReg .SP_STAT_cause (g * 4 + k) 7) (setSub_ g k 6)

/-- A failed attempt with its cause: FAILED after 3 in a row, else TRAINING again (R421). -/
def attemptFailed (g k cause : Nat) : Eff := Eff.all [setReg .SP_STAT_cause (g * 4 + k) cause,
  satReg .SP_STAT_attempts (g * 4 + k) 1,
  .get fun s => if 3 ≤ s.reg .SP_STAT_attempts (g * 4 + k) then portFailed g k else setSub_ g k 1]

/-- Every sub-port to DISABLED. -/
def portOff (g : Nat) : Eff := Eff.each (List.range 4) fun k => setSub_ g k 0

/-- FP_CFG.en written (R420): 1 starts training of every disabled sub-port of the mode. -/
def portEnable (g : Nat) (en : Bool) : Eff := .seq (setReg .FP_CFG_en g (b2n en)) (.get fun s =>
  if en then Eff.each ((List.range 4).filter (fun k => s.subUsed g k && s.subState g k == 0)) fun k =>
    .seq (startTraining g k true) (setReg .SP_STAT_attempts (g * 4 + k) 0)
  else portOff g)

/-- FP_CFG_EN_WRITE (R420). -/
def execFpCfgEnWrite (p : PortIx) (en : Bool) (s : State) : Out := finish (Eff.when (s.portLive p) (portEnable p en)) s

/-- Put a port's 16 configuration bytes into force (R427, R557): DISABLED, then training in the new mode. -/
def applyPort (g : Nat) (d : List Byte) : Eff :=
  let q := field d 8 8
  Eff.all [portEnable g false, setReg .FP_CFG_mode g (field d 0 1), setReg .FP_CFG_an_en g (field d 2 1),
    setReg .FP_CFG_tx_inv g (field d 3 1), setReg .FP_CFG_rx_inv g (field d 4 1),
    setReg .FP_QUAL_uc_max g (bits q 63 48), setReg .FP_QUAL_win_full g (bits q 47 42),
    setReg .FP_QUAL_win_short g (bits q 41 36), setReg .FP_QUAL_deg_mant g (bits q 15 12),
    setReg .FP_QUAL_deg_exp g (bits q 11 8), setReg .FP_QUAL_qual_mant g (bits q 7 4),
    setReg .FP_QUAL_qual_exp g (bits q 3 0), setPort g fun x => { x with next := none },
    Eff.when (field d 1 1 == 1) (portEnable g true)]

/-- A port's bytes in the configuration block. -/
def State.portCfg (s : State) (g : Nat) : List Byte := (s.cfgBlock.drop (64 + 16 * g)).take 16

/-- PORT_CONFIG as the port manager carries it out: at once, or when the assay ends (R427). -/
def configPort (g : Nat) (d : List Byte) : Eff := .get fun s =>
  if (List.range 4).any (fun k => s.subState g k == 5) then setPort g fun x => { x with next := some d } else applyPort g d

/-- FP_CTL.requal (R427): READY and DEGRADED sub-ports qualify again with the full window. -/
def requal (g : Nat) : Eff := .get fun s =>
  Eff.each ((List.range 4).filter (s.subCarries g)) fun k => startQual g k true false

/-- FP_CTL_REQUAL (R427). -/
def execFpCtlRequal (p : PortIx) (s : State) : Out := finish (Eff.when (s.portLive p) (requal p)) s

/-! ## Training and qualification -/

/-- TRAINING_ATTEMPT_END (R420, R421): 0 every step complete, or the cause of the failure. -/
def trainingAttemptEndEff (p : PortIx) (k : SubIx) (cause : Fin 5) (s : State) : Eff :=
  if cause.val = 0 then startQual p k (s.subAt (p * 4 + k)).full (s.subAt (p * 4 + k)).post
     else attemptFailed p k cause

/-- TRAINING_ATTEMPT_END (R420, R421): 0 every step complete, or the cause of the failure. -/
def execTrainingAttemptEnd (p : PortIx) (k : SubIx) (cause : Fin 5) (s : State) : Out :=
  finish (Eff.when (s.portLive p && s.subState p k == 1) (trainingAttemptEndEff p k cause s)) s

/-- Count what a window measured (R428, R429); how many codewords held corrected symbols is a free value (log entry 5). -/
def countWindow (g k bits : Nat) (lanes corrected : List Nat) (uncorr : Nat) : Eff := Eff.all [
  Eff.each (lanes.zipIdx) (fun x => .seq (addReg .FP_LANE_ERR_bits (g * 8 + x.1) (corrected.getD x.2 0))
    (addReg .FP_LANE_RX_bits (g * 8 + x.1) bits)),
  addReg .SP_FECUNC_count (g * 4 + k) uncorr, fresh fun v => addReg .SP_FECCORR_count (g * 4 + k) v]

/-- A qualification window ends (R422). After an assay, a crossing of R423's thresholds counts as lasting (R424). -/
def windowEnd (g k : Nat) (corrected : List Nat) (uncorr : Nat) : Eff := .get fun s =>
  let x := s.subAt (g * 4 + k)
  let q (i : Nat) : Nat := x.qual.getD i 0
  let bits := 2 ^ (if x.full then q 1 else q 2)
  let lanes := subLanes (s.ways g) k
  let cs := lanes.zipIdx.map (fun l => corrected.getD l.2 0)
  Eff.all [countWindow g k bits lanes corrected uncorr,
    if x.post && (cs.any (fun c => rateAbove c bits (q 3) (q 4)) || decide (q 0 < uncorr)) then assayFailed g k
    else if cs.any (fun c => rateAbove c bits (q 5) (q 6)) then attemptFailed g k 5
    else if uncorr ≠ 0 then attemptFailed g k 6
    else Eff.all [setSub_ g k 3, setReg .SP_STAT_attempts (g * 4 + k) 0,
      setSub (g * 4 + k) fun y => { y with due := true, post := false }]]

/-- QUALIFICATION_WINDOW_END (R422). -/
def execQualificationWindowEnd (p : PortIx) (k : SubIx) (corrected : List Nat) (uncorr : Nat) (s : State) : Out :=
  finish (Eff.when (s.managed p && s.subState p k == 2) (windowEnd p k corrected uncorr)) s

/-! ## Degrading, assay, drops -/

/-- A second's measurement of a sub-port, corrected and received bits of each lane (R423): a READY one over a threshold
degrades; one under assay counts as lasting (R424, R580). -/
def portDegrade (g k : Nat) (lanes : List (Nat × Nat)) (uncorr : Nat) : Eff := .get fun s =>
  let x := s.subAt (g * 4 + k)
  let worse := lanes.any (fun l => rateAbove l.1 l.2 (x.qual.getD 3 1) (x.qual.getD 4 4)) || decide (x.qual.getD 0 16 < uncorr)
  Eff.all [
    Eff.each (lanes.zip (subLanes (s.ways g) k)) (fun l => .seq (addReg .FP_LANE_ERR_bits (g * 8 + l.2) l.1.1)
      (addReg .FP_LANE_RX_bits (g * 8 + l.2) l.1.2)),
    addReg .SP_FECUNC_count (g * 4 + k) uncorr, addReg .SP_RXFCS_count (g * 4 + k) uncorr,
    Eff.when (worse && s.subState g k == 3) (Eff.all [setSub_ g k 4, report 0x51 6 (g * 4 + k) 0 0 31 [] (portStack g),
      hostRing 0 17 (portParam g k)]),
    Eff.when (worse && s.subState g k == 5) (report 0x51 6 (g * 4 + k) 0 0 31 [] (portStack g))]

/-- PORT_DEGRADE (R423). -/
def execPortDegrade (p : PortIx) (k : SubIx) (lanes : List (Nat × Nat)) (uncorr : Nat) (s : State) : Out :=
  finish (Eff.when (s.managed p) (portDegrade p k lanes uncorr)) s

/-- SUBPORT_ASSAY_START (R424): once the port manager runs this sub-port's assay. -/
def execSubportAssayStart (p : PortIx) (k : SubIx) (s : State) : Out :=
  finish (Eff.when (s.managed p && s.subState p k == 4
    && ((s.assayerAt (96 + portStack p)).run.any (fun r => r.cls == 6 && r.id == p.val * 4 + k.val))) (setSub_ p k 5)) s

/-- Waiting reports of units judged lasting meanwhile take their records; the first other report's assay starts (R577,
R581, R582). -/
def nextAssay (a : Nat) : Eff := .get fun s =>
  let x := s.assayerAt a
  let judged (r : Report) : Bool := decide ({ cls := r.cls, id := r.id : UnitId } ∈ s.lasting)
  let rest := x.queue.dropWhile judged
  .seq (Eff.each (x.queue.takeWhile judged) fun r => errRecord r 2 false 0)
    (.upd (.assayer a { run := rest.head?, queue := rest.drop 1 }))

/-- Records of an assay that ends (R571, R580): the report's own with the verdict, then its second errors'. -/
def assayRecords (a verdict : Nat) (r : Report) (us : Nat) : Eff := .get fun s =>
  .seq (errRecord r verdict false us) (Eff.each (s.assayerAt a).seconds fun q => errRecord q 2 true 0)

/-- The port manager's assay of a sub-port ends (R424, R577, R580): the record with its verdict, the sub-port's next state,
a configuration that waited. -/
def subAssayEnd (g k : Nat) (lasting : Bool) : Eff := .get fun s =>
  let a := 96 + portStack g
  let x := s.assayerAt a
  let bad := lasting || x.second
  match x.run with
  | none => .skip
  | some r => if r.cls ≠ 6 ∨ r.id ≠ g * 4 + k then .skip else Eff.all [
      assayRecords a (if bad then 2 else 1) r (assayUs 6),
      Eff.when (s.subState g k == 5) (if bad then assayFailed g k else startQual g k false true),
      nextAssay a,
      .get fun s => Eff.opt (s.portAt g).next fun d =>
        Eff.when (!(List.range 4).any (fun j => s.subState g j == 5)) (applyPort g d)]

/-- LINK_ASSAY_END (R424): also of a sub-port that was disabled or dropped meanwhile; one that still carries traffic has yet
to begin its assay. -/
def execLinkAssayEnd (p : PortIx) (k : SubIx) (lasting : Bool) (s : State) : Out :=
  finish (Eff.when (s.managed p && s.subState p k != 4) (subAssayEnd p k lasting)) s

/-- Path index of a sub-port (R430). -/
def pathIx (g k : Nat) : Nat := 4 * g + k

/-- A link drop (R425, R424, R427). `fourth` says it is the fourth within 60 s (R422); which lane condition ended a
qualification is a free value (log entry 5). -/
def portDown (g k : Nat) (fourth : Bool) : Eff := .get fun s =>
  let st := s.subState g k
  if st = 3 ∨ st = 4 then Eff.all [satReg .FP_STAT_link_downs g 1, startTraining g k fourth, hostRing 0 18 (portParam g k)]
  else if st = 2 then (if (s.subAt (g * 4 + k)).post then assayFailed g k else fresh fun v => attemptFailed g k (if v % 2 = 0 then 1 else 4))
  else if st = 5 then .get fun s =>
    let a := 96 + portStack g
    .upd (.assayer a { s.assayerAt a with second := true })
  else .skip

/-- FAILED_RETRY (R420). -/
def execFailedRetry (p : PortIx) (k : SubIx) (s : State) : Out :=
  finish (Eff.when (s.managed p && s.subState p k == 6) (startTraining p k true)) s

/-- RECALIBRATION_STEP (R426): one lane's equaliser by one setting. -/
def recalibrationStepEff (p : PortIx) (lane : Fin 8) (up : Bool) : Eff :=
  setPort p fun x => let e := (x.eq ++ List.replicate 8 0).take 8
      { x with eq := e.set lane.val (e.getD lane.val 0 + (if up then 1 else -1)) }

/-- RECALIBRATION_STEP (R426): one lane's equaliser by one setting. -/
def execRecalibrationStep (p : PortIx) (lane : Fin 8) (up : Bool) (s : State) : Out :=
  finish (Eff.when (s.managed p && s.flag .FP_CTL_recal_en p
      && s.subCarries p (lane.val * s.ways p / 8)) (recalibrationStepEff p lane up)) s

/-! ## Frames of the port manager -/

/-- A frame of some bytes leaves a sub-port. -/
def sendFrame (g k len : Nat) (m : Msg) : Eff := Eff.all [addReg .SP_TXFRM_count (g * 4 + k) 1,
  addReg .SP_TXBYTE_count (g * 4 + k) len, .upd (.emit m)]

/-- A sub-port's IPv4 address, if it has one (R430). -/
def State.v4Of (s : State) (g k : Nat) : Option Nat := if s.v4Base = 0 then none else some (s.v4Base + pathIx g k)

/-- LLDP_SEND (R418); the frame's length is a free value (log entry 5). -/
def execLldpSend (p : PortIx) (k : SubIx) (s : State) : Out :=
  finish (Eff.when (s.managed p && s.subState p k == 3) (fresh fun v => sendFrame p k v (.lldp (pathIx p k)))) s

/-- GRATUITOUS_ARP (R430): a frame of the least length. -/
def gratuitousArpEff (p : PortIx) (k : SubIx) (s : State) : Eff :=
  Eff.opt (s.v4Of p k) fun a => sendFrame p k 64 (.arp (pathIx p k) a)

/-- GRATUITOUS_ARP (R430): a frame of the least length. -/
def execGratuitousArp (p : PortIx) (k : SubIx) (s : State) : Out :=
  finish (Eff.when (s.managed p && s.subState p k == 3) (gratuitousArpEff p k s)) s

/-- NEIGHBOR_SOLICITATION (R430): answered for the sub-port's own address; lengths are free values. -/
def neighborSolicitationEff (p : PortIx) (k : SubIx) (target : Nat) (s : State) : Eff :=
  Eff.all [addReg .SP_RXFRM_count (p * 4 + k) 1,
    fresh fun v => addReg .SP_RXBYTE_count (p * 4 + k) v,
    Eff.when (target == s.v6Base + pathIx p k) (fresh fun v => sendFrame p k v (.advert (pathIx p k) target))]

/-- NEIGHBOR_SOLICITATION (R430): answered for the sub-port's own address; lengths are free values. -/
def execNeighborSolicitation (p : PortIx) (k : SubIx) (target : Nat) (s : State) : Out :=
  finish (Eff.when (s.portLive p && s.subCarries p k) (neighborSolicitationEff p k target s)) s

/-- Zero the counters of a port but link_downs (R428). -/
def fpPerfClear (g : Nat) : Eff := .seq
  (Eff.each (List.range 4) fun k => Eff.each [.SP_TXFRM_count, .SP_RXFRM_count, .SP_TXBYTE_count, .SP_RXBYTE_count,
    .SP_RXFCS_count, .SP_RXDROP_count, .SP_FECCORR_count, .SP_FECUNC_count] fun r => setReg r (g * 4 + k) 0)
  (Eff.each (List.range 8) fun l => .seq (setReg .FP_LANE_ERR_bits (g * 8 + l) 0) (setReg .FP_LANE_RX_bits (g * 8 + l) 0))

/-- FP_PERF_CLEAR (R429). -/
def execFpPerfClear (p : PortIx) (s : State) : Out := finish (Eff.when (s.portLive p) (fpPerfClear p)) s

end Sys2Proof.Machine
end

