-- ==== Sys2Proof/Machine/Brodit.lean ====
section
/-! DEFINITION. Brodit (18_fabric_transport.md): jobs, connections, delivery, congestion control and operations. -/
namespace Sys2Proof.Machine

/-! ## Basics -/

/-- psn arithmetic (R446): how far a lies above b, modulo 2^24. -/
def psnDist (a b : Nat) : Nat := (a + 2 ^ 24 - b % 2 ^ 24) % 2 ^ 24

/-- Data bytes a packet carries at most (R434, R444). -/
def State.mtu (s : State) (st ver : Nat) : Nat :=
  let m := 1024 * 2 ^ s.reg .FAB_CFG_mtu st
  if ver = 1 then min m 4096 else m

/-- Bytes of a frame around its data over IPv6 or IPv4 (R431). -/
def frameBytes (v4 : Bool) (data : Nat) : Nat := 14 + (if v4 then 20 else 40) + 8 + 32 + 24 + data + 16 + 4

/-- The stack's engine runs: its fabric plane and FAB_CFG.en. -/
def State.fabLive (s : State) (st : Nat) : Bool := !s.stackHeld st && s.flag .FAB_CFG_en st

/-- READY sub-ports of a stack, as path indices (R451). -/
def State.readyPaths (s : State) (st : Nat) : List Nat :=
  (List.range 20).filterMap fun i => if s.subState (st * 5 + i / 4) (i % 4) = 3 then some (20 * st + i) else none

/-- Paths per connection of a version (R444). -/
def verPaths (v : Nat) : Nat := if v = 1 then 1 else if v = 2 then 4 else 8

/-- Paths of a connection: local READY sub-ports paired with the peer's path indices (R451). -/
def State.connPaths (s : State) (c : Conn) : List (Nat × Nat) :=
  let l := s.readyPaths c.stack
  if l.isEmpty || c.paths.isEmpty then []
  else (List.range (min (min (inRange 1 8 4 (s.reg .FAB_CFG_paths c.stack)) (verPaths c.ver)) (max l.length c.paths.length))).map
    fun i => (l.getD (i % l.length) 0, c.paths.getD (i % c.paths.length) 0)

/-- A path's rate in 100 MB/s: its sub-port's share of 200 GB/s (R415, R452). -/
def State.pathRate (s : State) (p : Nat) : Rat :=
  (if s.reg .FP_CFG_mode (p / 4) ∈ [3, 4, 5] then 1000 else 2000) / (s.ways (p / 4) : Rat)

/-- r_max of a connection (R452). -/
def State.rMax (s : State) (c : Conn) : Rat := (s.connPaths c).foldl (fun a p => a + s.pathRate p.1) 0

/-- Clamp r and t when a path is added or lost (R452). -/
def clampRate (i : Nat) : Eff := .get fun s =>
  let m := s.rMax (s.connAt i)
  Eff.when (decide (0 < m)) (setConn i fun c => { c with r := min c.r m, t := min c.t m })

/-- Endpoint ID in force (R559). -/
def State.ownEp (s : State) : Nat := s.misc.endpoint.getD 0

/-- A job's entry for a peer. -/
def State.member (s : State) (fl ep : Nat) : Option Member := (s.jobAt fl).table.find? (fun m => m.ep == ep)

/-- The open or opening connections of a stack's job and peer. -/
def State.connOf (s : State) (st fl ep : Nat) : Option Nat :=
  (s.conn.find? (fun p => p.2.phase != 0 && p.2.stack == st && p.2.flask == fl && p.2.ep == ep)).map (·.1)

/-- Connections of a job with a peer. -/
def State.connsWith (s : State) (fl ep : Nat) : List Nat :=
  (s.conn.filter (fun p => p.2.phase != 0 && p.2.flask == fl && p.2.ep == ep)).map (·.1)

/-- The lowest free connection index (R440). -/
def State.freeConn (s : State) : Option Nat := findNat (fun i => (s.connAt i).phase == 0) 65535 0

/-- FAB_STAT.conns shows the connections homed on a stack (R461). -/
def countConns (st : Nat) : Eff := .get fun s =>
  setReg .FAB_STAT_conns st (s.conn.filter (fun p => p.2.phase != 0 && p.2.stack == st)).length

/-- Send a frame of a connection: the counters of its sub-port and the packet count of the nonce (R443). -/
def sendConn (i path peer len : Nat) (f : Frame) : Eff := .get fun s =>
  let c := s.connAt i
  Eff.all [
    setFab c.stack (fun x => if x.packets + 1 = 2 ^ 40 then { x with packets := 0, restarts := x.restarts + 1 }
      else { x with packets := x.packets + 1 }),
    sendFrame (path / 4) (path % 4) len (.frame path peer { f with
      len := len, dstConn := if f.ptype = 2 then 0xFFFF else c.peer, srcConn := i, ack := c.ack, phase := c.txPhase, version := c.ver
      job := (s.jobAt c.flask).job, epoch := (s.jobAt c.flask).epoch })]

/-- A local sub-port for unpaced packets of a stack: the first READY one. -/
def State.anyPath (s : State) (st : Nat) : Option Nat := (s.readyPaths st).head?

/-- Send a packet that is not paced: ACK, CLOSE, handshakes. The lengths of handshake packets are free values (log
entry 5). -/
def sendControl (i : Nat) (f : Frame) : Eff := .get fun s =>
  Eff.opt (s.anyPath (s.connAt i).stack) fun p => fresh fun v =>
    sendConn i p ((s.connAt i).paths.getD 0 0) v f

/-! ## Operations ending -/

/-- Address of a command ring's entry (R453). -/
def State.cmdAddr (s : State) (c ring e : Nat) : Nat :=
  let j := s.jobAt ((s.flaskOf c).getD 16)
  csramBase + c * 2 ^ 24 + j.ringOff + (ring * j.ringEntries + e) * 128

/-- An ADD of a unit has ended; a failure follows the unit's own rule (R132, R404). -/
def hwEnded (h : HwAdd) (st : Nat) : Eff := Eff.when (st != 0) (match h.src with
  | .core n => syncLost n h.addr
  | .ladle e => report 0x60 13 e h.addr 0 h.flask
  | _ => .skip)

/-- Something an operation waited for has happened; a unit's ADD that waits for nothing more ends. -/
def opProgress (id st : Nat) : Eff := .seq
  (setOp id fun o => { o with left := o.left - 1, status := firstBad o.status st })
  (.get fun s =>
    let o := s.opAt id
    Eff.opt (if o.left = 0 then o.hw else none) fun h => .seq (.upd (.fabOp id {})) (hwEnded h o.status))

/-- An operation ends now with a status. -/
def opEnd (id st : Nat) : Eff := .seq (setOp id fun o => { o with left := 1 }) (opProgress id st)

/-- The operations a connection still carries. -/
def Conn.ops (c : Conn) : List Nat :=
  (c.out ++ c.queue).filterMap (·.op) ++ c.gets.map (·.2.2)

/-- Remove repeats of a list of numbers. -/
def nub : List Nat → List Nat
  | [] => []
  | a :: l => a :: (nub l).filter (· != a)

/-- End every operation of a connection with a status and free it. -/
def freeConn (i st : Nat) : Eff := .get fun s =>
  let c := s.connAt i
  Eff.all [.upd (.conn i {}), Eff.each (nub c.ops) (fun o => opEnd o st), countConns c.stack]

/-- MEMBER_DRAINED when the last connection to a removed peer has closed; a job that leaves is unbound after the last
(R438, R439). -/
def drained? (fl ep : Nat) : Eff := .get fun s =>
  Eff.when (decide (ep ∈ (s.jobAt fl).gone) && (s.connsWith fl ep).isEmpty) (.seq
    (setJob fl fun j => { j with gone := j.gone.filter (· != ep) })
    (.seq (flaskRing fl 8 ep) (.get fun s =>
      let j := s.jobAt fl
      Eff.when (j.leaving && j.gone.isEmpty) (.upd (.job fl {})))))

/-- The connection fails (R450). -/
def connLost (i : Nat) : Eff := .get fun s =>
  let c := s.connAt i
  Eff.all [freeConn i stTargetLost, satReg .FAB_STAT_conn_lost c.stack 1,
    report 0x53 11 c.ep 0 0 c.flask [] c.stack, flaskRing c.flask 9 c.ep, drained? c.flask c.ep]

/-- FAB_CONN_LOST (R450): packets are outstanding. -/
def execFabConnLost (cn : ConnIx) (s : State) : Out :=
  finish (Eff.when ((s.connAt cn).phase != 0 && !(s.connAt cn).out.isEmpty && s.fabLive (s.connAt cn).stack) (connLost cn)) s

/-- IDLE_CLOSE (R440). -/
def idleCloseEff (cn : ConnIx) (s : State) : Eff := Eff.all [
  sendControl cn { ptype := 6 }, freeConn cn stTargetLost, drained? (s.connAt cn).flask (s.connAt cn).ep]

/-- The connection has nothing to send, to get or to wait for (R440). -/
def Conn.idle (c : Conn) : Bool := c.phase == 3 && c.ops.isEmpty && c.out.isEmpty && c.queue.isEmpty

/-- IDLE_CLOSE (R440). -/
def execIdleClose (cn : ConnIx) (s : State) : Out :=
  finish (Eff.when ((s.connAt cn).idle && s.fabLive (s.connAt cn).stack) (idleCloseEff cn s)) s

/-! ## Submitting -/

/-- Lowest version this module offers (R444). -/
def State.verLow (s : State) : Nat := if bit s.misc.licence 4 then 1 else 2

/-- Open a connection to a peer: INIT goes out (R440, R441). The initial psn is a free value (R446). -/
def openConn (st fl ep : Nat) (k : Option Nat → Eff) : Eff := .get fun s =>
  match s.freeConn with
  | none => k none
  | some i => fresh fun v => Eff.all [
      .upd (.conn i {
        phase := 1, stack := st, flask := fl, ep := ep, inits := 1, psn := v % 2 ^ 24
        paths := [20 * st + (s.anyPath st).getD 0 % 20], r := (s.reg .FAB_CC_r_init st : Nat)
        t := (s.reg .FAB_CC_r_init st : Nat), free := true }),
      sendControl i { ptype := 2, verLo := s.verLow, verHi := 3, ipsn := v % 2 ^ 24
                      keyMode := b2n (s.jobAt fl).jobMode, encrypt := (s.jobAt fl).encrypt },
      countConns st, k (some i)]

/-- Put packets of an operation on a connection's queue, with the class the version has and the operation's csn (R444,
R457). -/
def queuePkts (i cls : Nat) (ps : List Pkt) : Eff := setConn i fun c =>
  let k := if c.ver = 1 ∧ 1 < cls then 1 else cls
  let n := c.csn.getD k 0
  { c with queue := c.queue ++ ps.map (fun p => { p with cls := k, csn := n }), csn := c.csn.set k ((n + 1) % 65536) }

/-- Put packets on the connection of a stack to a peer, opening one if needed; none can be made ends the operation. -/
def carry (st fl ep id cls : Nat) (ps : List Pkt) : Eff := .get fun s =>
  match s.connOf st fl ep with
  | some i => if (s.connAt i).drain then opEnd id stTargetLost
      else if (s.connAt i).ver == 1 && ps.any (fun p => p.code == 4) then opEnd id stUnknownOp
      else queuePkts i cls ps
  | none => openConn st fl ep fun r =>
      match r with
      | none => opEnd id stNoResource
      | some i => queuePkts i cls ps

/-- Bytes cut into pieces of at most n. -/
def cut (n : Nat) : Nat → List Byte → List (List Byte)
  | 0, _ => []
  | k + 1, d => if d = [] then [] else d.take n :: cut n k (d.drop n)

/-- A command-ring entry (R453). -/
structure Cmd where
  valid : Bool := false
  op : Nat := 0
  cls : Nat := 0
  radd : Bool := false
  lctEn : Bool := false
  lct : Nat := 0
  len : Nat := 0
  loc : Nat := 0
  remote : Nat := 0
  raddAddr : Nat := 0
  raddVal : Nat := 0
  bad : Bool := false
  deriving DecidableEq, Repr

/-- Read an entry; the checks of R456's BAD_LENGTH row need the mtu. -/
def parseCmd (d : List Byte) (mtu : Nat) : Cmd :=
  let w (k : Nat) : Nat := wordOf d k
  let op := bits (w 0) 62 59
  let len := bits (w 0) 31 0
  let radd := bit (w 0) 55
  { valid := bit (w 0) 63, op := op, cls := bits (w 0) 58 56, radd := radd, lctEn := bit (w 0) 54, lct := bits (w 0) 53 51
    len := len, loc := bits (w 1) 45 0, remote := w 2, raddAddr := w 3, raddVal := bits (w 4) 63 32
    bad := op == 0 || decide (4 < op) || decide (4 < bits (w 0) 58 56) || bits (w 0) 50 48 != 0 || bits (w 1) 63 46 != 0
      || bits (w 4) 31 0 != 0 || (List.range 11).any (fun k => w (5 + k) != 0)
      || (decide (op = 1 ∨ op = 2) && (len == 0 || decide (2 ^ 30 < len)))
      || (op == 4 && (len == 0 || decide (mtu < len) || bits (w 2) 45 4 != 0))
      || (radd && w 3 / 2 ^ 46 != w 2 / 2 ^ 46) }

/-- Issuer of a ring's operations: the core of the ring's rank, or the CCC (R453). -/
def ringIss (s : State) (c ring : Nat) : Issuer := if ring < 12 then coreIss (s.runner (c * 12 + ring)) else cccIss c

/-- Fill the next slot of a receive ring (R459); the header's layout is the model's (log entry 31). The status goes on. -/
def ringSend (iss : Issuer) (fl ring ep cls : Nat) (d : List Byte) (k : Nat → Eff) : Eff := .get fun s =>
  let j := s.jobAt fl
  match j.rings[ring]? with
  | none => k stDenied
  | some r =>
    let a := r.base + r.next * r.size
    readMem iss true (some fl) a 64 0 fun rd =>
      if rd.status ≠ 0 then k rd.status
      else if bit (wordOf rd.data 0) 63 then k stBusy
      else Eff.all [
        writeMem iss true (some fl) (a + 64) 0 d fun st1 =>
          if st1 ≠ 0 then k st1 else
            writeMem iss true (some fl) a 0
              (leBytes (2 ^ 63 + cls * 2 ^ 56 + d.length) 8 ++ leBytes ep 8 ++ List.replicate 48 0) fun st2 =>
            if st2 ≠ 0 then k st2 else .seq
              (setJob fl fun j => { j with rings := j.rings.set ring { r with next := (r.next + 1) % max 1 r.slots } })
              (.seq (addTo iss (some fl) (counterAddr r.site r.ct) 1 (fun _ => .skip)) (k 0))]

/-- An operation to this module's own endpoint is carried out here (R36, R453). -/
def localOp (iss : Issuer) (fl id : Nat) (x : Cmd) : Eff :=
  let radd (st : Nat) : Eff :=
    if st = 0 ∧ x.radd then addTo iss (some fl) (x.raddAddr % 2 ^ 46) x.raddVal (fun b => opEnd id b) else .skip
  let ended (st : Nat) : Eff := .seq (opEnd id st) (radd st)
  let remote := x.remote % 2 ^ 46
  match x.op with
  | 1 => readMem iss true (some fl) x.loc x.len 0 fun rd =>
      if rd.status ≠ 0 then ended rd.status else writeMem iss true (some fl) remote 0 rd.data ended
  | 2 => readMem iss true (some fl) remote x.len 0 fun rd =>
      if rd.status ≠ 0 then ended rd.status else writeMem iss true (some fl) x.loc 0 rd.data ended
  | 3 => .seq (opEnd id 0) (.seq (addTo iss (some fl) remote x.len (fun b => opEnd id b)) (radd 0))
  | _ => readMem iss true (some fl) x.loc x.len 0 fun rd =>
      if rd.status ≠ 0 then ended rd.status else .get fun s => ringSend iss fl (remote % 16) s.ownEp x.cls rd.data ended

/-- Packets of an operation with the bytes a PUT or SEND read (R454, R455, R458). A GET's remote ADD follows as an ADD
packet of its own (log entry 32). -/
def packetsOf (id mtu : Nat) (x : Cmd) (data : List Byte) : List Pkt :=
  let remote := x.remote % 2 ^ 46
  let mark (l : List Pkt) : List Pkt := l.zipIdx.map fun p =>
    if p.2 + 1 = l.length then { p.1 with
      last := true, radd := x.radd && x.op != 2
      value := if x.radd && x.op != 2 && x.op != 3 then x.raddVal else p.1.value
      aux := if x.radd && x.op != 2 then x.raddAddr % 2 ^ 46 else p.1.aux }
    else p.1
  match x.op with
  | 1 => mark ((cut mtu (x.len / mtu + 1) data).zipIdx.map fun p =>
      { op := some id, code := 1, addr := remote + p.2 * mtu, data := p.1 })
  | 2 => mark (((List.range ((x.len + mtu - 1) / mtu)).map fun k =>
      { op := some id, code := 2, addr := remote + k * mtu, glen := min mtu (x.len - k * mtu), aux := x.loc + k * mtu })
      ++ (if x.radd then [{ op := some id, code := 3, addr := x.raddAddr % 2 ^ 46, value := x.raddVal }] else []))
  | 3 => (if x.radd then [({ op := some id, code := 3, addr := remote, value := x.len } : Pkt),
      { op := some id, code := 3, addr := x.raddAddr % 2 ^ 46, value := x.raddVal, last := true }]
      else [{ op := some id, code := 3, addr := remote, value := x.len, last := true }])
  | _ => mark [{ op := some id, code := 4, addr := remote % 16, glen := x.len, data := data }]

/-- Responses a GET waits for beside the acknowledgement of its requests. -/
def responsesOf (mtu : Nat) (x : Cmd) : Nat := if x.op = 2 then (x.len + mtu - 1) / mtu else 0

/-- Take the next entry of a command ring, if it holds an operation this row names (R453, R456). -/
def takeCommand (c ring kind : Nat) : Eff := .get fun s =>
  let fl := (s.flaskOf c).getD 16
  let j := s.jobAt fl
  let st := c / 8
  let e := Store.get 0 s.cring (c * 13 + ring)
  let rd := s.readResult 13 false none (s.cmdAddr c ring e) 128
  let mtu := s.mtu st 3
  let x := parseCmd rd.data mtu
  if !j.on || j.leaving || j.ringEntries == 0 || !s.fabLive st || s.clusterHeld c || rd.bad || !x.valid then .skip
  else if x.op ≠ kind ∧ (1 ≤ x.op ∧ x.op ≤ 4) then .skip
  -- a peer added again while its old connections drain (R439)
  else if x.remote / 2 ^ 46 ∈ j.gone ∧ (fl, x.remote / 2 ^ 46) ∈ s.members then .skip
  else
    let id := s.misc.opNext
    let ep := x.remote / 2 ^ 46
    let iss := ringIss s c ring
    let begin' : Eff := Eff.all [setMisc (fun m => { m with opNext := id + 1 }), .upd (.cring (c * 13 + ring) ((e + 1) % j.ringEntries)),
      .upd (.fabOp id { kind := x.op, ring := some (c, ring, e), flask := fl, left := 1,
                        ct := if x.lctEn && decide (ring < 12) then some x.lct else none })]
    .seq begin' (
      if x.bad then opEnd id stBadLength
      else if s.ownEndpoint ep then localOp iss fl id x
      else if (fl, ep) ∉ s.members then opEnd id stTargetLost
      else
        let send (data : List Byte) : Eff := .get fun s =>
          let ver := ((s.connOf st fl ep).map (fun i => (s.connAt i).ver)).getD 3
          let ps := packetsOf id (s.mtu st ver) x data
          .seq (setOp id fun o => { o with left := ps.length + responsesOf (s.mtu st ver) x }) (carry st fl ep id x.cls ps)
        if x.op = 2 then
          (if s.writeStatus (srcOf iss) true (some fl) x.loc x.len = 0 then send []
           else .seq (writeMem iss true (some fl) x.loc 0 [] fun _ => .skip)
             (opEnd id (s.writeStatus (srcOf iss) true (some fl) x.loc x.len)))
        else if x.op = 3 then send []
        else readMem iss true (some fl) x.loc x.len 0 fun rd => if rd.status ≠ 0 then opEnd id rd.status else send rd.data)

/-- PUT (R453). -/
def execPutOp (c : ClusterIx) (ring : Fin 13) (s : State) : Out := finish (takeCommand c ring 1) s
/-- GET (R453). -/
def execGetOp (c : ClusterIx) (ring : Fin 13) (s : State) : Out := finish (takeCommand c ring 2) s
/-- ADD (R453). -/
def execAddOp (c : ClusterIx) (ring : Fin 13) (s : State) : Out := finish (takeCommand c ring 3) s
/-- SEND (R453). -/
def execSendOp (c : ClusterIx) (ring : Fin 13) (s : State) : Out := finish (takeCommand c ring 4) s

/-- The oldest ended operation of a ring completes: status, then valid, then the ADD (R453). -/
def opComplete (c ring : Nat) : Eff := .get fun s =>
  match s.fabOp.find? (fun p => p.2.left == 0 && p.2.ring.any (fun r => r.1 == c && r.2.1 == ring)) with
  | none => .skip
  | some (id, o) =>
    let a := s.cmdAddr c ring (o.ring.elim 0 (·.2.2))
    let w := s.rawWord a
    Eff.all [
      Eff.when (!s.clusterHeld c) (fwWrite a (leBytes (w % 2 ^ 63 / 2 ^ 48 * 2 ^ 48 + o.status * 2 ^ 32 + w % 2 ^ 32) 8)),
      .upd (.fabOp id {}),
      Eff.opt o.ct fun ct => let n := s.runner (c * 12 + ring)
        Eff.when (s.coreLive n) (ctAdd n ct 1)]

/-- OPERATION_COMPLETE (R453). -/
def execOperationComplete (c : ClusterIx) (ring : Fin 13) (s : State) : Out := finish (opComplete c ring) s

/-! ## Sending -/

/-- A packet as its frame (R432, R455). -/
def pktFrame (p : Pkt) (retx : Bool) : Frame := {
  ptype := 0, ackreq := p.last, retx := retx, radd := p.radd, lastPkt := p.last, cls := p.cls, psn := p.psn, path := p.path
  csn := p.csn, op := p.code, addr := p.addr, value := p.value, glen := p.glen, status := p.status, aux := p.aux
  data := p.data }

/-- Count a DATA frame against the flask's fabric regulator (R528). -/
def fabCharge (st fl len : Nat) : Eff := .seq (addReg .REG_EGB_fab (st * 16 + fl) len) (.get fun s =>
  let k := 32 + 2 * (16 * st + fl) + 1
  Eff.when (s.flag .REG_FAB_en (st * 16 + fl)) (.upd (.bucket k (Store.get 0 s.bucket k - len))))

/-- A new per-peer key after 2^32 packets (R443): phase toggles and REKEY goes out first. -/
def rekeyIfDue (i : Nat) : Eff := .get fun s =>
  let c := s.connAt i
  if (s.jobAt c.flask).jobMode then setConn i fun c => { c with txPhase := (s.jobAt c.flask).phase, txCount := c.txCount + 1 }
  else if c.txCount + 1 = 2 ^ 32 then
    .seq (sendControl i { ptype := 7 }) (setConn i fun c => { c with txPhase := 1 - c.txPhase, txCount := 1 })
  else setConn i fun c => { c with txCount := c.txCount + 1 }

/-- Put a packet of a connection on one of its paths. -/
def transmit (i : Nat) (p : Pkt) (retx : Bool) : Eff := .seq (rekeyIfDue i) (.get fun s =>
  let c := s.connAt i
  let ps := s.connPaths c
  let (lp, pp) := ps.getD (p.path % max 1 ps.length) (0, 0)
  let len := frameBytes ((s.member c.flask c.ep).any (·.v4)) p.data.length
  Eff.all [sendConn i lp pp len (pktFrame p retx), fabCharge c.stack c.flask len,
    Eff.when retx (addReg .FAB_RETX_count c.stack 1)])

/-- Packets a connection has in its window (R446). -/
def Conn.windowFull (c : Conn) : Bool := c.out.any (fun p => decide (4096 ≤ psnDist c.psn p.psn))

/-- The connection can send a new DATA packet now (R446, R451). -/
def State.canSend (s : State) (c : Conn) : Bool :=
  c.phase == 3 && !c.queue.isEmpty && !c.windowFull && !(s.connPaths c).isEmpty

/-- Send the next packet of a connection (R451): psn in order, paths round-robin. -/
def sendNext (i : Nat) : Eff := .get fun s =>
  let c := s.connAt i
  match c.queue with
  | [] => .skip
  | p :: rest =>
    let p' := { p with psn := c.psn, path := c.deal % max 1 (s.connPaths c).length }
    Eff.all [
      setConn i (fun c => { c with
        queue := rest, out := c.out ++ [p'], psn := (c.psn + 1) % 2 ^ 24, deal := c.deal + 1
        since := if c.stats.isEmpty && c.got.isEmpty && c.ece == 0 then 0 else c.since
        gets := if p.code = 2 then c.gets ++ (p.op.map (fun o => (p.aux, p.glen, o))).toList else c.gets }),
      transmit i p' false]

/-- ADDs that units of a stack sent to another module join their connections (R170, R453); the I/O die's use stack 0. -/
def takeHwAdds (st : Nat) : Eff := .get fun s =>
  let mine (h : HwAdd) : Bool := srcOf h.src % 12 == st
  .seq (.upd (.hwAdds (s.hwAdds.filter (fun h => !mine h)))) (Eff.each (s.hwAdds.filter mine) fun h => .get fun s =>
    let id := s.misc.opNext
    let ep := h.addr / 2 ^ 46
    Eff.all [setMisc (fun m => { m with opNext := id + 1 }),
      .upd (.fabOp id { kind := 3, hw := some h, flask := h.flask, left := 1 }),
      if (h.flask, ep) ∈ s.members then
        carry st h.flask ep id 0 [{ op := some id, code := 3, addr := h.addr % 2 ^ 46, value := h.value, last := true }]
      else opEnd id stTargetLost])

/-- PACED_TRANSMISSION (R452): the next ready connection in turn sends a packet, within its flask's fabric regulator,
whose bucket refills (R399, R528); the cycles waited are a free value (log entry 5). -/
def pacedSend (st : Nat) : Eff := .seq (takeHwAdds st) (.get fun s =>
  let ready := (s.conn.filter (fun p => p.2.stack == st && s.canSend p.2)).map (·.1)
  match (ready.find? (fun i => decide ((s.fabAt st).turn ≤ i))).orElse (fun _ => ready.head?) with
  | none => .skip
  | some i =>
    let fl := (s.connAt i).flask
    let r := st * 16 + fl
    let k := 32 + 2 * r + 1
    let held := s.flag .REG_FAB_en r && decide (Store.get 0 s.bucket k < 1)
    let go : Eff := .seq (setFab st fun x => { x with turn := i + 1 }) (sendNext i)
    if held then
      (if s.reg .REG_FAB_rate r = 0 then fresh fun v => addReg .REG_EGW_cycles r v
       else Eff.all [refill k (s.reg .REG_FAB_rate r) (s.reg .REG_FAB_burst r) true, fresh fun v => addReg .REG_EGW_cycles r v, go])
    else go)

/-- PACED_TRANSMISSION (R452). -/
def execPacedTransmission (st : StackIx) (s : State) : Out := finish (Eff.when (s.fabLive st) (pacedSend st)) s

/-- A packet is resent, on another path where one exists (R448). -/
def resend (i : Nat) (p : Pkt) : Eff := .get fun s =>
  let n := (s.connPaths (s.connAt i)).length
  if n = 0 then .skip else
    let p' := { p with resends := p.resends + 1, path := if 1 < n then (p.path + 1) % n else p.path }
    .seq (setConn i fun c => { c with out := c.out.map (fun x => if x.psn = p.psn then p' else x) }) (transmit i p' true)

/-- PACKET_LOSS (R448, R450): a SACK covers a later packet of the same path, or the timer expired. -/
def packetLoss (i psn : Nat) (timer : Bool) : Eff := .get fun s =>
  let c := s.connAt i
  match c.out.find? (fun p => p.psn == psn) with
  | none => .skip
  | some p =>
    if !timer && !c.seen.any (fun x => x.1 == p.path && decide (0 < psnDist x.2 psn) && decide (psnDist x.2 psn < 4096)) then .skip
    else if s.reg .FAB_CFG_retry_max c.stack ≤ p.resends then connLost i
    else .seq
      (Eff.when timer (setConn i fun c => { c with t := c.r, r := max (c.r / 2) (s.reg .FAB_CC_r_min c.stack : Nat) }))
      (resend i p)

/-- PACKET_LOSS (R448). -/
def execPacketLoss (cn : ConnIx) (psn : BitVec 24) (timer : Bool) (s : State) : Out :=
  finish (Eff.when ((s.connAt cn).phase == 3 && s.fabLive (s.connAt cn).stack) (packetLoss cn psn.toNat timer)) s

/-- A sub-port dropped: packets unacknowledged on it are resent at once on other paths, and every connection of the stack
clamps its rate (R451, R452). -/
def pathsLost (g k : Nat) (before : State) : Eff := .get fun s =>
  let st := portStack g
  Eff.each (s.conn.filter (fun p => p.2.phase == 3 && p.2.stack == st)) fun x => .seq (clampRate x.1)
    (Eff.each (x.2.out.filter (fun p => ((before.connPaths x.2).getD p.path (9999, 0)).1 == pathIx g k)) fun p => resend x.1 p)

/-- PORT_DOWN (R425). -/
def portDownEff (p : PortIx) (k : SubIx) (fourth : Bool) (s : State) : Eff :=
  .seq (portDown p k fourth)
    (Eff.when (s.subState p k == 3 || s.subState p k == 4) (pathsLost p k s))

/-- PORT_DOWN (R425). -/
def execPortDown (p : PortIx) (k : SubIx) (fourth : Bool) (s : State) : Out :=
  finish (Eff.when (s.managed p) (portDownEff p k fourth s)) s

/-- FAB_CFG.en written (R461): 0 fails every connection of the stack. -/
def fabEnable (st : Nat) (en : Bool) : Eff := .get fun s => .seq (setReg .FAB_CFG_en st (b2n en))
  (Eff.when (!en) (Eff.each (s.conn.filter (fun p => p.2.phase != 0 && p.2.stack == st)) fun p => connLost p.1))

/-- FAB_CFG_EN_WRITE (R461). -/
def execFabCfgEnWrite (st : StackIx) (en : Bool) (s : State) : Out :=
  finish (Eff.when (!s.stackHeld st) (fabEnable st en)) s

/-- Zero the four 64-bit counters of a Brodit engine (R461). -/
def fabPerfClear (st : Nat) : Eff := Eff.each [.FAB_STRANGER_count, .FAB_AUTHFAIL_count, .FAB_RETX_count, .FAB_CE_count]
  fun r => setReg r st 0

/-- FAB_PERF_CLEAR (R462). -/
def execFabPerfClear (st : StackIx) (s : State) : Out := finish (Eff.when (!s.stackHeld st) (fabPerfClear st)) s

/-! ## Receiving frames -/

/-- A frame fails its tag or a handshake its checks (R445): counted, and recorded at most once per peer per second;
whether the second has passed is a free value after the first (log entry 5). -/
def authFail (st fl ep : Nat) : Eff := .seq (addReg .FAB_AUTHFAIL_count st 1) (fresh fun v => .get fun s =>
  let x := s.fabAt st
  Eff.when (decide (ep ∉ x.auth) || v % 2 == 1) (.seq (setFab st fun y => { y with auth := if ep ∈ y.auth then y.auth else ep :: y.auth })
    (report 0x52 11 ep 0 0 fl [] st)))

def stranger (st : Nat) : Eff := addReg .FAB_STRANGER_count st 1

/-- The source address lies in a member's block (R430, R436, R445). -/
def inBlock (m : Member) (fr : Frame) : Bool :=
  m.v4 == (fr.ether == 1) && decide (m.base ≤ fr.srcAddr) && decide (fr.srcAddr < m.base + 256)

/-- The job a frame's INIT names, with the member it comes from. -/
def State.jobNamed (s : State) (fr : Frame) : Option (Nat × Member) :=
  (List.range 16).findSome? fun fl =>
    let j := s.jobAt fl
    if j.on && !j.leaving && j.job == fr.job && j.epoch == fr.epoch then (j.table.find? (fun m => inBlock m fr)).map (fun m => (fl, m))
    else none

/-- The key of a frame's phase is held (R442, R443). -/
def State.keyHeld (s : State) (c : Conn) (phase : Nat) : Bool :=
  if (s.jobAt c.flask).jobMode then (s.jobAt c.flask).keys.any (fun k => k.1 == phase) else phase == c.rxPhase || c.rxOld

/-- Peers of a job, those being drained among them, whose block the address lies in. -/
def State.peerKnown (s : State) (c : Conn) (fr : Frame) : Bool :=
  (s.member c.flask c.ep).any (fun m => inBlock m fr) || c.drain

/-- A removed peer may send only ACKs and GET responses (R438). -/
def drainOk (c : Conn) (fr : Frame) : Bool := !c.drain || fr.ptype == 1 || (fr.ptype == 0 && fr.op == 5)

/-- Brodit receives an IP frame (R434, R445): strangers and bad tags are counted, the rest waits for the engine. -/
def broditIn (g k : Nat) (fr : Frame) : Eff := .get fun s =>
  let st := portStack g
  let put (x : RxItem) : Eff := setFab st fun y => { y with rx := y.rx ++ [x] }
  if !s.fabLive st then .skip
  else if fr.frag then stranger st
  else if fr.ptype = 2 then
    match s.jobNamed fr with
    | none => stranger st
    | some (fl, m) =>
      if m.ep ∈ (s.jobAt fl).gone then .skip
      else if !fr.tagOk || ((s.jobAt fl).jobMode && !(s.jobAt fl).keys.any (fun k => k.1 == fr.phase)) then authFail st fl m.ep
      else put { flask := fl, ep := m.ep, path := pathIx g k, fr := fr }
  else
    let c := s.connAt fr.dstConn
    if c.phase = 0 ∨ c.stack ≠ st ∨ s.peerKnown c fr = false ∨ drainOk c fr = false then stranger st
    else if !fr.tagOk || (fr.ptype != 3 && fr.ptype != 5 && !s.keyHeld c fr.phase) then authFail st c.flask c.ep
    else put { conn := some fr.dstConn, flask := c.flask, ep := c.ep, path := pathIx g k, fr := fr }

/-- FRAME_RECEIVE (R418). -/
def frameReceive (g k : Nat) (fr : Frame) : Eff := .get fun s =>
  let i := g * 4 + k
  if !s.subCarries g k then .skip
  else if !fr.fcsOk || decide (fr.len < 64) || decide (9216 < fr.len) then addReg .SP_RXFCS_count i 1
  else if 2 < fr.dst ∨ 2 < fr.ether then addReg .SP_RXDROP_count i 1
  else Eff.all [addReg .SP_RXFRM_count i 1, addReg .SP_RXBYTE_count i fr.len,
    if fr.ether = 2 then Eff.when (s.managed g) (setPort g fun x => { x with lldp := (fr.lldp ++ List.replicate 64 0).take 64 })
    else broditIn g k fr]

/-- FRAME_RECEIVE (R418). -/
def execFrameReceive (p : PortIx) (k : SubIx) (fr : Frame) (s : State) : Out :=
  finish (Eff.when (s.portLive p) (frameReceive p k fr)) s

/-! ## Acknowledgements and congestion (R447, R452) -/

/-- An ECN echo lowers the rate if 50 us have passed; between two ticks that is a free value (log entry 5). -/
def echo (i : Nat) : Eff := fresh fun v => .get fun s =>
  let c := s.connAt i
  let g : Rat := 1 / (2 ^ s.reg .FAB_CC_g_shift c.stack : Nat)
  Eff.when (c.free || v % 2 == 1) (setConn i fun c => { c with
    t := c.r, r := max (c.r * (1 - c.alpha / 2)) (s.reg .FAB_CC_r_min c.stack : Nat)
    alpha := (1 - g) * c.alpha + g, n := 0, free := false })

/-- What an acknowledgement covers. -/
def acked (ack : Nat) (sack : List Nat) (psn : Nat) : Bool :=
  decide (psnDist ack psn < 2 ^ 23) || decide (psn ∈ sack)

/-- Act on an acknowledgement: packets leave, operations move on with their statuses (R447). -/
def takeAck (i ack : Nat) (sack : List Nat) (stats : List (Nat × Nat)) (ece : Nat) : Eff := .get fun s =>
  let c := s.connAt i
  let gone := c.out.filter (fun p => acked ack sack p.psn)
  let status (p : Pkt) : Nat := ((stats.find? (fun x => x.1 == p.psn)).map (·.2)).getD 0
  Eff.all [
    setConn i (fun c => { c with
      out := c.out.filter (fun p => !acked ack sack p.psn)
      seen := gone.foldl (fun l p => (p.path, p.psn) :: l.filter (fun x => x.1 != p.path)) c.seen }),
    Eff.each gone (fun p => Eff.opt p.op fun o => .seq
      -- a request that failed gets no response
      (Eff.when (p.code == 2 && status p != 0 && c.gets.any (fun x => x.1 == p.aux && x.2.2 == o)) (.seq
        (setConn i fun c => { c with gets := c.gets.filter (fun x => !(x.1 == p.aux && x.2.2 == o)) }) (opProgress o (status p))))
      (opProgress o (status p))),
    Eff.when (decide (0 < ece)) (echo i)]

/-- CONGESTION_TICK (R452): 55 us without a decrease. -/
def congestionTick (i : Nat) : Eff := .get fun s =>
  let c := s.connAt i
  let g : Rat := 1 / (2 ^ s.reg .FAB_CC_g_shift c.stack : Nat)
  let n := c.n + 1
  let t := if 5 < n then min (c.t + (s.reg .FAB_CC_r_ai c.stack : Nat)) (s.rMax c) else c.t
  setConn i fun c => { c with alpha := (1 - g) * c.alpha, n := n, t := t, r := (c.r + t) / 2, free := true }

/-- CONGESTION_TICK (R452). -/
def execCongestionTick (cn : ConnIx) (s : State) : Out :=
  finish (Eff.when ((s.connAt cn).phase == 3 && s.fabLive (s.connAt cn).stack) (congestionTick cn)) s

/-- ACK_SEND (R447): an acknowledgement is due. -/
def ackSend (i : Nat) : Eff := .get fun s =>
  let c := s.connAt i
  Eff.when (decide (0 < c.since)) (.seq
    (sendControl i { ptype := 1, ece := c.ece, sack := c.got, stats := c.stats.take 8 })
    (setConn i fun c => { c with since := if (c.stats.drop 8).isEmpty then 0 else 1, ece := 0, stats := c.stats.drop 8 }))

/-- ACK_SEND (R447). -/
def execAckSend (cn : ConnIx) (s : State) : Out :=
  finish (Eff.when ((s.connAt cn).phase == 3 && s.fabLive (s.connAt cn).stack) (ackSend cn)) s

/-! ## Performing packets -/

/-- A DATA packet may be performed now: in the window, its connection open, its class's earlier operations done (R446,
R457). One seen before is never held back (R449). -/
def Conn.mayPerform (c : Conn) (fr : Frame) : Bool :=
  let fresh' := !(decide (psnDist c.ack fr.psn < 2 ^ 23)) && !decide (fr.psn ∈ c.got)
  c.phase == 3 && (!fresh' || decide (3 < fr.cls) || decide (4096 < psnDist fr.psn c.ack) ||
    (match c.lasts.find? (fun x => x.1 == fr.cls) with
     | none => fr.csn == 0
     | some (_, n, l) => n == fr.csn || ((n + 1) % 65536 == fr.csn && decide (psnDist c.ack l < 2 ^ 23))))

/-- Take the first frame of a stack's engine that a test picks. -/
def rxTake (st : Nat) (p : State → RxItem → Bool) (k : RxItem → Eff) : Eff := .get fun s =>
  match (s.fabAt st).rx.findIdx? (p s) with
  | none => .skip
  | some n => match (s.fabAt st).rx[n]? with
    | none => .skip
    | some x => .seq (setFab st fun y => { y with rx := y.rx.eraseIdx n }) (k x)

/-- The cumulative acknowledgement moves over performed psn values. -/
def advance (got : List Nat) : Nat → Nat → Nat
  | 0, a => a
  | k + 1, a => if (a + 1) % 2 ^ 24 ∈ got then advance got k ((a + 1) % 2 ^ 24) else a

/-- Remote ADDs whose operation has been performed whole (R458). -/
def applyRadds (i : Nat) : Eff := .get fun s =>
  let c := s.connAt i
  let due := c.radds.filter (fun x => decide (psnDist c.ack x.1 < 2 ^ 23))
  .seq (setConn i fun c => { c with radds := c.radds.filter (fun x => !decide (psnDist c.ack x.1 < 2 ^ 23)) })
    (Eff.each due fun x => Eff.when (decide ((x.2.2.2.1, x.2.2.2.2) ∉ c.bad))
      (addTo (.peer c.ep) (some c.flask) x.2.1 x.2.2.1 (fun b => setConn i fun c => { c with stats := c.stats ++ [(x.1, b)] })))

/-- A packet has been performed with a status (R447, R457, R458). -/
def performed (i : Nat) (fr : Frame) (st : Nat) : Eff := .seq
  (setConn i fun c =>
    let got := fr.psn :: c.got
    let a := advance got 4096 c.ack
    { c with
      ack := a, got := got.filter (fun p => !decide (psnDist a p < 2 ^ 23)), since := c.since + 1
      stats := if st = 0 then c.stats else c.stats ++ [(fr.psn, st)]
      bad := if st = 0 then c.bad else (fr.cls, fr.csn) :: c.bad
      lasts := if fr.lastPkt then (fr.cls, fr.csn, fr.psn) :: c.lasts.filter (fun x => x.1 != fr.cls) else c.lasts
      radds := if fr.radd then c.radds ++ [(fr.psn, fr.aux, fr.value, fr.cls, fr.csn)] else c.radds })
  (applyRadds i)

/-- Take a DATA packet of an operation code (R446-R449): CE is counted, the acknowledgement it carries acts, a packet seen
before only asks for an ACK, one out of the window is dropped; else its work runs. -/
def rxData (st code : Nat) (work : Nat → RxItem → Eff) : Eff :=
  rxTake st (fun s x => x.fr.ptype == 0 && x.fr.op == code && (x.conn.any (fun i => (s.connAt i).mayPerform x.fr)))
    fun x => Eff.opt x.conn fun i => Eff.all [
      Eff.when x.fr.ce (.seq (addReg .FAB_CE_count st 1) (setConn i fun c => { c with ece := c.ece + 1 })),
      takeAck i x.fr.ack [] [] 0,
      .get fun s =>
        let c := s.connAt i
        if psnDist c.ack x.fr.psn < 2 ^ 23 ∨ x.fr.psn ∈ c.got then setConn i fun c => { c with since := max 1 c.since }
        else if 4096 < psnDist x.fr.psn c.ack then .skip
        else work i x]

/-- RX_PUT (R454). -/
def rxPutEff (st : StackIx) : Eff :=
  rxData st 1 fun i x =>
    writeMem (.peer x.ep) true (some x.flask) x.fr.addr 0 x.fr.data (performed i x.fr)

/-- RX_PUT (R454). -/
def execRxPut (st : StackIx) (s : State) : Out :=
  finish (Eff.when (s.fabLive st) (rxPutEff st)) s

/-- RX_GET (R454, R449): one response packet, whose data is never read again. -/
def rxGet (i : Nat) (x : RxItem) : Eff := readMem (.peer x.ep) true (some x.flask) x.fr.addr x.fr.glen 0 fun rd =>
  if rd.status = stTargetLost then performed i x.fr stTargetLost
  else .seq
    (queuePkts i x.fr.cls [{ code := 5, addr := x.fr.aux, status := rd.status, data := if rd.status = 0 then rd.data else []
                             last := true }])
    (performed i x.fr 0)

/-- RX_GET (R454). -/
def rxGetEff (st : StackIx) (ups : List Upset) (s : State) : Eff :=
  .seq (applyUpsets ups) (Eff.when (s.fabLive st) (rxData st 2 rxGet))

/-- RX_GET (R454). -/
def execRxGet (st : StackIx) (ups : List Upset) (s : State) : Out :=
  finish (rxGetEff st ups s) s

/-- RX_ADD (R458, R168). -/
def rxAddEff (st : StackIx) : Eff :=
  rxData st 3 fun i x => .get fun s =>
    match judgeAdd s 13 (some x.flask) x.fr.addr with
    | .done n ct => .seq (ctAdd n ct x.fr.value) (performed i x.fr 0)
    | _ => addTo (.peer x.ep) (some x.flask) x.fr.addr x.fr.value (performed i x.fr)

/-- RX_ADD (R458, R168). -/
def execRxAdd (st : StackIx) (s : State) : Out :=
  finish (Eff.when (s.fabLive st) (rxAddEff st)) s

/-- RX_SEND (R459). -/
def rxSendEff (st : StackIx) : Eff :=
  rxData st 4 fun i x =>
    ringSend (.peer x.ep) x.flask (x.fr.addr % 16) x.ep x.fr.cls x.fr.data (performed i x.fr)

/-- RX_SEND (R459). -/
def execRxSend (st : StackIx) (s : State) : Out :=
  finish (Eff.when (s.fabLive st) (rxSendEff st)) s

/-- RX_GETR (R454, R456): the data is written at the requester; a failed range is not. -/
def rxGetr (i : Nat) (x : RxItem) : Eff := .get fun s =>
  match (s.connAt i).gets.find? (fun g => g.1 == x.fr.addr) with
  | none => performed i x.fr 0
  | some g =>
    let fin (st : Nat) : Eff := Eff.all [
      setConn i (fun c => { c with gets := c.gets.filter (· != g) }), opProgress g.2.2 st, performed i x.fr 0]
    if x.fr.status ≠ 0 then fin x.fr.status
    else writeMem (.peer x.ep) true (some x.flask) g.1 0 (x.fr.data.take g.2.1) fin

/-- RX_GETR (R454). -/
def execRxGetr (st : StackIx) (s : State) : Out := finish (Eff.when (s.fabLive st) (rxData st 5 rxGetr)) s

/-- ACK (R447). -/
def ackPktEff (st : StackIx) : Eff :=
  rxTake st (fun _ x => x.fr.ptype == 1) fun x => Eff.opt x.conn fun i =>
    takeAck i x.fr.ack x.fr.sack x.fr.stats x.fr.ece

/-- ACK (R447). -/
def execAckPkt (st : StackIx) (s : State) : Out :=
  finish (Eff.when (s.fabLive st) (ackPktEff st)) s

/-! ## Handshakes (R438-R445) -/

/-- Take a frame of a packet type. -/
def rxType (st t : Nat) (k : RxItem → Eff) : Eff := rxTake st (fun _ x => x.fr.ptype == t) k

/-- The version two sides use, if they have one (R444); below 3 needs the interop licence (R8). -/
def State.version (s : State) (fr : Frame) : Option Nat :=
  let v := min 3 fr.verHi
  if max s.verLow fr.verLo ≤ v ∧ (v = 3 ∨ bit s.misc.licence 4) then some v else none

/-- A handshake's key matches the membership entry (R441): PEER mode only. -/
def State.keyOk (s : State) (fl ep : Nat) (fr : Frame) : Bool :=
  (s.jobAt fl).jobMode || (s.member fl ep).any (fun m => m.keyId == fr.keyId)

/-- REFUSE an INIT; there is no connection of ours (R440, R442, R444). -/
def refuse (x : RxItem) (status : Nat) : Eff := fresh fun v => .get fun s =>
  let peer := ((s.member x.flask x.ep).map (fun m => x.fr.srcAddr - m.base)).getD 0
  sendFrame (x.path / 4) (x.path % 4) v (.frame x.path peer { ptype := 5, dstConn := x.fr.srcConn, status := status })

/-- INIT_ACK for a connection: versions, our psn, our READY paths (R441). -/
def initAck (i : Nat) : Eff := .get fun s =>
  sendControl i { ptype := 3, verLo := s.verLow, verHi := (s.connAt i).ver, ipsn := (s.connAt i).psn
                  paths := (s.readyPaths (s.connAt i).stack).take 8 }

/-- A handshake in PEER mode carries a report that the SEC signs (R441, R616). -/
def signReport (fl : Nat) : Eff := .get fun s =>
  Eff.when (!(s.jobAt fl).jobMode) (setSec fun x => { x with signed := (x.signed + 1) % 2 ^ 64 })

/-- A packet that waited for its connection, cut to the data a packet of the negotiated version carries (R434, R444, R454). -/
def splitPkt (n : Nat) (p : Pkt) : List Pkt :=
  if p.code = 1 ∧ n < p.data.length then
    let ds := cut n (p.data.length / n + 1) p.data
    ds.zipIdx.map fun d => if d.2 + 1 = ds.length then { p with data := d.1, addr := p.addr + d.2 * n }
      else { p with data := d.1, addr := p.addr + d.2 * n, last := false, radd := false, value := 0, aux := 0 }
  else if p.code = 2 ∧ n < p.glen then
    let k := (p.glen + n - 1) / n
    (List.range k).map fun j =>
      { p with addr := p.addr + j * n, aux := p.aux + j * n, glen := min n (p.glen - j * n), last := p.last && j + 1 == k }
  else [p]

/-- Number operations of class 1 anew once classes 2, 3 and UNORD are sent as class 1 (R444): in submission order. -/
def toClassOne : List Pkt → Option Nat → List Nat → List Pkt × List Nat
  | [], _, csn => ([], csn)
  | p :: ps, last, csn =>
    let k := if 1 < p.cls then 1 else p.cls
    let again := p.op.isSome && last == p.op
    let n := if again then (csn.getD k 0 + 65535) % 65536 else csn.getD k 0
    let r := toClassOne ps p.op (if again then csn else csn.set k ((n + 1) % 65536))
    ({ p with cls := k, csn := n } :: r.1, r.2)

/-- What waits on a connection takes the form of version 1 (R444): SEND ends with UNKNOWN_OP, packets are cut to its mtu, an
operation waits for each of them, classes are mapped. -/
def enterV1 (i : Nat) : Eff := .get fun s =>
  let c := s.connAt i
  let m := s.mtu c.stack 1
  let keep := c.queue.filter (fun p => p.code != 4)
  let r := toClassOne (keep.flatMap (splitPkt m)) none [0, 0, 0, 0, 0]
  Eff.all [
    setConn i (fun c => { c with queue := r.1, csn := r.2 }),
    Eff.each keep (fun p => Eff.opt p.op fun o => setOp o fun y =>
      { y with left := y.left + ((splitPkt m p).length - 1) * (if p.code = 2 then 2 else 1) }),
    Eff.each ((c.queue.filter (fun p => p.code == 4)).filterMap (·.op)) (fun o => opEnd o stUnknownOp)]

/-- A responder's connection for an INIT, keeping what waits on an abandoned one (R441). -/
def respond (st i ver : Nat) (x : RxItem) (queue : List Pkt) : Eff := fresh fun v => .get fun s => Eff.all [
  .upd (.conn i { phase := 2, stack := st, flask := x.flask, ep := x.ep, ver := ver, peer := x.fr.srcConn, psn := v % 2 ^ 24
                  ack := (x.fr.ipsn + 2 ^ 24 - 1) % 2 ^ 24
                  paths := [((s.member x.flask x.ep).map (fun m => x.fr.srcAddr - m.base)).getD 0], queue := queue
                  r := (s.reg .FAB_CC_r_init st : Nat), t := (s.reg .FAB_CC_r_init st : Nat) }),
  Eff.when (ver == 1) (enterV1 i), countConns st, signReport x.flask, initAck i]

/-- INIT (R440-R445). -/
def initPkt (st : Nat) (x : RxItem) : Eff := .get fun s =>
  let j := s.jobAt x.flask
  if !s.keyOk x.flask x.ep x.fr then authFail st x.flask x.ep
  else if x.fr.encrypt != j.encrypt || x.fr.keyMode != b2n j.jobMode then refuse x stDenied
  else match s.version x.fr with
    | none => refuse x stBadVersion
    | some ver =>
      match s.connOf st x.flask x.ep with
      | some i =>
        let c := s.connAt i
        if c.phase = 2 ∧ c.peer = x.fr.srcConn then initAck i
        else if c.phase = 1 then (if s.ownEp < x.ep then .skip else respond st i ver x c.queue)
        else .seq (connLost i) (respond st i ver x [])
      | none => match s.freeConn with
        | none => refuse x stNoResource
        | some i => respond st i ver x []

/-- INIT (R441). -/
def execInitPkt (st : StackIx) (s : State) : Out := finish (Eff.when (s.fabLive st) (rxType st 2 (initPkt st))) s

/-- INIT_ACK (R441): the connection opens; what the version lacks ends with UNKNOWN_OP (R444). -/
def initAckPkt (i : Nat) (x : RxItem) : Eff := .get fun s =>
  let c := s.connAt i
  if c.phase ≠ 1 then .skip
  else if !s.keyOk x.flask x.ep x.fr || (!(s.jobAt x.flask).jobMode && !x.fr.reportOk) then authFail c.stack x.flask x.ep
  else
    let ver := min 3 x.fr.verHi
    Eff.all [
      setConn i (fun c => { c with
        phase := 3, ver := ver, peer := x.fr.srcConn, ack := (x.fr.ipsn + 2 ^ 24 - 1) % 2 ^ 24, paths := x.fr.paths }),
      Eff.when (ver == 1) (enterV1 i), clampRate i, signReport x.flask, sendControl i { ptype := 4 }]

/-- INIT_ACK (R441). -/
def execInitAckPkt (st : StackIx) (s : State) : Out :=
  finish (Eff.when (s.fabLive st) (rxType st 3 fun x => Eff.opt x.conn fun i => initAckPkt i x)) s

/-- CONFIRM (R441). -/
def confirmPktEff (st : StackIx) : Eff :=
  rxType st 4 fun x => Eff.opt x.conn fun i => .get fun s =>
    if (s.connAt i).phase ≠ 2 then .skip
    else if !(s.jobAt x.flask).jobMode && !x.fr.reportOk then authFail st x.flask x.ep
    else .seq (setConn i fun c => { c with phase := 3 }) (clampRate i)

/-- CONFIRM (R441). -/
def execConfirmPkt (st : StackIx) (s : State) : Out :=
  finish (Eff.when (s.fabLive st) (confirmPktEff st)) s

/-- REFUSE (R440): the waiting operations end. -/
def refusePktEff (st : StackIx) : Eff :=
  rxType st 5 fun x => Eff.opt x.conn fun i => .get fun s =>
    Eff.when ((s.connAt i).phase == 1) (.seq (freeConn i (if x.fr.status = stNoResource then stNoResource else stTargetLost))
      (drained? x.flask x.ep))

/-- REFUSE (R440): the waiting operations end. -/
def execRefusePkt (st : StackIx) (s : State) : Out :=
  finish (Eff.when (s.fabLive st) (refusePktEff st)) s

/-- CLOSE (R438): the peer has closed the connection. -/
def closePktEff (st : StackIx) : Eff :=
  rxType st 6 fun x => Eff.opt x.conn fun i =>
    .seq (freeConn i stTargetLost) (drained? x.flask x.ep)

/-- CLOSE (R438): the peer has closed the connection. -/
def execClosePkt (st : StackIx) (s : State) : Out :=
  finish (Eff.when (s.fabLive st) (closePktEff st)) s

/-- REKEY (R443): the keys of both phases are held. -/
def rekeyPktEff (st : StackIx) : Eff :=
  rxType st 7 fun x => Eff.opt x.conn fun i =>
    setConn i fun c => { c with rxPhase := 1 - c.rxPhase, rxOld := true }

/-- REKEY (R443): the keys of both phases are held. -/
def execRekeyPkt (st : StackIx) (s : State) : Out :=
  finish (Eff.when (s.fabLive st) (rekeyPktEff st)) s

/-- OLD_PHASE_KEY_EXPIRY (R443). -/
def execOldPhaseKeyExpiry (cn : ConnIx) (s : State) : Out :=
  finish (Eff.when ((s.connAt cn).phase != 0) (setConn cn fun c => { c with rxOld := false })) s

/-- INIT_RESEND (R441): through the peer's next path index of the stack. -/
def initResendEff (cn : ConnIx) (s : State) : Eff :=
  let c := s.connAt cn
  .seq
    (setConn cn fun c => { c with inits := c.inits + 1, paths := c.paths.map (fun p => 20 * c.stack + (p + 1) % 20) })
    (sendControl cn { ptype := 2, verLo := s.verLow, verHi := 3, ipsn := c.psn
                      keyMode := b2n (s.jobAt c.flask).jobMode, encrypt := (s.jobAt c.flask).encrypt })

/-- INIT_RESEND (R441). -/
def execInitResend (cn : ConnIx) (s : State) : Out :=
  finish (Eff.when ((s.connAt cn).phase == 1 && s.fabLive (s.connAt cn).stack) (initResendEff cn s)) s

/-- SETUP_TIMEOUT (R441): a handshake that has not ended by FAB_TIME.setup_ms. -/
def setupTimeoutEff (cn : ConnIx) (s : State) : Eff :=
  .seq (freeConn cn stTargetLost) (drained? (s.connAt cn).flask (s.connAt cn).ep)

/-- SETUP_TIMEOUT (R441). -/
def execSetupTimeout (cn : ConnIx) (s : State) : Out :=
  finish (Eff.when (((s.connAt cn).phase == 1 || (s.connAt cn).phase == 2) && s.fabLive (s.connAt cn).stack)
    (setupTimeoutEff cn s)) s

/-- A commit removes a peer (R438, R439): handshakes are abandoned, open connections drain. -/
def removePeer (fl ep : Nat) : Eff := .get fun s => Eff.all [
  setJob fl (fun j => { j with gone := if ep ∈ j.gone then j.gone else j.gone ++ [ep] }),
  Eff.each (s.connsWith fl ep) (fun i => if (s.connAt i).phase = 3 then setConn i fun c => { c with drain := true }
    else freeConn i stTargetLost),
  drained? fl ep]

/-- DRAIN_WINDOW_END (R438). -/
def drainWindowEndEff (fl : FlaskIx) (ep : Fin 262144) (s : State) : Eff :=
  .seq
    (Eff.each (s.connsWith fl ep) fun i => .seq (sendControl i { ptype := 6 }) (freeConn i stTargetLost))
    (drained? fl ep)

/-- DRAIN_WINDOW_END (R438). -/
def execDrainWindowEnd (fl : FlaskIx) (ep : Fin 262144) (s : State) : Out :=
  finish (Eff.when (decide (ep.val ∈ (s.jobAt fl).gone)) (drainWindowEndEff fl ep s)) s

/-- Every job ends at once, without CLOSE (R565). -/
def dropJobs : Eff := .get fun s => .seq (Eff.each s.conn fun p => .upd (.conn p.1 {}))
  (.seq (Eff.each s.job fun p => .upd (.job p.1 {})) (.upd (.members [])))

end Sys2Proof.Machine
end

