-- ==== Sys2Proof/Machine/Noc.lean ====
section
/-! DEFINITION. Die-to-die links and routes (13_on_package_network.md). Accesses are atomic in the model, so no request
is ever kept across a link's fall: how many are replayed is a free value. -/
namespace Sys2Proof.Machine

/-- A 2-bit route entry replaced. -/
def putEntry (v t code : Nat) : Nat := v - v / 4 ^ t % 4 * 4 ^ t + code * 4 ^ t

/-- The route entry of a stack for a destination, 12 the I/O die (R360). -/
def State.entry (s : State) (st t : Nat) : Nat := if t = 12 then s.reg .NOC_ROUTE_iod st else s.routeOf st t

/-- Set a route entry in force. -/
def setEntry (st t code : Nat) : Eff := .get fun s =>
  if t = 12 then setReg .NOC_ROUTE_iod st code else setReg .NOC_ROUTE_stack st (putEntry (s.reg .NOC_ROUTE_stack st) t code)

/-- The stack's own link that a code names for a destination (R350, R360); none for NONE. -/
def linkOfCode (t code : Nat) : Option Nat :=
  if t = 12 then (match code with | 0 => some 2 | 1 => some 0 | 2 => some 1 | _ => none)
  else (match code with | 1 => some 0 | 2 => some 1 | 3 => some 2 | _ => none)

/-- Code of NONE for a destination. -/
def noneCode (t : Nat) : Nat := if t = 12 then 3 else 0

/-- Where an entry that used a fallen link goes (R352). -/
def State.moved (s : State) (st k : Nat) (peerLost : Bool) (t : Nat) : Nat :=
  let up (j : Nat) : Bool := j != k && s.linkUp st j
  if t = 12 then (if k = 2 then (if up 0 then 1 else if up 1 then 2 else 3)
    else if k = 0 ∧ up 1 then 2 else if k = 1 ∧ up 0 then 1 else 3)
  else if peerLost && decide (k < 2) && t == ringNext st k then 0
  else if k < 2 then (if up 2 then 3 else 0)
  else
    let cw := (t + 12 - st) % 12 ≤ (st + 12 - t) % 12
    if cw then (if up 0 then 1 else if up 1 then 2 else 0) else (if up 1 then 2 else if up 0 then 1 else 0)

/-- Hardware changes the entries that use a fallen link, over any pending apply (R352, R356). -/
def reroute (st k : Nat) (peerLost : Bool) : Eff := .get fun s =>
  let hit := (List.range 13).filter (fun t => t != st && linkOfCode t (s.entry st t) == some k)
  Eff.all [Eff.each hit (fun t => setEntry st t (s.moved st k peerLost t)),
    setStack st (fun x => { x with routes := x.routes.filter (fun r => !hit.contains r.1) }),
    .get fun s => setReg .NOC_STAT_draining st (b2n (!(s.stackAt st).routes.isEmpty)),
    setReg .NOC_STAT_failover st 1, fresh fun v => addReg .NOC_STAT_replays st v]

/-- The other end of a ring link. -/
def linkPeer (st k : Nat) : Nat × Nat := (ringNext st k, 1 - k)

/-- A link carries nothing: down at both ends. -/
def dropLink (st k : Nat) : Eff := .seq (.seq (setReg .NOC_LINK_up (st * 3 + k) 0) (setReg .NOC_LINK_rate (st * 3 + k) 0))
  (Eff.when (decide (k < 2)) (let p := linkPeer st k
    .seq (setReg .NOC_LINK_up (p.1 * 3 + p.2) 0) (setReg .NOC_LINK_rate (p.1 * 3 + p.2) 0)))

/-- A stack's own link goes down (R352): routes move unless auto_en is 0; LINK_DOWN is raised. -/
def linkFalls (st k : Nat) (peerLost : Bool) : Eff := Eff.all [dropLink st k,
  .get fun s => Eff.when (s.flag .NOC_CTL_auto_en st) (reroute st k peerLost),
  doorbell 96 (0x10 + st), hostRing 0 19 (st + k * 16)]

/-- LINK_DOWN (R352). -/
def execLinkDown (st : StackIx) (k : Fin 3) (peerLost : Bool) (s : State) : Out :=
  finish (Eff.when (!s.stackHeld st) (linkFalls st k peerLost)) s

/-- D2D_TIMEOUT (R355). -/
def d2dTimeoutEff (st : StackIx) (dest : Fin 13) : Eff :=
  .seq (satReg .NOC_STAT_timeouts st 1) (report 0x41 7 dest 0 0 31 [] st)

/-- D2D_TIMEOUT (R355). -/
def execD2dTimeout (st : StackIx) (dest : Fin 13) (s : State) : Out :=
  finish (Eff.when (!s.stackHeld st) (d2dTimeoutEff st dest)) s

/-- More link-level retries within 1 ms than NOC_CTL.retry_thresh (R349, R360): how many more, and the CRC failures behind
them, are free values (log entry 5). -/
def countRetries (st k : Nat) : Eff := fresh fun v => fresh fun w => .get fun s =>
  .seq (satReg .NOC_LINK_retries (st * 3 + k) (s.reg .NOC_CTL_retry_thresh st + 1 + v))
    (satReg .NOC_LINK_crc (st * 3 + k) (1 + w))

/-- D2D_LINK (R349): too many retries take a link down for its assay; one judged lasting before stays in service (R582). -/
def d2dLinkEff (st : StackIx) (k : Fin 3) (s : State) : Eff :=
  Eff.all [countRetries st k, report 0x40 5 (st * 3 + k) 0 0 31 [] st,
    Eff.when (decide ({ cls := 5, id := st.val * 3 + k.val : UnitId } ∉ s.lasting))
      (.seq (setReg .NOC_LINK_assay (st * 3 + k) 1) (linkFalls st k false))]

/-- D2D_LINK (R349): too many retries take a link down for its assay; one judged lasting before stays in service (R582). -/
def execD2dLink (st : StackIx) (k : Fin 3) (s : State) : Out :=
  finish (Eff.when (!s.stackHeld st && s.linkUp st k) (d2dLinkEff st k s)) s

/-- Codes that NOC_ROUTE_NEXT names (R360). -/
def State.nextEntry (s : State) (st t : Nat) : Nat :=
  if t = 12 then s.reg .NOC_ROUTE_NEXT_iod st else s.reg .NOC_ROUTE_NEXT_stack st / 4 ^ t % 4

/-- Apply NOC_ROUTE_NEXT (R356): refused entries set bad_route, the others wait for their acknowledgements. -/
def applyRoutes (st : Nat) : Eff := .get fun s =>
  let ch := (List.range 13).filter (fun t => s.nextEntry st t != s.entry st t)
  let bad (t : Nat) : Bool := t == st || (linkOfCode t (s.nextEntry st t)).any (fun k => !s.linkUp st k)
  let ok := ch.filter (fun t => !bad t)
  Eff.all [Eff.when (ch.any bad) (setReg .NOC_STAT_bad_route st 1),
    setStack st (fun x => { x with routes := ok.map (fun t => (t, s.nextEntry st t)) }),
    setReg .NOC_STAT_draining st (b2n (!ok.isEmpty))]

/-- NOC_CTL_APPLY (R356). -/
def execNocCtlApply (st : StackIx) (s : State) : Out := finish (Eff.when (!s.stackHeld st) (applyRoutes st)) s

/-- A pending entry switches (R356). -/
def switchRoute (st t : Nat) : Eff := .get fun s =>
  Eff.opt ((s.stackAt st).routes.find? (fun r => r.1 == t)) fun r => Eff.all [setEntry st t r.2,
    setStack st (fun x => { x with routes := x.routes.filter (fun y => y.1 != t) }),
    .get fun s => setReg .NOC_STAT_draining st (b2n (!(s.stackAt st).routes.isEmpty))]

/-- ROUTE_SWITCH (R356). -/
def execRouteSwitch (st : StackIx) (dest : Fin 13) (s : State) : Out :=
  finish (Eff.when (!s.stackHeld st) (switchRoute st dest)) s

/-- Firmware writes a route at once, with every request kept for it acknowledged (R356). -/
def restoreRoutes (st : Nat) : Eff := .get fun s => .seq
  (Eff.each ((List.range 13).filter (fun t => t != st)) fun t =>
    let d := if t = 12 then 0 else defaultRoute st t
    -- a default whose link is down is not applied
    Eff.when ((linkOfCode t d).all (fun k => s.linkUp st k)) (setEntry st t d))
  (.seq (setStack st fun x => { x with routes := [] }) (setReg .NOC_STAT_draining st 0))

/-- One number for a link whichever end names it: a ring link by its clockwise end. -/
def linkNumber (st k : Nat) : Nat := if k = 1 then ringNext st 1 * 3 else st * 3 + k

/-- The unit of one lane group of a link (R348, R549): class LINK, numbered above the links (log entry 53). -/
def laneGroup (st k m : Nat) : UnitId := { cls := 5, id := 36 * (m + 1) + linkNumber st k }

/-- Modules of a link whose lane groups neither the fuse map nor the exclusion record lists (R549). -/
def State.laneMask (s : State) (st k : Nat) : Nat :=
  let bad := s.fuse.bad ++ s.excl
  ((List.range 8).filter (fun m => !bad.contains (laneGroup st k m))).foldl (fun a m => a + 2 ^ m) 0

/-- A link trains with a mask of good modules (R347): fewer than 4 leave it down; its rate is the part's (R343). -/
def trainLink (st k wanted : Nat) : Eff := .get fun s =>
  let mods := wanted &&& s.laneMask st k
  let up := decide (4 ≤ popcount mods 8)
  let rate := if up then (if k = 2 ∧ s.fuse.variantK then 1 else 2) else 0
  let put (i : Nat) : Eff := Eff.all [setReg .NOC_LINK_up i (b2n up), setReg .NOC_LINK_rate i rate, setReg .NOC_LINK_good_mods i mods]
  .seq (put (st * 3 + k)) (Eff.when (decide (k < 2)) (let p := linkPeer st k
    put (p.1 * 3 + p.2)))

end Sys2Proof.Machine
end

