-- ==== Sys2Proof/Machine/Reset.lean ====
section
/-! DEFINITION. Reset domains, clocks and their effects (14_clocks_crossings_resets.md). -/
namespace Sys2Proof.Machine

/-! ## Registers by domain -/

/-- The field and the instance of a register key. -/
def keyFld (k : Nat) : Fld := Fld.ofNat (k % 512)
def keyInst (k : Nat) : Nat := k / 512

/-- Fields of a domain and a unit kind, for the instances a test picks. -/
def regsWhere (d : Dom) (o : Own) (p : Nat → Bool) (k : Nat) : Bool :=
  let f := (keyFld k).info
  f.dom == d && f.unit == o && p (keyInst k / f.per)

/-- Put fields back to their reset values. -/
def clearWhere (d : Dom) (o : Own) (p : Nat → Bool) : Eff := .upd (.clearRegs (regsWhere d o p))

/-! ## Core and cluster -/

/-- A core reset (R371): registers, queues, accumulator, array and vector unit; results on its path are discarded (R272).
What its CCC keeps about the core's rings stays. -/
def resetCore (n : Nat) : Eff := Eff.all [
  clearWhere .core .site (· == n),
  Eff.each (List.range 16) (fun q => qEmpty n q), Eff.each (List.range 8) (fun g => setAg n g fun _ => {}),
  .upd (.clearAcc (fun k => k / 2048 == n)),
  setCore n (fun c => { appHead := c.appHead, attHead := c.attHead, appAside := c.appAside, attAside := c.attAside,
                        cows := c.cows, attFault := c.attFault }),
  setPath n fun p => { p with out := [] }]

/-- An assayer's work is lost (R583): what ran and what waited counts as lost reports; a stack lost during an assay of one
of its units ends it NOT_RUN. -/
def dropAssays (a : Nat) (stack : Bool) : Eff := .get fun s =>
  let x := s.assayerAt a
  let ran := stack && x.run.isSome
  Eff.all [Eff.when ran (Eff.opt x.run fun r => errRecord r 4 false 0),
    setMisc (fun m => { m with errLost := m.errLost + x.queue.length + b2n (x.run.isSome && !ran) }),
    .upd (.assayer a {})]

/-- Frames taken for copies that had not completed are released (R645). -/
def dropCows (n : Nat) : Eff := .get fun s => Eff.each (s.coreAt n).cows fun w =>
  .seq (setSeq w.q fun q => { q with cow := false }) (release w.dst 0)

/-- Items whose range holds a cluster lose it (R518). -/
def loseItems (c : Nat) : Eff := .get fun s =>
  Eff.each (s.ctx.filter (fun x => x.2.on && x.2.item.isSome && (s.rangeOf x.2).contains c)) fun x =>
    setCtx x.1 fun y => { y with item := y.item.map (fun i => { i with lost := true }) }

/-- A cluster reset (R371, R413, R645). -/
def resetCluster (c : Nat) (stack : Bool) : Eff := Eff.all [
  loseItems c, dropAssays c stack,
  Eff.each (List.range 12) (fun k => .seq (dropCows (c * 12 + k)) (resetCore (c * 12 + k))),
  Eff.each (List.range 12) (fun k => setCore (c * 12 + k) fun _ => {}),
  ladleAbort c, clearWhere .cluster .eng (· == c), clearWhere .cluster .gath (· == c), setGath c (fun _ => {}),
  setPath (1152 + c) (fun p => { p with out := [] }),
  .upd (.attend c []),
  setCluster c fun x => { x with zeroed := false, coreRst := 0 }]

/-- Zero a cluster's shared SRAM and the scratch of its enabled cores (R206). -/
def zeroCluster (c : Nat) : Eff := .get fun s => Eff.all [
  zeroRange (csramBase + c * 2 ^ 24) (2 ^ 24),
  Eff.each ((List.range 12).filter (fun k => !s.coreOff (c * 12 + k))) (fun k =>
    zeroRange (scratchBase + (c * 12 + k) * 2 ^ 21) (2 ^ 21)),
  setMisc (fun m => { m with warmed := m.warmed.filter (fun n => n / 12 != c) }),
  setCluster c fun x => { x with zeroed := true }]

/-- The tokens of every RESIDENT entry whose page lies in a cluster's slices are set from its header's fill (R645,
R566). -/
def syncTokens (c : Nat) : Eff := .get fun s =>
  Eff.each (s.pte.filter (fun p => p.2.kind == 1 && p.2.key / 32768 / 12 == c)) fun p =>
    Eff.opt (s.pageHeader (addrOfKey p.2.key)) fun h =>
      setPte (p.1 / 2 ^ 32) (p.1 / 65536 % 65536) (p.1 % 65536) { p.2 with tokens := h.fill }

/-- Priorities and modes that a gatherer's firmware sets as it starts (R533, R537): the CCC gives CHARGE_STOP 9 and
CHARGE_MARK 3; every other priority is a free value of 1 to 15 (log entry 5). -/
def startGather (g : Nat) : Eff :=
  let listed (n : Nat) : Bool := if g = 96 then moduleSource n && decide (n < 0x200) else localSource n
  let target (n : Nat) : Nat :=
    if g ≠ 96 then 0
    else if n < 0xC then 2 else if n < 0x50 then 1 else if n < 0x53 then 2 else if n = 0x53 then 1
    else if n = 0x54 then 0 else 2
  Eff.all [
    Eff.each ((List.range 0x200).filter listed) (fun n => .seq (setReg .EG_SRC_target (g * 1024 + n) (target n))
      (if g ≠ 96 ∧ n < 0x60 ∧ n % 8 = 2 then setReg .EG_SRC_prio (g * 1024 + n) 9
       else if g ≠ 96 ∧ n < 0x60 ∧ n % 8 = 0 then setReg .EG_SRC_prio (g * 1024 + n) 3
       else fresh fun v => setReg .EG_SRC_prio (g * 1024 + n) (1 + v % 15))),
    Eff.each (List.range (if g = 96 then 3 else 1)) (fun t => setReg .EG_TGT_mode (g * 4 + t) 0)]

/-- A cluster leaves reset: it is zeroed, its pages' tokens are set, its gatherer starts (R206, R645, R537). -/
def clusterReturn (c : Nat) : Eff := Eff.all [zeroCluster c, syncTokens c, startGather c]

/-- A cause no longer holds a cluster; with the last one it leaves reset (R374). -/
def releaseCluster (c cause : Nat) : Eff := .get fun s =>
  let x := s.clusterAt c
  if x.causes &&& cause = 0 then .skip
  else .seq (setCluster c fun y => { y with causes := y.causes - (y.causes &&& cause) })
    (.get fun s => Eff.when ((s.clusterAt c).causes == 0) (clusterReturn c))

/-- A cause holds a cluster in reset (R374): a cause more extends it, a wider reset is in force already. -/
def holdCluster (c cause : Nat) : Eff := .get fun s =>
  let x := s.clusterAt c
  .seq (setCluster c fun y => { y with causes := y.causes ||| cause }) (Eff.when (x.causes == 0) (resetCluster c false))

/-- CRS_RST_CLUSTER (R371): held until RESET_RELEASE. -/
def execCrsRstCluster (c : ClusterIx) (s : State) : Out := finish (Eff.when (!s.stackHeld (c / 8)) (holdCluster c 1)) s

/-- A core's reset is written (R371, R378): no effect for a disabled site, or within a wider reset. -/
def holdCore (n : Nat) : Eff := .get fun s => Eff.when (!s.coreOff n && !s.clusterHeld (n / 12)) (.seq (resetCore n)
  (setCluster (n / 12) fun x => { x with coreRst := setBit x.coreRst (n % 12) true }))

/-- CRS_CORE_GO (R371, R378). -/
def execCrsCoreGo (n : SiteIx) (s : State) : Out := finish (holdCore n) s

/-! ## Fabric plane -/

/-- Bank tasks of a stack end (R273): commands that other stacks' paths wait for are lost. -/
def dropTasks (st : Nat) : Eff := .get fun s => Eff.each (s.bank.filter (fun p => p.1 / 128 / 96 == st)) fun p =>
  .seq (.upd (.bank p.1 {})) (Eff.each (p.2.ctx ++ p.2.wait) fun t => endCommand t t.epoch { status := stTargetLost })

/-- Clear what a fabric-plane reset clears in a stack's slices (R203, R371): caches, rows, refresh progress, lists. -/
def resetSlices (st : Nat) : Eff := .seq (.upd (.clearCache (fun k => k / 512 / 96 == st)))
  (.seq (.get fun s => Eff.each (s.openRow.filter (fun p => p.1 / 128 / 96 == st)) fun p => .upd (.openRow p.1 0))
    (.get fun s => Eff.each (s.slice.filter (fun p => p.1 / 96 == st)) fun p => setSlice p.1 fun x => { x with
      slots := 0, filling := 0, freeMap := 0, tokNext := 0, recal := 0, reclaim := false }))

/-- Clear a stack's ports and Brodit engine (R427, R460): connections end without CLOSE; the restart count rises (R443). -/
def resetFabric (st : Nat) : Eff := .get fun s => Eff.all [
  Eff.each (List.range 5) (fun p => .seq (.upd (.port (st * 5 + p) {})) (Eff.each (List.range 4) fun k => .upd (.sub ((st * 5 + p) * 4 + k) {}))),
  Eff.each (s.conn.filter (fun p => p.2.phase != 0 && p.2.stack == st)) (fun p =>
    .seq (freeConn p.1 stTargetLost) (drained? p.2.flask p.2.ep)),
  setFab st fun x => { restarts := x.restarts + 1 }]

/-- The neighbours of a lost stack see their links to it fall (R352, R372). -/
def peersLose (st : Nat) : Eff := Eff.all [
  .get fun s => Eff.when (!s.stackHeld (ringNext st 0) && s.linkUp (ringNext st 0) 1) (linkFalls (ringNext st 0) 1 true),
  .get fun s => Eff.when (!s.stackHeld (ringNext st 1) && s.linkUp (ringNext st 1) 0) (linkFalls (ringNext st 1) 0 true)]

/-- The fabric-plane domain of a stack is reset (R371-R373): its logic, its clusters, its links. -/
def resetFp (st : Nat) : Eff := Eff.all [
  setStack st (fun x => { x with down := true, routes := [] }),
  peersLose st,
  Eff.each (List.range 8) (fun k => .get fun s =>
    let held := (s.clusterAt (st * 8 + k)).causes != 0
    .seq (setCluster (st * 8 + k) fun x => { x with causes := x.causes ||| 4 })
      (if held then dropAssays (st * 8 + k) true else resetCluster (st * 8 + k) true)),
  dropAssays (96 + st) true,
  dropTasks st, resetSlices st, resetFabric st,
  clearWhere .fp .slice (fun n => n / 96 == st), clearWhere .fp .stack (· == st), clearWhere .fp .port (fun g => g / 5 == st),
  Eff.each (List.range 32) (fun k => .upd (.bucket (32 + 32 * st + k) 0)),
  doorbell 96 st, hostRing 0 20 st]

/-- Register code of a cause (R378), by its bit. -/
def causeCode (bit : Nat) : Nat :=
  match bit with | 1 => 1 | 2 => 2 | 4 => 3 | 8 => 4 | 16 => 5 | _ => 6

/-- A cause holds a stack's fabric plane in reset (R374, R378, R379). -/
def holdFp (st cause : Nat) : Eff := .get fun s =>
  let x := s.stackAt st
  .seq (setStack st fun y => { y with causes := y.causes ||| cause })
    (Eff.when (x.causes == 0) (Eff.all [setReg .CRS_CAUSE_last st (causeCode cause), satReg .CRS_CAUSE_count st 1, resetFp st]))

/-- A cause no longer holds a stack. -/
def releaseFp (st cause : Nat) : Eff := setStack st fun y => { y with causes := y.causes - (y.causes &&& cause) }

/-- CRS_RST_FP (R371): held until RESET_RELEASE. -/
def execCrsRstFp (st : StackIx) (s : State) : Out :=
  finish (Eff.when (decide (s.misc.phase ≠ 0) && !(s.stackAt st).out) (holdFp st 1)) s

/-- RESET_RELEASE (R378): a written reset ends. -/
def resetReleaseEff (h : Held) : Eff :=
  match h with
    | .fp st => releaseFp st 1
    | .cluster c => releaseCluster c 1
    | .core n => setCluster (n / 12) fun x => { x with coreRst := setBit x.coreRst (n % 12) false }

/-- RESET_RELEASE (R378): a written reset ends. -/
def execResetRelease (h : Held) (s : State) : Out :=
  finish (resetReleaseEff h) s

/-- Reload ECC_RETIRE from the retirement record in flash (R237, R238). -/
def reloadRetired (sl : Nat) : Eff := .get fun s =>
  Eff.each ((s.retirements.filter (fun k => k / 32768 == sl)).zipIdx) fun k => Eff.all [
    setReg .ECC_RETIRE_valid (sl * 32 + k.2) 1, setReg .ECC_RETIRE_bank (sl * 32 + k.2) (k.1 / 256 % 128),
    setReg .ECC_RETIRE_frame (sl * 32 + k.2) (k.1 % 256)]

/-- Rebuild a slice's free list from the descriptors (R293); releases held back are made too (R304). -/
def rebuildList (sl : Nat) : Eff := .get fun s => Eff.all [
  Eff.each (s.sliceAt sl).heldRel (fun h => setDesc h.1 fun d => { d with refcount := 0, state := h.2 }),
  setSlice sl (fun x => { x with heldRel := [], freeMap := 0 }),
  .get fun s => Eff.each (s.page.filter (fun p => p.1 / 32768 == sl)) fun p =>
    if p.2.retire && p.2.pend then setDesc p.1 fun d => { d with state := 6, pend := false }
    else if p.2.state = 0 ∨ p.2.state = 4 ∨ p.2.state = 5 then .seq (setDesc p.1 fun d => { d with state := 0, pend := false })
      (flPush sl (p.1 / 256 % 128) (p.1 % 256))
    else .skip,
  .get fun s => Eff.opt (s.flaskOf (sl / 12)) fun fl => setReg .KV_FL_CTL_low sl (s.kvAt fl).low]

/-- The regulators of a returned stack from the last FLASK_REG of each flask (R527, R529). -/
def setRegulator (rate burst en : Fld) (i bucket w : Nat) : Eff := Eff.all [setReg rate i (bits w 63 48), setReg burst i (bits w 47 32),
  setReg en i (w % 2), .upd (.bucket bucket (if w % 2 = 1 then burstBytes (bits w 47 32) else 0))]

/-- Write the egress regulators of a flask in a stack (R527): words 2 and 3 of its FLASK_REG. -/
def setEgress (st fl : Nat) (regs : List Nat) : Eff := .seq
  (setRegulator .REG_D2D_rate .REG_D2D_burst .REG_D2D_en (st * 16 + fl) (32 + 2 * (16 * st + fl)) (regs.getD 2 (64 * 2 ^ 32)))
  (setRegulator .REG_FAB_rate .REG_FAB_burst .REG_FAB_en (st * 16 + fl) (32 + 2 * (16 * st + fl) + 1) (regs.getD 3 (64 * 2 ^ 32)))

/-- Initialise a stack's memory: every region zeroed with full check bits, its ECC_INIT bit set (R226, R554). -/
def initStack (st : Nat) : Eff := Eff.each (List.range 96) fun k => .get fun s =>
  Eff.when (!(s.sliceAt (st * 96 + k)).withheld) (Eff.each (List.range 16) fun r => zeroRegion (st * 96 + k) r)

/-- A stack's logic comes back (R373): self-refresh ends, tables and lists are rebuilt, links and routes return, its
clusters are released, its ports get their configuration again (R427) and its engine starts. -/
def fpReturn (st : Nat) (settings : Eff) : Eff := Eff.all [
  setStack st (fun x => { x with down := false }),
  .get fun s => Eff.when (s.stackAt st).reinit (.seq (initStack st) (setStack st fun x => { x with reinit := false })),
  setReg .CRS_STAT_self_refresh st 0,
  Eff.each (List.range 96) (fun k => .seq (setReg .MC_STAT_sr (st * 96 + k) 1) (.seq (reloadRetired (st * 96 + k)) (rebuildList (st * 96 + k)))),
  -- a slice whose cache is excluded keeps it off (R549)
  .get fun s => Eff.each ((s.fuse.bad ++ s.excl).filter (fun u => u.cls == 3 && u.id / 96 == st)) (fun u => setReg .MC_CFG_cache_en u.id 0),
  settings,
  Eff.each (List.range 8) (fun k => releaseCluster (st * 8 + k) 4),
  .get fun s => Eff.each s.flaskSt (fun p => setEgress st p.1 p.2.regs),
  .get fun s => Eff.each (List.range 5) (fun p => Eff.when (field (s.portCfg (st * 5 + p)) 1 1 == 1) (applyPort (st * 5 + p) (s.portCfg (st * 5 + p))))]

/-- The links of a stack train again with all their modules where the other end is in service, and routes are restored
(R373, R356). -/
def relink (st : Nat) : Eff := .get fun s => Eff.all [
  Eff.when (!s.stackHeld (ringNext st 0)) (trainLink st 0 255), Eff.when (!s.stackHeld (ringNext st 1)) (trainLink st 1 255),
  trainLink st 2 255, Eff.each (List.range 12) fun t => .get fun s => Eff.when (!s.stackHeld t) (restoreRoutes t)]

/-- FABRIC_PLANE_RETURN (R373): every cause has been released. -/
def execFabricPlaneReturn (st : StackIx) (s : State) : Out :=
  finish (Eff.when ((s.stackAt st).down && (s.stackAt st).causes == 0 && decide (3 ≤ s.misc.phase)
      && !(decide (0x11 ≤ s.misc.phase) && decide (s.misc.phase ≤ 0x16)))
    (.seq (fpReturn st (relink st)) (bootRecord 1 st 0x22))) s

/-! ## Clocks (R364, R366) -/

/-- Clusters of a region of a stack (R364). -/
def regionClusters (st r : Nat) : List Nat := (List.range 4).map (· + st * 8 + r * 4)

/-- PLL_LOCK_LOSS (R364). -/
def pllLockLossEff (st : StackIx) (pll : Pll) (s : State) : Eff :=
  match pll with
    | .region r => .seq (setReg .CRS_STAT_region_lock st (setBit (s.reg .CRS_STAT_region_lock st) r false))
        (Eff.each (regionClusters st r) fun c => holdCluster c 2)
    | .memory => .seq (setReg .CRS_STAT_mem_lock st 0) (holdFp st 4)
    | .fabric => .seq (setReg .CRS_STAT_fab_lock st 0) (holdFp st 2)

/-- PLL_LOCK_LOSS (R364). -/
def execPllLockLoss (st : StackIx) (pll : Pll) (s : State) : Out :=
  finish (pllLockLossEff st pll s) s

/-- PLL_RELOCK (R364). -/
def pllRelockEff (st : StackIx) (pll : Pll) (s : State) : Eff :=
  match pll with
    | .region r => .seq (setReg .CRS_STAT_region_lock st (setBit (s.reg .CRS_STAT_region_lock st) r true))
        (Eff.each (regionClusters st r) fun c => releaseCluster c 2)
    | .memory => .seq (setReg .CRS_STAT_mem_lock st 1) (releaseFp st 4)
    | .fabric => .seq (setReg .CRS_STAT_fab_lock st 1) (releaseFp st 2)

/-- PLL_RELOCK (R364). -/
def execPllRelock (st : StackIx) (pll : Pll) (s : State) : Out :=
  finish (pllRelockEff st pll s) s

/-- The setting a core clock moves to: a multiple of 25 within 400-1,100 MHz (R378, R18). -/
def clockTarget (v : Nat) : Nat := if 400 ≤ v ∧ v ≤ 1100 then v / 25 * 25 else 1100

/-- What CRS_CLK holds after a write (R378): a value within its range is rounded down to a multiple of 25; another reads back
as it was written (R18). -/
def clockWord (v : Nat) : Nat := if 400 ≤ v ∧ v ≤ 1100 then v / 25 * 25 else v

/-- One step of 25 MHz toward a target. -/
def clockStep (now target : Nat) : Nat := if now < target then min target (now + 25) else max target (now - 25)

/-- A core clock's setting. -/
def State.clockSet (s : State) (st r : Nat) : Nat :=
  clockTarget (if r = 0 then s.reg .CRS_CLK_core0_mhz st else s.reg .CRS_CLK_core1_mhz st)

/-- CRS_STAT.slewing shows whether a clock has still to move. -/
def showSlew (st : Nat) : Eff := .get fun s => setReg .CRS_STAT_slewing st
  (b2n ((s.stackAt st).clk0 != s.clockSet st 0 || (s.stackAt st).clk1 != s.clockSet st 1))

/-- The PMC sets both core clocks (R366). -/
def setClocks (st mhz0 mhz1 : Nat) : Eff := Eff.all [setReg .CRS_CLK_core0_mhz st mhz0, setReg .CRS_CLK_core1_mhz st mhz1, showSlew st]

/-- CLOCK_SLEW_STEP (R366). -/
def clockSlewStepEff (st : StackIx) (r : Fin 2) (s : State) : Eff :=
  .seq (setStack st fun x => if r.val = 0 then { x with clk0 := clockStep x.clk0 (s.clockSet st 0) }
    else { x with clk1 := clockStep x.clk1 (s.clockSet st 1) }) (showSlew st)

/-- CLOCK_SLEW_STEP (R366). -/
def execClockSlewStep (st : StackIx) (r : Fin 2) (s : State) : Out :=
  finish (clockSlewStepEff st r s) s

/-- PEER_RESET (R370): what travels toward a cluster in reset is discarded. -/
def peerResetEff (c : ClusterIx) : Eff :=
  Eff.all [setGath c (fun _ => {}), setPath (1152 + c) (fun p => { p with out := [] }),
    Eff.each (List.range 12) fun k => setPath (c * 12 + k) fun p => { p with out := [] }]

/-- PEER_RESET (R370): what travels toward a cluster in reset is discarded. -/
def execPeerReset (c : ClusterIx) (s : State) : Out :=
  finish (Eff.when (s.clusterHeld c) (peerResetEff c)) s

/-! ## The I/O die -/

/-- Empty a store, key by key. -/
def eachKey {α : Type} (m : Store α) (u : Nat → Upd) : Eff := Eff.each m fun p => .upd (u p.1)

/-- What an IOD reset clears (R371, R565): the host interface, contexts, queues, images, jobs, the module gatherer, its
engines and regulators. The host link drops and VF Enable goes with its configuration space. -/
def resetIod : Eff := .get fun s => Eff.all [
  Eff.each (List.range 8) (fun e => ladleAbort (96 + e)),
  clearWhere .cluster .eng (fun e => decide (96 ≤ e)), clearWhere .cluster .gath (· == 96), setGath 96 (fun _ => {}),
  clearWhere .iod .flask (fun _ => true), clearWhere .fn .fn (fun _ => true),
  .upd (.clearMbox (fun _ => true)), .upd (.clearNotes (fun _ => true)), .upd (.clearImages (fun _ => true)),
  eachKey s.fn (fun k => .fn k {}), eachKey s.wq (fun k => .wq k {}), eachKey s.ctx (fun k => .ctx k {}),
  Eff.each (List.range 32) (fun k => .upd (.bucket k 0)),
  Eff.each s.seq (fun p => setSeq p.1 fun q => { q with ctx := none, held := false }),
  dropJobs, eachKey s.fabOp (fun k => .fabOp k {}), eachKey s.cring (fun k => .cring k 0), .upd (.hwAdds []),
  setMisc fun m => { m with linkUp := false, vfOn := false },
  Eff.each (List.range 12) fun st => holdFp st 16]

end Sys2Proof.Machine
end

