-- ==== Sys2Proof/Machine/Contexts.lean ====
section
/-! DEFINITION. Work queues, work items, pre-emption and rotation (21_contexts_and_flasks.md; R500-R502). -/
namespace Sys2Proof.Machine

/-! ## Readiness (R515) -/

/-- The SCH runs and the module is in service (R465, R547). -/
def State.schLive (s : State) : Bool := s.misc.phase == 0x20 && !decide (2 ∈ s.fw.restarting)

/-- Key of a function's work queue (R482). -/
def wqKey (f slot : Nat) : Nat := f * 256 + slot

/-- Queues of a context, in slot order within each function. -/
def State.queuesOf (s : State) (x : Nat) : List (Nat × WqSt) := s.wq.filter (fun p => p.2.on && p.2.ctx == x)

/-- The queue holds an accepted entry that has not been started. -/
def WqSt.waiting (q : WqSt) : Bool := q.started != q.tail && !q.dying

/-- A sequence bound to the context holds it (R523). -/
def State.ctxHeld (s : State) (x : Nat) : Bool := s.seq.any (fun q => q.2.ctx == some x && q.2.held && q.2.state != 0)

/-- A sequence the item has issued a request for was set PREEMPTED (R523). -/
def State.itemHeld (s : State) (i : Item) : Bool := i.seqs.any (fun q => (s.seqAt q).held)

/-- The context waits for clusters: an accepted entry and no item, or an item that was pre-empted; not held, and not being
destroyed (R515, R520). -/
def State.ctxReady (s : State) (x : Nat) : Bool :=
  let c := s.ctxAt x
  c.on && !c.dying && !s.ctxHeld x
    && (match c.item with
      | some i => i.saved.isSome && !s.itemHeld i
      | none => (s.queuesOf x).any (fun q => q.2.waiting))

/-- A cluster can run a context's item: no running item holds it, it is out of reset with its CCC, no core of it is under
assay, and its stack's diode has given a valid reading (R373, R515, R518, R577). -/
def State.clusterFree (s : State) (x c : Nat) : Bool :=
  s.cccLive c && !(s.ctx.any (fun p => p.1 != x && p.2.on && p.2.running && (s.rangeOf p.2).contains c))
    && !((s.assayerAt c).run.any (fun r => r.cls == 0)) && s.flag .TH_RES_valid (c / 8)

/-- Context y stands before x (R515): higher priority, or the longer wait within one priority. -/
def State.standsBefore (s : State) (y x : Nat) : Bool :=
  decide ((s.ctxAt x).prio < (s.ctxAt y).prio)
    || ((s.ctxAt x).prio == (s.ctxAt y).prio && decide ((s.ctxAt y).waitFrom < (s.ctxAt x).waitFrom))

/-- The SCH may give the context its whole range now (R515). -/
def State.mayStart (s : State) (x : Nat) : Bool :=
  let r := s.rangeOf (s.ctxAt x)
  s.schLive && s.ctxReady x && r.all (s.clusterFree x)
    && !(s.ctx.any (fun p => p.1 != x && s.ctxReady p.1 && s.standsBefore p.1 x && overlaps (s.rangeOf p.2) r))

/-- The next number in the order of waiting. -/
def State.nextWait (s : State) : Nat := s.ctx.foldl (fun m p => max m p.2.waitFrom) 0 + 1

/-- The context begins to wait now. -/
def beginWait (x : Nat) : Eff := .get fun s => setCtx x fun c => { c with waitFrom := s.nextWait }

/-! ## Entries (R500-R502) -/

/-- Host address of an entry's slot. -/
def WqSt.slotAddr (q : WqSt) (t : Nat) : Nat := q.base + t % 2 ^ q.log2 * 64

/-- Word 7 of a completed entry (R500). -/
def word7 (status fx cause sub : Nat) : Nat := 2 ^ 63 + status * 2 ^ 32 + fx * 2 ^ 28 + cause * 2 ^ 16 + sub * 2 ^ 8

/-- Write word 7 of an entry in host memory; a write that meets a down link does not reach it. -/
def writeWord7 (key : Nat) (q : WqSt) (t w : Nat) : Eff := .get fun s =>
  Eff.when s.misc.linkUp (.upd (.hbytes (key / 256 * 2 ^ 64 + q.slotAddr t + 56) (leBytes w 8)))

/-- Flask of a queue's context. -/
def State.wqFlask (s : State) (q : WqSt) : Nat := (s.ctxAt q.ctx).flask

/-- An entry completes (R502): word 7, the ADD, WQ_DONE. -/
def completeEntry (key t status fx cause sub : Nat) (event addEn : Bool) (addr : Nat) : Eff := .get fun s =>
  let q := s.wqAt key
  Eff.all [writeWord7 key q t (word7 status fx cause sub),
    setWq key (fun q => { q with completed := (q.completed + 1) % 2 ^ 32 }),
    Eff.when addEn (addGlobal (.fw 2) (some (s.wqFlask q)) addr 1 fun _ => .skip),
    Eff.when event (hostRing (key / 256) 2 q.num)]

/-- WQ_DB_TAIL_WRITE (R501, R482): a tail is accepted, or ignored with WQ_FAULT; a slot without a queue raises nothing. -/
def wqTail (f slot tail : Nat) : Eff := .get fun s =>
  let k := wqKey f slot
  let q := s.wqAt k
  if !s.misc.linkUp || !s.fnOn f || !q.on || q.dying then .skip
  else if 0 ≤ signed 32 (wrap 32 ((tail : Int) - q.tail)) ∧ wrap 32 ((tail : Int) - q.completed) ≤ 2 ^ q.log2 then Eff.all [
    Eff.when (!s.ctxReady q.ctx && decide (tail ≠ q.tail)) (beginWait q.ctx),
    setWq k (fun q => { q with tail := tail }), doorbell 96 (0xA0 + f)]
  else hostRing f 3 q.num

/-- WQ_DB_TAIL_WRITE (R501). -/
def execWqDbTailWrite (f : FnIx) (slot : Fin 256) (tail : BitVec 32) (s : State) : Out :=
  finish (wqTail f slot tail.toNat) s

/-! ## Starting (R516) -/

/-- The queue whose entry the context takes next: in slot order, round-robin (R515). -/
def State.nextQueue (s : State) (x : Nat) : Option (Nat × WqSt) :=
  let qs := (s.queuesOf x).filter (fun q => q.2.waiting)
  match qs.find? (fun q => decide ((s.ctxAt x).nextSlot ≤ q.1)) with
  | some q => some q
  | none => qs.head?

/-- Zero the scratch of a core that warming pours have used (R601). -/
def coolCore (n : Nat) : Eff := .get fun s => Eff.when (decide (n ∈ s.misc.warmed))
  (.seq (zeroRange (scratchBase + n * 2 ^ 21) (2 ^ 21)) (setMisc fun m => { m with warmed := m.warmed.filter (· != n) }))

/-- Put a context's image in a rank's core where R510 requires it: the context is not exclusive, or its state was saved. -/
def restoreRank (x rank n : Nat) : Eff := .get fun s =>
  let saved := Store.get [] s.image (x * 1056 + rank) != []
  Eff.when (!s.exclusive x || saved) (.seq (loadImage n (s.savedImage x rank))
    (Eff.when (s.exclusive x) (saveImage x rank [])))

/-- Start a rank at a record's byte address. -/
def startRank (n addr : Nat) : Eff := .seq (setReg .SEQ_LIST_addr n (addr / 8)) (seqGo n)

/-- Words of an entry as fetched from the function's host memory. -/
def State.entryWords (s : State) (key : Nat) (q : WqSt) (t : Nat) : List Nat :=
  wordsOf 8 (s.hostBytes (key / 256) (q.slotAddr t) 64)

/-- A reserved field of an entry is not 0 (R500). -/
def entryBad (w : List Nat) : Bool :=
  decide (2 ^ 46 ≤ w.getD 0 0) || w.getD 0 0 % 8 != 0 || w.getD 1 0 % 2 ^ 62 != 0 || w.getD 4 0 != 0 || w.getD 5 0 != 0
    || w.getD 6 0 != 0 || bits (w.getD 7 0) 62 48 != 0 || bits (w.getD 7 0) 27 24 != 0 || bits (w.getD 7 0) 7 0 != 0

/-- Take the next entry of a context and start it on every rank (R515, R516); an entry that cannot be fetched or that is
malformed completes at once (R500, R501). -/
def itemStart (x : Nat) : Eff := .get fun s =>
  if !s.mayStart x || (s.ctxAt x).item.isSome then .skip
  else Eff.opt (s.nextQueue x) fun p =>
    let key := p.1
    let q := p.2
    let t := q.started
    let w := s.entryWords key q t
    let event := bit (w.getD 1 0) 63
    let addEn := bit (w.getD 1 0) 62
    Eff.all [
      setWq key (fun q => { q with started := (q.started + 1) % 2 ^ 32 }),
      setCtx x (fun c => { c with nextSlot := key + 1 }),
      hostCharge (s.ctxAt x).flask 64 false,
      if !s.misc.linkUp then .seq (completeEntry key t stTargetLost 0 0 0 false false 0) (hostRing (key / 256) 2 q.num)
      else if entryBad w then completeEntry key t stBadLength 0 0 0 event addEn (w.getD 2 0)
      else .seq
        (setCtx x fun c => { c with
          item := some { queue := key, idx := t, list := w.getD 0 0, event := event, addEn := addEn, doneAddr := w.getD 2 0 } })
        (.get fun s =>
          let c := s.ctxAt x
          let r := c.count * s.perCluster
          Eff.each (s.sitesOf c) fun k => Eff.all [coolCore k.2, restoreRank x k.1 k.2,
            startRank k.2 (w.getD 0 0 + (c.range * r + k.1) * 0x1000)])]

/-- WORK_ITEM_START (R516). -/
def execWorkItemStart (x : CtxIx) (s : State) : Out := finish (itemStart x) s

/-! ## Ending (R517, R518) -/

/-- The steps of an item's sequences end (R524). -/
def endSteps (i : Item) : Eff := Eff.each i.seqs stepEnd

/-- The item of a context is over. -/
def clearItem (x : Nat) : Eff := .seq (setCtx x fun c => { c with item := none, moved := true }) (beginWait x)

/-- FX flags of the ranks since go. -/
def State.ranksFx (s : State) (x : CtxSt) : Nat := (s.sitesOf x).foldl (fun f k => fxOr f (s.reg .SEQ_STATUS_fx k.2)) 0

/-- Every rank has reached IDLE: the item completes (R517), its state is saved where R510 requires it. -/
def itemComplete (x : Nat) : Eff := .get fun s =>
  let c := s.ctxAt x
  match c.item with
  | none => .skip
  | some i =>
    if i.saved.isSome || i.lost || !((s.sitesOf c).all fun k => s.coreLive k.2 && s.seqState k.2 == 0) then .skip
    else Eff.all [
      Eff.when (!s.exclusive x) (Eff.each (s.sitesOf c) fun k => saveImage x k.1 (s.imageOf k.2)),
      completeEntry i.queue i.idx i.status (fxOr i.fx (s.ranksFx c)) 0 0 i.event i.addEn i.doneAddr,
      clearItem x, endSteps i]

/-- WORK_ITEM_COMPLETE (R517). -/
def execWorkItemComplete (x : CtxIx) (s : State) : Out := finish (Eff.when s.schLive (itemComplete x)) s

/-- End an item with a stopping fault (R518): the other ranks are stopped, every rank's core is reset, saved images become
the reset state, the entry completes. -/
def failItem (x status cause sub : Nat) : Eff := .get fun s =>
  let c := s.ctxAt x
  let sites := (s.sitesOf c).filter (fun k => s.coreLive k.2)
  Eff.opt c.item fun i => Eff.all [
    Eff.when i.saved.isNone (.seq
      (Eff.each sites fun k => .get fun s => Eff.when (s.seqState k.2 != 0 && s.seqState k.2 != 7) (seqCtlStopEff k.2))
      (Eff.each sites fun k => .seq (resetCore k.2) (setCore k.2 fun c => { c with attFault := 0 }))),
    Eff.each (List.range (c.count * s.perCluster)) (fun k => saveImage x k []),
    completeEntry i.queue i.idx status i.fx cause sub i.event i.addEn i.doneAddr,
    clearItem x, endSteps i]

/-- Status of a rank that stopped with a cause (R518). -/
def State.causeStatus (s : State) (n : Nat) : Nat :=
  match s.reg .SEQ_STATUS_cause n with
  | 1 => stBadLength
  | 2 => stNotLicensed
  | 3 => if (s.coreAt n).fetchUe then stUncorrectable else stDenied
  | 4 => stUncorrectable
  | _ => if (s.coreAt n).loadUe then stUncorrectable else stTargetLost

/-- The fault that a rank, or the context, is found in (R518): its status, cause and subcode; none where there is none. -/
def State.faultOf (s : State) (x n : Nat) (why : StopWhy) : Option (Nat × Nat × Nat) :=
  let c := s.ctxAt x
  let k := s.coreAt n
  match why with
  | .seqError => if s.seqState n = 7 then some (s.causeStatus n, s.reg .SEQ_STATUS_cause n, s.reg .SEQ_STATUS_sub n) else none
  | .loadUncorrectable => if k.loadUe then some (stUncorrectable, 5, 0) else none
  | .stallLimit => if k.limit then some (stTargetLost, 5, 0) else none
  | .clusterReset => if c.item.any (·.lost) then some (stTargetLost, 5, 0) else none
  | .attend _ => if k.attFault ≠ 0 then some (k.attFault, 5, 0) else none
  | .destroyed _ => if c.dying then some (stDenied, 5, 0) else none

/-- STOPPING_FAULT (R518): a rank of the context's item is in the fault named. -/
def stoppingFaultEff (x : CtxIx) (n : SiteIx) (why : StopWhy) (s : State) : Eff :=
  Eff.opt (s.faultOf x n why) fun f => failItem x f.1 f.2.1 f.2.2

/-- STOPPING_FAULT (R518): a rank of the context's item is in the fault named. -/
def execStoppingFault (x : CtxIx) (n : SiteIx) (why : StopWhy) (s : State) : Out :=
  finish (Eff.when (s.schLive && (s.ctxAt x).item.isSome && ((s.sitesOf (s.ctxAt x)).any (fun k => k.2 == n.val) || why == .clusterReset)) (stoppingFaultEff x n why s)) s

/-- A Q_SNAP word as it is read (R171). -/
def State.snapWord (s : State) (i : Nat) : Nat :=
  s.reg .Q_SNAP_cons i * 2 ^ 56 + s.reg .Q_SNAP_prod i * 2 ^ 52 + s.reg .Q_SNAP_stall_pop i * 2 ^ 49
    + s.reg .Q_SNAP_stall_push i * 2 ^ 48 + s.reg .Q_SNAP_open_fill i * 2 ^ 40 + s.reg .Q_SNAP_head_used i * 2 ^ 33
    + s.reg .Q_SNAP_count i * 2 ^ 22 + s.reg .Q_SNAP_tail i * 2 ^ 11 + s.reg .Q_SNAP_head i

/-- STALL_LIMIT (R519): the eighth QUEUE_STALL with no pour completed. The record holds the capture. -/
def stallLimitEff (n : SiteIx) (s : State) : Eff :=
  Eff.all [report 0x13 0 n 0 0 ((s.coreFlask n).getD 31)
        (s.reg .Q_SNAPPC_addr n * 8 :: (List.range 16).map (fun q => s.snapWord (n * 16 + q))) (n / 96),
      setReg .Q_WDOG_snap_valid n 0, setCore n fun c => { c with stalls := 0, limit := true }]

/-- STALL_LIMIT (R519): the eighth QUEUE_STALL with no pour completed. The record holds the capture. -/
def execStallLimit (n : SiteIx) (s : State) : Out :=
  finish (Eff.when (s.coreLive n && s.cccLive (n / 12) && decide (8 ≤ (s.coreAt n).stalls)
      && (s.coreAt n).stallDone == s.reg .SEQ_DONE_count n) (stallLimitEff n s)) s

/-! ## Pre-emption (R520-R524) -/

/-- Remote ADDs of a rank's core are all acknowledged (R520 step 3). -/
def State.addsDone (s : State) (n : Nat) : Bool :=
  !(s.hwAdds.any (fun h => h.src == coreIss n)) && !(s.fabOp.any (fun o => o.2.hw.any (fun h => h.src == coreIss n)))

/-- A ready context of higher priority needs a cluster of the item's range (R520). -/
def State.outranked (s : State) (x : Nat) : Bool :=
  s.ctx.any (fun p => p.1 != x && s.ctxReady p.1 && decide ((s.ctxAt x).prio < p.2.prio)
    && overlaps (s.rangeOf p.2) (s.rangeOf (s.ctxAt x)))

/-- Every rank is PAUSED or IDLE and its remote ADDs are acknowledged: the images are saved and the cores reset (R520 steps
3-5); the steps of an item paused under R523 end (R524). -/
def preemptEnd (x : Nat) : Eff := .get fun s =>
  let c := s.ctxAt x
  let ks := s.sitesOf c
  Eff.opt c.item fun i =>
    if i.pausing && ks.all (fun k => s.seqState k.2 == 6 || s.seqState k.2 == 0) && ks.all (fun k => s.addsDone k.2) then
      let paused := (ks.filter (fun k => s.seqState k.2 == 6)).map (fun k => (k.1, s.reg .SEQ_PC_addr k.2))
      Eff.all [
        Eff.each ks (fun k => .seq (saveImage x k.1 (s.imageOf k.2)) (resetCore k.2)),
        setCtx x (fun c => { c with
          item := c.item.map (fun i => { i with pausing := false, saved := some paused, fx := fxOr i.fx (s.ranksFx c) }) }),
        beginWait x, Eff.when (s.itemHeld i) (endSteps i)]
    else .skip

/-- PREEMPTION (R520, R523): the pause is written to every rank; once every rank has answered, the item is saved. -/
def preemptionEff (x : CtxIx) (s : State) : Eff :=
  Eff.opt (if s.schLive then (s.ctxAt x).item else none) fun i =>
    if i.saved.isSome || i.lost then .skip
    else .seq (Eff.when (!i.pausing && !i.noPause && (s.outranked x || s.itemHeld i))
        (.seq (Eff.each (s.sitesOf (s.ctxAt x)) fun k => seqPause k.2)
          (setCtx x fun c => { c with item := c.item.map (fun i => { i with pausing := true }) })))
      (preemptEnd x)

/-- PREEMPTION (R520, R523): the pause is written to every rank; once every rank has answered, the item is saved. -/
def execPreemption (x : CtxIx) (s : State) : Out :=
  finish (preemptionEff x s) s

/-- PREEMPTION_ABANDON (R521): a rank has not paused in time; the ranks go on, and no other pause is asked for. -/
def preemptionAbandonEff (x : CtxIx) (s : State) : Eff :=
  let ks := s.sitesOf (s.ctxAt x)
  Eff.opt (if s.schLive then (s.ctxAt x).item else none) fun i =>
    Eff.when (i.pausing && !ks.all (fun k => s.seqState k.2 == 6 || s.seqState k.2 == 0)) (.seq
      (Eff.each ks fun k => if s.seqState k.2 = 6 then seqGo k.2 else setCore k.2 fun c => { c with pauseReq := false })
      (setCtx x fun c => { c with item := c.item.map (fun i => { i with pausing := false, noPause := true }) }))

/-- PREEMPTION_ABANDON (R521). -/
def execPreemptionAbandon (x : CtxIx) (s : State) : Out := finish (preemptionAbandonEff x s) s

/-- ITEM_RESUME (R520): images restored on the same cores; each rank that was paused goes on at its SEQ_PC. -/
def itemResumeEff (x : CtxIx) (s : State) : Eff :=
  let c := s.ctxAt x
  Eff.opt (if s.mayStart x then c.item.bind (·.saved) else none) fun paused => .seq
    (Eff.each (s.sitesOf c) fun k => Eff.all [coolCore k.2, loadImage k.2 (s.savedImage x k.1),
      Eff.when (s.exclusive x) (saveImage x k.1 []),
      Eff.opt (paused.find? (fun p => p.1 == k.1)) fun p => startRank k.2 (p.2 * 8)])
    (setCtx x fun c => { c with item := c.item.map (fun i => { i with saved := none }) })

/-- ITEM_RESUME (R520). -/
def execItemResume (x : CtxIx) (s : State) : Out := finish (itemResumeEff x s) s

/-- Members of a rotation set (R525). -/
def State.rotSet (s : State) (r : Nat) : List (Nat × CtxSt) := s.ctx.filter (fun p => p.2.on && p.2.rot == some r)

/-- BATCH_BOUNDARY (R526): every member has completed an item since the last move and none runs. -/
def batchBoundaryEff (x : CtxIx) (s : State) : Eff :=
  Eff.opt (if s.schLive then (s.ctxAt x).rot else none) fun r =>
    let ms := s.rotSet r
    Eff.when (ms.all (fun p => p.2.moved && p.2.item.isNone))
      (Eff.each ms fun p => setCtx p.1 fun c => { c with range := (c.range + 1) % ms.length, moved := false })

/-- BATCH_BOUNDARY (R526): every member has completed an item since the last move and none runs. -/
def execBatchBoundary (x : CtxIx) (s : State) : Out :=
  finish (batchBoundaryEff x s) s

/-! ## Destroying (R513, R514, R371) -/

/-- Accepted entries of a queue that have not started are written with done = 1 and DENIED; nothing is raised (R514). -/
def denyEntries (key : Nat) : Eff := .get fun s =>
  let q := s.wqAt key
  .seq (Eff.each (List.range (min (wrap 32 ((q.tail : Int) - q.started)) (2 ^ q.log2))) fun k =>
      writeWord7 key q (q.started + k) (word7 stDenied 0 0 0))
    (setWq key fun q => { q with dying := true, tail := q.started })

/-- The queue's last started entry has completed: the slot is free again (R514). -/
def State.queueDone (s : State) (key : Nat) : Bool := (s.wqAt key).started == (s.wqAt key).completed

/-- Take a context apart (R513): queues, images, rotation set, sequences. -/
def freeCtx (x : Nat) : Eff := .get fun s => Eff.all [
  Eff.each (s.queuesOf x) (fun q => .upd (.wq q.1 {})),
  .upd (.clearImages (fun k => k / 1056 == x)),
  Eff.each (s.seq.filter (fun q => q.2.ctx == some x)) (fun q => setSeq q.1 fun y => { y with ctx := none }),
  .upd (.ctx x {})]

/-- Begin CTX_DESTROY (R513): the running item is told to stop, queues take nothing more. -/
def destroyCtx (x : Nat) : Eff := .get fun s => Eff.all [
  setCtx x (fun c => { c with dying := true }),
  Eff.each (s.queuesOf x) (fun q => denyEntries q.1),
  Eff.when (s.ctxAt x).running (Eff.each (s.sitesOf (s.ctxAt x)) fun k => .get fun s =>
    Eff.when (s.coreLive k.2 && s.seqState k.2 != 7) (seqCtlStopEff k.2))]

/-- Reset a flask (R371, R413, R513): its ladle channels are aborted, its items end TARGET_LOST, its contexts and queues
are destroyed, its clusters are reset and come back. -/
def flaskReset (fl : Nat) : Eff := .get fun s =>
  let xs := s.ctx.filter (fun p => p.2.on && p.2.flask == fl)
  let cs := (List.range 96).filter (fun c => s.flaskOf c == some fl)
  Eff.all [
    Eff.each (List.range 8) (fun e => ladleAbortFlask (96 + e) fl),
    Eff.each (cs.filter (fun c => !s.clusterHeld c)) (fun c => resetCluster c false),
    Eff.each xs (fun p => Eff.all [
      Eff.each (s.queuesOf p.1) (fun q => denyEntries q.1),
      failItem p.1 stTargetLost 5 0, freeCtx p.1]),
    Eff.each (cs.filter (fun c => !s.clusterHeld c)) clusterReturn]

end Sys2Proof.Machine
end

