-- ==== Sys2Proof/Machine/Mailbox.lean ====
section
/-! DEFINITION. The mailbox (20_mailbox_protocol.md): posting, the checks, responses, deferred requests, and the requests on
flasks, contexts, queues and memory. -/
namespace Sys2Proof.Machine

/-! ## The catalogue (R494, R495, R497) -/

/-- A row of the catalogue: body bytes of minor 0, who may send it (1 PF, 2 VF, 3 both), whether major 2 has it, whether it
acts on a flask, and the reserved gaps of its body. -/
structure OpRow where
  len : Nat
  who : Nat := 3
  v2 : Bool := true
  flask : Bool := true
  gaps : List (Nat × Nat) := []
  deriving DecidableEq, Repr

/-- The catalogue by opcode (R497). -/
def opRow (op : Nat) : Option OpRow :=
  match op with
  | 0x0001 => some { len := 16, flask := false, gaps := [(3, 5)] }
  | 0x0002 => some { len := 0, flask := false }
  | 0x0003 => some { len := 64, flask := false }
  | 0x0004 => some { len := 12, who := 1, flask := false }
  | 0x0005 => some { len := 1, who := 1, flask := false }
  | 0x0101 => some { len := 36, who := 1, gaps := [(1, 7), (20, 4)] }
  | 0x0102 => some { len := 0 }
  | 0x0103 => some { len := 32, who := 1, v2 := false }
  | 0x0110 => some { len := 4, gaps := [(1, 1)] }
  | 0x0111 => some { len := 0 }
  | 0x0112 => some { len := 9 }
  | 0x0113 => some { len := 2 }
  | 0x0201 => some { len := 8, gaps := [(4, 4)] }
  | 0x0202 => some { len := 8, who := 1, flask := false, gaps := [(4, 4)] }
  | 0x0203 => some { len := 8, who := 1, v2 := false, flask := false, gaps := [(1, 3)] }
  | 0x0204 => some { len := 8, who := 1, v2 := false, flask := false, gaps := [(1, 3)] }
  | 0x0205 => some { len := 26, who := 2, v2 := false, gaps := [(1, 7)] }
  | 0x0206 => some { len := 12, who := 1, v2 := false, flask := false }
  | 0x0210 => some { len := 8 }
  | 0x0301 => some { len := 64, v2 := false, gaps := [(45, 3)] }
  | 0x0302 => some { len := 0, v2 := false }
  | 0x0310 => some { len := 48, v2 := false, gaps := [(9, 1)] }
  | 0x0311 => some { len := 8, v2 := false, gaps := [(2, 2)] }
  | 0x0312 => some { len := 2, v2 := false }
  | 0x0313 => some { len := 2, v2 := false }
  | 0x0314 => some { len := 2, v2 := false }
  | 0x0315 => some { len := 2, v2 := false }
  | 0x0401 => some { len := 77, who := 1, flask := false, gaps := [(6, 2), (36, 4)] }
  | 0x0402 => some { len := 1, who := 1, flask := false }
  | 0x0403 => some { len := 4, who := 1, v2 := false, flask := false }
  | 0x0410 => some { len := 32, gaps := [(6, 2), (29, 3)] }
  | 0x0411 => some { len := 0 }
  | 0x0412 => some { len := 13 }
  | 0x0413 => some { len := 16 }
  | 0x0501 => some { len := 16, who := 1, flask := false, gaps := [(1, 7)] }
  | 0x0502 => some { len := 4, who := 1, v2 := false, flask := false }
  | 0x0601 => some { len := 20, who := 1, v2 := false, flask := false, gaps := [(2, 2)] }
  | 0x0602 => some { len := 1, who := 1, v2 := false, flask := false }
  | 0x0610 => some { len := 4, who := 1, v2 := false, flask := false }
  | 0x0611 => some { len := 16, who := 1, v2 := false, flask := false }
  | 0x0612 => some { len := 512, who := 1, v2 := false, flask := false }
  | 0x0613 => some { len := 12, who := 1, v2 := false, flask := false }
  | _ => none

/-- Body bytes of a request, with its list (R497). -/
def bodyLen (op : Nat) (body : List Byte) (o : OpRow) : Nat :=
  if op = 0x0201 ∨ op = 0x0202 then 8 + 4 * field body 0 4
  else if op = 0x0410 then 32 + 24 * field body 28 1
  else o.len

/-- The firmware's minor of major 3: the layouts the spec gives are those of minor 0 (R493; log entry 33). -/
def fwMinor : Nat := 0

/-! ## Responses (R482-R485, R491) -/

/-- One byte. -/
def byte (v : Nat) : List Byte := leBytes v 1

/-- Bytes cut or padded with zeros to a length. -/
def fit (n : Nat) (d : List Byte) : List Byte := (d ++ List.replicate (n - d.length) 0).take n

/-- Bytes padded to a multiple of 8. -/
def padTo8 (d : List Byte) : List Byte := d ++ List.replicate ((8 - d.length % 8) % 8) 0

/-- The 32 header bytes with the crc field 0 (R483). -/
def headerBytes (major minor op len flags tag ctx status : Nat) : List Byte :=
  byte major ++ byte minor ++ leBytes op 2 ++ leBytes len 2 ++ leBytes flags 2 ++ leBytes tag 2 ++ leBytes 0 2
    ++ leBytes ctx 4 ++ leBytes status 2 ++ List.replicate 10 0 ++ leBytes 0 4

/-- A whole message with its crc (R485). -/
def sealed (hdr body : List Byte) : List Byte := putAt (hdr ++ body) 28 (leBytes (crc32c (hdr ++ body)) 4)

/-- Write a response, set DONE and raise MAILBOX_DONE (R482, R483): `deferred` sets the DEFERRED bit. -/
def respondWith (f : Nat) (status : Nat) (body : List Byte) (deferred : Bool) : Eff := .get fun s =>
  let x := s.fnAt f
  Eff.opt x.run fun r =>
    let b := if status = 0 then padTo8 body else []
    let bad := status == stBadVersion
    let hdr := headerBytes (if bad then 3 else x.major) (if bad then fwMinor else x.minor.getD fwMinor) r.op b.length
      (if deferred then 256 else 0) r.tag r.ctx status
    Eff.all [.upd (.mbox (f * 4096 + 0x800) (sealed hdr b)), setReg .MB_STATE_state f 2,
      setFn f (fun x => { x with run := none, last := some (r.tag, r.op, r.crc) }),
      Eff.when (!r.noEvent) (hostRing f 0 0)]

/-- Answer a request. -/
def respond' (f status : Nat) (body : List Byte) : Eff := respondWith f status body false

/-- Answer with a status and no body. -/
def answer (f status : Nat) : Eff := respond' f status []

/-! ## Posting (R482, R486, R491) -/

/-- Firmware runs: past the phase that loads the images (R547). -/
def State.fwUp (s : State) : Bool :=
  decide (3 ≤ s.misc.phase) && s.misc.phase != 0x11 && s.misc.phase != 0x12

/-- A reserved header field is not 0 (R483, R486). -/
def headerBad (d : List Byte) : Bool :=
  field d 4 2 % 8 != 0 || decide (2016 < field d 4 2) || decide (3 < field d 6 2) || field d 10 2 != 0
    || bits (field d 12 4) 27 16 != 0 || field d 16 2 != 0 || field d 18 10 != 0

/-- The crc of a message over its header with the flags given, and its body (R485, R491). -/
def messageCrc (d : List Byte) (flags : Nat) : Nat :=
  crc32c (putAt (putAt (d.take 32) 28 (leBytes 0 4)) 6 (leBytes flags 2) ++ (d.drop 32).take (min (field d 4 2) 2016))

/-- The request in a function's buffer (R483); a VF acts on its bound flask (R496). -/
def requestOf (f : Nat) (d : List Byte) : Req :=
  { op := field d 2 2, noEvent := bit (field d 6 2) 0, tag := field d 8 2
    flask := if f = 0 then bits (field d 12 4) 31 28 else f - 1
    hdrFlask := bits (field d 12 4) 31 28, ctx := field d 12 2, body := (d.drop 32).take (min (field d 4 2) 2016)
    crc := messageCrc d (field d 6 2 / 4 * 4 + field d 6 2 % 2) }

/-- The function may send the request, and the flask and context it names are its own (R486 step 6, R495, R496, R385). -/
def State.permitted (s : State) (f : Nat) (r : Req) (o : OpRow) : Bool :=
  bit o.who (if f = 0 then 0 else 1)
  && (f == 0 || r.op == 1 || r.op == 2 || (s.misc.vfOn && s.flaskExists (f - 1)))
  && (f != 0 || !o.flask || s.flaskExists r.flask || (r.op == 0x0101 && field r.body 0 1 == 0))
  && (r.ctx == 0xFFFF || (decide (r.ctx < 256) && (s.ctxAt r.ctx).on && (s.ctxAt r.ctx).flask == r.flask))

/-- Requests the SEC holds for signing (R616). -/
def State.signing (s : State) : Nat := (s.fn.filter (fun p => p.2.run.any (fun r => r.op == 3))).length

/-- Check a posted request in the order of R486 and answer a failure; one that passes is left for firmware to carry out.
A RETRY that matches the last request gets the response it had (R491). -/
def checkPost (f : Nat) : Eff := .get fun s =>
  let d := s.mboxBytes f 0 2048
  let x := s.fnAt f
  let r := requestOf f d
  .seq (setFn f fun x => { x with run := some r }) (
    if headerBad d then answer f stBadLength
    else if messageCrc d (field d 6 2) ≠ field d 28 4 then answer f stBadCrc
    else if bit (field d 6 2) 1 && x.last == some (r.tag, r.op, r.crc) then Eff.all [
      setFn f (fun x => { x with run := none }), setReg .MB_STATE_state f 2, Eff.when (!r.noEvent) (hostRing f 0 0)]
    else if field d 0 1 ≠ x.major ∧ r.op ≠ 1 then answer f stBadVersion
    else match opRow r.op with
      | none => answer f stUnknownOp
      | some o =>
        if x.major = 2 ∧ o.v2 = false then answer f stUnknownOp
        else if r.body.length < o.len ∨ r.body.length < bodyLen r.op r.body o then answer f stBadLength
        else if !s.permitted f r o then answer f stDenied
        else if r.op = 3 ∧ 16 ≤ s.signing then answer f stBusy
        else .skip)

/-- Check the posts that came before firmware ran (R547). -/
def checkWaiting : Eff := Eff.each (List.range 17) fun f => .get fun s =>
  Eff.when (s.reg .MB_STATE_state f == 1 && (s.fnAt f).run.isNone) (checkPost f)

/-- A host post (R481, R482): the buffer is written, then the doorbell. While BUSY both are dropped. -/
def mbPost (f : Nat) (buf : List Byte) : Eff := .get fun s =>
  if !s.misc.linkUp || !s.fnOn f || s.misc.phase == 0 then .skip
  else if s.reg .MB_STATE_state f = 1 then
    .seq (Eff.when (!buf.isEmpty) (setReg .MB_STATE_wr_busy f 1)) (setReg .MB_STATE_ring_busy f 1)
  else Eff.all [.upd (.mbox (f * 4096) (buf.take 2048)), setReg .MB_STATE_state f 1,
    .get fun s => setReg .MB_STATE_tag f (field (s.mboxBytes f 8 2) 0 2),
    doorbell 96 (0x80 + f), Eff.when s.fwUp (checkPost f)]

/-- MB_DOORBELL_POST (R482). -/
def execMbDoorbellPost (f : FnIx) (buf : List Byte) (s : State) : Out := finish (mbPost f buf) s

/-! ## Carrying out -/

/-- A reconfiguration or reset of the flask is in progress (R488, R506). -/
def State.flaskBusy (s : State) (fl : Nat) : Bool := s.fn.any fun p => p.2.deferred.any fun d =>
  match d.work with
  | .flaskSet g _ _ => g == fl
  | .flaskRemove g _ _ => g == fl
  | .flaskReset g => g == fl
  | _ => false

/-- A FLASK_CONFIG is in progress on the module (R504). -/
def State.configBusy (s : State) : Bool := s.fn.any fun p => p.2.deferred.any fun d =>
  match d.work with
  | .flaskSet _ _ _ => true
  | .flaskRemove _ _ _ => true
  | _ => false

/-- A reserved gap of the body is not 0, or the list's count is out of range (R497). -/
def bodyBad (r : Req) (o : OpRow) : Bool :=
  o.gaps.any (fun g => field r.body g.1 g.2 != 0)
    || ((r.op == 0x0201 || r.op == 0x0202) && (decide (field r.body 0 4 = 0) || decide (502 < field r.body 0 4)))

/-- Carry out a function's posted request of an opcode (R486, R488, R497, R547, R467): nothing where it has posted
another. A request that needs a core in restart waits (R465, R489). -/
def withReq (f op : Nat) (k : Req → Eff) : Eff := .get fun s =>
  match (s.fnAt f).run with
  | none => .skip
  | some r =>
    match opRow op with
    | none => .skip
    | some o =>
      if r.op ≠ op ∨ 2 ∈ s.fw.restarting then .skip
      else if s.misc.phase = 0x30 ∧ op ≠ 1 ∧ op ≠ 2 ∧ ¬(f = 0 ∧ op = 0x0601) then answer f stDenied
      else if s.misc.phase ≠ 0x20 ∧ s.misc.phase ≠ 0x30 ∧ op ≠ 1 ∧ op ≠ 2 then answer f stBusy
      else if o.flask && s.flaskBusy r.flask && op ≠ 0x0101 then answer f stBusy
      else if r.ctx ≠ 0xFFFF ∧ (s.ctxAt r.ctx).dying then answer f stBusy
      else if bodyBad r o then answer f stBadLength
      else k r

/-- Accept a deferred request (R488, R490): the 17th is refused BUSY and begins nothing. -/
def deferReq (f : Nat) (r : Req) (begin' : Eff) (w : Work) (body : List Byte := []) : Eff := .get fun s =>
  if 16 ≤ (s.fnAt f).deferred.length then answer f stBusy
  else Eff.all [begin', setFn f (fun x => { x with deferred := x.deferred ++ [{ op := r.op, tag := r.tag, work := w }] }),
    respondWith f 0 body true]

/-- Read host memory for a request; a down link ends it with TARGET_LOST (R393). -/
def hostIn (f addr len : Nat) (k : List Byte → Eff) : Eff := .get fun s =>
  if s.misc.linkUp then k (s.hostBytes f addr len) else answer f stTargetLost

/-- Write host memory for a request. -/
def hostOut (f addr : Nat) (d : List Byte) (k : Eff) : Eff := .get fun s =>
  if s.misc.linkUp then .seq (.upd (.hbytes (f * 2 ^ 64 + addr) d)) k else answer f stTargetLost

/-- u32 elements of bytes. -/
def u32s (d : List Byte) (n : Nat) : List Nat := (List.range n).map (fun k => field d (4 * k) 4)

/-! ## HELLO (R492) -/

/-- The version HELLO chooses: major and minor (R492). -/
def helloChoice (lo hi minor : Nat) : Option (Nat × Nat) :=
  if lo ≤ 3 ∧ 3 ≤ hi then some (3, if hi = 3 then min minor fwMinor else fwMinor)
  else if lo ≤ 2 ∧ 2 ≤ hi then some (2, 0)
  else none

/-- HELLO (R492). -/
def hello (f : Nat) (r : Req) : Eff := .get fun s =>
  if !(s.fnAt f).deferred.isEmpty then answer f stBusy
  else match helloChoice (field r.body 0 1) (field r.body 1 1) (field r.body 2 1) with
    | none => answer f stBadVersion
    | some v => .seq (setFn f fun x => { x with major := v.1, minor := some v.2 })
        (respond' f 0 (byte v.1 ++ byte v.2 ++ leBytes f 2 ++ leBytes 2016 4 ++ leBytes 1760 4 ++ leBytes 0 4))

/-- HELLO (R492). -/
def execHello (f : FnIx) (s : State) : Out := finish (withReq f 1 (hello f)) s

/-! ## Flasks (R503-R507, R527) -/

/-- The licence for several flasks is in force (R8, R499). -/
def State.multiFlask (s : State) : Bool := bit s.misc.licence 2

/-- Ownership regions that firmware keeps: the log ring's and the save pool's four (R555). -/
def State.reserved (s : State) (r : Nat) : Bool :=
  r == s.misc.logBase / 2 ^ 26 || (decide (s.misc.poolBase / 2 ^ 26 ≤ r) && decide (r < s.misc.poolBase / 2 ^ 26 + 4))

/-- The region lies in stacked memory or in the mapped far tier (R37, R504). -/
def State.regionExists (s : State) (r : Nat) : Bool :=
  decide (r < 18432) || (s.farLicensed && decide ((r - 18432) * 2 ^ 26 < s.farSize))

/-- The stacked region lies in a withheld slice (R550). -/
def State.regionWithheld (s : State) (r : Nat) : Bool := decide (r < 18432) && (s.sliceAt (r / 16)).withheld

/-- First local address of a region (R37). -/
def regionAddr (r : Nat) : Nat := if r < 18432 then r * 2 ^ 26 else farBase + (r - 18432) * 2 ^ 26

/-- A byte range touches a region. -/
def touches (r a len : Nat) : Bool := decide (a < regionAddr r + 2 ^ 26) && decide (regionAddr r < a + len)

/-- The flask's KV_CONFIG names the region, or a page table or sequence descriptor of the flask lies in it (R504). -/
def State.regionUsed (s : State) (fl r : Nat) : Bool :=
  let cfg := s.kvAt fl
  (decide (r < 18432) && bit (s.sliceAt (r / 16)).kvRegions (r % 16))
    || (cfg.set && (touches r cfg.mergeBase (cfg.mergeFrames * 32768)
      || (cfg.swapArea == 1 && touches r cfg.swapBase (cfg.swapSlots * 32768))))
    || s.seq.any (fun q => q.2.state != 0 && q.2.flask == fl
      && (touches r q.2.descAddr 64 || touches r q.2.ptBase (8 * q.2.streams * q.2.maxPages)))

/-- Regions a flask owns. -/
def State.regionsOf (s : State) (fl : Nat) : List Nat := (s.owner.filter (fun p => p.2 == some fl)).map (·.1)

/-- The status FLASK_CONFIG is refused with, the first in the order of R504. -/
def State.flaskRefusal (s : State) (fl op : Nat) (cs rs : List Nat) (count : Nat) : Nat :=
  if 1 < op ∨ 83968 < count ∨ (cs.isEmpty ∧ rs.isEmpty) ∨ !(rs.all s.regionExists) then stBadLength
  else if !s.multiFlask ∧ (cs ≠ [] ∨ fl ≠ 0) then stNotLicensed
  else if s.configBusy ∨ s.flaskBusy fl then stBusy
  else if op = 0 then
    if cs.any (fun c => s.flaskOf c != none && s.flaskOf c != some fl) || rs.any (fun r => (s.ownerAt r != none && s.ownerAt r != some fl)
        || s.regionWithheld r || s.reserved r) then stDenied else 0
  else if cs.any (fun c => s.flaskOf c != some fl || s.ctx.any (fun p => p.2.on && p.2.flask == fl && (s.rangeOf p.2).contains c))
      || rs.any (fun r => s.ownerAt r != some fl || s.regionUsed fl r) then stDenied
  else 0

/-- FLASK_CONFIG (R503-R506): `op` is the row's. -/
def flaskConfig (f op : Nat) (r : Req) : Eff :=
  if field r.body 0 1 ≠ op ∧ ¬(1 < field r.body 0 1 ∧ op = 0) then .skip
  else
    let cs := (List.range 96).filter (fun c => bit (field r.body 8 12) c)
    let n := field r.body 32 4
    hostIn f (field r.body 24 8) (4 * min n 83968) fun d => .get fun s =>
      let rs := nub (u32s d (min n 83968))
      let st := s.flaskRefusal r.flask (field r.body 0 1) cs rs n
      if st ≠ 0 then answer f st
      else
        let owned := s.regionsOf r.flask
        let after := if op = 0 then owned.length + (rs.filter (fun x => s.ownerAt x == none)).length else owned.length - rs.length
        deferReq f r .skip (if op = 0 then .flaskSet r.flask cs rs else .flaskRemove r.flask cs rs) (leBytes after 4)

/-- FLASK_CONFIG op 0 (R503, R505). -/
def execFlaskConfigSet (f : FnIx) (s : State) : Out := finish (withReq f 0x0101 (flaskConfig f 0)) s
/-- FLASK_CONFIG op 1 (R503, R505). -/
def execFlaskConfigRemove (f : FnIx) (s : State) : Out := finish (withReq f 0x0101 (flaskConfig f 1)) s

/-- A grant ends (R236): the region is zeroed and counts as initialised. -/
def endGrant (sl : Nat) : Eff := .get fun s => Eff.when (s.flag .ECC_TWG_grant sl)
  (.seq (zeroRegion sl (s.reg .ECC_TWG_region sl)) (setReg .ECC_TWG_grant sl 0))

/-- End every grant of a flask. -/
def endGrants (fl : Nat) : Eff := .get fun s => Eff.each (List.range 1152) fun sl =>
  Eff.when (s.flag .ECC_TWG_grant sl && s.reg .ECC_TWG_flask sl == fl) (endGrant sl)

/-- Zero a region before it changes owner (R41, R397, R505). -/
def zeroOwned (r : Nat) : Eff :=
  if r < 18432 then zeroRegion (r / 16) (r % 16) else zeroRange (regionAddr r) (2 ^ 26)

/-- The cluster's spare after a reconfiguration (R507): a spare that took a rank is replaced by the lowest reserve. -/
def respare (c : Nat) : Eff := setCluster c fun x =>
  if x.spareUsed then
    { x with spare := x.reserve.head?, reserve := x.reserve.drop 1, spareUsed := false }
  else x

/-- A flask is created: its four regulators are disabled and it has no KV configuration (R503, R527). -/
def newFlask (fl : Nat) : Eff := Eff.all [.upd (.flaskSt fl {}), .upd (.kv fl {}), setReg .REG_FAR_en fl 0, setReg .REG_HOST_en fl 0,
  Eff.each (List.range 12) fun st => .seq (setReg .REG_D2D_en (st * 16 + fl) 0) (setReg .REG_FAB_en (st * 16 + fl) 0)]

/-- Carry out a SET (R505 steps 3 and 4). -/
def doFlaskSet (fl : Nat) (cs rs : List Nat) : Eff := Eff.all [
  endGrants fl,
  .get fun s => Eff.when (!s.flaskExists fl) (newFlask fl),
  Eff.each rs (fun r => .get fun s => Eff.when (s.ownerAt r != some fl)
    (.seq (Eff.when (decide (18432 ≤ r)) (zeroOwned r)) (.upd (.owner r (some fl))))),
  Eff.each cs fun c => .get fun s => Eff.all [
    Eff.when (s.flaskOf c != some fl && !(s.clusterAt c).zeroed) (zeroCluster c),
    setCluster c (fun x => { x with flask := some fl }), respare c]]

/-- Carry out a REMOVE (R505 steps 1 and 2). -/
def doFlaskRemove (fl : Nat) (cs rs : List Nat) : Eff := Eff.all [
  endGrants fl,
  Eff.each cs (fun c => Eff.all [resetCluster c false, setCluster c (fun x => { x with flask := none }), clusterReturn c, respare c]),
  Eff.each rs fun r => .seq (zeroOwned r) (.upd (.owner r none))]

/-- FLASK_RESET (R371): deferred; the reset and what it ends happen as it is accepted. -/
def doFlaskReset (f : Nat) (r : Req) : Eff := deferReq f r (flaskReset r.flask) (.flaskReset r.flask)

/-- FLASK_RESET (R371): deferred; the reset and what it ends happen as it is accepted. -/
def execFlaskReset (f : FnIx) (s : State) : Out := finish (withReq f 0x0102 (doFlaskReset f)) s

/-- A FLASK_REG word holds a reserved value (R401, R497). -/
def regWordBad (w : Nat) : Bool := bits w 31 1 != 0 || bits w 47 32 == 0

/-- FLASK_REG (R401, R527). -/
def doFlaskReg (f : Nat) (r : Req) : Eff :=
  let ws := (List.range 4).map (fun k => field r.body (8 * k) 8)
  let fl := r.flask
  if ws.any regWordBad then answer f stBadLength
  else Eff.all [
    .upd (.flaskSt fl { regs := ws }),
    setRegulator .REG_FAR_rate .REG_FAR_burst .REG_FAR_en fl (2 * fl) (ws.getD 0 0),
    setRegulator .REG_HOST_rate .REG_HOST_burst .REG_HOST_en fl (2 * fl + 1) (ws.getD 1 0),
    Eff.each (List.range 12) (fun st => setEgress st fl ws),
    answer f 0]

/-- FLASK_REG (R401, R527). -/
def execFlaskReg (f : FnIx) (s : State) : Out := finish (withReq f 0x0103 (doFlaskReg f)) s

/-! ## Contexts and queues (R508, R513, R514, R525) -/

/-- Ranks of a context's images fit the 256 MiB pool at 1 KiB each (R510); an exclusive context needs none. -/
def State.poolRoom (s : State) (ranks : Nat) : Bool :=
  decide ((s.ctx.filter (·.2.on)).foldl (fun a p => a + p.2.count * s.perCluster) ranks ≤ 2 ^ 18)

/-- The new context may join the rotation set of context c (R525). -/
def State.mayJoin (s : State) (c first count prio : Nat) : Bool :=
  let x := s.ctxAt c
  let set := match x.rot with | none => [(c, x)] | some r => s.rotSet r
  decide (set.length < 8) && x.count == count && x.prio == prio
    && set.all (fun p => !overlaps ((List.range count).map (· + first)) ((List.range p.2.count).map (· + p.2.first)))
    && (List.range count).all (fun k => (s.clusterAt (first + k)).ranks.length == (s.clusterAt (x.first + k)).ranks.length)

/-- Contexts that stop being exclusive while their state is in their cores are saved (R510). -/
def saveShared (before : List Nat) : Eff := Eff.each before fun x => .get fun s =>
  Eff.when (!s.exclusive x && !(s.ctxAt x).running) (Eff.each (s.sitesOf (s.ctxAt x)) fun k =>
    Eff.when (Store.get [] s.image (x * 1056 + k.1) == []) (saveImage x k.1 (s.imageOf k.2)))

/-- CTX_CREATE (R508). The lowest free number is taken (log entry 34). -/
def ctxCreate (f : Nat) (r : Req) : Eff := .get fun s =>
  let prio := field r.body 0 1
  let first := field r.body 3 1
  let count := field r.body 2 1
  if 7 < prio ∨ count = 0 ∨ 96 < count ∨ 96 < first + count then answer f stBadLength
  else if !((List.range count).all (fun k => s.flaskOf (first + k) == some r.flask)) then answer f stDenied
  else if r.ctx ≠ 0xFFFF ∧ !s.mayJoin r.ctx first count prio then answer f stDenied
  else match findNat (fun x => !(s.ctxAt x).on) 256 0 with
    | none => answer f stNoResource
    | some x =>
      if !s.poolRoom (count * s.perCluster) then answer f stNoResource
      else
        let excl := (s.ctx.filter (fun p => p.2.on && s.exclusive p.1)).map (·.1)
        let rot := if r.ctx = 0xFFFF then none else some (((s.ctxAt r.ctx).rot).getD r.ctx)
        let ix := if r.ctx = 0xFFFF then 0 else max 1 ((s.rotSet (rot.getD 0)).length)
        Eff.all [
          Eff.when (r.ctx != 0xFFFF) (setCtx r.ctx fun c => { c with rot := rot }),
          .upd (.ctx x { on := true, flask := r.flask, fn := f, prio := prio, first := first, count := count, rot := rot
                         rotIdx := ix, range := ix }),
          saveShared excl, respond' f 0 (leBytes x 2)]

/-- CTX_CREATE (R508). -/
def execCtxCreate (f : FnIx) (s : State) : Out := finish (withReq f 0x0110 (ctxCreate f)) s

/-- CTX_DESTROY (R513). -/
def doCtxDestroy (f : Nat) (r : Req) : Eff :=
  if r.ctx = 0xFFFF then answer f stDenied else deferReq f r (destroyCtx r.ctx) (.ctxDestroy r.ctx)

/-- CTX_DESTROY (R513). -/
def execCtxDestroy (f : FnIx) (s : State) : Out := finish (withReq f 0x0111 (doCtxDestroy f)) s

/-- QUEUE_CREATE (R500, R514). The lowest free slot and number are taken (log entry 34). -/
def queueCreate (f : Nat) (r : Req) : Eff := .get fun s =>
  let base := field r.body 0 8
  let n := field r.body 8 1
  if base % 4096 ≠ 0 ∨ n < 4 ∨ 16 < n then answer f stBadLength
  else if r.ctx = 0xFFFF then answer f stDenied
  else match findNat (fun q => !(s.wqAt (wqKey f q)).on) 256 0, findNat (fun k => !(s.wq.any (fun p => p.2.on && p.2.num == k))) 4096 0 with
    | some q, some k => .seq (.upd (.wq (wqKey f q) { on := true, num := k, ctx := r.ctx, base := base, log2 := n }))
        (respond' f 0 (leBytes q 2 ++ leBytes k 2))
    | _, _ => answer f stNoResource

/-- QUEUE_CREATE (R514). -/
def execQueueCreate (f : FnIx) (s : State) : Out := finish (withReq f 0x0112 (queueCreate f)) s

/-- QUEUE_DESTROY (R514): a slot that holds no queue of the flask is DENIED (log entry 35). -/
def doQueueDestroy (f : Nat) (r : Req) : Eff := .get fun s =>
    let k := wqKey f (field r.body 0 2)
    let q := s.wqAt k
    if 255 < field r.body 0 2 then answer f stBadLength
    else if !q.on || q.dying || s.wqFlask q != r.flask then answer f stDenied
    else deferReq f r (denyEntries k) (.queueDestroy k)

/-- QUEUE_DESTROY (R514): a slot that holds no queue of the flask is DENIED (log entry 35). -/
def execQueueDestroy (f : FnIx) (s : State) : Out := finish (withReq f 0x0113 (doQueueDestroy f)) s

/-! ## Memory (R227, R234-R238, R403) -/

/-- MEM_INIT (R227): every region is filled as its slice's fill engine does, then the request is answered. -/
def doMemInit (f : Nat) (r : Req) : Eff := .get fun s =>
    let rs := u32s (r.body.drop 8) (field r.body 0 4)
    if rs.any (fun x => decide (18432 ≤ x) || s.ownerAt x != some r.flask) then answer f stDenied
    else if rs.any (fun x => s.stackHeld (x / 16 / 96)) then answer f stTargetLost
    else .seq (Eff.each rs fun x => zeroRegion (x / 16) (x % 16)) (answer f 0)

/-- MEM_INIT (R227): every region is filled as its slice's fill engine does, then the request is answered. -/
def execMemInit (f : FnIx) (s : State) : Out := finish (withReq f 0x0201 (doMemInit f)) s

/-- Entries of a slice's ECC_RETIRE table (R237). -/
def State.retireCount (s : State) (sl : Nat) : Nat :=
  ((List.range 32).filter (fun e => s.flag .ECC_RETIRE_valid (sl * 32 + e))).length

/-- The frame is retired: table and flash record (R237, R238). -/
def retireFrame (k : Nat) : Eff := .get fun s =>
  let sl := k / 32768
  if s.retired sl (k / 256 % 128) (k % 256) then .skip
  else Eff.opt (findNat (fun e => !s.flag .ECC_RETIRE_valid (sl * 32 + e)) 32 0) fun e => Eff.all [
    .upd (.retirements (s.retirements ++ [k])),
    setReg .ECC_RETIRE_valid (sl * 32 + e) 1, setReg .ECC_RETIRE_bank (sl * 32 + e) (k / 256 % 128),
    setReg .ECC_RETIRE_frame (sl * 32 + e) (k % 256)]

/-- Withdraw a frame: from the free list, and from KV at once where no page holds it (R237 step 1). -/
def withdraw (k : Nat) : Eff := .get fun s =>
  let d := s.pageAt k
  let sl := k / 32768
  let b := k / 256 % 128 * 256 + k % 256
  Eff.all [
    setSlice sl (fun x => { x with freeMap := setBit x.freeMap b false }),
    if d.state = 6 ∨ (d.state = 0 ∧ !d.pend) then setDesc k fun d => { d with state := 6, retire := true }
    else setDesc k fun d => { d with retire := true },
    .get fun s => Eff.when ((s.pageAt k).state == 6) (retireFrame k)]

/-- PAGE_RETIRE (R237). -/
def doPageRetire (f : Nat) (r : Req) : Eff := .get fun s =>
    let ps := u32s (r.body.drop 8) (field r.body 0 4)
    let bad (p : Nat) : Bool := decide (2 ^ 26 ≤ p) || decide (11 < p / 2 ^ 22) || decide (95 < p / 2 ^ 15 % 128)
    let ks := nub (ps.map keyOfPfn)
    let new := ks.filter (fun k => !s.retired (k / 32768) (k / 256 % 128) (k % 256) && !(s.pageAt k).retire)
    let due (sl : Nat) : Nat := (s.page.filter (fun p => p.1 / 32768 == sl && p.2.retire && p.2.state != 6)).length
    if ps.any bad then answer f stBadLength
    else if new.any (fun k => decide (32 < s.retireCount (k / 32768) + due (k / 32768)
        + (new.filter (fun j => j / 32768 == k / 32768)).length)) then answer f stNoResource
    else deferReq f r (Eff.each new withdraw) (.pageRetire ks)

/-- PAGE_RETIRE (R237). -/
def execPageRetire (f : FnIx) (s : State) : Out := finish (withReq f 0x0202 (doPageRetire f)) s

/-- Granted regions of a flask (R234). -/
def State.grants (s : State) (fl : Nat) : Nat :=
  ((List.range 1152).filter (fun sl => s.flag .ECC_TWG_grant sl && s.reg .ECC_TWG_flask sl == fl)).length

/-- TEST_GRANT (R234). -/
def doTestGrant (f : Nat) (r : Req) : Eff := .get fun s =>
    let fl := field r.body 0 1
    let rg := field r.body 4 4
    let sl := rg / 16
    if 15 < fl ∨ !s.regionExists rg then answer f stBadLength
    else if 18432 ≤ rg ∨ s.ownerAt rg ≠ some fl then answer f stDenied
    else if s.flag .ECC_TWG_grant sl ∨ 4 ≤ s.grants fl then answer f stNoResource
    else Eff.all [setReg .ECC_TWG_grant sl 1, setReg .ECC_TWG_flask sl fl, setReg .ECC_TWG_region sl (rg % 16),
      setReg .ECC_INIT_regions sl (setBit (s.reg .ECC_INIT_regions sl) (rg % 16) false), answer f 0]

/-- TEST_GRANT (R234). -/
def execTestGrant (f : FnIx) (s : State) : Out := finish (withReq f 0x0203 (doTestGrant f)) s

/-- TEST_REVOKE (R236): of a grant that stands; another is DENIED (log entry 35). -/
def doTestRevoke (f : Nat) (r : Req) : Eff := .get fun s =>
    let sl := field r.body 4 4 / 16
    if 15 < field r.body 0 1 ∨ !s.regionExists (field r.body 4 4) then answer f stBadLength
    else if sl < 1152 ∧ s.flag .ECC_TWG_grant sl ∧ s.reg .ECC_TWG_flask sl = field r.body 0 1
        ∧ s.reg .ECC_TWG_region sl = field r.body 4 4 % 16 then .seq (endGrant sl) (answer f 0)
    else answer f stDenied

/-- TEST_REVOKE (R236): of a grant that stands; another is DENIED (log entry 35). -/
def execTestRevoke (f : FnIx) (s : State) : Out := finish (withReq f 0x0204 (doTestRevoke f)) s

/-- The ECC_TEST answer from the test-window registers (R235, R497). -/
def State.twBody (s : State) (sl : Nat) : List Byte :=
  leBytes (s.reg .ECC_TW_DATA_data sl) 8 ++ leBytes (s.reg .ECC_TW_CHK_check sl) 2
    ++ leBytes (s.reg .ECC_TW_CHK_verdict sl) 2 ++ leBytes (s.reg .ECC_TW_CHK_syndrome sl) 2

/-- ECC_TEST (R235): `write` is the row's. -/
def eccTest (f : Nat) (write : Bool) (r : Req) : Eff := .get fun s =>
  let a := field r.body 8 8
  let sl := a / 2 ^ 30
  if field r.body 0 1 ≠ b2n write ∧ ¬(1 < field r.body 0 1 ∧ write = false) then .skip
  else if 1 < field r.body 0 1 ∨ a % 8 ≠ 0 then answer f stBadLength
  else if !(s.granted a && s.reg .ECC_TWG_flask sl == r.flask) then answer f stDenied
  else if s.stackHeld (sl / 96) then answer f stTargetLost
  else Eff.all [setReg .ECC_TW_ADDR_word sl (a % 2 ^ 30 / 8),
    if write then Eff.all [setReg .ECC_TW_DATA_data sl (field r.body 16 8), setReg .ECC_TW_CHK_check sl (field r.body 24 2), twWrite sl]
    else twRead sl,
    .get fun s => respond' f 0 (s.twBody sl)]

/-- ECC_TEST op 0 (R235). -/
def execEccTestRead (f : FnIx) (s : State) : Out := finish (withReq f 0x0205 (eccTest f false)) s
/-- ECC_TEST op 1 (R235). -/
def execEccTestWrite (f : FnIx) (s : State) : Out := finish (withReq f 0x0205 (eccTest f true)) s

/-- RETIRE_LIST (R238). -/
def doRetireList (f : Nat) (r : Req) : Eff := .get fun s =>
    let n := field r.body 8 4
    let w := min (n / 4) s.retirements.length
    if n % 4 ≠ 0 then answer f stBadLength
    else hostOut f (field r.body 0 8) ((s.retirements.take w).flatMap (fun k => leBytes (pfnOfKey k) 4))
      (respond' f 0 (leBytes w 4 ++ leBytes s.retirements.length 4))

/-- RETIRE_LIST (R238). -/
def execRetireList (f : FnIx) (s : State) : Out := finish (withReq f 0x0206 (doRetireList f)) s

/-- LADLE_SUBMIT (R403): the chain's first descriptor in memory of the flask; a chain is followed for 2^12 descriptors. -/
def doLadleSubmit (f : Nat) (r : Req) : Eff := .get fun s =>
    let a := field r.body 0 8
    if a % 64 ≠ 0 ∨ 2 ^ 46 ≤ a then answer f stBadLength
    else if s.memOwner a ≠ some r.flask then answer f stDenied
    else match s.freeChannel with
      | none => answer f stNoResource
      | some ec => Eff.all [writeFlask r.flask 4096 a, ladleStart ec.1 ec.2 a f r.flask, answer f 0]

/-- LADLE_SUBMIT (R403): the chain's first descriptor in memory of the flask; a chain is followed for 2^12 descriptors. -/
def execLadleSubmit (f : FnIx) (s : State) : Out := finish (withReq f 0x0210 (doLadleSubmit f)) s

end Sys2Proof.Machine
end

