-- ==== Sys2Proof/Machine/Pressure.lean ====
section
/-! DEFINITION. Reclamation, eviction, swap and restore (12_cache_pressure.md). -/
namespace Sys2Proof.Machine

/-- Sequences that wait for a frame of a slice. -/
def State.waiters (s : State) (sl : Nat) : List (Nat × SeqSt) := s.seq.filter (fun x => x.2.waiting == some sl)

/-- Some sequence of the slice's flask is being swapped out: victims are evicted one at a time (R329). -/
def State.swapRuns (s : State) (sl : Nat) : Bool := s.seq.any (fun x => x.2.swapping && s.flaskOf (sl / 12) == some x.2.flask)

/-- KV_STARVED names the sequence and the slice (R332). -/
def starve (q sl : Nat) : Eff := .get fun s => Eff.all [setSeq q fun x => { x with starved := true },
  flaskRing (s.seqAt q).flask 6 (q + sl * 2 ^ 16), acctSync (s.seqAt q).flask]

/-- The next victim of a slice whose reclamation is due, or what becomes of the waiting requesters when no candidate is
left (R329, R331, R332). -/
def reclaim (sl : Nat) : Eff := .get fun s =>
  let need := s.needed sl
  if !(s.sliceAt sl).reclaim || s.swapRuns sl then .skip
  else if need = 0 then setSlice sl fun x => { x with reclaim := false }
  else match s.victim sl with
    | some q => evictSeq q sl need 0
    | none => Eff.each (s.waiters sl) fun x =>
        if x.2.policy = 0 then dropEvict x.1 (s.dropPage x.1 sl need) 0
        else Eff.when (!x.2.starved) (starve x.1 sl)

/-- RECLAMATION (R329). -/
def execReclamation (sl : SliceIx) (s : State) : Out := finish (Eff.when (s.cccLive (sl / 12)) (reclaim sl)) s

/-- DROP_EVICTION (R334): the DROP victim of a slice loses its pages; a waiting DROP requester with no candidate left
is one (R332). -/
def execDropEviction (q : SeqIx) (sl : SliceIx) (s : State) : Out :=
  finish (Eff.when (s.cccLive (sl / 12) && (s.sliceAt sl).reclaim && (s.seqAt q).policy == 0 && decide (0 < s.needed sl)
      && (s.victim sl == some q.val || ((s.victim sl).isNone && s.waitsIn q sl)))
    (dropEvict q (s.dropPage q sl (s.needed sl)) 0)) s

/-- The swap copies of a sequence may go on: PREEMPTED, in eviction, its step ended (R337). -/
def State.swapDue (s : State) (q : Nat) : Bool :=
  let x := s.seqAt q
  x.swapping && x.state == 3 && !x.stepOpen

/-- A SWAP victim begins its eviction, or an eviction whose next page finds no slot drops it (R337, R339); with no page
left it is over. -/
def swapEvict (q : Nat) : Eff := .get fun s =>
  let x := s.seqAt q
  if x.state = 1 ∧ x.policy = 1 ∧ (x.spread.take x.spreadN).any (fun sl => (s.sliceAt sl).reclaim && s.victim sl == some q)
  then swapBegin q
  else if s.swapDue q then
    match s.swapNext q with
    | none => swapDone q
    | some e => Eff.when (s.freeSlot x.flask).isNone (swapFail q e.2 2)
  else .skip

/-- SWAP_EVICTION (R337). -/
def execSwapEviction (q : SeqIx) (s : State) : Out := finish (swapEvict q) s

/-- Host memory is reached: the link is up (R393). Far memory: every unit of the slot answers (R398). -/
def State.slotReached (s : State) (fl i : Nat) : Bool :=
  let cfg := s.kvAt fl
  if cfg.swapArea = 0 then s.misc.linkUp
  else (List.range 512).all fun k => s.target (slotAddr cfg i + k * 64) != .none && !s.unreachable (slotAddr cfg i + k * 64)

/-- The copy of the swap's next page ends (R337 step 5, R339). -/
def swapPageDone (q : Nat) (ok : Bool) : Eff := .get fun s =>
  let x := s.seqAt q
  if s.swapDue q then
    match s.swapNext q, s.freeSlot x.flask with
    | some e, some i =>
      let k := (s.pteAt q e.1 e.2).key
      if ok && s.slotReached x.flask i && !(s.bsuBytes (addrOfKey k) 32768).2 then Eff.all [
        bsuTouch x.flask (addrOfKey k) 32768,
        swapOut x.flask k i, swapHandled q e,
        .get fun s => Eff.when (s.swapNext q).isNone (swapDone q), acctSync x.flask]
      else .seq (bsuTouch x.flask (addrOfKey k) 32768) (swapFail q e.2 1)
    | _, _ => .skip
  else .skip

/-- SWAP_PAGE_DONE (R337). -/
def execSwapPageDone (q : SeqIx) (ok : Bool) (s : State) : Out := finish (swapPageDone q ok) s

/-- The restore of a SWAPPED page that a request has met (R341). -/
def pageRestore (q st p : Nat) (ok : Bool) : Eff := .get fun s =>
  let x := s.seqAt q
  let e := s.pteAt q st p
  let sl := x.sliceOf p
  if x.state = 1 ∧ e.kind = 2 ∧ (st, p) ∈ x.want ∧ s.cccLive (sl / 12) = true then flPop sl fun f =>
    match f with
    | none => waitFrame q sl
    | some bf =>
      let holders := (s.slotAt x.flask e.slotIx).holders
      if ok && s.slotReached x.flask e.slotIx then Eff.all [
        swapIn x.flask e.slotIx (frameKey sl bf.1 bf.2),
        Eff.each holders (fun h => setSeq h.1 fun y => { y with want := y.want.filter (· != h.2) }),
        setSeq q fun y => { y with waiting := none, starved := false }, acctSync x.flask]
      else Eff.all [flPush sl bf.1 bf.2,
        setSeq q fun y => { y with want := y.want.filter (· != (st, p)) }, swapFail q p 1]
  else .skip

/-- PAGE_RESTORE (R341). -/
def execPageRestore (q : SeqIx) (stream page : Fin 65536) (ok : Bool) (s : State) : Out :=
  finish (pageRestore q stream page ok) s

/-- KV_STARVED (R332): raised again while the SWAP requester still waits. -/
def execKvStarved (q : SeqIx) (sl : SliceIx) (s : State) : Out :=
  finish (Eff.when (s.waitsIn q sl && (s.seqAt q).policy == 1 && (s.seqAt q).starved) (starve q sl)) s

end Sys2Proof.Machine
end

