-- ==== Sys2Proof/Machine/KvOps.lean ====
section
/-! DEFINITION. The requests on the KV cache and on sequences: KV_CONFIG, KV_QUERY and the SEQ requests
(10_kv_cache_pages.md, 12_cache_pressure.md). -/
namespace Sys2Proof.Machine

/-! ## KV_CONFIG (R278, R279) -/

/-- A KV_CONFIG request as its fields (R497). -/
def kvCfgOf (old : KvCfg) (b : List Byte) : KvCfg :=
  { old with
    set := true, appOff := field b 12 4, appSize := field b 16 4, attOff := field b 20 4, attSize := field b 24 4
    reclaimHigh := field b 28 4, swapBase := field b 32 8, swapSlots := field b 40 4, swapArea := field b 44 1
    mergeBase := field b 48 8, mergeFrames := field b 56 4, low := field b 60 4 }

/-- The rings do not fit, or overlap (R279, R296, R311). -/
def ringsBad (c : KvCfg) : Bool :=
  let bad (off size : Nat) : Bool := size == 0 || size % 128 != 0 || off % 128 != 0 || decide (2 ^ 24 < off + 12 * size)
  bad c.appOff c.appSize || bad c.attOff c.attSize
    || (decide (c.appOff < c.attOff + 12 * c.attSize) && decide (c.attOff < c.appOff + 12 * c.appSize))

/-- A field outside its range (R279, R338). -/
def kvFieldsBad (c : KvCfg) : Bool :=
  ringsBad c || decide (1 < c.swapArea) || decide (65535 < c.low) || decide (2 ^ 30 < c.swapSlots)
    || c.mergeBase % 32768 != 0 || decide (2 ^ 46 < c.mergeBase + c.mergeFrames * 32768)
    || (c.swapArea == 1 && decide (2 ^ 46 < c.swapBase + c.swapSlots * 32768))

/-- The region may hold KV pages (R278): owned, in a slice of the flask's clusters, initialised. -/
def State.kvRegionOk (s : State) (fl r : Nat) : Bool :=
  decide (r < 18432) && s.ownerAt r == some fl && s.flaskOf (r / 16 / 12) == some fl
    && bit (s.reg .ECC_INIT_regions (r / 16)) (r % 16)

/-- Regions that KV_CONFIG has designated in a flask's slices. -/
def State.kvRegionsOf (s : State) (fl : Nat) : List Nat :=
  (s.slice.filter (fun p => s.flaskOf (p.1 / 12) == some fl)).flatMap fun p =>
    ((List.range 16).filter (fun r => bit p.2.kvRegions r)).map (· + p.1 * 16)

/-- Frame keys of a region (R278). -/
def regionFrames (r : Nat) : List Nat :=
  (List.range 128).flatMap fun b => (List.range 16).map fun f => frameKey (r / 16) b (r % 16 * 16 + f)

/-- The region may be omitted (R279): every frame FREE with pend = 0, or WITHHELD. -/
def State.omittable (s : State) (r : Nat) : Bool :=
  (regionFrames r).all fun k => (s.pageAt k).state == 6 || ((s.pageAt k).state == 0 && !(s.pageAt k).pend)

/-- Ownership regions that a range of memory touches. -/
def regionsIn (a len : Nat) : List Nat :=
  if len = 0 then [] else (List.range ((a + len - 1) / 2 ^ 26 + 1 - a / 2 ^ 26)).map (· + a / 2 ^ 26)

/-- The merge area breaks R314. -/
def State.mergeBad (s : State) (fl : Nat) (c : KvCfg) (kv : List Nat) : Bool :=
  (regionsIn c.mergeBase (c.mergeFrames * 32768)).any fun r =>
    decide (18432 ≤ r) || s.ownerAt r != some fl || !bit (s.reg .ECC_INIT_regions (r / 16)) (r % 16) || kv.contains r

/-- The swap area may not change so (R279). -/
def State.swapBad (s : State) (fl : Nat) (old c : KvCfg) : Bool :=
  let used := s.slotsUsed fl
  (!used.isEmpty && (old.swapArea != c.swapArea || old.swapBase != c.swapBase)) || used.any (fun i => decide (c.swapSlots ≤ i))

/-- Sites of a flask's clusters. -/
def State.flaskSites (s : State) (fl : Nat) : List Nat := (List.range 1152).filter (fun n => s.coreFlask n == some fl)

/-- An attend request waits or is being carried out for the flask. -/
def State.attendsBusy (s : State) (fl : Nat) : Bool := (s.flaskSites fl).any fun n =>
  let c := s.coreAt n
  let size := (s.kvAt fl).attSize / 128
  !c.attAside.isEmpty || (size != 0 && (s.attReq n (c.attHead % size)).valid)
    || (s.attendsAt (n / 12)).any (fun a => a.site == n)

/-- An append request waits or is being carried out for the flask. -/
def State.appendsBusy (s : State) (fl : Nat) : Bool := (s.flaskSites fl).any fun n =>
  let c := s.coreAt n
  let size := (s.kvAt fl).appSize / 128
  !c.appAside.isEmpty || !c.cows.isEmpty || (size != 0 && (s.appReq n (c.appHead % size)).valid)

/-- The status KV_CONFIG is refused with, the first in the order of R279. -/
def State.kvRefusal (s : State) (fl : Nat) (c : KvCfg) (rs : List Nat) (count : Nat) : Nat :=
  let old := s.kvAt fl
  let kv := s.kvRegionsOf fl
  let ring : Bool := old.appOff != c.appOff || old.appSize != c.appSize || old.attOff != c.attOff || old.attSize != c.attSize
  let merge : Bool := old.mergeBase != c.mergeBase || old.mergeFrames != c.mergeFrames
  if 18432 < count ∨ kvFieldsBad c ∨ !(rs.all s.regionExists) then stBadLength
  else if c.swapArea = 1 ∧ !s.farLicensed then stNotLicensed
  else if !(rs.all (s.kvRegionOk fl)) ∨ (kv.filter (fun r => !rs.contains r)).any (fun r => !s.omittable r)
      ∨ s.mergeBad fl c rs ∨ (old.set ∧ s.swapBad fl old c) then stDenied
  else if old.set ∧ ((ring ∧ (s.appendsBusy fl ∨ s.attendsBusy fl)) ∨ (merge ∧ s.attendsBusy fl)) then stBusy
  else 0

/-! ## Places of firmware's structures (R286, R289, R335, R342) -/

/-- Ranges a flask's structures occupy: descriptor tables of its KV slices, slag list, accounting record, page tables,
sequence descriptors, merge area and a far swap area. -/
def State.kvTaken (s : State) (fl : Nat) : List (Nat × Nat) :=
  let c := s.kvAt fl
  (if c.set then (s.kvRegionsOf fl).map (fun r => (c.descBase + r / 16 * 0x80000, 0x80000))
    ++ [(c.slagBase, 131072), (c.acctBase, 64), (c.mergeBase, c.mergeFrames * 32768)]
    ++ (if c.swapArea = 1 then [(c.swapBase, c.swapSlots * 32768)] else [])
   else [])
  ++ (s.seq.filter (fun q => q.2.state != 0 && q.2.flask == fl)).flatMap (fun q =>
    [(q.2.descAddr, 64), (q.2.ptBase, 8 * q.2.streams * q.2.maxPages)])

/-- A structure may lie at an address: in stacked memory that the flask owns, outside KV regions and what is taken. -/
def State.placeOk (s : State) (fl : Nat) (kv : List Nat) (taken : List (Nat × Nat)) (a len : Nat) : Bool :=
  (regionsIn a len).all (fun r => decide (r < 18432) && s.ownerAt r == some fl && !kv.contains r)
    && taken.all (fun t => !(decide (a < t.1 + t.2) && decide (t.1 < a + len)))

/-- A place for a structure: the free value says where, the first place that will do from there on. -/
def State.place (s : State) (fl : Nat) (kv : List Nat) (taken : List (Nat × Nat)) (len v : Nat) : Option Nat :=
  (findNat (fun k => s.placeOk fl kv taken ((v + k) % (18432 * 2 ^ 20) * 64) len) (18432 * 2 ^ 20) 0).map
    (fun k => (v + k) % (18432 * 2 ^ 20) * 64)

/-- Choose where a flask's tables lie when it is configured first (R286, R335, R342): free values (log entry 5). -/
def placeTables (fl : Nat) (kv : List Nat) : Eff := .get fun s => Eff.when (!(s.kvAt fl).set)
  (fresh fun v1 => fresh fun v2 => fresh fun v3 => .get fun s =>
    let taken := s.kvTaken fl
    let d := (s.place fl kv taken (1152 * 0x80000) v1).getD (v1 % (18432 * 2 ^ 20) * 64)
    let g := (s.place fl kv ((d, 1152 * 0x80000) :: taken) 131072 v2).getD (v2 % (18432 * 2 ^ 20) * 64)
    let a := (s.place fl kv ((g, 131072) :: (d, 1152 * 0x80000) :: taken) 64 v3).getD (v3 % (18432 * 2 ^ 20) * 64)
    Eff.all [.upd (.kv fl { s.kvAt fl with descBase := d, slagBase := g, acctBase := a }),
      fwWrite g ((List.range 8192).flatMap fun q => wordsBytes (({} : Slag).words q))])

/-- Designate a region (R278, R279): its frames enter the free list, but for those retired or of a bank without BSU. -/
def designate (r : Nat) : Eff := .seq (setSlice (r / 16) fun x => { x with kvRegions := setBit x.kvRegions (r % 16) true })
  (Eff.each (regionFrames r) fun k => .get fun s =>
    let b := k / 256 % 128
    if s.retired (r / 16) b (k % 256) || (s.pageAt k).retire || bit (s.sliceAt (r / 16)).bsuOff b then .skip
    else .seq (setPage k fun _ => { state := 0 }) (flPush (r / 16) b (k % 256)))

/-- Omit a region (R279): its frames leave the free list and become WITHHELD. -/
def omitRegion (r : Nat) : Eff := Eff.all [
  setSlice (r / 16) (fun x => { x with kvRegions := setBit x.kvRegions (r % 16) false }),
  Eff.each (regionFrames r) fun k => .seq (setPage k fun d => { d with state := 6 })
    (setSlice (r / 16) fun x => { x with freeMap := setBit x.freeMap (k / 256 % 128 * 256 + k % 256) false })]

/-- Write a slice's descriptors to the flask's table (R286). -/
def writeDescs (fl sl : Nat) : Eff := .get fun s =>
  fwWrite ((s.kvAt fl).descBase + sl * 0x80000) ((List.range 32768).flatMap fun k => wordsBytes (s.pageAt (sl * 32768 + k)).words)

/-- Carry out a KV_CONFIG that passed (R279). New rings are read from their first entries. -/
def setKvConfig (fl : Nat) (b : List Byte) (rs : List Nat) : Eff := .get fun s =>
  let kv := s.kvRegionsOf fl
  let old := s.kvAt fl
  let new := kvCfgOf old b
  let slices := nub ((rs ++ kv).map (· / 16))
  Eff.all [
    placeTables fl rs,
    .get fun s => .upd (.kv fl (kvCfgOf (s.kvAt fl) b)),
    Eff.each (kv.filter (fun r => !rs.contains r)) omitRegion,
    Eff.each (rs.filter (fun r => !kv.contains r)) designate,
    Eff.each slices (fun sl => .seq (writeDescs fl sl) (setReg .KV_FL_CTL_low sl new.low)),
    Eff.when (old.appOff != new.appOff || old.appSize != new.appSize)
      (Eff.each (s.flaskSites fl) fun n => setCore n fun c => { c with appHead := 0 }),
    Eff.when (old.attOff != new.attOff || old.attSize != new.attSize)
      (Eff.each (s.flaskSites fl) fun n => setCore n fun c => { c with attHead := 0 }),
    acctSync fl]

/-- KV_CONFIG (R279). -/
def kvConfig (f : Nat) (r : Req) : Eff :=
  let n := field r.body 8 4
  hostIn f (field r.body 0 8) (4 * min n 18432) fun d => .get fun s =>
    let rs := nub (u32s d (min n 18432))
    let st := s.kvRefusal r.flask (kvCfgOf (s.kvAt r.flask) r.body) rs n
    if st ≠ 0 then answer f st else deferReq f r (setKvConfig r.flask r.body rs) .done

/-- KV_CONFIG (R279). -/
def execKvConfig (f : FnIx) (s : State) : Out := finish (withReq f 0x0301 (kvConfig f)) s

/-- KV_QUERY (R286): of a flask without a configuration the addresses are free values (log entry 5). -/
def doKvQuery (f : Nat) (r : Req) : Eff := .get fun s =>
    let c := s.kvAt r.flask
    let body (a b d : Nat) : List Byte := leBytes a 8 ++ leBytes b 8 ++ leBytes d 8
    if c.set then respond' f 0 (body c.descBase c.slagBase c.acctBase)
    else fresh fun a => fresh fun b => fresh fun d => respond' f 0 (body (a % 2 ^ 46) (b % 2 ^ 46) (d % 2 ^ 46))

/-- KV_QUERY (R286): of a flask without a configuration the addresses are free values (log entry 5). -/
def execKvQuery (f : FnIx) (s : State) : Out := finish (withReq f 0x0302 (doKvQuery f)) s

/-! ## Sequences (R289, R290) -/

/-- The lowest sequence number that no sequence holds. -/
def State.freeSeq (s : State) : Option Nat := findNat (fun q => (s.seqAt q).state == 0 && !(s.seqAt q).stepOpen) 8192 0

/-- A SEQ_CREATE body as a sequence (R497, R289): its capacity and stride by R284 and R285. -/
def seqOf (r : Req) : SeqSt :=
  let b := r.body
  let latent := field b 2 1 == 1
  let g := geometry latent (field b 3 1) (field b 4 2) (field b 6 2)
  let stride := g.2.2.2
  { state := 1, policy := field b 0 1, flask := r.flask, spreadN := field b 1 1, latent := latent, fmt := field b 3 1
    streams := field b 10 2, maxPages := field b 12 2
    capacity := if field b 14 2 = 0 then min 1024 (32512 / max 1 stride) else field b 14 2
    stride := stride, dk := field b 4 2, dv := field b 6 2, pos := field b 8 1
    spread := (List.range 16).map (fun k => field b (16 + 2 * k) 2)
    ctx := if r.ctx = 0xFFFF then none else some r.ctx }

/-- A field of a SEQ_CREATE is outside its range (R282, R283, R285, R289, R290). -/
def seqBad (b : List Byte) (q : SeqSt) : Bool :=
  decide (1 < q.policy) || decide (1 < field b 2 1) || q.spreadN == 0 || decide (16 < q.spreadN)
    || !([3, 7, 9].contains q.fmt) || q.dk == 0 || decide (2047 < q.dk) || q.dv == 0 || decide (2047 < q.dv)
    || !([0, 32, 64, 96, 128].contains q.pos) || q.streams == 0 || q.maxPages == 0
    || (if q.latent then q.dv % 32 != 0 || decide (1024 < q.dv) || q.dk != q.dv + q.pos else q.pos != 0)
    || decide (min 1024 (32512 / max 1 q.stride) < q.capacity) || q.capacity == 0
    || q.spread.any (fun x => decide (1151 < x))

/-- Bytes of a sequence's page table (R288). -/
def SeqSt.tableLen (q : SeqSt) : Nat := 8 * q.streams * q.maxPages

/-- The SEQ_CREATE answer (R497). -/
def seqAnswer (f q : Nat) : Eff := .get fun s =>
  respond' f 0 (leBytes q 2 ++ leBytes 0 6 ++ leBytes (s.seqAt q).descAddr 8 ++ leBytes (s.seqAt q).ptBase 8)

/-- Make a sequence with an empty page table (R289); without a number or room for the table nothing is made. -/
def makeSeq (x : SeqSt) (k : Option Nat → Eff) : Eff := fresh fun v1 => fresh fun v2 => .get fun s =>
  let kv := s.kvRegionsOf x.flask
  let taken := s.kvTaken x.flask
  match s.freeSeq, s.place x.flask kv taken x.tableLen v1 with
  | some q, some pt =>
    match s.place x.flask kv ((pt, x.tableLen) :: taken) 64 v2 with
    | some da => Eff.all [setSeqD q (fun _ => { x with ptBase := pt, descAddr := da }),
        fwWrite pt (List.replicate x.tableLen 0),
        Eff.when (s.kvAt x.flask).set (setSlag q {}), k (some q)]
    | none => k none
  | _, _ => k none

/-- SEQ_CREATE (R289, R290): BAD_LENGTH is judged before DENIED. -/
def seqCreate (f : Nat) (r : Req) : Eff := .get fun s =>
  let x := seqOf r
  if seqBad r.body x then answer f stBadLength
  else if (x.spread.take x.spreadN).any (fun sl => s.flaskOf (sl / 12) != some r.flask) then answer f stDenied
  else makeSeq x fun q =>
    match q with
    | some q => .seq (acctSync r.flask) (seqAnswer f q)
    | none => answer f stNoResource

/-- SEQ_CREATE (R289). -/
def execSeqCreate (f : FnIx) (s : State) : Out := finish (withReq f 0x0310 (seqCreate f)) s

/-- Check the sequence a request names, then go on: above the range BAD_LENGTH; FREE or another flask's DENIED. -/
def withSeq (f : Nat) (r : Req) (k : Nat → SeqSt → Eff) : Eff := .get fun s =>
  let q := field r.body 0 2
  let x := s.seqAt q
  if 8191 < q then answer f stBadLength
  else if x.state = 0 ∨ x.flask ≠ r.flask then answer f stDenied
  else k q x

/-! ## SEQ_FORK (R299) -/

/-- Tokens of a stream before its first dropped page. -/
def State.liveTokens (s : State) (q st : Nat) : Nat :=
  let gone := ((s.ptes q).filter (fun e => e.1 == st && e.2.2.kind == 3)).map (·.2.1)
  match gone with
  | [] => s.streamTokens q st
  | p :: ps => min (s.streamTokens q st) (ps.foldl min p * (s.seqAt q).capacity)

/-- The page of a stream that a fork at length L has to copy (R299): the one that contains token L - 1, unless it holds
exactly the tokens wanted of it. -/
def State.forkCopy (s : State) (q st len : Nat) : Bool :=
  let cap := max 1 (s.seqAt q).capacity
  len % cap != 0 && (s.pteAt q st (len / cap)).tokens != len % cap

/-- Share a page with a fork (R299): resident pages take a reference and become SHARED, a swapped one a holder of its
slot. -/
def sharePage (a b st p : Nat) : Eff := .get fun s =>
  let e := s.pteAt a st p
  if e.kind = 1 then Eff.all [
    Eff.when ((s.pageAt e.key).state == 1) (setShared e.key true),
    setDesc e.key (fun d => { d with refcount := d.refcount + 1, state := if d.state = 1 then 2 else d.state }),
    setPte b st p e]
  else if e.kind = 2 then .get fun s =>
    let fl := (s.seqAt a).flask
    let x := s.slotAt fl e.slotIx
    let d := s.slotBytes fl e.slotIx
    Eff.all [
      Eff.when (x.desc.state == 1) (writeSlot fl e.slotIx (putAt d 0 (leBytes (setBit (field d 0 8) 13 true) 8))),
      .upd (.slot (fl * 2 ^ 30 + e.slotIx)
        { holders := x.holders ++ [(b, st, p)], tokens := x.tokens ++ [e.tokens]
          desc := { x.desc with refcount := x.desc.refcount + 1, state := 2 } }),
      setPte b st p e]
  else .skip

/-- Give the fork its own copy of a page, cut to its tokens (R299, R300). -/
def copyPage (a b st p tokens : Nat) : Eff := .get fun s =>
  let e := s.pteAt a st p
  let x := s.seqAt a
  let sl := x.sliceOf p
  let fill (f : Option (Nat × Nat)) : Eff := Eff.opt f fun bf =>
    let dst := frameKey sl bf.1 bf.2
    Eff.all [
      if e.kind = 1 then .seq (bsuTouch x.flask (addrOfKey e.key) 32768) (copyFrame (addrOfKey e.key) (addrOfKey dst))
      else fwWrite (addrOfKey dst) (s.slotBytes x.flask e.slotIx),
      .get fun s => headerWord dst 0 (setBit (s.rawWord (addrOfKey dst)) 13 false),
      headerWord dst 1 tokens,
      Eff.each (List.range 512) (fun k => invalLine (addrOfKey dst / 64 + k)),
      setDesc dst (fun _ => { refcount := 1, owner := b, state := 1, page := p, stream := st }),
      setPte b st p { kind := 1, tokens := tokens, loc := pfnOfKey dst }]
  if e.kind = 1 ∧ e.key / 32768 = sl then flPopB sl (e.key / 256 % 128) fun f1 =>
    match f1 with
    | some f => fill (some f)
    | none => flPop sl fill
  else flPop sl fill

/-- SEQ_FORK (R299, R301): a swap of the sequence in progress is BUSY as a copy-on-write is; without frames for the
copies NO_RESOURCE (log entry 41). -/
def seqFork (f : Nat) (r : Req) : Eff := withSeq f r fun a x => .get fun s =>
  let len := field r.body 4 4
  let cap := max 1 x.capacity
  let sts := List.range x.streams
  let copies := sts.filter (fun st => s.forkCopy a st len)
  if x.cow || x.swapping then answer f stBusy
  else if sts.any (fun st => decide (s.liveTokens a st < len)) then answer f stDenied
  else if decide (s.freeCount (x.sliceOf (len / cap)) < copies.length)
      || sts.any (fun st => (List.range (len / cap + 1)).any fun p =>
        (s.pteAt a st p).kind == 1 && decide (65535 ≤ (s.pageAt (s.pteAt a st p).key).refcount)) then answer f stNoResource
  else makeSeq { x with
      state := 1, ctx := if r.ctx = 0xFFFF then none else some r.ctx, stepOpen := false, deferred := [], lastStep := 0
      cow := false, swapping := false, waiting := none, swapTodo := [], held := false, want := [], starved := false } fun q =>
    match q with
    | none => answer f stNoResource
    | some b => Eff.all [
        Eff.each sts (fun st => .seq
          (Eff.each (List.range (len / cap)) (sharePage a b st))
          (if len % cap = 0 then .skip
           else if copies.contains st then copyPage a b st (len / cap) (len % cap)
           else sharePage a b st (len / cap))),
        acctSync x.flask, seqAnswer f b]

/-- SEQ_FORK (R299). -/
def execSeqFork (f : FnIx) (s : State) : Out := finish (withReq f 0x0311 (seqFork f)) s

/-! ## SEQ_FREE, SEQ_EVICT, SEQ_READY, SEQ_RESUME -/

/-- SEQ_FREE (R302, R301, R297). -/
def seqFree (f : Nat) (r : Req) : Eff := withSeq f r fun q x => .get fun s =>
  if x.cow then answer f stBusy
  else Eff.all [
    Eff.when (x.state == 3) (denyAside q),
    Eff.each (s.ptes q) (fun e => Eff.all [
      setPte q e.1 e.2.1 {},
      if e.2.2.kind = 1 then dropRef q e.2.2.key 0
      else if e.2.2.kind = 2 then leaveSlot x.flask e.2.2.slotIx q e.1 e.2.1 else .skip]),
    Eff.when (s.slagAt q).valid (setSlag q {}),
    setSeqD q (fun y => { y with
      state := 0, ctx := none, waiting := none, swapping := false, swapTodo := [], held := false, want := [], starved := false }),
    acctSync x.flask, answer f 0]

/-- SEQ_FREE (R302). -/
def execSeqFree (f : FnIx) (s : State) : Out := finish (withReq f 0x0312 (seqFree f)) s

/-- Evict a named sequence by its class (R331, R333): every page of a DROP sequence, reason DRIVER; an ACTIVE SWAP
sequence is written out. -/
def evictNamed (q : Nat) : Eff := .get fun s =>
  let x := s.seqAt q
  if x.state = 0 then .skip
  else if x.policy = 0 then dropEvict q 0 3
  else Eff.when (x.state == 1) (swapBegin q)

/-- SEQ_EVICT (R331): while a copy-on-write runs the eviction waits (R333). -/
def seqEvict (f : Nat) (r : Req) : Eff := withSeq f r fun q x =>
  deferReq f r (Eff.when (!x.cow) (evictNamed q)) (.seqEvict q (!x.cow))

/-- SEQ_EVICT (R331). -/
def execSeqEvict (f : FnIx) (s : State) : Out := finish (withReq f 0x0313 (seqEvict f)) s

/-- SEQ_READY (R336): an earlier step in flight is BUSY. -/
def seqReady (f : Nat) (r : Req) : Eff := withSeq f r fun q x => .get fun s =>
  if x.state ≠ 2 then answer f stDenied
  else if x.stepOpen then answer f stBusy
  else Eff.all [
    Eff.each ((s.ptes q).filter (fun e => e.2.2.kind == 3)) (fun e => setPte q e.1 e.2.1 {}),
    setSlag q { s.slagAt q with valid := false },
    setSeqD q (fun y => { y with state := 1, held := false }), acctSync x.flask, answer f 0]

/-- SEQ_READY (R336). -/
def execSeqReady (f : FnIx) (s : State) : Out := finish (withReq f 0x0314 (seqReady f)) s

/-- SEQ_RESUME (R341, R523): a sequence that is not PREEMPTED is DENIED, one still being written out BUSY (log entry
41). -/
def seqResume (f : Nat) (r : Req) : Eff := withSeq f r fun q x =>
  if x.state ≠ 3 then answer f stDenied
  else if x.swapping then answer f stBusy
  else Eff.all [setSeqD q (fun y => { y with state := 1, held := false }), acctSync x.flask, answer f 0]

/-- SEQ_RESUME (R341). -/
def execSeqResume (f : FnIx) (s : State) : Out := finish (withReq f 0x0315 (seqResume f)) s

end Sys2Proof.Machine
end

