-- ==== Sys2Proof/Machine/Jobs.lean ====
section
/-! DEFINITION. The requests on ports, the endpoint and jobs, and the completion of deferred requests (17_fabric_ports.md,
18_fabric_transport.md, 20_mailbox_protocol.md). -/
namespace Sys2Proof.Machine

/-! ## Ports (R427, R428, R430, R557, R558) -/

/-- An FP_QUAL word a request may carry: 0, or every field in its range (R428). -/
def qualBad (q : Nat) : Bool :=
  q != 0 && (bits q 35 16 != 0 || decide (bits q 47 42 < 30) || decide (40 < bits q 47 42) || decide (bits q 41 36 < 30)
    || decide (40 < bits q 41 36) || bits q 15 12 == 0 || bits q 11 8 == 0 || bits q 7 4 == 0 || bits q 3 0 == 0)

/-- A field of PORT_CONFIG is outside its range (R415, R430, R497). -/
def portFieldsBad (b : List Byte) : Bool :=
  decide (59 < field b 0 1) || decide (5 < field b 1 1) || decide (1 < field b 2 1) || decide (1 < field b 3 1)
    || qualBad (field b 8 8) || field b 16 16 % 256 != 0 || field b 32 4 % 256 != 0
    || (List.range 4).any (fun k => decide (2 ^ 48 ≤ field b (40 + 8 * k) 8))
    || (List.range 5).any (fun k => decide (63 < field b (72 + k) 1))

/-- The 16 bytes of a port in the configuration block that a request gives (R557); FP_QUAL 0 keeps the old one. -/
def portEntry (old b : List Byte) : List Byte :=
  let q := field b 8 8
  (b.drop 1).take 5 ++ leBytes 0 3 ++ (if q = 0 then (old.drop 8).take 8 else leBytes q 8)

/-- The configuration block with a PORT_CONFIG's values (R557). -/
def portBlock (b d : List Byte) : List Byte :=
  let g := field b 0 1
  let macs := putAt d (1024 + 32 * g) ((b.drop 40).take 32)
  let addrs := putAt (putAt macs 32 ((b.drop 16).take 16)) 48 ((b.drop 32).take 4)
  putAt (putAt addrs 52 ((b.drop 72).take 5)) (64 + 16 * g) (portEntry ((d.drop (64 + 16 * g)).take 16) b)

/-- PORT_CONFIG (R427): stored first (R558); a port whose stack is in reset takes it when it returns. -/
def doPortConfig (f : Nat) (r : Req) : Eff :=
  if portFieldsBad r.body then answer f stBadLength
  else Eff.all [writeCfg (portBlock r.body),
    .get fun s => Eff.when (s.managed (field r.body 0 1)) (configPort (field r.body 0 1) (s.portCfg (field r.body 0 1))),
    answer f 0]

/-- PORT_CONFIG (R427): stored first (R558); a port whose stack is in reset takes it when it returns. -/
def execPortConfig (f : FnIx) (s : State) : Out := finish (withReq f 0x0401 (doPortConfig f)) s

/-- The PORT_STATUS answer (R497): lanes of a carrying sub-port have signal, the others' signal is a free value. -/
def State.portBody (s : State) (g v : Nat) : List Byte :=
  let carried := (List.range (s.ways g)).flatMap (fun k => if s.subCarries g k then subLanes (s.ways g) k else [])
  let sig := (List.range 8).foldl (fun a l => if carried.contains l then setBit a l true else a) (v % 256)
  let sp (k : Nat) : Nat := s.reg .SP_STAT_attempts (g * 4 + k) * 2 ^ 16 + s.reg .SP_STAT_cause (g * 4 + k) * 2 ^ 8 + s.subState g k
  leBytes (s.reg .FP_STAT_link_downs g * 2 ^ 16 + sig * 2 ^ 8 + s.reg .FP_STAT_wlocked g) 8
    ++ (List.range 4).flatMap (fun k => leBytes (sp k) 4)
    ++ (List.range 8).flatMap (fun l => leBytes (s.reg .FP_LANE_ERR_bits (g * 8 + l)) 8)
    ++ (List.range 8).flatMap (fun l => leBytes (s.reg .FP_LANE_RX_bits (g * 8 + l)) 8)
    ++ fit 64 (s.portAt g).lldp

/-- PORT_STATUS (R497). Reading FP_STAT clears its link_downs (R21). -/
def doPortStatus (f : Nat) (r : Req) : Eff := .get fun s =>
    let g := field r.body 0 1
    if 59 < g then answer f stBadLength
    else if !s.portLive g then answer f stTargetLost
    else fresh fun v => .seq (respond' f 0 (s.portBody g v)) (setReg .FP_STAT_link_downs g 0)

/-- PORT_STATUS (R497). Reading FP_STAT clears its link_downs (R21). -/
def execPortStatus (f : FnIx) (s : State) : Out := finish (withReq f 0x0402 (doPortStatus f)) s

/-! ## Endpoint (R559) -/

/-- A flask has joined a job. -/
def State.anyJob (s : State) : Bool := s.job.any (·.2.on)

/-- ENDPOINT_SET (R559). -/
def doEndpointSet (f : Nat) (r : Req) : Eff := .get fun s =>
    let e := field r.body 0 4
    if 262143 < e ∧ e ≠ 0xFFFFFFFF then answer f stBadLength
    else if s.anyJob then answer f stDenied
    else Eff.all [setMisc (fun m => { m with endpoint := if e = 0xFFFFFFFF then none else some e }),
      writeCfg (fun d => putAt d 24 (leBytes e 4)), respond' f 0 (leBytes e 4)]

/-- ENDPOINT_SET (R559). -/
def execEndpointSet (f : FnIx) (s : State) : Out := finish (withReq f 0x0403 (doEndpointSet f)) s

/-! ## Jobs (R435-R439, R442, R459, R621) -/

/-- A receive ring of a JOB_JOIN body (R459, R497). -/
def rxRingOf (b : List Byte) (k : Nat) : RxRing :=
  let o := 32 + 24 * k
  { base := field b o 8, slots := field b (o + 8) 4, size := field b (o + 12) 4, site := field b (o + 16) 2, ct := field b (o + 18) 1 }

/-- A receive ring is out of range (R459): its slots hold the largest SEND of every stack. -/
def State.rxRingBad (s : State) (b : List Byte) (k : Nat) : Bool :=
  let x := rxRingOf b k
  x.slots == 0 || x.size % 128 != 0 || (List.range 12).any (fun st => decide (x.size < s.mtu st 3 + 64))
    || decide (1151 < x.site) || decide (7 < x.ct) || field b (32 + 24 * k + 19) 5 != 0 || decide (2 ^ 46 ≤ x.base)

/-- JOB_JOIN (R435, R453, R459, R558). A flask that is in a job already is DENIED (log entry 42). -/
def jobJoin (f : Nat) (r : Req) : Eff := .get fun s =>
  let b := r.body
  let off := field b 20 4
  let n := field b 24 4
  let rings := field b 28 1
  if 1 < field b 4 1 ∨ 1 < field b 5 1 ∨ 16 < rings ∨ off % 128 ≠ 0 ∨ 2 ^ 24 < off + 13 * n * 128
      ∨ (List.range rings).any (s.rxRingBad b) then answer f stBadLength
  else if field b 5 1 = 1 ∧ bit s.misc.licence 0 = false then answer f stNotLicensed
  else if s.misc.endpoint.isNone ∨ (s.jobAt r.flask).on then answer f stDenied
  else hostIn f (field b 8 8) (field b 16 4) fun pol => Eff.all [
    .upd (.job r.flask { on := true, job := field b 0 4, jobMode := field b 4 1 == 1, encrypt := field b 5 1 == 1, policy := pol
                         ringOff := off, ringEntries := n, rings := (List.range rings).map (rxRingOf b) }),
    .get fun s => Eff.each ((List.range 96).filter (fun c => s.flaskOf c == some r.flask)) (fun c =>
      Eff.each (List.range 13) fun k => .upd (.cring (c * 13 + k) 0)),
    answer f 0]

/-- JOB_JOIN (R435). -/
def execJobJoin (f : FnIx) (s : State) : Out := finish (withReq f 0x0410 (jobJoin f)) s

/-- Peers of a job: every endpoint of its table but the module's own. -/
def State.peersOf (s : State) (fl : Nat) : List Nat := ((s.jobAt fl).table.map (·.ep)).filter (fun e => !s.ownEndpoint e)

/-- Leave a job (R439): as a commit that removes every peer; unbound when the last connection has closed. -/
def leaveJob (fl : Nat) : Eff := .get fun s =>
  let ps := s.peersOf fl
  Eff.all [.upd (.members (s.members.filter (fun m => m.1 != fl))),
    setJob fl (fun j => { j with leaving := true }),
    if ps.isEmpty && (s.jobAt fl).gone.isEmpty then .upd (.job fl {}) else Eff.each ps (removePeer fl)]

/-- JOB_LEAVE (R439). A flask in no job is DENIED, one that is leaving BUSY (log entry 42). -/
def doJobLeave (f : Nat) (r : Req) : Eff := .get fun s =>
    let j := s.jobAt r.flask
    if !j.on then answer f stDenied
    else if j.leaving then answer f stBusy
    else deferReq f r (leaveJob r.flask) (.jobLeave r.flask)

/-- JOB_LEAVE (R439). A flask in no job is DENIED, one that is leaving BUSY (log entry 42). -/
def execJobLeave (f : FnIx) (s : State) : Out := finish (withReq f 0x0411 (doJobLeave f)) s

/-- JOB_KEY (R621, R442, R443): the new key's phase is the one sent from now on. -/
def jobKey (f : Nat) (r : Req) : Eff := .get fun s =>
  let j := s.jobAt r.flask
  let phase := field r.body 12 1
  if field r.body 8 4 ≠ 512 ∨ 1 < phase then answer f stBadLength
  else if !j.on || j.leaving then answer f stDenied
  else hostIn f (field r.body 0 8) 512 fun d =>
    match Config.unwrap d with
    | none => answer f stDenied
    | some p =>
      if p.length ≠ 40 ∨ field p 0 4 ≠ j.job ∨ field p 4 1 ≠ phase ∨ field p 5 3 ≠ 0 then answer f stDenied
      else .seq (setJob r.flask fun j => { j with keys := (j.keys.filter (fun k => k.1 != phase)) ++ [(phase, p.drop 8)], phase := phase })
        (answer f 0)

/-- JOB_KEY (R621). -/
def execJobKey (f : FnIx) (s : State) : Out := finish (withReq f 0x0412 (jobKey f)) s

/-- A membership entry (R436). -/
def memberOf (d : List Byte) : Member :=
  let w0 := field d 0 8
  { ep := bits w0 17 0, vmax := bits w0 23 22, v4 := bit w0 21, base := if bit w0 21 then field d 8 4 else field d 8 16
    keyId := field d 24 40 }

/-- A membership entry breaks its layout (R436). -/
def memberBad (d : List Byte) : Bool :=
  let w0 := field d 0 8
  bits w0 63 24 != 0 || bits w0 20 18 != 0 || bits w0 23 22 == 0

/-- Entries of a commit, 64 bytes each. -/
def entriesOf (d : List Byte) (n : Nat) : List (List Byte) := (List.range n).map (fun k => (d.drop (64 * k)).take 64)

/-- Endpoints rise strictly (R436). -/
def risingEps : List Member → Bool
  | a :: b :: l => decide (a.ep < b.ep) && risingEps (b :: l)
  | _ => true

/-- The status a commit is refused with (R436, R437). -/
def State.commitRefusal (s : State) (j : JobSt) (epoch count : Nat) (es : List (List Byte)) : Nat :=
  let ms := es.map memberOf
  if es.any memberBad || !risingEps ms then stBadLength
  else if !j.on || epoch != j.epoch + 1 then stDenied
  else if 4096 < count ∧ bit s.misc.licence 3 = false then stNotLicensed
  else if ms.any (fun m => decide (m.vmax < 3)) ∧ bit s.misc.licence 4 = false then stNotLicensed
  else if j.jobMode ∧ ms.any (fun m => m.vmax == 1) then stDenied
  else if j.leaving then stBusy
  else 0

/-- Put a new membership table into force (R437-R439): removed peers drain; a table without the module itself drains
every connection. -/
def commitTable (fl epoch : Nat) (ms : List Member) : Eff := .get fun s =>
  let keep := ms.any (fun m => s.ownEndpoint m.ep)
  let gone := (s.peersOf fl).filter (fun e => !keep || !ms.any (fun m => m.ep == e))
  Eff.all [setJob fl (fun j => { j with table := ms, epoch := epoch }),
    .upd (.members (s.members.filter (fun m => m.1 != fl) ++ ms.map (fun m => (fl, m.ep)))),
    Eff.each gone (removePeer fl)]

/-- MEMBERSHIP_COMMIT (R437). -/
def membershipCommit (f : Nat) (r : Req) : Eff :=
  let n := field r.body 4 4
  hostIn f (field r.body 8 8) (64 * n) fun d => .get fun s =>
    let es := entriesOf d n
    let st := s.commitRefusal (s.jobAt r.flask) (field r.body 0 4) n es
    if st ≠ 0 then answer f st
    else .seq (commitTable r.flask (field r.body 0 4) (es.map memberOf)) (respond' f 0 (leBytes (field r.body 0 4) 4))

/-- MEMBERSHIP_COMMIT (R437). -/
def execMembershipCommit (f : FnIx) (s : State) : Out := finish (withReq f 0x0413 (membershipCommit f)) s

/-! ## Deferred completion (R490) -/

/-- No bank task of a flask is left in the slices of its regions (R505). -/
def State.regionsQuiet (s : State) (fl : Nat) (rs : List Nat) : Bool :=
  s.bank.all fun p => !(rs.any (fun r => decide (r < 18432) && r / 16 == p.1 / 128))
    || ((p.2.ctx ++ p.2.wait).all (fun t => t.flask != fl))

/-- What a deferred request still has to do may be done now. -/
def State.workDue (s : State) : Work → Bool
  | .done => true
  | .flaskSet _ _ _ => true
  | .flaskRemove fl _ rs => s.regionsQuiet fl rs
  | .flaskReset _ => true
  | .ctxDestroy x => (s.ctxAt x).item.isNone
  | .queueDestroy k => s.queueDone k
  | .pageRetire ks => ks.all (fun k => (s.pageAt k).state == 6)
  | .seqEvict q begun => if begun then !(s.seqAt q).swapping else !(s.seqAt q).cow
  | .jobLeave fl => !(s.jobAt fl).on

/-- Do what is left of a deferred request, which may leave more to wait for. -/
def doWork : Work → Eff
  | .done => .skip
  | .flaskSet fl cs rs => doFlaskSet fl cs rs
  | .flaskRemove fl cs rs => doFlaskRemove fl cs rs
  | .flaskReset _ => .skip
  | .ctxDestroy x => freeCtx x
  | .queueDestroy k => .upd (.wq k {})
  | .pageRetire ks => Eff.each ks retireFrame
  | .seqEvict q begun => Eff.when (!begun) (evictNamed q)
  | .jobLeave _ => .skip

/-- What is still to wait for when the work has been done. -/
def nextWork (s : State) : Work → Option Work
  | .seqEvict q false => if (s.seqAt q).swapping then some (.seqEvict q true) else none
  | _ => none

/-- The completion entry of a deferred request (R490). -/
def deferredEntry (d : Deferred) (seq : Nat) : List Byte :=
  leBytes (d.status * 2 ^ 32 + d.op * 2 ^ 16 + d.tag) 8 ++ leBytes seq 8

/-- The oldest deferred request of a function whose work is due: the work, then the entry at slot seq mod 16, then
MAILBOX_DEFERRED (R490). -/
def deferredCompletion (f : Nat) : Eff := .get fun s =>
  let l := (s.fnAt f).deferred
  match l.zipIdx.find? (fun d => s.workDue d.1.work) with
  | none => .skip
  | some (d, i) => .seq (doWork d.work) (.get fun s =>
      match nextWork s d.work with
      | some w => setFn f fun x => { x with deferred := x.deferred.set i { d with work := w } }
      | none =>
        let n := (s.fnAt f).defSeq + 1
        Eff.all [setFn f (fun x => { x with deferred := x.deferred.eraseIdx i, defSeq := n }),
          .upd (.mbox (f * 4096 + 0xF00 + n % 16 * 16) (deferredEntry d n)),
          hostRing f 1 n])

/-- DEFERRED_COMPLETION (R490). -/
def execDeferredCompletion (f : FnIx) (s : State) : Out :=
  finish (Eff.when (s.fwUp && !decide (2 ∈ s.fw.restarting)) (deferredCompletion f)) s

end Sys2Proof.Machine
end

