-- ==== Sys2Proof/Machine/Power.lean ====
section
/-! DEFINITION. Caps, core clocks, refresh rates and trips: what the PMC's decisions do (25_thermal_and_cooling.md), with the
requests on power and trips. -/
namespace Sys2Proof.Machine

/-! ## Caps (R12-R15, R603) -/

/-- Legacy code received: the whole byte of the configuration block (R13, R557). -/
def State.legacyByte (s : State) : Nat := field s.cfgBlock 16 1

/-- Legacy code in force (R13): above 3 it acts as LG3. -/
def legacyCode (b : Nat) : Nat := min b 3

/-- Core-clock cap of a legacy code in MHz (R12). -/
def legacyClock (c : Nat) : Nat := match c with | 2 => 1000 | 3 => 900 | _ => 1100

/-- Power cap of a legacy code in W (R12, R603). -/
def legacyPower (c : Nat) : Nat := match c with | 2 => 3800 | 3 => 3200 | _ => 4400

/-- Core-clock cap in force (R603). -/
def State.clockCap (s : State) : Nat := legacyClock (legacyCode s.legacyByte)

/-- Module power cap in force in W (R603). -/
def State.moduleCap (s : State) : Nat :=
  let c := field s.cfgBlock 20 4
  min (min 4400 (if c = 0 then 4400 else c)) (legacyPower (legacyCode s.legacyByte))

/-- The core-clock setting of a stack: the lowest limit governs (R14, R592). -/
def State.setting (s : State) (st : Nat) : Nat := min (min (s.thAt st).bandMhz (s.thAt st).powerMhz) s.clockCap

/-- The PMC runs. -/
def State.pmcLive (s : State) : Bool := s.fwUp && !decide (1 ∈ s.fw.restarting) && s.misc.phase != 0x30

/-- Put a stack's limits into its clock registers (R366). -/
def applyClocks (st : Nat) : Eff := .get fun s => setClocks st (s.setting st) (s.setting st)

/-- Every stack's clocks. -/
def applyAllClocks : Eff := Eff.each (List.range 12) applyClocks

/-- Set a stack's refresh rate (R194): a bank takes it from its next refresh slot (R196). -/
def setRefresh (st v : Nat) : Eff := .get fun s => Eff.when (!s.stackHeld st) (Eff.each (List.range 96) fun k => .get fun s =>
  Eff.when (s.reg .MC_CFG_refresh (st * 96 + k) != v)
    (.seq (setReg .MC_CFG_refresh (st * 96 + k) v) (setSlice (st * 96 + k) fun x => { x with slots := 0 })))

/-- Set BSU_CAP.streams of a stack's slices (R592). -/
def setCap (st : Nat) (f : Nat → Nat) : Eff := .get fun s => Eff.when (!s.stackHeld st) (Eff.each (List.range 96) fun k => .get fun s =>
  setReg .BSU_CAP_streams (st * 96 + k) (f (s.reg .BSU_CAP_streams (st * 96 + k))))

/-! ## Trips (R593-R596, R568) -/

/-- A shutdown record of the stack, or of the I/O die, is not acknowledged (R595). -/
def State.unacked (s : State) (t : Nat) : Option Shut := s.shut.find? (fun r => r.unit == t && !r.acked)

/-- Whether THERM_ALARM_N is driven low follows from the trips and the coolant alarm (R594, R600). -/
def State.alarmDue (s : State) : Bool :=
  s.therm.alarm || (List.range 12).any (fun t => s.flag .TH_STAT_tripped t || (s.stackAt t).causes &&& 8 != 0)

/-- Drive the alarm output. -/
def showAlarm : Eff := .get fun s => setMisc fun m => { m with alarmPin := s.alarmDue }

/-- A signed 16-bit field. -/
def s16 (v : Int) : Nat := wrap 16 v

/-- Words 1-5 of a stack's shutdown record as it trips (R595); the I/O-die counter is a free value (log entry 12). -/
def State.shutWords (s : State) (st cause ts : Nat) : List Nat :=
  let x := s.thAt st
  let tr := s.therm.tray
  let good := tr.isSome && !s.therm.lost
  let y : Tray := tr.getD { inlet := 0, outlet := 0, flow := 0, status := 0, floor := 45 }
  [ts % 2 ^ 64, legacyCode s.legacyByte * 2 ^ 8 + cause * 2 ^ 4 + st,
   s.reg .TH_RES_temp st * 2 ^ 48 + s16 (x.dram / 125) * 2 ^ 32 + s.reg .TH_PWR_power_w st * 2 ^ 16 + s.therm.input % 2 ^ 16,
   s16 y.inlet * 2 ^ 48 + s16 y.outlet * 2 ^ 32 + y.flow % 2 ^ 16 * 2 ^ 16 + b2n good,
   (s.stackAt st).clk1 * 2 ^ 48 + (s.stackAt st).clk0 * 2 ^ 32 + s.reg .BSU_CAP_streams (st * 96) * 2 ^ 24]

/-- Write a shutdown record to flash (R595): its seq counts records since manufacture, its check word covers bytes 0-59;
of 32 records the acknowledged ones are overwritten, oldest first. -/
def writeShut (t : Nat) (ws : List Nat) : Eff := .get fun s =>
  let n := s.therm.records + 1
  let w := n :: (ws ++ List.replicate 5 0).take 5
  let crc := crc32c ((wordsBytes (w ++ [0, 0])).take 60)
  let rec' : Shut := { seq := n, unit := t, words := w ++ [0, crc * 2 ^ 32] }
  let old := match s.shut.findIdx? (·.acked) with
    | some i => if 32 ≤ s.shut.length then s.shut.eraseIdx i else s.shut
    | none => s.shut
  .seq (.upd (.shut (old ++ [rec']))) (setTherm fun x => { x with records := n })

/-- A stack trips (R594): the first cause stands; its fabric plane is reset, the PMC has a shutdown record to write. -/
def tripStack (st cause : Nat) : Eff := .get fun s =>
  if s.flag .TH_STAT_tripped st || (s.stackAt st).causes &&& 8 != 0 then .skip
  else fresh fun ts => .get fun s => Eff.all [setReg .TH_STAT_tripped st 1, setReg .TH_STAT_cause st cause,
    setTh st (fun x => { x with due := true, words := s.shutWords st cause ts, warming := false }),
    holdFp st 8, doorbell 96 (0x40 + st), showAlarm]

/-- A trip ends (R596, R568): the stack is released, its DRAM to be initialised; it is controlled from its first
conversion. -/
def endTrip (st : Nat) : Eff := .get fun s => Eff.all [
  setReg .TH_STAT_tripped st 0, setReg .TH_STAT_cause st 0,
  setTh st (fun x => { setBoot := x.setBoot, setTemp := x.setTemp }),
  Eff.when ((s.stackAt st).causes &&& 8 != 0) (.seq (setStack st fun x => { x with reinit := true }) (releaseFp st 8)),
  applyClocks st, showAlarm]

/-- THERM_ACK_TRIP (R596). -/
def thermAck (f : Nat) (r : Req) : Eff := .get fun s =>
  let t := field r.body 0 1
  if 12 < t then answer f stBadLength
  else match s.unacked t with
    | none => answer f stDenied
    | some x =>
      if x.seq ≠ field r.body 8 8 then answer f stDenied
      else Eff.all [.upd (.shut (s.shut.map (fun y => if y.seq = x.seq then { y with acked := true } else y))),
        Eff.when (decide (t < 12)) (endTrip t), answer f 0]

/-- THERM_ACK_TRIP (R596). -/
def execThermAckTrip (f : FnIx) (s : State) : Out := finish (withReq f 0x0501 (thermAck f)) s

/-- TH_CTL.release is written (R596): once every record of the stack is acknowledged. -/
def thRelease (st : Nat) : Eff := .get fun s =>
  Eff.when (s.pmcLive && (s.unacked st).isNone && !(s.thAt st).due && s.flag .TH_STAT_tripped st) (endTrip st)

/-- TH_CTL_RELEASE (R596). -/
def execThCtlRelease (st : StackIx) (s : State) : Out := finish (thRelease st) s

/-- PWR_LIMIT (R603, R558). -/
def doPwrLimit (f : Nat) (r : Req) : Eff :=
  let c := field r.body 0 4
  if c ≠ 0 ∧ (c < 1200 ∨ 4400 < c) then answer f stBadLength
  else .seq (writeCfg fun d => putAt d 20 (leBytes c 4)) (.get fun s => respond' f 0 (leBytes s.moduleCap 4))

/-- PWR_LIMIT (R603, R558). -/
def execPwrLimit (f : FnIx) (s : State) : Out := finish (withReq f 0x0502 (doPwrLimit f)) s

/-- LEGACY_GRADE (R12-R15, R558, R561). -/
def doLegacyGrade (f : Nat) (r : Req) : Eff :=
  Eff.all [writeCfg (fun d => putAt d 16 ((r.body).take 1)), applyAllClocks,
    .get fun s => respond' f 0 (byte s.legacyByte ++ byte (legacyCode s.legacyByte))]

/-- LEGACY_GRADE (R12-R15, R558, R561). -/
def execLegacyGrade (f : FnIx) (s : State) : Out := finish (withReq f 0x0005 (doLegacyGrade f)) s

end Sys2Proof.Machine
end

