-- ==== Sys2Proof/Machine/FwOps.lean ====
section
/-! DEFINITION. The requests on firmware and security: GET_INFO, ATTEST, LICENCE_INSTALL, FW_UPDATE, FW_ACTIVATE, and those on
the log and the trace points (19_firmware.md, 20_mailbox_protocol.md, 26_security_and_licences.md). -/
namespace Sys2Proof.Machine

/-! ## GET_INFO (R498, R499) -/

/-- The site runs an active core (R551, R585). -/
def State.activeSite (s : State) (n : Nat) : Bool :=
  let c := s.clusterAt (n / 12)
  c.ranks.contains n && !s.coreOff n && !c.cccOff

/-- The site is its cluster's spare. -/
def State.spareSite (s : State) (n : Nat) : Bool := (s.clusterAt (n / 12)).spare == some n

/-- A bitmap of sites. -/
def siteMap (p : Nat → Bool) : List Byte := (List.range 144).map fun k =>
  BitVec.ofNat 8 ((List.range 8).foldl (fun a b => a + b2n (p (8 * k + b)) * 2 ^ b) 0)

/-- A bitmap of stacks. -/
def stackMap (p : Nat → Bool) : Nat := (List.range 12).foldl (fun a k => a + b2n (p k) * 2 ^ k) 0

/-- A far unit of the list (R498); the rate of a DDR5 channel is a free value (log entry 5). -/
def State.farInfo (s : State) (v u : Nat) : List Byte :=
  let cap := s.misc.farCaps.getD u 0
  if cap = 0 then List.replicate 16 0
  else leBytes cap 8 ++ leBytes (if s.fuse.variantK then v % 6401 else 64) 2
    ++ byte (if s.fuse.variantK then 2 else 1) ++ byte (b2n (!bit s.misc.farDown u)) ++ List.replicate 4 0

/-- An image bank (R470, R498). -/
def bankInfo (b : ImgBank) : List Byte :=
  byte (b2n b.valid) ++ byte (b2n b.trial) ++ byte b.trialCount ++ byte 0 ++ leBytes (Config.imageVersion b.bytes) 4
    ++ (List.range 5).flatMap (fun k => fit 64 (Config.imageDigest b.bytes k))

/-- Variant code (R498). -/
def State.variantCode (s : State) : Nat := if s.fuse.variantK then 0x4B else 0x4E

/-- Endpoint ID, or 0xFFFF_FFFF while unset. -/
def State.endpointWord (s : State) : Nat := s.misc.endpoint.getD 0xFFFFFFFF

/-- A stack, or none, is held after a trip. -/
def State.heldMap (s : State) : Nat := stackMap fun st => (s.unacked st).isSome

/-- The GET_INFO response body (R498). -/
def State.infoBody (s : State) (v : Nat) : List Byte :=
  let flags := b2n s.misc.belowGrade + 2 * b2n s.misc.cfgDefaulted + 4 * b2n s.fw.fallback + 8 * b2n (s.heldMap != 0)
  leBytes s.fuse.grade 2 ++ byte s.variantCode ++ byte flags ++ byte s.legacyByte ++ byte (legacyCode s.legacyByte)
    ++ byte fwMinor ++ byte s.fw.running ++ leBytes s.fuse.serial 8 ++ leBytes s.misc.licence 4 ++ leBytes s.endpointWord 4
    ++ leBytes s.fuse.macBase 8 ++ leBytes s.misc.logBase 8 ++ leBytes s.misc.logCap 4
    ++ leBytes s.heldMap 2 ++ leBytes (stackMap fun st => !s.stackHeld st) 2
    ++ siteMap s.activeSite ++ siteMap s.spareSite
    ++ (List.range 8).flatMap (s.farInfo v)
    ++ byte (b2n s.interleaved) ++ byte s.misc.linkWidth ++ leBytes s.misc.linkRate 2 ++ List.replicate 4 0
    ++ leBytes (if s.farLicensed then s.farSize else 0) 8
    ++ bankInfo s.fw.bankA ++ bankInfo s.fw.bankB ++ leBytes s.misc.poolBase 8

/-- GET_INFO (R498). -/
def doGetInfo (f : Nat) (_ : Req) : Eff := fresh fun v => .get fun s => respond' f 0 (s.infoBody v)

/-- GET_INFO (R498). -/
def execGetInfo (f : FnIx) (s : State) : Out := finish (withReq f 2 (doGetInfo f)) s

/-! ## Counters and licences (R617-R620) -/

/-- Value a monotonic counter reads as (R617): 0 BOOT, 1 LIC. -/
def State.counter (s : State) (k : Nat) : Nat :=
  let v := if k = 0 then s.sec.boot else s.sec.lic
  let burnt := if k = 0 then s.sec.bootBurnt else s.sec.licBurnt
  if Config.hmacOk k v && decide (4096 * burnt ≤ v) then v else 0xFFFFFFFF

/-- Checkpoint bits burnt once a counter stands at a value (R617). -/
def burn (burnt v : Nat) : Nat := if v % 4096 = 0 ∧ burnt < 256 then burnt + 1 else burnt

/-- The set of features R499 names. -/
def featureMask (d : List Byte) : Nat := field d 20 4

/-- A licence is valid (R618, R619), with the counters at given values; one bound to a counter that reads 0xFFFF_FFFF has
lapsed (R617). -/
def State.licenceOk (s : State) (d : List Byte) (boot lic : Nat) : Bool :=
  let k := field d 24 1
  let c := if k = 1 then boot else if k = 2 then lic else 0
  field d 0 4 == 0x3743494C && field d 4 2 == 1 && field d 6 2 == 0 && field d 25 3 == 0 && field d 32 32 == 0
    && decide (featureMask d < 64) && decide (k ≤ 2) && Config.rootSigned (d.take 64) ((d.drop 64).take 512)
    && field d 8 8 == s.fuse.serial && decide (c ≤ field d 28 4) && c != 0xFFFFFFFF

/-- Features of licences. -/
def features (l : List (List Byte)) : Nat := l.foldl (fun a d => a ||| featureMask d) 0

/-- LICENCE_INSTALL (R10, R620). -/
def licenceInstall (f : Nat) (r : Req) : Eff :=
  let n := field r.body 8 4
  if n = 0 ∨ n % 576 ≠ 0 ∨ 8064 < n then answer f stBadLength
  else hostIn f (field r.body 0 8) n fun d => .get fun s =>
    let ls := (List.range (n / 576)).map (fun k => (d.drop (576 * k)).take 576)
    let lic := min (s.counter 1 + 1) 0xFFFFFFFF
    let ok (x : List Byte) : Bool := s.licenceOk x (s.counter 0) lic
    let new := ls.zipIdx.filterMap (fun x => if (ls.drop (x.2 + 1)).any (fun y => field y 16 4 == field x.1 16 4) then none else some x.1)
    let kept := s.sec.licences.filter (fun x => ok x && !new.any (fun y => field y 16 4 == field x 16 4))
    if !(ls.all ok) then answer f stDenied
    else if 32 < kept.length + new.length then answer f stNoResource
    else Eff.all [
      setSec (fun x => { x with lic := x.lic + 1, licBurnt := burn x.licBurnt (x.lic + 1), licences := kept ++ new }),
      setMisc (fun m => { m with licence := m.licence ||| features new }),
      .get fun s => respond' f 0 (leBytes s.misc.licence 4)]

/-- LICENCE_INSTALL (R620). -/
def execLicenceInstall (f : FnIx) (s : State) : Out := finish (withReq f 4 (licenceInstall f)) s

/-! ## ATTEST (R612, R615) -/

/-- A set of units as bytes: the fuse map or the exclusion record. -/
def unitBytes (l : List UnitId) : List Byte := l.flatMap (fun u => leBytes u.cls 8 ++ leBytes u.id 8)

/-- Bytes 0-639 of the report (R615). -/
def State.reportBody (s : State) (nonce : List Byte) : List Byte :=
  let b := s.runBank
  let granted := (List.range 1152).any (fun sl => s.flag .ECC_TWG_grant sl)
  let flags := b2n s.misc.belowGrade + 2 * b2n s.misc.cfgDefaulted + 4 * b2n s.fw.fallback + 8 * b2n s.sec.debug + 16 * b2n granted
  leBytes 0x54523741 4 ++ leBytes 1 2 ++ leBytes 1152 2 ++ leBytes s.fuse.serial 8 ++ leBytes s.fuse.grade 2
    ++ byte s.variantCode ++ byte flags ++ byte (legacyCode s.legacyByte) ++ byte s.fw.running ++ leBytes 0 2
    ++ leBytes (Config.imageVersion b.bytes) 4 ++ leBytes ((Config.imageSec b.bytes).getD 0) 2 ++ leBytes s.sec.floor 2
    ++ leBytes s.misc.licence 4 ++ leBytes s.endpointWord 4 ++ leBytes (s.counter 0) 4 ++ leBytes (s.counter 1) 4
    ++ leBytes s.sec.signed 8 ++ leBytes 0 8 ++ fit 64 nonce
    ++ (List.range 5).flatMap (fun k => fit 64 (Config.imageDigest b.bytes k))
    ++ fit 64 (Config.sha512 (if s.misc.cfgDefaulted then factoryBlock else s.cfgBlock))
    ++ fit 64 (Config.sha512 (unitBytes s.fuse.bad)) ++ fit 64 (Config.sha512 (unitBytes s.excl))

/-- Bytes 0-575 of the identity certificate (R612). -/
def State.certificateBody (s : State) : List Byte :=
  leBytes s.fuse.serial 8 ++ leBytes s.fuse.grade 2 ++ byte s.variantCode ++ List.replicate 5 0
    ++ fit 512 Config.identityModulus ++ leBytes 65537 4 ++ List.replicate 44 0

/-- ATTEST (R612, R615): a nonce of zeros asks for the certificate. -/
def attest (f : Nat) (r : Req) : Eff := .get fun s =>
  let nonce := r.body.take 64
  if nonce.all (· == 0) then respond' f 0 (s.certificateBody ++ fit 512 (Config.certificateSign s.certificateBody))
  else
    let d := s.reportBody nonce
    .seq (setSec fun x => { x with signed := (x.signed + 1) % 2 ^ 64 }) (respond' f 0 (d ++ fit 512 (Config.identitySign d)))

/-- ATTEST (R615). -/
def execAttest (f : FnIx) (s : State) : Out := finish (withReq f 3 (attest f)) s

/-! ## Image banks (R466-R470, R475, R614) -/

/-- Change an image bank. -/
def setImgBank (k : Nat) (g : ImgBank → ImgBank) : Eff :=
  setFw fun x => if k = 0 then { x with bankA := g x.bankA } else { x with bankB := g x.bankB }

def State.imgBank (s : State) (k : Nat) : ImgBank := if k = 0 then s.fw.bankA else s.fw.bankB

/-- An IMAGE log record of a bank event (R475). -/
def imageLog : Eff := logFree 2 0 0 []

/-- Put a chunk into an image's bytes. -/
def putChunk (old : List Byte) (off : Nat) (d : List Byte) : List Byte :=
  if off = 0 then d else putAt (old ++ List.replicate (off - old.length) 0) off d

/-- FW_UPDATE (R468, R614). In recovery no bank runs. -/
def fwUpdate (f : Nat) (r : Req) : Eff :=
  let k := field r.body 0 1
  let last := field r.body 1 1
  let n := field r.body 16 4
  if 1 < k ∨ 1 < last ∨ 2 ^ 20 < n ∨ (last = 0 ∧ n % 4096 ≠ 0) then answer f stBadLength
  else .get fun s =>
    if k = s.fw.running ∧ s.misc.phase ≠ 0x30 then answer f stDenied
    else hostIn f (field r.body 8 8) n fun d => .get fun s =>
      let img := putChunk (s.imgBank k).bytes (field r.body 4 4) d
      let low : Bool := match Config.imageSec img with | some v => decide (v < s.sec.floor) | none => false
      let ok := last == 1 && Config.imageOk img && !low
      Eff.all [setImgBank k (fun _ => { valid := ok, bytes := img }),
        if low || (last == 1 && !ok) then answer f stDenied
        else .seq (Eff.when (last == 1) imageLog) (respond' f 0 (byte (b2n ok)))]

/-- FW_UPDATE (R468). -/
def execFwUpdate (f : FnIx) (s : State) : Out := finish (withReq f 0x0601 (fwUpdate f)) s

/-- FW_ACTIVATE (R469). -/
def doFwActivate (f : Nat) (r : Req) : Eff := .get fun s =>
    let k := field r.body 0 1
    if 1 < k then answer f stBadLength
    else if !(s.imgBank k).valid then answer f stDenied
    else Eff.all [setImgBank k (fun b => { b with trial := true, trialCount := 0 }),
      setImgBank (1 - k) (fun b => { b with trial := false }), setFw (fun x => { x with preferred := k }),
      imageLog, answer f 0]

/-- FW_ACTIVATE (R469). -/
def execFwActivate (f : FnIx) (s : State) : Out := finish (withReq f 0x0602 (doFwActivate f)) s

/-! ## The log and the trace points (R471-R476) -/

/-- Write a ring's header line as a ring that starts again (R472). -/
def startRing (base cap : Nat) : Eff := fwWrite base (wordsBytes [cap, 0, 0, 0, 0, 0, 0, 0])

/-- LOG_CONFIG (R471, R558). -/
def doLogConfig (f : Nat) (r : Req) : Eff :=
  let c := field r.body 0 4
  if ((List.range 8).any fun k => c == 2 ^ (12 + k)) = false then answer f stBadLength
  else Eff.all [writeCfg (fun d => putAt d 28 (leBytes c 4)), setMisc (fun m => { m with logCap := c }),
    .upd (.dropped 0), .get fun s => startRing s.misc.logBase c, answer f 0]

/-- LOG_CONFIG (R471, R558). -/
def execLogConfig (f : FnIx) (s : State) : Out := finish (withReq f 0x0610 (doLogConfig f)) s

/-- Index of the oldest record of the flash log: 16,384 are kept (R475). -/
def State.flashOldest (s : State) : Nat := s.flashLog.length - 16384

/-- LOG_FETCH (R475, R497): records from the first index asked for, or the oldest kept where that is later. -/
def doLogFetch (f : Nat) (r : Req) : Eff := .get fun s =>
    let first := max (field r.body 0 4) s.flashOldest
    let out := (s.flashLog.drop first).take (field r.body 4 4)
    hostOut f (field r.body 8 8) (out.flatMap wordsBytes)
      (respond' f 0 (leBytes out.length 4 ++ leBytes 0 4 ++ leBytes s.flashOldest 8))

/-- LOG_FETCH (R475, R497): records from the first index asked for, or the oldest kept where that is later. -/
def execLogFetch (f : FnIx) (s : State) : Out := finish (withReq f 0x0611 (doLogFetch f)) s

/-- TRACE_SET (R476): points 3,840-4,095 are reserved. -/
def doTraceSet (f : Nat) (r : Req) : Eff :=
  let v := field r.body 0 512
  if 2 ^ 3840 ≤ v then answer f stBadLength
  else .seq (setFw fun x => { x with trace := v }) (answer f 0)

/-- TRACE_SET (R476): points 3,840-4,095 are reserved. -/
def execTraceSet (f : FnIx) (s : State) : Out := finish (withReq f 0x0612 (doTraceSet f)) s

/-- TRACE_QUERY (R476). -/
def doTraceQuery (f : Nat) (r : Req) : Eff :=
  let d := Config.traceTable.take (field r.body 8 4)
  hostOut f (field r.body 0 8) d (respond' f 0 (leBytes d.length 4))

/-- TRACE_QUERY (R476). -/
def execTraceQuery (f : FnIx) (s : State) : Out := finish (withReq f 0x0613 (doTraceQuery f)) s

end Sys2Proof.Machine
end

