-- ==== Sys2Proof/Machine/Boot.lean ====
section
/-! DEFINITION. Bring-up and re-entry: module reset, the cold boot's phases, the steps of warm re-entry, and the events that
start them (23_bring_up.md, 27_module_interface.md). -/
namespace Sys2Proof.Machine

/-! ## Records and module reset (R371, R570) -/

/-- A BOOT log record of the SEC (R570). -/
def bootLog (code : Nat) : Eff := bootRecord 0 0 code

/-- Enter a phase or a step (R545, R563, R570). -/
def enterPhase (p : Nat) : Eff := .seq (setMisc fun m => { m with phase := p }) (bootLog p)

/-- A module reset (R371): what R371 keeps stays; a stack with an unacknowledged shutdown record is held (R568); each
fabric-plane reset raises a restart count (R443) and is counted (R378). -/
def moduleReset (phase : Nat) : Eff := .get fun s => Eff.all [
  .upd (.wipe phase),
  Eff.each s.slice (fun p => .upd (.slice p.1 { undef := p.2.undef })),
  Eff.each (List.range 12) (fun st => Eff.all [
    .upd (.fab st { restarts := (s.fabAt st).restarts + 1 }),
    setReg .CRS_CAUSE_last st 6, setReg .CRS_CAUSE_count st 1,
    .upd (.th st { setBoot := (s.thAt st).setBoot, setTemp := (s.thAt st).setTemp }),
    Eff.when (s.unacked st).isSome (setStack st fun x => { x with causes := 8, down := true })])]

/-- The cold boot begins (R545, R617): phase 1, and the BOOT counter rises. -/
def coldBoot : Eff := Eff.all [moduleReset 1,
  setSec (fun x => { x with boot := (x.boot + 1) % 2 ^ 32, bootBurnt := burn x.bootBurnt (x.boot + 1) }),
  bootLog 1]

/-- COLD_BOOT (R545): with the supply good and the I/O die not held off. -/
def execColdBoot (s : State) : Out := finish (Eff.when (s.misc.powerGood && !s.misc.iodOff) coldBoot) s

/-- RESET_N (R632, R597, R642): low for at least 10 us, then released. -/
def execResetN (us : Nat) (s : State) : Out :=
  finish (Eff.when (s.misc.powerGood && decide (10 ≤ us)) (.seq (setMisc fun m => { m with iodOff := false }) coldBoot)) s

/-- POWER_UP (R636, R637): at the start threshold the rails come up and PWRGD goes high; the cold boot begins. -/
def powerUpEff : Eff :=
  .seq (setMisc fun m => { m with powerGood := true, iodOff := false, overVolt := false }) coldBoot

/-- POWER_UP (R636, R637): at the start threshold the rails come up and PWRGD goes high; the cold boot begins. -/
def execPowerUp (mv : Nat) (s : State) : Out :=
  finish (Eff.when (!s.misc.powerGood && decide (43000 ≤ mv) && decide (mv < 58000) && (!s.misc.overVolt || decide (mv ≤ 56500))) (powerUpEff)) s

/-- POWER_LOSS (R636, R638, R228): PWRGD low, module reset, every rail off: DRAM contents are lost, ECC_INIT is cleared
and the always-on region releases THERM_ALARM_N. -/
def powerLossEff (mv : Nat) : Eff :=
  Eff.all [
    moduleReset 0,
    .get fun s => Eff.each s.slice (fun p => .upd (.slice p.1 {})),
    .upd (.clearRegs fun k => (keyFld k).info.dom == .dram), .upd (.clearMarks 0 (stackedEnd / 8)),
    setMisc fun m => { m with powerGood := false, alarmPin := false, overVolt := decide (58000 ≤ mv) }]

/-- POWER_LOSS (R636, R638, R228): PWRGD low, module reset, every rail off: DRAM contents are lost, ECC_INIT is cleared
and the always-on region releases THERM_ALARM_N. -/
def execPowerLoss (mv : Nat) (s : State) : Out :=
  finish (Eff.when (s.misc.powerGood && (decide (mv ≤ 41000) || decide (58000 ≤ mv))) (powerLossEff mv)) s

/-! ## Phase 2 and step W2: images, configuration, licences (R467, R469, R556, R560, R613) -/

/-- A bank passes the checks of R613: two of them are what the SEC ROM finds, the floor is the model's. -/
def State.bankOk (s : State) (k : Nat) (c : BankCheck) : Bool :=
  (s.imgBank k).valid && c.keyHash && c.signature
    && decide (s.sec.floor ≤ (Config.imageSec (s.imgBank k).bytes).getD 0) && c.digests

/-- The bank that is booted, and whether it is a fallback (R467, R469): a bank in trial whose count stands at 3 gives way
to the other. -/
def State.bootChoice (s : State) (a b : BankCheck) : Option (Nat × Bool) :=
  let p := s.fw.preferred
  let ok (k : Nat) : Bool := s.bankOk k (if k = 0 then a else b)
  if ok p then some (p, false) else if ok (1 - p) then some (1 - p, true) else none

/-- A boot of a bank in trial is counted in flash before it loads; the third unconfirmed one makes the other bank
preferred (R469). -/
def countTrial : Eff := .get fun s =>
  let p := s.fw.preferred
  let b := s.imgBank p
  Eff.when b.trial (
    if 3 ≤ b.trialCount then Eff.all [setImgBank p (fun b => { b with trial := false }),
      setFw (fun x => { x with preferred := 1 - p, fallback := true }), imageLog]
    else .seq (setImgBank p fun b => { b with trialCount := b.trialCount + 1 }) imageLog)

/-- Put the configuration block into use (R556): the passing copy with the higher generation, or the defaults. -/
def readConfig : Eff := .get fun s =>
  let c0 := s.cfgSlots.getD 0 []
  let c1 := s.cfgSlots.getD 1 []
  let pick (k : Nat) (d : List Byte) : Eff := .seq (.upd (.cfg d)) (setMisc fun m => { m with cfgSlot := k, cfgDefaulted := false })
  if blockOk c0 && (!blockOk c1 || decide (field c1 8 8 ≤ field c0 8 8)) then pick 0 c0
  else if blockOk c1 then pick 1 c1
  else Eff.all [.upd (.cfg []), setMisc (fun m => { m with cfgDefaulted := true }), .get fun s => logRec 1 3 12 0 0 0 (s.bootPayload 0x31)]

/-- What the block sets for this bring-up: endpoint ID and log capacity (R557); values out of range act as the
defaults. -/
def useConfig : Eff := .get fun s =>
  let e := field s.cfgBlock 24 4
  let c := field s.cfgBlock 28 4
  setMisc fun m => { m with
    endpoint := if 262143 < e then none else some e
    logCap := if (List.range 8).any (fun k => c == 2 ^ (12 + k)) then c else 65536 }

/-- Verify the stored licences (R560, R617): those that pass form the set in force, each other one is reported. -/
def checkLicences : Eff := .get fun s =>
  let ok (d : List Byte) : Bool := s.licenceOk d (s.counter 0) (s.counter 1)
  Eff.all [setMisc (fun m => { m with licence := features (s.sec.licences.filter ok) }),
    Eff.each (s.sec.licences.filter (fun d => !ok d)) (fun _ => freshWords 5 fun ws => logRec 0x10 4 12 0 0 0 ws),
    Eff.each ((List.range 2).filter (fun k => s.counter k == 0xFFFFFFFF)) (fun _ => freshWords 5 fun ws => logRec 1 5 12 0 0 0 ws)]

/-- The PMC requests a first conversion of a powered unit: its watchdog arms (R546, R588, R590). -/
def firstConversion (t : Nat) : Eff := .seq (setReg .TH_CONV_busy t 1) (setReg .TH_WDOG_armed t 1)

/-- Units that are powered: the I/O die, and stacks not held after a trip. -/
def State.poweredUnits (s : State) : List Nat :=
  (List.range 13).filter fun t => t == 12 || (!s.flag .TH_STAT_tripped t && (s.stackAt t).causes &&& 8 == 0)

/-- An I/O-die trip of the last run has its record written by the SEC (R597): its figures are free values. -/
def iodRecord : Eff := .get fun s => Eff.when (s.therm.iodCause != 0)
  (fresh fun a => fresh fun b => fresh fun c => fresh fun d => .get fun s => .seq
    (writeShut 12 [a % 2 ^ 64, legacyCode s.legacyByte * 2 ^ 8 + s.therm.iodCause * 2 ^ 4 + 12, b % 2 ^ 64, c % 2 ^ 32 * 2 ^ 32 + c % 2,
      d % 2 ^ 40 * 2 ^ 24])
    (setTherm fun x => { x with iodCause := 0 }))

/-- Phase 2 and step W2 (R545, R563): on to a phase, or to recovery when no bank loads (R467). -/
def loadImages (r : PhaseIn) (next : Nat) : Eff := .seq countTrial (.get fun s =>
  match s.bootChoice r.bankA r.bankB with
  | none => .seq (enterPhase 0x30) checkWaiting
  | some (k, fb) => Eff.all [
      setFw (fun x => { x with running := k, fallback := fb || (x.fallback && k == x.preferred) }),
      Eff.when fb imageLog,
      readConfig, useConfig, checkLicences, applyAllClocks, iodRecord,
      .get fun s => Eff.each s.poweredUnits firstConversion,
      enterPhase next, checkWaiting])

/-! ## Phase 3 and step W3: exclusions and roles (R549-R552) -/

/-- Units excluded by the fuse map or the exclusion record. -/
def State.barred (s : State) : List UnitId := s.fuse.bad ++ s.excl

/-- Units of classes a test covers that fail it now and were not excluded before (R549), each once. -/
def State.newFails (s : State) (us : List UnitId) (cls : List Nat) : List UnitId :=
  (us.zipIdx.filter (fun u => cls.contains u.1.cls && !s.barred.contains u.1
    && !(us.take u.2).contains u.1)).map (·.1)

/-- Take a unit out of service (R549, R550, R584). -/
def excludeUnit (u : UnitId) : Eff :=
  match u.cls with
  | 0 => setCluster (u.id / 12) fun x => { x with off := setBit x.off (u.id % 12) true }
  | 1 => setSlice (u.id / 128) fun x => { x with bsuOff := setBit x.bsuOff (u.id % 128) true }
  | 2 => setSlice (u.id / 8) fun x => { x with withheld := true, deadCh := setBit x.deadCh (u.id % 8) true }
  | 3 => setReg .MC_CFG_cache_en u.id 0
  | 4 => setCluster u.id fun x => { x with cccOff := true }
  | _ => .skip

/-- The unit's ID lies in its class. -/
def unitOk (u : UnitId) : Bool :=
  match u.cls with
  | 0 => decide (u.id < 1152) | 1 => decide (u.id < 147456) | 2 => decide (u.id < 9216)
  | 3 => decide (u.id < 1152) | 4 => decide (u.id < 96) | _ => false

/-- Record new failures of a test (R549) with an error kind, then take every excluded unit of the classes out. How the
record names the test is not stated: its detail is a free value (log entry 58). -/
def testUnits (us : List UnitId) (cls : List Nat) (kind : Nat) : Eff := .get fun s =>
  let new := s.newFails (us.filter unitOk) cls
  Eff.all [.upd (.excl (s.excl ++ new)), Eff.each new (fun u => fresh fun v => report kind u.cls u.id 0 0 31 [v % 2 ^ 64]),
    .get fun s => .seq (.upd (.excluded (s.excluded.filter (fun u => !cls.contains u.cls) ++ s.barred.filter (fun u => cls.contains u.cls))))
      (Eff.each (s.barred.filter (fun u => cls.contains u.cls && unitOk u)) excludeUnit)]

/-- Good sites of a cluster in ascending order (R551): none where its CCC is excluded. -/
def State.goodSites (s : State) (c : Nat) : List Nat :=
  if (s.clusterAt c).cccOff then [] else ((List.range 12).map (· + c * 12)).filter (fun n => !s.coreOff n)

/-- Roles of a cluster's good sites (R551): with more than the grade's active cores, those, a spare and reserves; with
fewer, all but one run and one is the spare; a single site runs. -/
def roles (a : Nat) (g : List Nat) : List Nat × Option Nat × List Nat :=
  if a < g.length then (g.take a, g[a]?, g.drop (a + 1))
  else if g.length ≤ 1 then (g, none, [])
  else (g.take (g.length - 1), g[g.length - 1]?, [])

/-- Assign roles in every cluster (R551) and BELOW_GRADE (R552). -/
def assignRoles : Eff := .get fun s => .seq
  (Eff.each (List.range 96) fun c =>
    let r := roles s.perCluster (s.goodSites c)
    setCluster c fun x => { x with ranks := r.1, spare := r.2.1, reserve := r.2.2, spareUsed := false, moved := [] })
  (setMisc fun m => { m with belowGrade := (List.range 96).any (fun c => decide ((s.goodSites c).length < s.perCluster + 1)) })

/-- A withheld slice or a stack out of service sets BELOW_GRADE too (R552). -/
def gradeCheck : Eff := .get fun s => Eff.when
  ((List.range 1152).any (fun sl => (s.sliceAt sl).withheld) || (List.range 12).any (fun st => (s.stackAt st).out))
  (setMisc fun m => { m with belowGrade := true })

/-! ## Phases 4 to 7 -/

/-- The good-module mask a link trains with (R347, R348): none where an end is held or the link is excluded. -/
def State.linkMods (s : State) (ls : List (Nat × Nat × Nat)) (st k : Nat) : Nat :=
  if (s.stackAt st).causes != 0 || (decide (k < 2) && (s.stackAt (ringNext st k)).causes != 0)
      || s.barred.contains { cls := 5, id := st * 3 + k } then 0
  else match ls.find? (fun l => l.1 == st && l.2.1 == k) with
    | some l => l.2.2 % 256
    | none => 0

/-- Lane groups reported as failing that were not excluded before, with their link's unit ID (R348, R549). -/
def State.laneFails (s : State) (ls : List (Nat × Nat × Nat)) : List (UnitId × Nat) :=
  (List.range 12).flatMap fun st => [0, 2].flatMap fun k =>
    if (s.stackAt st).causes != 0 || (k == 0 && (s.stackAt (ringNext st 0)).causes != 0) then [] else
      match ls.find? (fun l => l.1 == st && l.2.1 == k) with
      | none => []
      | some l => (((List.range 8).filter (fun m => !bit l.2.2 m)).map (fun m => (laneGroup st k m, st * 3 + k))).filter
          (fun u => !s.barred.contains u.1)

/-- Lane groups that fail qualification enter the exclusion record, with a record of kind BIST_FAIL each (R549). -/
def testLanes (ls : List (Nat × Nat × Nat)) : Eff := .get fun s => .seq
  (.upd (.excl (s.excl ++ (s.laneFails ls).map (·.1))))
  (Eff.each (s.laneFails ls) fun u => fresh fun v => report 0x71 5 u.2 0 0 31 [v % 2 ^ 64])

/-- Train every link (phase 5, step W5): each ring link once from its clockwise end, each IOD link; a stack with no link is
out of service (R549); the routes follow (R356). -/
def trainAll (ls : List (Nat × Nat × Nat)) : Eff := .get fun s => Eff.all [
  testLanes ls,
  Eff.each (List.range 12) (fun st => .seq (trainLink st 0 (s.linkMods ls st 0)) (trainLink st 2 (s.linkMods ls st 2))),
  .get fun s => Eff.each (List.range 12) (fun st => Eff.when (!(s.linkUp st 0 || s.linkUp st 1 || s.linkUp st 2) && (s.stackAt st).causes == 0)
    (setStack st fun x => { x with out := true })),
  .get fun s => Eff.each (List.range 12) (fun st => Eff.when (!(s.stackAt st).out) (Eff.all [
    restoreRoutes st,
    Eff.each ((List.range 3).filter (fun k => !s.linkUp st k)) (fun k => reroute st k true)])),
  gradeCheck]

/-- Far units found and mapped (R394-R396): none without the licence (R8); at most 4 of 4 TiB or 8 of 2 TiB in all. -/
def mapFar (caps : List Nat) : Eff := .get fun s =>
  let n := if s.fuse.variantK then 8 else 4
  setMisc fun m => { m with farCaps := if bit m.licence 1 then caps.take n else [], farDown := 0 }

/-- An ownership region that firmware may take for itself: whole, in a slice and a stack in service. -/
def State.placeable (s : State) (r : Nat) : Bool :=
  decide (r < 18432) && !(s.sliceAt (r / 16)).withheld && !s.stackHeld (r / 16 / 96)

/-- Choose the reserved regions (R555): free values; the pool's four regions do not hold the log ring's. -/
def reserveRegions : Eff := fresh fun v => fresh fun w => .get fun s =>
  let l := ((findNat (fun k => s.placeable ((v + k) % 18432)) 18432 0).map (fun k => (v + k) % 18432)).getD 0
  let fits (r : Nat) : Bool := (List.range 4).all (fun k => s.placeable (r + k) && r + k != l)
  let p := ((findNat (fun k => fits ((w + k) % 18432)) 18432 0).map (fun k => (w + k) % 18432)).getD 0
  Eff.all [setMisc (fun m => { m with logBase := l * 2 ^ 26, poolBase := p * 2 ^ 26 }),
    .get fun s => .seq (startRing s.misc.logBase s.misc.logCap) (startRing (s.misc.logBase + 0x3000000) 16384)]

/-- Phase 6 (R226, R233, R554): memory and SRAM zeroed, tables reloaded, reserved regions chosen, gatherers started; without
the multiple-flasks licence flask 0 takes every cluster with an active core. -/
def initMemory (far : List Nat) : Eff := .get fun s => Eff.all [
  Eff.each ((List.range 12).filter (fun st => !s.stackHeld st)) (fun st => Eff.all [
    initStack st, Eff.each (List.range 96) (fun k => reloadRetired (st * 96 + k)),
    Eff.each (List.range 8) (fun k => Eff.when (!s.clusterHeld (st * 8 + k)) (clusterReturn (st * 8 + k)))]),
  startGather 96, mapFar far, reserveRegions,
  .get fun s => Eff.when (!s.multiFlask) (Eff.each (List.range 96) fun c =>
    Eff.when (!(s.clusterAt c).ranks.isEmpty) (setCluster c fun x => { x with flask := some 0 }))]

/-- A stack's stored settings may be used (R564): stored in this cold-boot number, the first reading within 20 K. -/
def State.settingsOk (s : State) (st : Nat) : Bool :=
  let x := s.thAt st
  x.setBoot == s.sec.boot + 1 && s.flag .TH_RES_valid st
    && decide ((signed 16 (s.reg .TH_RES_temp st) - x.setTemp).natAbs ≤ 160)

/-- Start every enabled port (R545, R427); with stored settings its sub-ports go straight to the short window (W7). -/
def startPorts (warm : Bool) : Eff := .get fun s => Eff.each (List.range 60) fun g =>
  Eff.when (field (s.portCfg g) 1 1 == 1 && s.portLive g) (.seq (applyPort g (s.portCfg g))
    (Eff.when (warm && s.settingsOk (portStack g)) (.get fun s =>
      Eff.each ((List.range 4).filter (s.subUsed g)) fun k => startQual g k false false)))

/-- The gate of phase 7 (R553): every sub-port of every enabled port is READY or FAILED. -/
def State.portsDone (s : State) : Bool := (List.range 60).all fun g =>
  !s.flag .FP_CFG_en g || (List.range (s.ways g)).all (fun k => s.subCarries g k || s.subState g k == 6)

/-- The running bank is confirmed (R469, R614): the floor rises first. -/
def confirmBank : Eff := .get fun s =>
  let k := s.fw.running
  let v := (Config.imageSec (s.imgBank k).bytes).getD 0
  Eff.when (s.imgBank k).trial (Eff.all [
    setSec (fun x => { x with floor := max x.floor v }), setImgBank k (fun b => { b with trial := false }), imageLog])

/-- Each stack's settings record (R564). -/
def storeSettings : Eff := .get fun s => Eff.each ((List.range 12).filter (fun st => !s.stackHeld st)) fun st =>
  setTh st fun x => { x with setBoot := s.sec.boot + 1, setTemp := signed 16 (s.reg .TH_RES_temp st) }

/-- STORED_SETTINGS_WRITE (R564): every 60 minutes in service. -/
def execStoredSettingsWrite (s : State) : Out := finish (Eff.when (s.misc.phase == 0x20) storeSettings) s

/-- Bring-up is complete (R548, R554): in service, the bank confirmed, settings stored. -/
def inService (code : Nat) : Eff := Eff.all [
  setMisc (fun m => { m with phase := 0x20 }), setFw (fun x => { x with warmFails := 0 }), bootLog code, confirmBank, storeSettings]

/-- The configuration enables a port (R553). -/
def State.anyPort (s : State) : Bool := (List.range 60).any fun g => field (s.portCfg g) 1 1 == 1

/-- COLD_PHASE_END (R545): a module whose configuration enables no port skips phase 7 (R553). -/
def coldPhase (r : PhaseIn) : Eff := .get fun s =>
  match s.misc.phase with
  | 1 => .seq (Eff.each (List.range 12) fun st => Eff.all [
      setReg .CRS_STAT_fab_lock st 1, setReg .CRS_STAT_mem_lock st 1, setReg .CRS_STAT_region_lock st 3]) (enterPhase 2)
  | 2 => loadImages r 3
  | 3 => Eff.all [testUnits r.failed [0, 1, 3, 4] 0x71, assignRoles, enterPhase 4]
  | 4 => Eff.all [testUnits r.failed [2] 0x25, enterPhase 5]
  | 5 => Eff.all [trainAll r.links, enterPhase 6]
  | 6 => .seq (initMemory r.far) (.get fun s => if s.anyPort then .seq (enterPhase 7) (startPorts false) else inService 0x20)
  | 7 => Eff.when s.portsDone (inService 0x20)
  | _ => .skip

/-- COLD_PHASE_END (R545). -/
def execColdPhaseEnd (r : PhaseIn) (s : State) : Out := finish (coldPhase r) s

/-- FABRIC_PHASE_TIMEOUT (R553). -/
def execFabricPhaseTimeout (s : State) : Out := finish (Eff.when (s.misc.phase == 7) (inService 0x20)) s

/-! ## Warm re-entry (R562-R567, R569) -/

/-- An IOD reset (R371, R565, R566, R489): its domain is cleared, every stack is held, every step in flight ends, trace points
clear. -/
def iodReset : Eff := .get fun s => Eff.all [
  Eff.each s.seq (fun q => stepEnd q.1), resetIod,
  setFw (fun x => { x with trace := 0, restarting := [], restarted := [], traced := [] }), setSec (fun x => { x with signed := 0 })]

/-- Warm re-entry begins, or where R569 and R567 say, the cold boot from phase 2 or recovery. -/
def warmReentry : Eff := .get fun s =>
  let p := s.misc.phase
  if p = 0 ∨ p = 0x30 then .skip
  else if p ≤ 6 then Eff.all [iodReset, Eff.each (List.range 12) (fun st => .seq (releaseFp st 16)
      (setStack st fun x => { x with down := x.causes != 0 })), enterPhase 2]
  else if 0x11 ≤ p ∧ p ≤ 0x17 then .seq iodReset (.seq (setFw fun x => { x with warmFails := x.warmFails + 1 })
    (.get fun s => if 2 ≤ s.fw.warmFails then enterPhase 0x30 else enterPhase 0x11))
  else .seq iodReset (enterPhase 0x11)

/-- WARM_REENTRY (R562). -/
def execWarmReentry (s : State) : Out := finish warmReentry s

/-- Stacks whose logic comes back in this re-entry. -/
def State.returning (s : State) : List Nat := (List.range 12).filter fun st => (s.stackAt st).causes == 0 && !(s.stackAt st).out

/-- The step that ends (R563, R566, R623). -/
def warmStep (r : PhaseIn) : Eff := .get fun s =>
  match s.misc.phase with
  | 0x11 => .seq (Eff.each (List.range 12) fun st => releaseFp st 16) (enterPhase 0x12)
  | 0x12 => loadImages r 0x13
  | 0x13 => Eff.all [testUnits (r.failed.filter (fun u => u.cls == 0)) [0, 1, 3, 4] 0x71, assignRoles, gradeCheck, enterPhase 0x14]
  | 0x14 => Eff.all [testUnits r.failed [2] 0x25, gradeCheck,
      Eff.each s.returning (fun st => setStack st fun x => { x with down := false }), enterPhase 0x15]
  | 0x15 => Eff.all [trainAll r.links, enterPhase 0x16]
  | 0x16 => Eff.all [
      Eff.each (List.range 1152) endGrant,
      Eff.each s.returning (fun st => fpReturn st .skip),
      Eff.each (List.range 96) syncTokens, startGather 96, enterPhase 0x17, startPorts true]
  | 0x17 => inService 0x21
  | _ => .skip

/-- WARM_STEP_END (R563). -/
def execWarmStepEnd (r : PhaseIn) (s : State) : Out := finish (warmStep r) s

end Sys2Proof.Machine
end

