-- ==== Sys2Proof/Machine/Thermal.lean ====
section
/-! DEFINITION. Conversions, the DRAM estimate, bands, trips, the tray, keep-warm and the power loops
(25_thermal_and_cooling.md). -/
namespace Sys2Proof.Machine

/-- A TELEMETRY record of a stack, or of the module (R475): the spec lists what it tells and gives no layout, so its payload
is free (log entry 50). While a coolant alarm is active it is CRITICAL (R600). -/
def telemetryRec (unit sev : Nat) : Eff := freshWords 5 fun ws => .get fun s =>
  logRec 0x21 (if s.therm.alarm then 5 else sev) 12 1 unit 0 ws

/-! ## Trips (R593-R597) -/

/-- The I/O die trips (R597): its cause is latched for the next bring-up, the module reset is asserted and its logic is held
off until the reset input is released; THERM_ALARM_N goes low (R642). -/
def tripIod (cause : Nat) : Eff := Eff.all [
  setTherm (fun x => { x with iodCause := cause }), setMisc (fun m => { m with iodOff := true, alarmPin := true }), moduleReset 0]

/-- A thermal block's trip: a stack's or the I/O die's. -/
def tripUnit (t cause : Nat) : Eff := if t = 12 then tripIod cause else tripStack t cause

/-- STACK_TRIP (R593, R594): codes 0 and 5-15 are reserved. -/
def execStackTrip (st : StackIx) (cause : Fin 16) (s : State) : Out :=
  finish (Eff.when (s.misc.powerGood && decide (1 ≤ cause.val) && decide (cause.val ≤ 4)) (tripStack st cause)) s

/-- The PMC trips a stack or the I/O die with the cause in cause_wr (R597, R607): other values than 3 and 4 act as 3. -/
def pmcTrip (t : Nat) : Eff := .get fun s => tripUnit t (if s.reg .TH_STAT_cause_wr t = 4 then 4 else 3)

/-- TH_CTL_TRIP (R593, R607). -/
def execThCtlTrip (st : StackIx) (s : State) : Out := finish (Eff.when s.pmcLive (pmcTrip st)) s

/-- IOD_TRIP (R597). -/
def execIodTrip (cause : Fin 16) (s : State) : Out :=
  finish (Eff.when (s.misc.powerGood && !s.misc.iodOff && decide (1 ≤ cause.val) && decide (cause.val ≤ 4)) (tripIod cause)) s

/-- SHUTDOWN_RECORD (R595): the PMC writes the record of a trip, then rings the host. The I/O die's is written at
bring-up (R597). -/
def shutdownRecordEff (t : ThIx) (s : State) : Eff :=
  Eff.all [
    writeShut t (s.thAt t).words, setTh t (fun x => { x with due := false, held := true }), hostRing 0 21 t]

/-- SHUTDOWN_RECORD (R595): the PMC writes the record of a trip, then rings the host. The I/O die's is written at
bring-up (R597). -/
def execShutdownRecord (t : ThIx) (s : State) : Out :=
  finish (Eff.when (s.pmcLive && (s.thAt t).due) (shutdownRecordEff t s)) s

/-! ## Conversions (R588-R592, R599) -/

/-- TH_CONV.req is written (R588, R590): the first request arms the watchdog; one made during a conversion is ignored. -/
def convReq (t : Nat) : Eff := .get fun s => Eff.when (s.misc.phase != 0 && !s.flag .TH_CONV_busy t) (firstConversion t)

/-- TH_CONV_REQ (R588, R590). -/
def execThConvReq (t : ThIx) (s : State) : Out := finish (convReq t) s

/-- Outlet temperature the suspect test compares with, in mK over 0 degC; none while the tray is lost or has not been
read (R599). -/
def State.outlet (s : State) : Option Int :=
  if s.therm.lost then none else s.therm.tray.map (fun y => y.outlet * 125)

/-- The diode is suspect after a result, with its good readings in a row (R599): an invalid result, or a reading more than
2 K below the outlet; three readings at or above that restore it. With no outlet figure nothing changes (log entry 51). -/
def judgeDiode (x : ThSt) (valid : Bool) (t : Int) (outlet : Option Int) : Bool × Nat :=
  if !valid then (true, 0)
  else match outlet with
    | none => (x.suspect, x.good)
    | some o =>
      if t < o - 2000 then (true, 0)
      else if x.suspect then (if 2 ≤ x.good then (false, 0) else (true, x.good + 1))
      else (false, 0)

/-- The model value of a suspect diode (R599): outlet + theta * p, with 46.8 degC for an outlet that is lost. -/
def State.modelTemp (s : State) (t watts : Nat) : Int := s.outlet.getD 46800 + s.reg .TH_MODEL_theta t * watts

/-- The estimate of the hottest DRAM layer in mK (R591). -/
def State.dramTemp (s : State) (t watts : Nat) (logic : Int) : Int :=
  logic + 1500 - s.reg .TH_MODEL_grad t * watts + signed 16 (s.reg .TH_MODEL_offset t)

/-- The band of R592: 0 RAISE, 1 HOLD, 2 LOWER, 3 LIMIT; the I/O die has no DRAM estimate (R597). -/
def bandOf (logic : Int) (dram : Option Int) : Nat :=
  let at' (l d : Int) : Bool := decide (l ≤ logic) || dram.any (fun x => decide (d ≤ x))
  if at' 105000 95000 then 3 else if at' 100000 92000 then 2 else if at' 98000 90000 then 1 else 0

/-- The refresh rate after an estimate (R194, R195). -/
def refreshFor (suspect : Bool) (dram : Int) (now : Nat) : Nat :=
  if suspect || decide (85000 < dram) then 1 else if dram ≤ 83000 then 0 else now

/-- Act on a band (R592): the stack's clocks and the activity cap of its slices. -/
def actBand (st band : Nat) (dram : Int) : Eff := .get fun s =>
  let now := s.setting st
  let mhz := (s.thAt st).bandMhz
  match band with
  | 3 => Eff.all [setTh st (fun x => { x with bandMhz := 400 }), applyClocks st, setCap st (fun _ => 4)]
  | 2 => Eff.all [setTh st (fun x => { x with bandMhz := max 400 (now - 50) }), applyClocks st,
      Eff.when (decide (92000 ≤ dram)) (setCap st fun c => max 4 (c / 2))]
  | 1 => .skip
  | _ => Eff.all [setTh st (fun x => { x with bandMhz := min s.clockCap (mhz + 25) }), applyClocks st,
      setCap st (fun c => min 32 (c * 2))]

/-! ## Keep-warm (R601) -/

/-- Floor of keep-warm in degC: 45 where the tray gives none. -/
def State.warmFloor (s : State) : Nat := (s.therm.tray.map (·.floor)).getD 45

/-- No work item runs on a cluster of the stack. -/
def State.stackIdle (s : State) (st : Nat) : Bool :=
  !s.ctx.any (fun p => p.2.on && p.2.running && (s.sitesOf p.2).any (fun r => r.2 / 96 == st))

/-- Sites of a stack that may run warming pours: spares, reserves, and active cores that no context's range covers. -/
def State.warmSites (s : State) (st : Nat) : List Nat :=
  ((List.range 8).map (· + st * 8)).flatMap fun c =>
    let x := s.clusterAt c
    if s.cccLive c then
      (x.spare.toList ++ x.reserve ++ x.ranks.filter (fun n => !s.ctx.any (fun p => p.2.on && (s.sitesOf p.2).any (fun r => r.2 == n)))).filter s.coreLive
    else []

/-- Start, keep or stop warming after a result (R601). What a warming core's scratch then holds is zeroed before the core
runs an item or takes a rank. -/
def keepWarm (st : Nat) (valid : Bool) (logic : Int) : Eff := .get fun s =>
  let f : Int := s.warmFloor * 1000
  let idle := s.stackIdle st && !s.therm.alarm && valid && s.warmFloor != 0 && s.misc.phase == 0x20
  if idle && (decide (logic < f) || ((s.thAt st).warming && decide (logic < f + 3000))) then
    .seq (setTh st fun x => { x with warming := true })
      (setMisc fun m => { m with warmed := m.warmed ++ (s.warmSites st).filter (fun n => !decide (n ∈ m.warmed)) })
  else setTh st fun x => { x with warming := false }

/-- What the PMC does with a result of a stack (R591-R593, R599, R601): its own trips come before the bands. -/
def pmcResult (st : Nat) (valid : Bool) (temp : Int) (watts : Nat) : Eff := .get fun s =>
  let j := judgeDiode (s.thAt st) valid (temp * 125) s.outlet
  let logic := if j.1 then s.modelTemp st watts else temp * 125
  let dram := s.dramTemp st watts logic
  let band := bandOf logic (some dram)
  Eff.all [
    setTh st (fun x => { x with suspect := j.1, good := j.2, logic := logic, dram := dram, band := band }),
    setRefresh st (refreshFor j.1 dram (s.reg .MC_CFG_refresh (st * 96))),
    if 102000 ≤ dram then .seq (setReg .TH_STAT_cause_wr st 3) (pmcTrip st)
    else if j.1 ∧ 112000 ≤ logic then .seq (setReg .TH_STAT_cause_wr st 4) (pmcTrip st)
    else .seq (actBand st band dram) (keepWarm st valid (temp * 125))]

/-- What the PMC does with a result of the I/O die (R597): the band, with no DRAM estimate, and the trip of a model value at
112 degC (R593). -/
def iodResult (valid : Bool) (temp : Int) (watts : Nat) : Eff := .get fun s =>
  let j := judgeDiode (s.thAt 12) valid (temp * 125) s.outlet
  let logic := if j.1 then s.modelTemp 12 watts else temp * 125
  .seq (setTh 12 fun x => { x with suspect := j.1, good := j.2, logic := logic, band := bandOf logic none })
    (Eff.when (j.1 && decide (112000 ≤ logic)) (.seq (setReg .TH_STAT_cause_wr 12 4) (pmcTrip 12)))

/-- Show a unit's power (R607). -/
def showPower (t watts : Nat) : Eff := .get fun s =>
  .seq (setReg .TH_PWR_power_w t watts) (setReg .TH_PWR_peak_w t (max (s.reg .TH_PWR_peak_w t) (watts % 2 ^ 16)))

/-- A conversion completes (R588, R590, R593): the hardware records it and trips on its own limit; then the PMC acts. The
reading of an invalid result is a free value. -/
def diodeDone (t : Nat) (valid : Bool) (temp : Int) (watts : Nat) : Eff := fresh fun v => .get fun s => Eff.all [
  setReg .TH_CONV_busy t 0, addReg .TH_RES_seq t 1, setReg .TH_RES_valid t (b2n valid),
  setReg .TH_RES_temp t (if valid then s16 temp else v), showPower t watts, setReg .TH_WDOG_elapsed t 0,
  doorbell 96 (0x20 + t),
  if valid && decide (signed 16 (s.reg .TH_LIM_hw_trip t) ≤ temp) then tripUnit t 1
  else if !valid && s.reg .TH_WDOG_elapsed t == 500 then tripUnit t 2
  else .get fun s => Eff.when s.pmcLive
    (if t = 12 then iodResult valid temp watts
     else Eff.when (!s.flag .TH_STAT_tripped t && (s.stackAt t).causes &&& 8 == 0) (pmcResult t valid temp watts))]

/-- DIODE_DONE (R588). -/
def execDiodeDone (t : ThIx) (valid : Bool) (temp : Int) (watts : Nat) (s : State) : Out :=
  finish (Eff.when (s.flag .TH_CONV_busy t) (diodeDone t valid (signed 16 (s16 temp)) watts)) s

/-- CONVERSION_WATCHDOG (R590): 50 ms without a completion trip the unit; a conversion in progress is waited for. -/
def conversionWatchdogEff (t : ThIx) (s : State) : Eff :=
  .seq (setReg .TH_WDOG_elapsed t 500)
    (Eff.when (!s.flag .TH_CONV_busy t) (tripUnit t 2))

/-- CONVERSION_WATCHDOG (R590): 50 ms without a completion trip the unit; a conversion in progress is waited for. -/
def execConversionWatchdog (t : ThIx) (s : State) : Out :=
  finish (Eff.when (s.flag .TH_WDOG_armed t) (conversionWatchdogEff t s)) s

/-! ## The tray and the coolant (R598-R602) -/

/-- The flow setpoint in 0.01 L/min (R602). -/
def State.flowFor (s : State) : Nat :=
  let hot := (List.range 13).any fun t => s.flag .TH_RES_valid t
    && decide ((s.warmFloor + 10 : Int) * 8 ≤ signed 16 (s.reg .TH_RES_temp t))
  if s.therm.alarm then 2000
  else if s.therm.lost || (List.range 12).any (fun st => (s.thAt st).band != 0) || hot then 1000
  else max 400 (1000 * s.therm.input / 4400)

/-- Write the flow setpoint to the tray, when the M7 has the controller role (R602, R634). -/
def writeSetpoint : Eff := .get fun s => Eff.when (!s.misc.trayRole)
  (.seq (setTherm fun x => { x with setpoint := s.flowFor }) (.upd (.emit (.tray 0x20 s.flowFor))))

/-- TRAY_READ (R598, R634): three reads that fail in a row mark the tray lost; the setpoint follows every read. -/
def trayReadEff (got : Option Tray) (s : State) : Eff :=
  Eff.all [
    (match (if s.misc.trayRole then none else got) with
      | some y => setTherm fun x => { x with tray := some y, fails := 0, lost := false }
      | none => .seq (setTherm fun x => { x with fails := x.fails + 1, lost := x.lost || decide (2 ≤ x.fails) })
          (Eff.when (s.therm.fails == 2) (telemetryRec 0 3))),
    writeSetpoint, showAlarm]

/-- TRAY_READ (R598, R634): three reads that fail in a row mark the tray lost; the setpoint follows every read. -/
def execTrayRead (got : Option Tray) (s : State) : Out :=
  finish (Eff.when (s.pmcLive) (trayReadEff got s)) s

/-- TRAY_IBI (R598): the tray's in-band interrupt reaches the PMC as source TRAY; the read it asks for is a TRAY_READ. -/
def execTrayIbi (s : State) : Out := finish (Eff.when (s.misc.phase != 0) (doorbell 96 0x53)) s

/-- A condition of R600 on the last tray figures. -/
def State.coolantBad (s : State) : Bool :=
  s.therm.tray.any fun y => decide (320 < y.inlet) || decide (10 * y.flow < 9 * s.therm.setpoint)
    || decide (80 < y.outlet - y.inlet) || y.status % 4 != 0

/-- COOLANT_ALARM (R600): a condition has held for 1 s. -/
def coolantAlarmEff : Eff :=
  Eff.all [
    setTherm (fun x => { x with alarm := true }), showAlarm, writeSetpoint,
    Eff.each (List.range 12) fun st => setTh st fun x => { x with warming := false }]

/-- COOLANT_ALARM (R600): a condition has held for 1 s. -/
def execCoolantAlarm (s : State) : Out :=
  finish (Eff.when (s.pmcLive && s.coolantBad && !s.therm.alarm) (coolantAlarmEff)) s

/-- COOLANT_ALARM_CLEAR (R600): 10 s without a condition. -/
def execCoolantAlarmClear (s : State) : Out :=
  finish (Eff.when (s.pmcLive && !s.coolantBad && s.therm.alarm) (.seq
    (setTherm fun x => { x with alarm := false }) showAlarm)) s

/-! ## Power (R603-R605) -/

/-- A stack's clocks under the power loop (R604): 25 MHz down in an interval over a cap, 25 MHz up each 1 ms with the power
2 % below both caps. -/
def powerLoop (st watts input : Nat) : Eff := .get fun s =>
  let cap := s.moduleCap
  if 330 < watts ∨ cap < input then
    .seq (setTh st fun x => { x with powerMhz := max 400 (s.setting st - 25), quiet := 0 }) (applyClocks st)
  else if 100 * watts ≤ 98 * 330 ∧ 100 * input ≤ 98 * cap then
    if 9 ≤ (s.thAt st).quiet then
      .seq (setTh st fun x => { x with powerMhz := min 1100 (x.powerMhz + 25), quiet := 0 }) (applyClocks st)
    else setTh st fun x => { x with quiet := x.quiet + 1 }
  else setTh st fun x => { x with quiet := 0 }

/-- POWER_INTERVAL (R604): 1 ms averages of the input, the I/O die and the perStack. -/
def powerIntervalEff (input iod : Nat) (perStack : List Nat) : Eff :=
  Eff.all [
    setTherm (fun x => { x with input := input }), showPower 12 iod,
    Eff.each (List.range 12) (fun st => .seq (showPower st (perStack.getD st 0)) (powerLoop st (perStack.getD st 0) input)),
    Eff.when (decide (260 < iod)) (telemetryRec 0 3)]

/-- POWER_INTERVAL (R604): 1 ms averages of the input, the I/O die and the perStack. -/
def execPowerInterval (input iod : Nat) (perStack : List Nat) (s : State) : Out :=
  finish (Eff.when (s.pmcLive) (powerIntervalEff input iod perStack)) s

/-- FAST_THROTTLE (R605): a stack over its limit, or every stack when the input current exceeds 110 A. -/
def fastThrottleEff (amps : Nat) (perStack : List Nat) (s : State) : Eff :=
  Eff.each (List.range 12) fun st => Eff.when (s.flag .TH_CTL_fast_en st
    && (decide (110 < amps) || decide (s.reg .TH_FAST_limit_w st < perStack.getD st 0))) (setReg .TH_STAT_fast st 1)

/-- FAST_THROTTLE (R605): a stack over its limit, or every stack when the input current exceeds 110 A. -/
def execFastThrottle (amps : Nat) (perStack : List Nat) (s : State) : Out :=
  finish (fastThrottleEff amps perStack s) s

/-- FAST_THROTTLE_END (R605): 100 us below the limit. -/
def execFastThrottleEnd (st : StackIx) (s : State) : Out := finish (setReg .TH_STAT_fast st 0) s

end Sys2Proof.Machine
end

