-- ==== Sys2Proof/Machine/Firmware.lean ====
section
/-! DEFINITION. Supervision of the firmware cores, the log appender, trace points and background activities
(19_firmware.md). -/
namespace Sys2Proof.Machine

/-! ## Supervision (R463-R465). Firmware core 0 is the SEC, 1 the PMC, 2 the SCH, 3 + g the CCC of cluster g. -/

/-- A firmware core runs: the I/O die's in service or in bring-up, a CCC out of reset. -/
def State.coreUp (s : State) (u : Nat) : Bool :=
  if u < 3 then s.misc.phase != 0 && !decide (u ∈ s.fw.restarting) && (u == 0 || s.fwUp)
  else s.cccLive (u - 3)

/-- The record and the log record of a hang (R463, R475). -/
def hangRecords (u : Nat) : Eff := .seq (report 0x70 9 u 0 0 31)
  (fresh fun v => if u < 3 then logRec 0x11 5 12 0 0 0 [u, v] else logRec 0x11 5 12 2 0 0 [u, v])

/-- The supervisor acts on a hang (R463, R464). Whether a core that has restarted hangs within 1 s of it is a free value
(log entry 5). -/
def fwHang (u : Nat) : Eff := fresh fun v => .get fun s =>
  let again := decide (u ∈ s.fw.restarted) && v % 2 == 0
  if u = 0 then .seq warmReentry (hangRecords u)
  else if u < 3 then
    if again then .seq warmReentry (hangRecords u)
    else Eff.all [hangRecords u, doorbell 96 0x54, setFw fun x => { x with restarting := x.restarting ++ [u] }]
  else if again then Eff.all [hangRecords u, holdCluster (u - 3) 8, hostRing 0 22 (u - 3)]
  else Eff.all [hangRecords u, setFw (fun x => { x with restarting := x.restarting ++ [u] }), holdCluster (u - 3) 1]

/-- FW_HANG (R463). -/
def execFwHang (u : Fin 99) (s : State) : Out := finish (Eff.when (s.coreUp u) (fwHang u)) s

/-- A restart is over (R463, R465): the PMC sets DOUBLE in every stack and asks for a conversion of each powered unit; the SCH
answers what waited; a CCC's cluster leaves reset. -/
def restartDone (u : Nat) : Eff := .get fun s => Eff.all [
  setFw (fun x => { x with restarting := x.restarting.filter (· != u), restarted := nub (x.restarted ++ [u]) }),
  if u = 1 then .seq (Eff.each (List.range 12) fun st => setRefresh st 1) (Eff.each s.poweredUnits firstConversion)
  else if u = 2 then checkWaiting
  else if 3 ≤ u then releaseCluster (u - 3) 1 else .skip]

/-- FIRMWARE_RESTART_DONE (R465). -/
def execFirmwareRestartDone (u : Fin 99) (s : State) : Out :=
  finish (Eff.when (decide (u.val ∈ s.fw.restarting)) (restartDone u)) s

/-! ## The log appender (R471-R475, R571, R576) -/

/-- A ring at an address takes records: it has been placed, and its stack is not lost (R473). -/
def State.ringUp (s : State) (base : Nat) : Bool :=
  decide (7 ≤ s.misc.phase) && s.misc.phase != 0x30 && !s.stackHeld (base / 2 ^ 30 / 96)

/-- Write a record to slot seq mod capacity, then the header line (R472, R473). `w4` and `w5` are the header's counts of lost
and dropped records. -/
def appendRing (base cap : Nat) (w : List Nat) (w4 w5 : Nat) : Eff := .get fun s =>
  let n := s.rawWord (base + 8)
  let rd := s.rawWord (base + 16)
  let lost := s.rawWord (base + 24) + b2n (decide (cap ≤ n) && decide (rd ≤ n - cap))
  .seq (fwWrite (base + 64 * (1 + n % cap)) (wordsBytes (n % 2 ^ 64 :: w.drop 1)))
    (fwWrite base (wordsBytes [cap, (n + 1) % 2 ^ 64, rd, lost % 2 ^ 64, w4 % 2 ^ 64, w5 % 2 ^ 64, 0, 0]))

/-- A record goes to the log ring, and to flash when it is ERROR, FW_HANG or CRITICAL (R475). -/
def appendLog (w : List Nat) : Eff := .get fun s =>
  let n := s.rawWord (s.misc.logBase + 8)
  let type := w.getD 2 0 / 2 ^ 48
  let sev := w.getD 2 0 / 2 ^ 44 % 16
  .seq (appendRing s.misc.logBase s.misc.logCap w s.dropped 0)
    (Eff.when (type == 0x10 || type == 0x11 || sev == 5) (.upd (.flashLog (s.flashLog ++ [n % 2 ^ 64 :: w.drop 1]))))

/-- Class and unit of the firmware core that writes a unit's records (R474); none where the spec does not say. -/
def writerOf (cls id : Nat) : Option (Nat × Nat) :=
  match cls with
  | 0 => some (3, id / 12) | 1 => some (3, id / 128 / 12) | 2 => some (3, id / 8 / 12) | 3 => some (3, id / 12)
  | 4 => some (3, id) | 5 => some (3, id / 3 * 8) | 6 => some (4, id / 20 * 8)
  | 9 => some (if id < 3 then (0, 0) else (2, 0))
  | _ => none

/-- An error record goes to the error ring, its ERROR log record to the log, and host kind ERROR rings with that record's
seq, in the PF and in the VF of its flask (R571). -/
def appendError (ws : List (List Nat)) : Eff := fresh fun ts => fresh fun v => .get fun s =>
  let base := s.misc.logBase + 0x3000000
  let seq := s.rawWord (base + 8)
  let m := ws.headD []
  let w2 := m.getD 2 0
  let cls := w2 / 2 ^ 56 % 16
  let verdict := w2 / 2 ^ 52 % 16
  let kind := w2 / 2 ^ 32 % 2 ^ 16
  let unit := w2 % 2 ^ 32
  let flask := m.getD 5 0 / 2 ^ 22 % 32
  let by' := (writerOf cls unit).getD (v % 5, v / 8 % 2 ^ 16)
  let logSeq := s.rawWord (s.misc.logBase + 8)
  Eff.all [
    Eff.each ws (fun w => .get fun s => appendRing base 16384 w s.misc.errLost s.misc.errDropped),
    appendLog (logWords ts 0x10 (errSeverity kind verdict) (w2 / 2 ^ 60) by'.1 by'.2 0
      [seq, kind * 2 ^ 48 + cls * 2 ^ 44 + verdict * 2 ^ 40 + flask * 2 ^ 32 + unit, m.getD 3 0]),
    hostRing 0 10 logSeq, Eff.when (flask != 31) (flaskRing flask 10 logSeq)]

/-- LOG_APPEND (R473): the record at the front of the FIFO; none while the rings' stack is lost. -/
def logAppendEff (s : State) : Eff :=
  match s.fifo with
    | [] => .skip
    | x :: rest => Eff.when (s.ringUp s.misc.logBase) (.seq (.upd (.fifo rest))
        (if x.err then appendError x.words else Eff.each x.words appendLog))

/-- LOG_APPEND (R473): the record at the front of the FIFO; none while the rings' stack is lost. -/
def execLogAppend (s : State) : Out :=
  finish (logAppendEff s) s

/-! ## Trace points (R476) -/

/-- Unit class and unit of the processor of a firmware core that a trace point belongs to (R474, R476). -/
def tracer (u p : Nat) : Option (Nat × Nat) :=
  if p < 256 then (if u = 0 then some (0, 0) else none)
  else if p < 768 then (if u = 1 then some (1, 0) else none)
  else if p < 1280 then (if u = 2 then some (2, 0) else none)
  else if u < 3 then none
  else if p < 3328 then some (3, u - 3)
  else if p < 3840 ∧ (u - 3) % 8 = 0 then some (4, u - 3) else none

/-- TRACE (R476): an enabled point that is hit writes a record; of more than 64 from one core, those in the same millisecond
are dropped, and which they are is a free value (log entry 5). -/
def tracePoint (u p : Nat) (payload : List Nat) : Eff := fresh fun v => .get fun s =>
  let n := ((s.fw.traced.find? (fun x => x.1 == u)).map (·.2)).getD 0
  let put (k : Nat) : Eff := setFw fun x => { x with traced := (u, k) :: x.traced.filter (fun y => y.1 != u) }
  Eff.opt (tracer u p) fun w => Eff.when (bit s.fw.trace p)
    (if 64 ≤ n ∧ v % 2 = 0 then .upd (.dropped (s.dropped + 1))
     else .seq (put (if 64 ≤ n then 1 else n + 1))
       (logRec 0x30 (v / 2 % 6) (if u < 3 then 12 else (u - 3) / 8) w.1 w.2 p payload))

/-- TRACE (R476). -/
def execTracePoint (u : Fin 99) (point : Fin 4096) (payload : List Word) (s : State) : Out :=
  finish (Eff.when (s.coreUp u) (tracePoint u point (payload.map (·.toNat)))) s

/-! ## Background activities (R377, R477-R479) -/

/-- The firmware core runs the activity (R477): 0 SerDes recalibration, 1 DRAM recalibration, 2 scrub control, 3 telemetry,
4 wear-levelling. -/
def runsActivity (u act : Nat) : Bool :=
  match act with
  | 0 => decide (3 ≤ u) && (u - 3) % 8 == 0
  | 3 => u == 1 || decide (3 ≤ u)
  | 4 => u == 0
  | _ => decide (3 ≤ u)

/-- BG_LATE (R477): the core writes a BG_LATE record. -/
def bgLateEff (u : Fin 99) (act : Fin 5) : Eff :=
  if u.val < 3 then logFree 0x31 u 0 []
     else logFree 0x31 (if act.val = 0 then 4 else 3) (u - 3) []

/-- BG_LATE (R477): the core writes a BG_LATE record. -/
def execBgLate (u : Fin 99) (act : Fin 5) (s : State) : Out :=
  finish (Eff.when (s.coreUp u && runsActivity u act) (bgLateEff u act)) s

/-- TELEMETRY (R477): one record of a stack; CRITICAL while a coolant alarm is active (R600). -/
def telemetryEff (st : StackIx) (s : State) : Eff :=
  if s.therm.alarm then telemetryRec st 5 else logFree 0x21 1 st []

/-- TELEMETRY (R477): one record of a stack; CRITICAL while a coolant alarm is active (R600). -/
def execTelemetry (st : StackIx) (s : State) : Out :=
  finish (Eff.when (s.pmcLive && !s.stackHeld st) (telemetryEff st s)) s

/-- TS_PAIR (R377): the I/O-die counter before and after the stack's CRS_TS was read. -/
def tsPairEff (st : StackIx) : Eff :=
  fresh fun a => fresh fun b => fresh fun c => fresh fun v =>
    sendLog { err := false, words := [logWords (a + b) 0x20 (v % 6) 12 1 st 0 [a % 2 ^ 64, c % 2 ^ 64]] }

/-- TS_PAIR (R377): the I/O-die counter before and after the stack's CRS_TS was read. -/
def execTsPair (st : StackIx) (s : State) : Out :=
  finish (Eff.when (s.pmcLive && !s.stackHeld st) (tsPairEff st)) s

/-- DRAM_RECALIBRATION_STEP (R478): one channel; when every channel of the slice has had its step the cycle starts again. -/
def dramRecalibrationStepEff (sl : SliceIx) (ch : Fin 8) : Eff :=
  setSlice sl fun x =>
    let r := setBit x.recal ch true
    { x with recal := if r = 255 then 0 else r }

/-- DRAM_RECALIBRATION_STEP (R478): one channel; when every channel of the slice has had its step the cycle starts again. -/
def execDramRecalibrationStep (sl : SliceIx) (ch : Fin 8) (s : State) : Out :=
  finish (Eff.when (s.cccLive (sl / 12)) (dramRecalibrationStepEff sl ch)) s

/-- FLASH_WEAR_LEVELLING (R478): a block is erased; one that fails is retired and its contents moved. -/
def flashWearLevellingEff (block : Nat) (eraseFails : Bool) : Eff :=
  setFw fun x =>
    let n := ((x.erases.find? (fun e => e.1 == block)).map (·.2)).getD 0
    { x with erases := (block, n + 1) :: x.erases.filter (fun e => e.1 != block)
             badBlocks := if eraseFails then x.badBlocks ++ [block] else x.badBlocks }

/-- FLASH_WEAR_LEVELLING (R478): a block is erased; one that fails is retired and its contents moved. -/
def execFlashWearLevelling (block : Nat) (eraseFails : Bool) (s : State) : Out :=
  finish (Eff.when (s.coreUp 0 && !decide (block ∈ s.fw.badBlocks)) (flashWearLevellingEff block eraseFails)) s

end Sys2Proof.Machine
end

