-- ==== Sys2Proof/Machine/Errors.lean ====
section
/-! DEFINITION. Error reports, assay verdicts and what a lasting one does (24_errors_and_recovery.md). -/
namespace Sys2Proof.Machine

/-- The unit exists (R573). -/
def unitExists (u : UnitId) : Bool :=
  match u.cls with
  | 0 => decide (u.id < 1152) | 1 => decide (u.id < 147456) | 2 => decide (u.id < 9216) | 3 => decide (u.id < 1152)
  | 4 => decide (u.id < 96) | 5 => decide (u.id < 36) | 6 => decide (u.id < 240) | 7 => decide (u.id < 12)
  | 8 => u.id == 0 | 9 => decide (u.id < 99) | 10 => decide (u.id < 8) | 11 => decide (u.id < 262144)
  | 12 => decide (u.id < 17) | 13 => decide (u.id < 104) | _ => false

/-- The kind is defined, and for units of the class (R575). -/
def kindOf (kind cls : Nat) : Bool :=
  match kind with
  | 1 => cls == 0 || cls == 9 || cls == 11 || cls == 12 || cls == 13
  | 2 => cls == 0 || cls == 9 || cls == 11 || cls == 12 || cls == 13
  | 0x10 => cls == 0 | 0x11 => cls == 0 | 0x12 => cls == 0 | 0x13 => cls == 0
  | 0x20 => cls == 1 || cls == 2 | 0x21 => cls == 1 || cls == 2 | 0x22 => cls == 1 || cls == 2
  | 0x23 => cls == 0 || cls == 3 || cls == 4 | 0x24 => cls == 0 || cls == 3 || cls == 4
  | 0x25 => cls == 2 | 0x30 => cls == 1 | 0x31 => cls == 1 | 0x40 => cls == 5 | 0x41 => cls == 7
  | 0x50 => cls == 6 | 0x51 => cls == 6 | 0x52 => cls == 11 | 0x53 => cls == 11
  | 0x60 => cls == 13 | 0x61 => cls == 10 | 0x62 => cls == 10 | 0x70 => cls == 9
  | 0x71 => decide (cls ≤ 7)
  | _ => false

/-- ERROR_REPORT (R571, R577-R582): a detector reports an error of a unit. -/
def errorReportEff (kind : Nat) (u : UnitId) (addr : Nat) (syn : Word) (fl : Nat) : Eff :=
  fresh fun v => report kind u.cls u.id (addr % 2 ^ 64) syn.toNat (if fl < 16 then fl else 31) []
    (if u.cls = 7 ∨ u.cls = 11 then v % 13 else unitTs u.cls u.id)

/-- ERROR_REPORT (R571, R577-R582): a detector reports an error of a unit. -/
def execErrorReport (kind : Nat) (u : UnitId) (addr : Nat) (syn : Word) (fl : Nat) (s : State) : Out :=
  finish (Eff.when (s.misc.phase != 0 && unitExists u && kindOf kind u.cls) (errorReportEff kind u addr syn fl)) s

/-! ## Lasting verdicts (R584-R586) -/

/-- Note a lasting unit (R582), and enter it in the exclusion record (R584). -/
def exclude (u : UnitId) : Eff := .get fun s =>
  .seq (.upd (.lasting u)) (.upd (.excl (if u ∈ s.excl then s.excl else s.excl ++ [u])))

/-- The spare takes a failed core's rank (R585): its scratch is zeroed, the image of the core is copied, and it stands in the
core's place. Without a spare no site takes the rank and BELOW_GRADE is set (R586). -/
def takeOver (n : Nat) : Eff := .get fun s =>
  let c := n / 12
  let x := s.clusterAt c
  if n ∈ x.ranks then
    match x.spare with
    | some p => Eff.all [
        zeroRange (scratchBase + p * 2 ^ 21) (2 ^ 21),
        setMisc (fun m => { m with warmed := m.warmed.filter (· != p) }),
        loadImage p (s.imageOf n),
        setCluster c fun y => { y with ranks := y.ranks.map (fun k => if k = n then p else k), spare := none, spareUsed := true
                                       moved := y.moved.map (fun z => if z.2 = n then (z.1, p) else z) ++ [(n, p)] }]
    | none => .seq (setCluster c fun y => { y with ranks := y.ranks.filter (· != n) }) (setMisc fun m => { m with belowGrade := true })
  else if x.spare = some n then setCluster c fun y => { y with spare := none, spareUsed := true }
  else setCluster c fun y => { y with reserve := y.reserve.filter (· != n) }

/-- A core is out of service (R3, R584, R585): its rank passes on, then it is disabled and what it held is lost. -/
def coreLasting (n : Nat) : Eff := Eff.all [exclude { cls := 0, id := n }, takeOver n, resetCore n, excludeUnit { cls := 0, id := n }]

/-- Evict every KV page of a bank under each holder's class (R584): a DROP sequence from its lowest page there, a SWAP
sequence by a swap. The spec gives the slag entry's reason no value here: it is free (log entry 5). -/
def evictBank (sl b : Nat) : Eff := fresh fun v => .get fun s =>
  let hs := ((s.page.filter (fun p => p.1 / 256 == sl * 128 + b)).flatMap (fun p => s.holdersOf p.1)).map (fun h => (h.1, h.2.2.1))
  Eff.each (nub (hs.map (·.1))) fun q => .get fun s =>
    let d := (hs.filter (fun h => h.1 == q)).foldl (fun m h => min m h.2) 65536
    if (s.seqAt q).policy = 0 then dropEvict q d (v % 4) else Eff.when ((s.seqAt q).state == 1) (swapBegin q)

/-- A bank's BSU is switched off (R549, R584): its free frames are withheld at once, the others when they are freed. -/
def bankOff (sl b : Nat) : Eff := .get fun s => Eff.all [
  exclude { cls := 1, id := sl * 128 + b }, excludeUnit { cls := 1, id := sl * 128 + b }, evictBank sl b,
  Eff.each (s.page.filter (fun p => p.1 / 256 == sl * 128 + b && p.2.state == 0 && !p.2.pend)) (fun p =>
    setDesc p.1 fun d => { d with state := 6 }),
  setSlice sl fun x => { x with freeMap := (List.range 256).foldl (fun m f => setBit m (b * 256 + f) false) x.freeMap }]

/-- The failing rows as the record's detail (R584): 16-bit numbers in ascending order, eight in words 6-7, the rest in one
CONT record, unused entries of the sixteen 0xFFFF (log entry 57). -/
def rowDetail (rows : List Nat) : List Nat :=
  let l := rows ++ List.replicate ((if rows.length ≤ 8 then 8 else 16) - rows.length) 0xFFFF
  (List.range (l.length / 4)).map fun k => (List.range 4).foldl (fun a j => a + l.getD (4 * k + j) 0 * 2 ^ (16 * j)) 0

/-- A channel is retrained once (R584): with more than one failed lane its layer is unreadable over the channel. -/
def channelLasting (id lanesFailed : Nat) : Eff := .seq (exclude { cls := 2, id := id })
  (Eff.when (decide (1 < lanesFailed)) (setSlice (id / 8) fun x => { x with deadCh := setBit x.deadCh (id % 8) true }))

/-- A stack left with no link, up or under assay, is put out of service, which sets BELOW_GRADE (R549, R586). -/
def cutOffStack (st : Nat) : Eff := .get fun s =>
  Eff.when ((List.range 3).all fun k => !s.linkUp st k && !s.flag .NOC_LINK_assay (st * 3 + k))
    (.seq (setStack st fun x => { x with out := true }) (setMisc fun m => { m with belowGrade := true }))

/-- A link's assay ends (R347, R349, R356): the lane groups that failed are disabled, and the link returns on the others,
with its routes, unless fewer than four are left. -/
def linkEnd (st k : Nat) (bad : List Nat) : Eff :=
  let p := linkPeer st k
  let ends := if k < 2 then [st, p.1] else [st]
  Eff.all [
    Eff.each bad (fun m => exclude (laneGroup st k m)),
    Eff.when (!bad.isEmpty) (.seq (.upd (.lasting { cls := 5, id := st * 3 + k }))
      (Eff.when (decide (k < 2)) (.upd (.lasting { cls := 5, id := p.1 * 3 + p.2 })))),
    setReg .NOC_LINK_assay (st * 3 + k) 0,
    .get fun s => Eff.when (!(ends.any s.stackHeld)) (.seq (trainLink st k (s.reg .NOC_LINK_good_mods (st * 3 + k)))
      (.get fun s => if s.linkUp st k then Eff.each ends restoreRoutes else Eff.each ends cutOffStack))]

/-- An assay of a CCC ends (R577-R586): `fault` is a fault its test found, `rows` the failing rows of a bank or the failing
lane groups of a link, `lanesFailed` the failed lanes of a retrained channel. A link judged lasting by a second error
alone loses a lane group that is a free value (log entry 5). -/
def assayVerdict (a : Nat) (fault : Bool) (rows : List Nat) (lanesFailed : Nat) : Eff := fresh fun v => .get fun s =>
  let x := s.assayerAt a
  Eff.opt x.run fun r =>
    let kind := assayOf r.kind r.cls
    let rows := (sortBy (fun a b => decide (a < b)) (nub rows)).filter (fun n => decide (n < if kind = 4 then 8 else 2 ^ 16))
    let bad := fault || x.second || (decide (kind = 2 ∨ kind = 4) && !rows.isEmpty)
    let cells := kind == 2 && !fault && decide (rows.length ≤ 16) && r.kind != 0x31 && x.seconds.all (·.kind != 0x31)
    Eff.all [
      assayRecords a (if bad then 2 else 1)
        (if bad && cells && !rows.isEmpty then { r with detail := rowDetail rows } else r) (assayUs kind),
      match kind with
      | 1 => Eff.when bad (coreLasting r.id)
      | 2 => Eff.when bad (if cells then .upd (.lasting { cls := 1, id := r.id }) else bankOff (r.id / 128) (r.id % 128))
      | 3 => Eff.when bad (channelLasting r.id lanesFailed)
      | 4 => linkEnd (r.id / 3) (r.id % 3) (if bad then (if rows.isEmpty then [v % 8] else rows) else [])
      | _ => .skip,
      nextAssay a]

/-- ASSAY_VERDICT (R578): assayers 0-95 are the CCCs, 96-107 the port managers, whose sub-port assays end as R424 says. -/
def assayVerdictEff (asr : Fin 108) (fault : Bool) (rows : List Nat) (lanesFailed : Nat) (s : State) : Eff :=
  if asr.val < 96 then Eff.when (s.cccLive asr) (assayVerdict asr fault rows lanesFailed)
    else Eff.opt (s.assayerAt asr).run fun r =>
      Eff.when (s.cccLive ((asr.val - 96) * 8) && s.subState (r.id / 4) (r.id % 4) == 5) (subAssayEnd (r.id / 4) (r.id % 4) fault)

/-- ASSAY_VERDICT (R578): assayers 0-95 are the CCCs, 96-107 the port managers, whose sub-port assays end as R424 says. -/
def execAssayVerdict (asr : Fin 108) (fault : Bool) (rows : List Nat) (lanesFailed : Nat) (s : State) : Out :=
  finish (assayVerdictEff asr fault rows lanesFailed s) s

end Sys2Proof.Machine
end

