-- ==== Sys2Proof/Machine/HostPort.lean ====
section
/-! DEFINITION. The host port: the memory windows, function-level reset, the host link and PERST_N, VF Enable, and the far
ports' links (15_io_die.md, 27_module_interface.md). -/
namespace Sys2Proof.Machine

/-! ## Memory windows (R387-R390, R471) -/

/-- Which ring, and offset in it, an address of the reserved log region names: the log ring, then the error ring (R471,
R576). -/
def State.ringOffset (s : State) (a : Nat) : Option Nat :=
  let b := s.misc.logBase
  if b ≤ a ∧ a < b + 64 * (1 + s.misc.logCap) then some (a - b)
  else if b + 0x3000000 ≤ a ∧ a < b + 0x3000000 + 64 * 16385 then some (a - b - 0x3000000) else none

/-- The PF may make this access to a ring whatever WIN_CTL.flask holds: a read, or a write within the rd_seq word. -/
def State.ringAccess (s : State) (write : Bool) (a len : Nat) : Bool :=
  decide (7 ≤ s.misc.phase) && s.misc.phase != 0x30 && decide (0 < len) &&
  (match s.ringOffset a, s.ringOffset (a + len - 1) with
    | some x, some y => !write || (decide (16 ≤ x) && decide (x + len ≤ 24) && y == x + len - 1)
    | _, _ => false)

/-- Judge a line of a window access (R388): none passes while the window is off. -/
def State.judgeWindow (s : State) (f : Nat) (ring : Bool) (line : Nat) : LineClass :=
  if !s.flag .WIN_CTL_en f then .unmapped
  else if 2 ^ 46 ≤ line * 64 then .unmapped
  else s.judge 12 (!ring) (s.fnFlask f) line

/-- A window access that was suppressed is counted (R387, R388). -/
def countSuppressed (f a : Nat) : Eff := .seq (satReg .WIN_STAT_errors f 1) (setReg .WIN_STAT_last f a)

/-- Bytes of one line of a window read, and whether its completion is poisoned (R388, R390): zeros for a suppressed line;
the bytes of a lost word, and of a line whose home does not answer, are free values. -/
def State.windowLine (s : State) (c : LineClass) (a n : Nat) (v : Nat) : List Byte × Bool :=
  match c with
  | .ok =>
    let ws := (List.range ((a + n - 1) / 8 - a / 8 + 1)).map (· + a / 8)
    let rs := ws.map (fun w => (s.deliver w, w))
    (((rs.flatMap fun r => if r.1.verdict < 3 then wordBytes r.1.data else leBytes (v / 2 ^ (64 * (r.2 % 8))) 8).drop (a % 8)).take n,
      rs.any (fun r => decide (3 ≤ r.1.verdict)))
  | .lost => (leBytes v n, bit v 1024)
  | _ => (List.replicate n 0, false)

/-- Parts of a range by line: address and length. -/
def linePieces (a len : Nat) : List (Nat × Nat) := (linesOf a len).map fun l =>
  let lo := max a (l * 64)
  (lo, min (a + len) (l * 64 + 64) - lo)

/-- An access of a function through its window (R388-R390). -/
def windowAccess (f : Nat) (write : Bool) (off len : Nat) (data : List Byte) : Eff := .get fun s =>
  let a := s.reg .WIN_BASE_base f * 2 ^ 26 + off
  let n := if write then data.length else len
  let ring := f == 0 && s.ringAccess write a n
  let fl := s.fnFlask f
  let ls := linesOf a n
  let of' (c : LineClass) := ls.filter (fun l => s.judgeWindow f ring l == c)
  let um := (of' .unmapped).map (· * 64)
  let pr := (of' .protection).map (· * 64)
  let iss : Issuer := if h : f < 17 then .host ⟨f, h⟩ else .fw 0
  Eff.all [
    accessRecords iss (fl.getD 31) um pr,
    Eff.when (!um.isEmpty || !pr.isEmpty) (countSuppressed f (a % 2 ^ 46)),
    accessCharge iss fl a n,
    if write then Eff.each ((pieces a data).filter (fun p => s.judgeWindow f ring (p.1 / 64) == .ok)) fun p => writeLine (fl.getD 31) 0 p.1 p.2
    else Eff.each (linePieces a n) fun p => fresh fun v => .get fun s =>
      let c := s.judgeWindow f ring (p.1 / 64)
      let r := s.windowLine c p.1 p.2 v
      Eff.all [Eff.when (c == .ok) (readLine (fl.getD 31) 0 (p.1 / 64)), .upd (.emit (.completion f (off + p.1 - a) r.1 r.2))]]

/-- HOST_WINDOW_ACCESS (R388): within the aperture of 16 GiB, with the host link up (R627). -/
def execHostWindowAccess (f : FnIx) (write : Bool) (off len : Nat) (data : List Byte) (ups : List Upset) (s : State) : Out :=
  finish (Eff.when (s.misc.linkUp && s.fnOn f && decide (off + (if write then data.length else len) ≤ 2 ^ 34))
    (.seq (applyUpsets ups) (windowAccess f write off len data))) s

/-! ## Resets of functions (R385, R392, R542) -/

/-- Clear a function's BAR0 registers, its mailbox with a request in progress, its gatherer interface and its notes, and the
messages held for it (R392, R393, R489, R542). -/
def clearFn (f : Nat) : Eff := .get fun s => Eff.all [
  clearWhere .fn .fn (· == f), .upd (.clearMbox (fun k => k / 4096 == f)), .upd (.fn f {}),
  .upd (.clearNotes (fun k => k / 128 == f)),
  setGath 96 (fun g => { pend := g.pend.filter (fun n => !(List.range 32).any (fun k => n == hostSource f k))
                         act := g.act.filter (fun n => !(List.range 32).any (fun k => n == hostSource f k)) }),
  .upd (.held (s.held.filter (fun h => h.1 != f)))]

/-- Every flask is reset and every VF unbound until VF Enable is set again (R392). -/
def vfOff : Eff := .get fun s => .seq
  (Eff.each ((List.range 16).filter s.flaskExists) flaskReset)
  (setMisc fun m => { m with vfOn := false })

/-- FUNCTION_LEVEL_RESET (R392). -/
def functionLevelResetEff (f : FnIx) (s : State) : Eff :=
  if f.val = 0 then .seq vfOff (clearFn 0)
     else .seq (Eff.when (s.flaskExists (f - 1)) (flaskReset (f - 1))) (clearFn f)

/-- FUNCTION_LEVEL_RESET (R392). -/
def execFunctionLevelReset (f : FnIx) (s : State) : Out :=
  finish (Eff.when (s.misc.linkUp && s.fnOn f) (functionLevelResetEff f s)) s

/-- VF_ENABLE (R385, R392). -/
def vfEnableEff (en : Bool) (s : State) : Eff :=
  if en then setMisc fun m => { m with vfOn := true } else Eff.when s.misc.vfOn vfOff

/-- VF_ENABLE (R385, R392). -/
def execVfEnable (en : Bool) (s : State) : Out :=
  finish (Eff.when (s.misc.linkUp) (vfEnableEff en s)) s

/-! ## The host link (R384, R393, R627) -/

/-- Full rate of the host port in GT/s: IOD6 on the K variant, IOD7 on the N variant (R2, R384). -/
def State.fullRate (s : State) : Nat := if s.fuse.variantK then 64 else 128

/-- HOST_LINK_DOWN (R393). -/
def hostLinkDownEff : Eff :=
  .seq (setMisc fun m => { m with linkUp := false }) (doorbell 96 0x50)

/-- HOST_LINK_DOWN (R393). -/
def execHostLinkDown (s : State) : Out :=
  finish (Eff.when (s.misc.linkUp) (hostLinkDownEff)) s

/-- Send the messages held while the link was down, in order (R393); one whose vector is masked stays pending. -/
def sendHeld : Eff := .get fun s => .seq
  (Eff.each s.held fun h => .get fun s => Eff.when (!s.flag .MSIX_mask (h.1 * 1024 + h.2))
    (.seq (setReg .MSIX_pend (h.1 * 1024 + h.2) 0) (.upd (.emit (.msix h.1 h.2)))))
  (.upd (.held []))

/-- HOST_LINK_RETRAIN (R384, R393): x16, or down to x8 or x4; below x16 at full rate it raises HOST_LINK_DEGRADED. -/
def hostLinkRetrainEff (width rate : Nat) (s : State) : Eff :=
  Eff.all [
    setMisc (fun m => { m with linkUp := true, linkWidth := width, linkRate := rate }), sendHeld,
    Eff.when (width != 16 || rate != s.fullRate) (.seq (doorbell 96 0x51) (hostRing 0 23 (width + rate * 256)))]

/-- HOST_LINK_RETRAIN (R384, R393): x16, or down to x8 or x4; below x16 at full rate it raises HOST_LINK_DEGRADED. -/
def execHostLinkRetrain (width rate : Nat) (s : State) : Out :=
  finish (Eff.when (s.misc.phase != 0 && !s.misc.linkUp && (width == 16 || width == 8 || width == 4)
      && decide (0 < rate) && decide (rate ≤ s.fullRate)) (hostLinkRetrainEff width rate s)) s

/-- PERST_N_ASSERT (R627, R392, R393): the link is down, VF Enable and the MSI-X state are cleared. -/
def perstNAssertEff (s : State) : Eff :=
  Eff.all [
    Eff.when s.misc.linkUp (.seq (setMisc fun m => { m with linkUp := false }) (doorbell 96 0x50)),
    vfOff,
    .upd (.clearRegs fun k => keyFld k == .MSIX_addr || keyFld k == .MSIX_data || keyFld k == .MSIX_mask || keyFld k == .MSIX_pend),
    .upd (.held []), setMisc fun m => { m with linkUp := false }]

/-- PERST_N_ASSERT (R627, R392, R393): the link is down, VF Enable and the MSI-X state are cleared. -/
def execPerstNAssert (s : State) : Out :=
  finish (Eff.when (s.misc.phase != 0) (perstNAssertEff s)) s

/-- FAR_LINK_DOWN (R398). -/
def farLinkDownEff (u : Fin 8) : Eff :=
  Eff.all [
    setMisc (fun m => { m with farDown := setBit m.farDown u true }), doorbell 96 0x52, hostRing 0 24 u]

/-- FAR_LINK_DOWN (R398). -/
def execFarLinkDown (u : Fin 8) (s : State) : Out :=
  finish (Eff.when (decide (0 < s.misc.farCaps.getD u 0) && !bit s.misc.farDown u) (farLinkDownEff u)) s

end Sys2Proof.Machine
end

