-- ==== Sys2Proof/Machine/Gatherer.lean ====
section
/-! DEFINITION. The event gatherers (22_event_gatherer.md). -/
namespace Sys2Proof.Machine

/-- The gatherer is out of reset (R542). -/
def State.gathUp (s : State) (g : Nat) : Bool := if g = 96 then s.misc.phase != 0 else !s.clusterHeld g

/-- Firmware targets of a gatherer (R543): the CCC, or the SEC, PMC and SCH. -/
def targetExists (g t : Nat) : Bool := t == 0 || (g == 96 && decide (t < 3))

/-- Function and kind of a host source of the module gatherer (R533). -/
def hostOfSource (g src : Nat) : Option (Nat × Nat) :=
  if g ≠ 96 then none
  else if 0x200 ≤ src ∧ src < 0x220 then some (0, src - 0x200)
  else if 0x220 ≤ src ∧ src < 0x320 then some ((src - 0x220) / 16 + 1, (src - 0x220) % 16)
  else none

/-- Target of a source; a host source's is the host, 3 (R533, R543). -/
def State.srcTarget (s : State) (g src : Nat) : Nat :=
  if (hostOfSource g src).isSome then 3 else s.reg .EG_SRC_target (g * 1024 + src)

/-- Priority of a source; a host source's mirrors its EG_HVEC.prio (R533). -/
def State.srcPrio (s : State) (g src : Nat) : Nat :=
  match hostOfSource g src with
  | some h => if hostKind h.1 h.2 then s.reg .EG_HVEC_prio (h.1 * 32 + h.2) else 0
  | none => s.reg .EG_SRC_prio (g * 1024 + src)

/-- Of some sources, the one of highest priority, ties to the lower number (R535, R537). -/
def State.topSource (s : State) (g : Nat) (l : List Nat) : Option Nat :=
  l.foldl (fun m n => match m with
    | none => some n
    | some k => if s.srcPrio g k < s.srcPrio g n ∨ (s.srcPrio g n = s.srcPrio g k ∧ n < k) then some n else some k) none

/-- Pending sources of a target above its threshold; priority 0 never signals (R531, R534, R537). -/
def State.signalling (s : State) (g t : Nat) : List Nat :=
  (s.gathAt g).pend.filter fun n => s.srcTarget g n == t && decide (s.reg .EG_TGT_thresh (g * 4 + t) < s.srcPrio g n)

/-- Running level of a target (R534). -/
def State.runningLevel (s : State) (g t : Nat) : Nat :=
  ((s.gathAt g).act.filter (fun n => s.srcTarget g n == t)).foldl (fun m n => max m (s.srcPrio g n)) 0

/-- Eligible sources of a target (R534): none in POLL mode (log entry 54). -/
def State.eligible (s : State) (g t : Nat) : List Nat :=
  if s.flag .EG_TGT_mode (g * 4 + t) then []
  else (s.signalling g t).filter fun n => decide (s.runningLevel g t < s.srcPrio g n)

/-- EG_TOP as it reads (R537). -/
def State.topOf (s : State) (g t : Nat) : Option Nat := s.topSource g (s.signalling g t)

/-- A claim or top register's word (R543). -/
def State.srcWord (s : State) (g : Nat) (o : Option Nat) : Nat :=
  match o with
  | none => 0
  | some n => 2 ^ 31 + s.srcPrio g n * 2 ^ 16 + n

/-- A doorbell written to EG_DOORBELL (R530, R541): for a host source a note comes first, whose parameter is a free value
(log entry 5), and the kind is sent if it may be. -/
def egDoorbell (g src : Nat) : Eff := .get fun s =>
  match hostOfSource g src with
  | some h => if s.gathUp g && hostKind h.1 h.2 && s.fnOn h.1 then fresh fun v => hostRing h.1 h.2 v else doorbell g src
  | none => doorbell g src

/-- EG_DOORBELL (R530). -/
def execEgDoorbell (g : GathIx) (src : BitVec 10) (s : State) : Out := finish (egDoorbell g src.toNat) s

/-- A read of EG_CLAIM (R535): the response is the register's word; the claimed source is no longer pending and is active. -/
def egClaim (g t : Nat) : Eff := .get fun s =>
  let c := s.topSource g (s.eligible g t)
  .seq (.upd (.rsp (leBytes (s.srcWord g c) 4))) (Eff.opt c fun n =>
    setGath g fun x => { pend := x.pend.filter (· != n), act := if n ∈ x.act then x.act else x.act ++ [n] })

/-- EG_CLAIM (R535). -/
def execEgClaim (g : GathIx) (t : Fin 3) (s : State) : Out :=
  finish (Eff.when (s.gathUp g && targetExists g t) (egClaim g t)) s

/-- EG_COMPLETE (R535, R537): in CLAIM mode a source that is not active sets bad_complete; in POLL mode both states clear. A
kind of the host that is pending again is sent. -/
def egComplete (g t src : Nat) : Eff := .get fun s =>
  if s.flag .EG_TGT_mode (g * 4 + t) then
    setGath g fun x => { pend := x.pend.filter (· != src), act := x.act.filter (· != src) }
  else if src ∈ (s.gathAt g).act then
    .seq (setGath g fun x => { x with act := x.act.filter (· != src) }) (Eff.opt (hostOfSource g src) fun h => hostSend h.1)
  else setReg .EG_STAT_bad_complete g 1

/-- EG_COMPLETE (R535). -/
def execEgComplete (g : GathIx) (t : Fin 3) (src : BitVec 10) (s : State) : Out :=
  finish (Eff.when (s.gathUp g && targetExists g t) (egComplete g t src.toNat)) s

/-- EG_HCOMPLETE (R538, R544): the kind's active state ends, and it is sent again if it is pending. -/
def egHcompleteEff (f : FnIx) (kind : Fin 32) : Eff :=
  .seq
    (setGath 96 fun x => { x with act := x.act.filter (· != hostSource f kind) }) (hostSend f)

/-- EG_HCOMPLETE (R538, R544): the kind's active state ends, and it is sent again if it is pending. -/
def execEgHcomplete (f : FnIx) (kind : Fin 32) (s : State) : Out :=
  finish (Eff.when (s.misc.linkUp && s.fnOn f && hostKind f kind) (egHcompleteEff f kind)) s

end Sys2Proof.Machine
end

