-- ==== Sys2Proof/Machine/ModuleIf.lean ====
section
/-! DEFINITION. The tray's sideband and the test port (27_module_interface.md, R558, R622). -/
namespace Sys2Proof.Machine

/-- I3C_ROLE_REQUEST (R634): the M7 grants it. -/
def execI3cRoleRequest (s : State) : Out := finish (Eff.when s.pmcLive (setMisc fun m => { m with trayRole := true })) s

/-- CONTROLLER_ROLE_RETURN (R634): the M7 leaves its target role. -/
def execControllerRoleReturn (s : State) : Out :=
  finish (Eff.when s.misc.trayRole (setMisc fun m => { m with trayRole := false })) s

/-- CONFIG_BLOCK_WRITE (R558, R634): the write window takes a whole block while the tray holds the role; it goes to the slot
that does not hold the copy in use, and the next bring-up reads it. -/
def execConfigBlockWrite (block : List Byte) (s : State) : Out :=
  finish (Eff.when (s.misc.trayRole && block.length == 4096)
    (.upd (.cfgSlots (s.cfgSlots.set (1 - s.misc.cfgSlot) block)))) s

/-- A debug token is valid (R618, R619, R622): laid out as a licence with its own tag, a scope of two bits, the BOOT
counter, and a limit equal to the counter's value. -/
def State.tokenOk (s : State) (d : List Byte) : Bool :=
  d.length == 576 && field d 0 4 == 0x47424444 && field d 4 2 == 1 && field d 6 2 == 0 && field d 25 3 == 0
    && field d 32 32 == 0 && decide (field d 20 4 < 4) && field d 24 1 == 1
    && Config.rootSigned (d.take 64) ((d.drop 64).take 512) && field d 8 8 == s.fuse.serial && field d 28 4 == s.counter 0 && s.counter 0 != 0xFFFFFFFF

/-- DEBUG_TOKEN (R622): one that verifies opens the private debug instructions with its scope. -/
def debugTokenEff (token : List Byte) : Eff :=
  setSec fun x => { x with debug := true, scope := field token 20 4 }

/-- DEBUG_TOKEN (R622): one that verifies opens the private debug instructions with its scope. -/
def execDebugToken (token : List Byte) (s : State) : Out :=
  finish (Eff.when (s.coreUp 0 && s.tokenOk token) (debugTokenEff token)) s

end Sys2Proof.Machine
end

