-- ==== Sys2Proof/Machine/Vector.lean ====
section
/-! DEFINITION. The vector unit (06_vector_unit.md): one iteration of its fused chain. -/
namespace Sys2Proof.Machine

/-- The registers an iteration works on: inputs, T0-T3, OUT when a slot has written it, and the flags. -/
structure VecRegs where
  a : List Nat
  b : List Nat
  t : List (List Nat)
  k0 : Nat
  k1 : Nat
  out : Option (List Nat) := none
  fx : Nat := 0

/-- A source of a slot, as 64 lanes (R117). -/
def VecRegs.src (v : VecRegs) (c : Nat) : List Nat :=
  match c with
  | 0 => v.a
  | 1 => v.b
  | 6 => List.replicate 64 v.k0
  | 7 => List.replicate 64 v.k1
  | c => v.t.getD (c - 2) []

/-- A value passed on: a NaN becomes the canonical one (R55). -/
def pass32 (f : FV → FV) (a : Nat) : Fx Nat := let v := ofFmt 0 a; rnd32 (f v, nanIn v)

/-- RSUM's pairwise tree over 2^k lanes (R179). -/
def treeSum : Nat → List Nat → Fx Nat
  | 0, l => pass32 id (l.headD 0)
  | k + 1, l =>
    let h := 2 ^ k
    let x := treeSum k (l.take h)
    let y := treeSum k (l.drop h)
    let r := add32 x.1 y.1
    (r.1, fxOr x.2 (fxOr y.2 r.2))

/-- RMAX over the lanes, as MAX orders them (R178). -/
def treeMax (l : List Nat) : Fx Nat :=
  match l.map (ofFmt 0) with
  | [] => (0, 0)
  | v :: vs => rnd32 (vs.foldl (fun acc x => let r := acc.1.maxV x; (r.1, fxOr acc.2 r.2)) (v, nanIn v))

/-- One lane of an element-wise operation (R178): a, b, the destination's value. -/
def laneOp (op a b d : Nat) : Fx Nat :=
  match op with
  | 0x01 => pass32 id a
  | 0x02 => add32 a b
  | 0x03 => sub32 a b
  | 0x04 => mul32 a b
  | 0x05 => fma32 a b d
  | 0x06 => rnd32 ((ofFmt 0 a).maxV (ofFmt 0 b))
  | 0x07 => rnd32 ((ofFmt 0 a).minV (ofFmt 0 b))
  | 0x08 => pass32 FV.abs a
  | 0x09 => pass32 FV.neg a
  | 0x13 => rcp32 a
  | 0x14 => rsqrt32 a
  | 0x15 => sqrt32 a
  | 0x30 => pass32 id a
  | op => transc32 op a

/-- Lanes of one slot's result, with flags (R178, R179). -/
def slotResult (v : VecRegs) (w : Nat) : List Nat × Nat :=
  let a := v.src (slotSrc1 w)
  let b := v.src (slotSrc2 w)
  let d := v.t.getD (slotDst w) (List.replicate 64 0)
  if slotOp w = 0x20 then let r := treeSum 6 a; (List.replicate 64 r.1, r.2)
  else if slotOp w = 0x21 then let r := treeMax a; (List.replicate 64 r.1, r.2)
  else
    let rs := (List.range 64).map (fun k => laneOp (slotOp w) (a.getD k 0) (b.getD k 0) (d.getD k 0))
    (rs.map (·.1), rs.foldl (fun f r => fxOr f r.2) 0)

/-- One slot; PUSHL writes OUT in the last iteration only (R172, R178). -/
def runSlot (last : Bool) (v : VecRegs) (w : Nat) : VecRegs :=
  if slotOp w = 0x30 ∧ ¬last then v
  else
    let r := slotResult v w
    if slotDst w = 4 then { v with out := some r.1, fx := fxOr v.fx r.2 }
    else { v with t := v.t.set (slotDst w) r.1, fx := fxOr v.fx r.2 }

/-- Lanes widened from a format (R173). -/
def widen (fmt : Nat) (packed : Nat) : List Nat × Nat :=
  let rs := (List.range 64).map (fun k => let v := ofFmt fmt (elemAt (fmtWidth fmt) packed k)
                                          let c := toF32 v; (c.1, fxOr c.2 (nanIn v)))
  (rs.map (·.1), rs.foldl (fun f r => fxOr f r.2) 0)

/-- Element bytes, scale bytes and flags of a push (R176). -/
def narrow (fmt : Nat) (sat scale : Bool) (lanes : List Nat) : List Byte × List Byte × Nat :=
  let vs := lanes.map (ofFmt 0)
  if scale then
    let x := scaleBlock fmt (vs.take 32)
    let y := scaleBlock fmt (vs.drop 32)
    (packCodes (fmtWidth fmt) (x.2.1 ++ y.2.1), [BitVec.ofNat 8 x.1, BitVec.ofNat 8 y.1], fxOr x.2.2 y.2.2)
  else
    let rs := vs.map (toFmt fmt sat)
    (packCodes (fmtWidth fmt) (rs.map (·.1)), [], rs.foldl (fun f r => fxOr f r.2) 0)

/-- Bytes of a 64-element vector of a format (R173). -/
def vecBytes (fmt : Nat) : Nat := 64 * fmtWidth fmt / 8

/-- T0-T3 as four lists of lanes. -/
def CoreSt.tregs (c : CoreSt) : List (List Nat) := [c.t.take 64, (c.t.drop 64).take 64, (c.t.drop 128).take 64, c.t.drop 192]

/-- Lanes of an accumulator entry as input A reads it (R174, R106); an entry in the other mode is undefined (R74). -/
def accLanes (s : State) (fmt : Nat) (e : AccEnt) : List Nat × Nat :=
  if e.poison then (List.replicate 64 nan32, fxNan)
  else if e.int = decide (fmt = 8) then
    let rs := e.v.map (fun c => if fmt = 8 then toF32 (intFV (signed 32 c)) else (c, nanIn (ofFmt 0 c)))
    (rs.map (·.1), rs.foldl (fun f r => fxOr f r.2) 0)
  else ((List.range 64).map (fun j => Config.undefWord s.tick j % 2 ^ 32), 0)

/-- The rest of an iteration once its inputs are popped (R172, R175, R176): run the chain, push, count, and close the
segments at the end of the pour (R147). -/
def vecFinish (n : Nat) (r : Run) (a b : List Nat) (fx0 : Nat) : Eff := .get fun s =>
  let c := s.coreAt n
  let last := decide (s.reg .CHG_VEC_repeats n ≤ r.done + 1)
  let v := (s.chain n).foldl (runSlot last)
    { a := a, b := b, t := c.tregs, k0 := s.reg .CHG_VEC_k0 n, k1 := s.reg .CHG_VEC_k1 n, fx := fx0 }
  let of := s.reg .CHG_VEC_out_fmt n
  let sc := s.flag .CHG_VEC_out_scale n
  let push : Eff × Nat := match v.out with
    | none => (.skip, 0)
    | some o =>
      let x := narrow of (s.flag .CHG_VEC_sat n) sc o
      (.seq (qPush n (s.reg .CHG_QB_vout n) (payload of) x.1) (Eff.when sc (qPush n (s.reg .CHG_QB_vosc n) 128 x.2.1)), x.2.2)
  let fx := fxOr v.fx push.2
  Eff.all [progress n, push.1, pourFx n r.pour fx,
    setReg .VEC_STATUS_fx n (fxOr (s.reg .VEC_STATUS_fx n) fx), addReg .VEC_STATUS_iter n 1, addReg .VEC_PERF_iters n 1,
    setCore n (fun c => { c with t := v.t.flatten, vec := if last then none else some { r with done := r.done + 1 } }),
    Eff.when last (Eff.all [
      Eff.when (s.reg .CHG_QB_vin_a n != 16) (qSkip n (s.reg .CHG_QB_vin_a n)),
      Eff.when (s.flag .CHG_VEC_in_b_en n) (qSkip n (s.reg .CHG_QB_vin_b n)),
      Eff.when (s.writesOut n) (.seq (qClose n (s.reg .CHG_QB_vout n)) (Eff.when sc (qClose n (s.reg .CHG_QB_vosc n))))])]

/-- One iteration, or the stall bits of the input or output it lacks (R148, R172, R183). `accErr` is the number of
failed bits in the accumulator entry popped (R105). -/
def vecIteration (n accErr : Nat) : Eff := .get fun s =>
  let c := s.coreAt n
  match c.vec with
  | none => .skip
  | some r =>
    let fa := s.reg .CHG_VEC_in_fmt_a n
    let fb := s.reg .CHG_VEC_in_fmt_b n
    let of := s.reg .CHG_VEC_out_fmt n
    let qa := s.reg .CHG_QB_vin_a n
    let qb := s.reg .CHG_QB_vin_b n
    let acc := qa == 16
    let bEn := s.flag .CHG_VEC_in_b_en n
    let last := decide (s.reg .CHG_VEC_repeats n ≤ r.done + 1)
    let pushes := (s.chain n).any (fun w => slotDst w == 4 && (slotOp w != 0x30 || last))
    let okA := if acc then !c.order.isEmpty else decide (vecBytes fa ≤ s.qHeld n qa (payload fa))
    let okB := !bEn || decide (vecBytes fb ≤ s.qHeld n qb (payload fb))
    let okO := !pushes || (decide (vecBytes of ≤ s.qRoom n (s.reg .CHG_QB_vout n) (payload of))
      && (!s.flag .CHG_VEC_out_scale n || decide (2 ≤ s.qRoom n (s.reg .CHG_QB_vosc n) 128)))
    if okA && okB && okO then
      let withB (a : List Nat) (fx : Nat) : Eff :=
        if bEn then qPop n qb (payload fb) (vecBytes fb) fun d =>
            let x := widen fb (leNat d); vecFinish n r a x.1 (fxOr fx x.2)
        else vecFinish n r a [] fx
      Eff.all [setReg .VEC_STATUS_stall_a n 0, setReg .VEC_STATUS_stall_b n 0, setReg .VEC_STATUS_stall_push n 0,
        if acc then popAcc n fun e =>
          let ue := decide (3 ≤ accErr)
          let e := if ue then { e with poison := true } else e
          let x := accLanes s fa e
          Eff.all [Eff.when (!e.poison && e.int != decide (fa = 8)) (.upd .tick),
            Eff.when (decide (accErr = 1 ∨ accErr = 2)) (accCorrected n), withB x.1 x.2,
            Eff.when ue (.seq (setReg .ARR_ERR_acc_ue n 1) (arrayError n 0x11))]
        else qPop n qa (payload fa) (vecBytes fa) fun d => let x := widen fa (leNat d); withB x.1 x.2]
    else Eff.all [
      Eff.when (!okA) (.seq (setReg .VEC_STATUS_stall_a n 1) (Eff.when (!acc) (qStall n qa false))),
      Eff.when (!okB) (.seq (setReg .VEC_STATUS_stall_b n 1) (qStall n qb false)),
      Eff.when (!okO) (.seq (setReg .VEC_STATUS_stall_push n 1) (qStall n (s.reg .CHG_QB_vout n) true))]

/-- VECTOR_ITERATION (R172). -/
def execVectorIteration (n : SiteIx) (accErr : Nat) (s : State) : Out :=
  finish (Eff.when (s.coreLive n) (vecIteration n accErr)) s

/-- Zero the vector unit's performance counters (R183). -/
def vecPerfClear (n : Nat) : Eff := Eff.each [.VEC_PERF_iters, .VEC_PERF_stall] fun r => setReg r n 0

/-- VEC_PERF_CLEAR (R184). -/
def execVecPerfClear (n : SiteIx) (s : State) : Out := finish (Eff.when (s.coreLive n) (vecPerfClear n)) s

end Sys2Proof.Machine
end

