-- ==== Sys2Proof/Machine/Regs.lean ====
section
/-! DEFINITION. Writes to register fields that have no command of their own, reads that clear, and what a derived register
shows (R17-R23 and the register tables). -/
namespace Sys2Proof.Machine

/-! ## Which registers answer -/

/-- Units of a kind. -/
def unitsOf : Own → Nat
  | .site => 1152 | .slice => 1152 | .stack => 12 | .port => 60 | .eng => 104 | .fn => 17 | .flask => 16 | .th => 13
  | .gath => 97

/-- The instance exists: within its table, and not one the tables say is absent (R385, R386, R533, R543, R544). -/
def State.fieldExists (s : State) (r : Fld) (i : Nat) : Bool :=
  decide (i < unitsOf r.info.unit * r.info.per) && (match r.info.unit with
    | .fn => s.fnOn (i / r.info.per) && (r.info.per != 1024 || decide (i % 1024 < vectorCount (i / 1024)))
        && (r.info.per != 32 || hostKind (i / 32) (i % 32))
    | .gath => if r.info.per = 4 then targetExists (i / 4) (i % 4)
        else if r.info.per = 1024 then (if i / 1024 = 96 then moduleSource (i % 1024) else localSource (i % 1024)) else true
    | _ => true)

/-- The unit's block is out of reset and answers (R371). -/
def State.blockLive (s : State) (r : Fld) (i : Nat) : Bool :=
  let u := i / r.info.per
  match r.info.unit with
  | .site => s.coreLive u
  | .slice => !s.stackHeld (u / 96)
  | .stack => if r.info.dom = .modl then s.misc.phase != 0 else !s.stackHeld u
  | .port => !s.stackHeld (u / 5)
  | .eng => s.ladleLive u
  | .fn => s.misc.linkUp && s.misc.phase != 0
  | .flask => s.misc.phase != 0
  | .th => s.misc.phase != 0
  | .gath => s.gathUp u

/-- Offset of a field in its core's register window (R108, R113, R115, R137, R171, R183, R276). -/
def siteOffset (r : Fld) (i : Nat) : Nat :=
  match blockOf r i with
  | some b => (if b = 0 then 0x1000 else if b = 1 then 0x1010 else if b ≤ 9 then 0x1030 + (b - 2) * 0x30
        else if b = 10 then 0x11B0 else if b = 11 then 0x11D0 else 0x11E0)
      + ((layout b).find? (fun x => x.1 == r)).elim 0 (fun x => 8 * x.2.1)
  | none => match r with
    | .SEQ_CTL_stop | .SEQ_CTL_pause | .SEQ_CTL_go => 8
    | .SEQ_STATUS_fx | .SEQ_STATUS_sub | .SEQ_STATUS_cause | .SEQ_STATUS_shadow_pend | .SEQ_STATUS_wlocked
    | .SEQ_STATUS_inflight | .SEQ_STATUS_state => 0x10
    | .SEQ_PC_addr => 0x18 | .SEQ_ERR_addr => 0x20
    | .SEQ_DONE_count | .SEQ_DONE_fx | .SEQ_DONE_addr => 0x28
    | .BNK_STATUS_stall_res | .BNK_STATUS_stall_arg | .BNK_STATUS_stall_ctx | .BNK_STATUS_outstanding => 0x800
    | .BNK_ERR_status | .BNK_ERR_count | .BNK_ERR_valid | .BNK_ERR_addr => 0x808
    | .ARR_ERR_acc_ce_count | .ARR_ERR_wlocked | .ARR_ERR_wpar | .ARR_ERR_acc_ue | .ARR_ERR_acc_ce => 0x2008
    | .ARR_FX_invalid | .ARR_FX_inf | .ARR_FX_sat | .ARR_FX_nan => 0x2010
    | .ARR_PERF_issue => 0x2018 | .ARR_PERF_bubble => 0x2020 | .ARR_PERF_stall => 0x2028 | .ARR_PERF_passes => 0x2030
    | .ARR_CTL_perf_clear => 0x2038
    | .VEC_STATUS_iter | .VEC_STATUS_fx | .VEC_STATUS_stall_push | .VEC_STATUS_stall_b | .VEC_STATUS_stall_a
    | .VEC_STATUS_busy => 0x3000
    | .VEC_PERF_iters => 0x3008 | .VEC_PERF_stall => 0x3010 | .VEC_CTL_perf_clear => 0x3018
    | .Q_STAT_cons | .Q_STAT_prod | .Q_STAT_stall_pop | .Q_STAT_stall_push | .Q_STAT_open_fill | .Q_STAT_head_used
    | .Q_STAT_count | .Q_STAT_tail | .Q_STAT_head => 0x4000 + 8 * (i % 16)
    | .Q_SNAP_cons | .Q_SNAP_prod | .Q_SNAP_stall_pop | .Q_SNAP_stall_push | .Q_SNAP_open_fill | .Q_SNAP_head_used
    | .Q_SNAP_count | .Q_SNAP_tail | .Q_SNAP_head => 0x4080 + 8 * (i % 16)
    | .Q_CTL_flush => 0x4100 | .Q_WDOG_snap_lost | .Q_WDOG_snap_valid | .Q_WDOG_idle => 0x4108
    | .Q_SNAPPC_addr => 0x4110
    | .CT_value => 0x4200 + 8 * (i % 8)
    | .CM_value | .CM_true | .CM_rel | .CM_ct => 0x4240 + 8 * (i % 4)
    | _ => 0x2000

/-- The window of a disabled site is unmapped (R34, R115): the CCC of its cluster made the access. -/
def windowUnmapped (r : Fld) (i : Nat) : Eff := .get fun s =>
  let n := i / r.info.per
  report 1 9 (3 + n / 12) ((0x3F0000000000 + n * 0x10000 + siteOffset r i) / 64 * 64) 0 ((s.flaskOf (n / 12)).getD 31) [1] (n / 96)

/-! ## Fields that act when they are written -/

/-- What a 1 written to a bit that acts does: the command of the table that carries it out. None for other fields.
Other fields of the same write-only register count as 0 (log entry 55). -/
def trigger (r : Fld) (i : Nat) : Option Eff :=
  match r with
  | .SEQ_CTL_go => some (seqGo i) | .SEQ_CTL_stop => some (seqCtlStopEff i) | .SEQ_CTL_pause => some (seqPause i)
  | .ARR_CTL_perf_clear => some (arrPerfClear i) | .VEC_CTL_perf_clear => some (vecPerfClear i)
  | .MC_CTL_inval => some (invalSlice i) | .MC_CTL_perf_clear => some (mcPerfClear i)
  | .ECC_FILL_start => some (.get fun s => fillStart i (s.reg .ECC_FILL_regions i))
  | .ECC_TW_CMD_read => some (.get fun s => Eff.when (s.flag .ECC_TWG_grant i) (twRead i))
  | .ECC_TW_CMD_write => some (.get fun s => Eff.when (s.flag .ECC_TWG_grant i) (twWrite i))
  | .BSU_CTL_perf_clear => some (bsuPerfClear i)
  | .NOC_CTL_apply => some (applyRoutes i)
  | .CRS_RST_fp => some (.get fun s => Eff.when (!(s.stackAt i).out) (holdFp i 1))
  | .CRS_CORE_go => some (holdCore (i * 96))
  | .LDL_CTL_perf_clear => some (ldlPerfClear i)
  | .LDL_CTL_disable => some (.seq (setReg .LDL_CTL_disable i 1) (ladleAbort i))
  | .FP_CTL_requal => some (requal i) | .FP_CTL_perf_clear => some (fpPerfClear i)
  | .FAB_CTL_perf_clear => some (fabPerfClear i)
  | .MB_DOORBELL_post => some (.get fun s => mbPost i (s.mboxBytes i 0 2048))
  | .TH_CONV_req => some (convReq i)
  | .TH_CTL_trip => some (.get fun s => Eff.when s.pmcLive (pmcTrip i))
  | .TH_CTL_release => some (thRelease i)
  | _ => none

/-- A write to a write-only field (R20) whose value is more than one bit, or whose write acts whatever it holds. -/
def writeWo (r : Fld) (i v : Nat) : Eff :=
  match r with
  | .Q_CTL_flush => qFlush i v
  | .KV_FL_PUSH_bank => flPush i v 0
  | .KV_FL_PUSH_frame => flPush i 0 v
  | .CRS_RST_cluster => Eff.each ((List.range 8).filter (fun k => bit v k)) fun k => .get fun s =>
      Eff.when (!s.stackHeld i) (holdCluster (i * 8 + k) 1)
  | .WQ_DB_tail => wqTail (i / 256) (i % 256) v
  | .EG_DOORBELL_src => egDoorbell i v
  | .EG_COMPLETE_src => egComplete (i / 4) (i % 4) v
  | .EG_HCOMPLETE_kind => Eff.when (hostKind i v)
      (.seq (setGath 96 fun x => { x with act := x.act.filter (· != hostSource i v) }) (hostSend i))
  | _ => .skip

/-! ## Read-write fields -/

/-- The field is busy: a locked or shadowed write meets it so (R22, R121, R137, R143, R239, R428, R461). -/
def State.fieldBusy (s : State) (r : Fld) (i : Nat) : Bool :=
  match r with
  | .SEQ_LIST_addr => s.seqState i != 0
  | .ECC_FILL_regions => s.flag .ECC_FILL_busy i
  | .FP_CFG_rx_inv | .FP_CFG_tx_inv | .FP_CFG_an_en | .FP_CFG_mode => s.flag .FP_CFG_en i
  | .FAB_CFG_udp_port | .FAB_CFG_mtu => s.flag .FAB_CFG_en i
  | _ => match blockOf r i with
    | some b => s.blkBusy (i / r.info.per) b
    | none => false

/-- The block's write-while-locked flag (R22, R123, R428, R461); the fill engine's block has none. -/
def lockFlag (r : Fld) (i : Nat) : Eff :=
  match r.info.unit with
  | .site => setReg (if blockOf r i = some 0 then .ARR_ERR_wlocked else .SEQ_STATUS_wlocked) (i / r.info.per) 1
  | .port => setReg .FP_STAT_wlocked i 1
  | .stack => setReg .FAB_STAT_wlocked i 1
  | _ => .skip

/-- A bucket follows its burst and enable (R401, R529): a new burst clamps it, enabling fills it. -/
def bucketWrite (k : Nat) (burst en : Fld) (r : Fld) (i v : Nat) : Eff := .get fun s =>
  .seq (setReg r i v) (.get fun t =>
    if r = burst then .upd (.bucket k (min (Store.get 0 t.bucket k) (burstBytes (t.reg burst i))))
    else Eff.when (r == en && !s.flag en i && t.flag en i) (.upd (.bucket k (burstBytes (t.reg burst i)))))

/-- A live write and what follows from it. -/
def writeLive (r : Fld) (i v : Nat) : Eff := .get fun s =>
  match r with
  | .CT_value => .seq (setReg r i v) (setReg .Q_WDOG_idle (i / 8) 0)
  | .MC_CFG_cache_en => .seq (setReg r i v) (Eff.when (s.flag r i && v % 2 == 0) (invalSlice i))
  | .MC_CFG_refresh => .seq (setReg r i v) (Eff.when (s.reg r i != v % 4) (setSlice i fun x => { x with slots := 0 }))
  | .KV_FL_CTL_low => .seq (setReg r i v) (Eff.when (decide (s.reg r i ≤ s.freeCount i)) (checkLow i (s.freeCount i + 2 ^ 16)))
  | .CRS_CLK_core0_mhz => .seq (setReg r i (clockWord v)) (showSlew i)
  | .CRS_CLK_core1_mhz => .seq (setReg r i (clockWord v)) (showSlew i)
  | .REG_FAR_rate | .REG_FAR_burst | .REG_FAR_en => bucketWrite (2 * i) .REG_FAR_burst .REG_FAR_en r i v
  | .REG_HOST_rate | .REG_HOST_burst | .REG_HOST_en => bucketWrite (2 * i + 1) .REG_HOST_burst .REG_HOST_en r i v
  | .REG_D2D_rate | .REG_D2D_burst | .REG_D2D_en => bucketWrite (32 + 2 * i) .REG_D2D_burst .REG_D2D_en r i v
  | .REG_FAB_rate | .REG_FAB_burst | .REG_FAB_en => bucketWrite (33 + 2 * i) .REG_FAB_burst .REG_FAB_en r i v
  | .WIN_CTL_flask => Eff.when (i == 0) (setReg r i v)
  | .EG_SRC_target | .EG_SRC_prio => Eff.when (hostOfSource (i / 1024) (i % 1024)).isNone (setReg r i v)
  | .EG_HCTL_poll | .EG_HCTL_thresh => .seq (setReg r i v) (hostSend i)
  | .EG_HVEC_prio | .EG_HVEC_vector => .seq (setReg r i v) (hostSend (i / 32))
  | .MSIX_mask => .seq (setReg r i v) (Eff.when (s.flag r i && v % 2 == 0 && s.flag .MSIX_pend i)
      (.seq (setReg .MSIX_pend i 0) (sendMsix (i / 1024) (i % 1024))))
  | .TH_CTL_fast_en => .seq (setReg r i v) (Eff.when (v % 2 == 0) (setReg .TH_STAT_fast i 0))
  | .FP_CFG_en => portEnable i (v % 2 == 1)
  | .FAB_CFG_en => fabEnable i (v % 2 == 1)
  | .LDL_CTL_disable => ladleEnable i
  | .LDL_CH_head => ladleHead (i / 16) (i % 16) (v % 2 ^ 46)
  | _ =>
    if r.info.width = 13 ∧ blockOf r i = some 10 then
      .seq (Eff.when (v % 2 ^ 13 != s.reg r i)
        (Eff.each ((List.range 16).filter (fun q => ringFld q == r)) fun q => qEmpty i q)) (setReg r i v)
    else setReg r i v

/-- A write to a read-write field by its class (R22, R123). -/
def writeRw (r : Fld) (i v : Nat) : Eff := .get fun s =>
  if r.info.cls = .s ∧ s.fieldBusy r i then .upd (.shad r i v)
  else if r.info.cls = .l ∧ s.fieldBusy r i then lockFlag r i
  else writeLive r i v

/-- A write to a field (R20): by its access code. -/
def writeField' (r : Fld) (i v : Nat) : Eff := .get fun s =>
  match r.info.acc with
  | .ro => .skip
  | .rc => .skip
  | .w1c => setReg r i (s.reg r i &&& (2 ^ 64 - 1 - v))
  | .wo => match trigger r i with
    | some e => Eff.when (bit v 0) e
    | none => writeWo r i (v % 2 ^ r.info.width)
  | .rw => match trigger r i with
    | some e => if bit v 0 then e else writeRw r i v
    | none => writeRw r i v

/-- REGISTER_WRITE (R20-R23): a write to an instance that does not exist, or to a block in reset, has no effect; the window
of a disabled site is unmapped (R115). Shadow values due are settled first (R122). -/
def registerWrite (r : Fld) (i v : Nat) : Eff := .get fun s =>
  if !s.fieldExists r i then .skip
  else if r.info.unit = .site ∧ s.coreOff (i / r.info.per) then windowUnmapped r i
  else Eff.when (s.blockLive r i) (.seq (Eff.when (r.info.unit == .site) (settle (i / r.info.per))) (writeField' r i v))

/-- REGISTER_WRITE (R22). -/
def execRegisterWrite (r : Fld) (i : Nat) (v : Word) (s : State) : Out := finish (registerWrite r i v.toNat) s

/-! ## Reads that clear -/

/-- A read of an RC field (R20, R21): the pop and claim registers are read by the operation behind them (R291, R535). -/
def readClear (r : Fld) (i : Nat) : Eff := .get fun s =>
  match r with
  | .KV_FL_POP_valid | .KV_FL_POP_bank | .KV_FL_POP_frame => flPop i fun p => .upd (.rsp (leBytes (popWord p) 4))
  | .KV_FL_POPB_valid | .KV_FL_POPB_bank | .KV_FL_POPB_frame =>
      flPopB i (s.reg .KV_FL_CTL_bank i) fun p => .upd (.rsp (leBytes (popWord p) 4))
  | .EG_CLAIM_valid | .EG_CLAIM_prio | .EG_CLAIM_src => egClaim (i / 4) (i % 4)
  | _ => Eff.when (r.info.acc == .rc) (.seq (.upd (.rsp (leBytes (s.reg r i) 8))) (setReg r i 0))

/-- READ_CLEAR_COUNTER (R21). -/
def execReadClearCounter (r : Fld) (i : Nat) (s : State) : Out :=
  finish (Eff.when (s.fieldExists r i && s.blockLive r i) (readClear r i)) s

/-! ## What a derived register shows -/

/-- Value of a field as a read returns it. Fields that mirror other state are not stored; a write-only field reads 0. -/
def State.regView (s : State) (r : Fld) (i : Nat) : Nat :=
  let c := s.coreAt i
  let accs (st : AccState) : Nat := (s.acc.filter (fun p => p.1 / 2048 == i && p.2.st == st)).length
  let q := s.queueAt (i / 16) (i % 16)
  let tasks := (s.bank.filter (fun p => p.1 / 128 == i)).flatMap (fun p => p.2.ctx)
  let assays (lo : Nat) : Nat := (List.range 64).foldl (fun a b => a + b2n (s.bankAssay i (lo + b)) * 2 ^ b) 0
  let top := s.topOf (i / 4) (i % 4)
  let kinds (l : List Nat) : Nat := (List.range 32).foldl (fun a k => a + b2n (hostKind i k && decide (hostSource i k ∈ l)) * 2 ^ k) 0
  match r with
  | .ARR_STATUS_acc_committed => accs .committed
  | .ARR_STATUS_acc_open => accs .openE
  | .ARR_STATUS_in_flight => c.passes.length
  | .ARR_STATUS_busy => b2n (!c.passes.isEmpty)
  | .ARR_STATUS_shadow => if c.shadowBusy then 3 else if c.shadow.isSome then 2 else 0
  | .ARR_STATUS_tile_active => b2n c.active.isSome
  | .SEQ_STATUS_shadow_pend => (List.range 13).foldl (fun a b => a + b2n (!(b != 12 && !s.blkBusy i b) && s.shadowPend i b) * 2 ^ b) 0
  | .SEQ_STATUS_inflight => c.pours.length
  | .Q_STAT_cons => s.qUnit (i / 16) (i % 16) false
  | .Q_STAT_prod => s.qUnit (i / 16) (i % 16) true
  | .Q_STAT_stall_pop => b2n q.stallPop
  | .Q_STAT_stall_push => b2n q.stallPush
  | .Q_STAT_open_fill => q.fill
  | .Q_STAT_head_used => q.used
  | .Q_STAT_count => q.count
  | .Q_STAT_tail => (q.head + q.count) % ((s.ring (i / 16) (i % 16)).elim 1 (·.2))
  | .Q_STAT_head => q.head
  | .CM_true => b2n (s.cmTrue (i / 4) (i % 4))
  | .VEC_STATUS_busy => b2n c.vec.isSome
  | .MC_STAT_keep_lines => ((s.cache.filter (fun p => p.1 / 512 == i)).map (fun p => (p.2.filter (·.keep)).length)).foldl (· + ·) 0
  | .BSU_EPOCH_oldest => s.bsuOldest i
  | .BSU_STAT_flask_ctx => (List.range 16).foldl (fun a f => a + b2n (tasks.any (fun t => t.flask == f)) * 2 ^ f) 0
  | .BSU_STAT_ctx => tasks.length
  | .BSU_STAT_streaming => s.streaming i
  | .BSU_ASSAY_banks_lo => assays 0
  | .BSU_ASSAY_banks_hi => assays 64
  | .BNK_STATUS_outstanding => (s.pathAt i).outstanding
  | .KV_FL_STAT_count => s.freeCount i
  | .KV_FL_STAT_low => b2n (decide (s.freeCount i < s.reg .KV_FL_CTL_low i))
  | .CRS_STAT_in_reset => (List.range 8).foldl (fun a k => a + b2n (s.clusterHeld (i * 8 + k)) * 2 ^ k) 0
  | .CRS_STAT_fp_reset => b2n (s.stackHeld i)
  | .EG_TOP_valid => b2n top.isSome
  | .EG_TOP_prio => top.elim 0 (s.srcPrio (i / 4))
  | .EG_TOP_src => top.getD 0
  | .EG_SRC_pending => b2n (decide (i % 1024 ∈ (s.gathAt (i / 1024)).pend))
  | .EG_SRC_active => b2n (decide (i % 1024 ∈ (s.gathAt (i / 1024)).act))
  | .EG_SRC_target => s.srcTarget (i / 1024) (i % 1024)
  | .EG_SRC_prio => s.srcPrio (i / 1024) (i % 1024)
  | .EG_HPEND_active => kinds (s.gathAt 96).act
  | .EG_HPEND_pending => kinds (s.gathAt 96).pend
  | .CRS_TS_ns => Config.free s.tick
  | .FP_STAT_sig => Config.free s.tick % 256
  | _ => if r.info.acc = .wo then 0 else s.reg r i

end Sys2Proof.Machine
end

