-- ==== Sys2Proof/Machine/Dispatch.lean ====
section
/-! DEFINITION. One arm per command: the meaning it calls. -/
namespace Sys2Proof.Machine

/-- The effect of a command on everything but the queue of waiting commands. -/
def exec (i : Instr) (s : State) : Host.Outcome State Fault Refusal :=
  match i with
  | .hello f => Sys2Proof.Machine.execHello f s
  | .getInfo f => Sys2Proof.Machine.execGetInfo f s
  | .attest f => Sys2Proof.Machine.execAttest f s
  | .licenceInstall f => Sys2Proof.Machine.execLicenceInstall f s
  | .legacyGrade f => Sys2Proof.Machine.execLegacyGrade f s
  | .flaskConfigSet f => Sys2Proof.Machine.execFlaskConfigSet f s
  | .flaskConfigRemove f => Sys2Proof.Machine.execFlaskConfigRemove f s
  | .flaskReset f => Sys2Proof.Machine.execFlaskReset f s
  | .flaskReg f => Sys2Proof.Machine.execFlaskReg f s
  | .ctxCreate f => Sys2Proof.Machine.execCtxCreate f s
  | .ctxDestroy f => Sys2Proof.Machine.execCtxDestroy f s
  | .queueCreate f => Sys2Proof.Machine.execQueueCreate f s
  | .queueDestroy f => Sys2Proof.Machine.execQueueDestroy f s
  | .memInit f => Sys2Proof.Machine.execMemInit f s
  | .pageRetire f => Sys2Proof.Machine.execPageRetire f s
  | .testGrant f => Sys2Proof.Machine.execTestGrant f s
  | .testRevoke f => Sys2Proof.Machine.execTestRevoke f s
  | .eccTestRead f => Sys2Proof.Machine.execEccTestRead f s
  | .eccTestWrite f => Sys2Proof.Machine.execEccTestWrite f s
  | .retireList f => Sys2Proof.Machine.execRetireList f s
  | .ladleSubmit f => Sys2Proof.Machine.execLadleSubmit f s
  | .kvConfig f => Sys2Proof.Machine.execKvConfig f s
  | .kvQuery f => Sys2Proof.Machine.execKvQuery f s
  | .seqCreate f => Sys2Proof.Machine.execSeqCreate f s
  | .seqFork f => Sys2Proof.Machine.execSeqFork f s
  | .seqFree f => Sys2Proof.Machine.execSeqFree f s
  | .seqEvict f => Sys2Proof.Machine.execSeqEvict f s
  | .seqReady f => Sys2Proof.Machine.execSeqReady f s
  | .seqResume f => Sys2Proof.Machine.execSeqResume f s
  | .portConfig f => Sys2Proof.Machine.execPortConfig f s
  | .portStatus f => Sys2Proof.Machine.execPortStatus f s
  | .endpointSet f => Sys2Proof.Machine.execEndpointSet f s
  | .jobJoin f => Sys2Proof.Machine.execJobJoin f s
  | .jobLeave f => Sys2Proof.Machine.execJobLeave f s
  | .jobKey f => Sys2Proof.Machine.execJobKey f s
  | .membershipCommit f => Sys2Proof.Machine.execMembershipCommit f s
  | .thermAckTrip f => Sys2Proof.Machine.execThermAckTrip f s
  | .pwrLimit f => Sys2Proof.Machine.execPwrLimit f s
  | .fwUpdate f => Sys2Proof.Machine.execFwUpdate f s
  | .fwActivate f => Sys2Proof.Machine.execFwActivate f s
  | .logConfig f => Sys2Proof.Machine.execLogConfig f s
  | .logFetch f => Sys2Proof.Machine.execLogFetch f s
  | .traceSet f => Sys2Proof.Machine.execTraceSet f s
  | .traceQuery f => Sys2Proof.Machine.execTraceQuery f s
  | .mbDoorbellPost f buf => Sys2Proof.Machine.execMbDoorbellPost f buf s
  | .deferredCompletion f => Sys2Proof.Machine.execDeferredCompletion f s
  | .wqDbTailWrite f slot tail => Sys2Proof.Machine.execWqDbTailWrite f slot tail s
  | .workItemStart x => Sys2Proof.Machine.execWorkItemStart x s
  | .workItemComplete x => Sys2Proof.Machine.execWorkItemComplete x s
  | .stoppingFault x n why => Sys2Proof.Machine.execStoppingFault x n why s
  | .stallLimit n => Sys2Proof.Machine.execStallLimit n s
  | .preemption x => Sys2Proof.Machine.execPreemption x s
  | .preemptionAbandon x => Sys2Proof.Machine.execPreemptionAbandon x s
  | .itemResume x => Sys2Proof.Machine.execItemResume x s
  | .batchBoundary x => Sys2Proof.Machine.execBatchBoundary x s
  | .hostWindowAccess f write off len data ups => Sys2Proof.Machine.execHostWindowAccess f write off len data ups s
  | .functionLevelReset f => Sys2Proof.Machine.execFunctionLevelReset f s
  | .hostLinkDown => Sys2Proof.Machine.execHostLinkDown s
  | .hostLinkRetrain width rate => Sys2Proof.Machine.execHostLinkRetrain width rate s
  | .perstNAssert => Sys2Proof.Machine.execPerstNAssert s
  | .seqCtlGo n => Sys2Proof.Machine.execSeqCtlGo n s
  | .seqCtlStop n => Sys2Proof.Machine.execSeqCtlStop n s
  | .seqCtlPause n => Sys2Proof.Machine.execSeqCtlPause n s
  | .recordFetch n ups => Sys2Proof.Machine.execRecordFetch n ups s
  | .recordLoad n => Sys2Proof.Machine.execRecordLoad n s
  | .waitRelease n => Sys2Proof.Machine.execWaitRelease n s
  | .pourStart n => Sys2Proof.Machine.execPourStart n s
  | .pourComplete n => Sys2Proof.Machine.execPourComplete n s
  | .shadowCopy n blk => Sys2Proof.Machine.execShadowCopy n blk s
  | .drainEnd n => Sys2Proof.Machine.execDrainEnd n s
  | .remoteAddFailure n addr => Sys2Proof.Machine.execRemoteAddFailure n addr s
  | .passEntry n => Sys2Proof.Machine.execPassEntry n s
  | .tileLoadComplete n => Sys2Proof.Machine.execTileLoadComplete n s
  | .shadowRelease n => Sys2Proof.Machine.execShadowRelease n s
  | .accumulatorWrite n parityBad accErr => Sys2Proof.Machine.execAccumulatorWrite n parityBad accErr s
  | .arrayStallEnd n => Sys2Proof.Machine.execArrayStallEnd n s
  | .vectorIteration n accErr => Sys2Proof.Machine.execVectorIteration n accErr s
  | .agAccess n g ups => Sys2Proof.Machine.execAgAccess n g ups s
  | .loadDataPush n g => Sys2Proof.Machine.execLoadDataPush n g s
  | .storeAck n g => Sys2Proof.Machine.execStoreAck n g s
  | .queueStallEnd n q => Sys2Proof.Machine.execQueueStallEnd n q s
  | .queueStall n => Sys2Proof.Machine.execQueueStall n s
  | .qCtlFlush n bitmap => Sys2Proof.Machine.execQCtlFlush n bitmap s
  | .counterAdd n ct v iss fl => Sys2Proof.Machine.execCounterAdd n ct v iss fl s
  | .bankCommandIssue n => Sys2Proof.Machine.execBankCommandIssue n s
  | .bankCommandAccept sl b => Sys2Proof.Machine.execBankCommandAccept sl b s
  | .streamTokenGrant sl => Sys2Proof.Machine.execStreamTokenGrant sl s
  | .rowBurst sl b ups => Sys2Proof.Machine.execRowBurst sl b ups s
  | .attendCmd sl b => Sys2Proof.Machine.execAttendCmd sl b s
  | .scoreCmd sl b => Sys2Proof.Machine.execScoreCmd sl b s
  | .valueCmd sl b => Sys2Proof.Machine.execValueCmd sl b s
  | .appendQCmd sl b => Sys2Proof.Machine.execAppendQCmd sl b s
  | .fillCmd sl b => Sys2Proof.Machine.execFillCmd sl b s
  | .copyPageCmd sl b => Sys2Proof.Machine.execCopyPageCmd sl b s
  | .reduceCmd sl b => Sys2Proof.Machine.execReduceCmd sl b s
  | .bankFence pa => Sys2Proof.Machine.execBankFence pa s
  | .bankResultPush pa => Sys2Proof.Machine.execBankResultPush pa s
  | .bsuFault sl b => Sys2Proof.Machine.execBsuFault sl b s
  | .memoryRead iss addr len hint ups => Sys2Proof.Machine.execMemoryRead iss addr len hint ups s
  | .memoryWrite iss addr hint data ups => Sys2Proof.Machine.execMemoryWrite iss addr hint data ups s
  | .eccWriteBack line => Sys2Proof.Machine.execEccWriteBack line s
  | .refreshSlot sl b => Sys2Proof.Machine.execRefreshSlot sl b s
  | .selfRefreshEntry st => Sys2Proof.Machine.execSelfRefreshEntry st s
  | .selfRefreshExit st => Sys2Proof.Machine.execSelfRefreshExit st s
  | .scrubRead sl ups => Sys2Proof.Machine.execScrubRead sl ups s
  | .sramScrubRead addr ups => Sys2Proof.Machine.execSramScrubRead addr ups s
  | .eccFillStart sl regions => Sys2Proof.Machine.execEccFillStart sl regions s
  | .fillEngineDone sl => Sys2Proof.Machine.execFillEngineDone sl s
  | .eccTwRead sl => Sys2Proof.Machine.execEccTwRead sl s
  | .eccTwWrite sl => Sys2Proof.Machine.execEccTwWrite sl s
  | .mcCtlInval sl => Sys2Proof.Machine.execMcCtlInval sl s
  | .mcPerfClear sl => Sys2Proof.Machine.execMcPerfClear sl s
  | .arrPerfClear n => Sys2Proof.Machine.execArrPerfClear n s
  | .vecPerfClear n => Sys2Proof.Machine.execVecPerfClear n s
  | .bsuPerfClear sl => Sys2Proof.Machine.execBsuPerfClear sl s
  | .ldlPerfClear e => Sys2Proof.Machine.execLdlPerfClear e s
  | .fpPerfClear p => Sys2Proof.Machine.execFpPerfClear p s
  | .fabPerfClear st => Sys2Proof.Machine.execFabPerfClear st s
  | .readClearCounter r inst => Sys2Proof.Machine.execReadClearCounter r inst s
  | .kvFlPop sl => Sys2Proof.Machine.execKvFlPop sl s
  | .kvFlPopb sl => Sys2Proof.Machine.execKvFlPopb sl s
  | .kvFlPush sl b fr => Sys2Proof.Machine.execKvFlPush sl b fr s
  | .appendRequest n => Sys2Proof.Machine.execAppendRequest n s
  | .copyOnWrite n => Sys2Proof.Machine.execCopyOnWrite n s
  | .attendRequest n => Sys2Proof.Machine.execAttendRequest n s
  | .memberMerge n => Sys2Proof.Machine.execMemberMerge n s
  | .stepEnd q => Sys2Proof.Machine.execStepEnd q s
  | .epochDrain sl => Sys2Proof.Machine.execEpochDrain sl s
  | .reclamation sl => Sys2Proof.Machine.execReclamation sl s
  | .dropEviction q sl => Sys2Proof.Machine.execDropEviction q sl s
  | .swapEviction q => Sys2Proof.Machine.execSwapEviction q s
  | .swapPageDone q ok => Sys2Proof.Machine.execSwapPageDone q ok s
  | .pageRestore q stream page ok => Sys2Proof.Machine.execPageRestore q stream page ok s
  | .kvStarved q sl => Sys2Proof.Machine.execKvStarved q sl s
  | .crsRstFp st => Sys2Proof.Machine.execCrsRstFp st s
  | .crsRstCluster c => Sys2Proof.Machine.execCrsRstCluster c s
  | .crsCoreGo n => Sys2Proof.Machine.execCrsCoreGo n s
  | .resetRelease h => Sys2Proof.Machine.execResetRelease h s
  | .fabricPlaneReturn st => Sys2Proof.Machine.execFabricPlaneReturn st s
  | .pllLockLoss st pll => Sys2Proof.Machine.execPllLockLoss st pll s
  | .pllRelock st pll => Sys2Proof.Machine.execPllRelock st pll s
  | .clockSlewStep st r => Sys2Proof.Machine.execClockSlewStep st r s
  | .peerReset c => Sys2Proof.Machine.execPeerReset c s
  | .linkDown st k peerLost => Sys2Proof.Machine.execLinkDown st k peerLost s
  | .d2dTimeout st dest => Sys2Proof.Machine.execD2dTimeout st dest s
  | .d2dLink st k => Sys2Proof.Machine.execD2dLink st k s
  | .nocCtlApply st => Sys2Proof.Machine.execNocCtlApply st s
  | .routeSwitch st dest => Sys2Proof.Machine.execRouteSwitch st dest s
  | .ldlChHeadWrite e ch head => Sys2Proof.Machine.execLdlChHeadWrite e ch head s
  | .ladleDescriptorStart e ups => Sys2Proof.Machine.execLadleDescriptorStart e ups s
  | .ladleDescriptorDone e lost => Sys2Proof.Machine.execLadleDescriptorDone e lost s
  | .ldlCtlDisable e => Sys2Proof.Machine.execLdlCtlDisable e s
  | .regulatorRelease host fl => Sys2Proof.Machine.execRegulatorRelease host fl s
  | .farLinkDown u => Sys2Proof.Machine.execFarLinkDown u s
  | .fpCfgEnWrite p en => Sys2Proof.Machine.execFpCfgEnWrite p en s
  | .fpCtlRequal p => Sys2Proof.Machine.execFpCtlRequal p s
  | .trainingAttemptEnd p k cause => Sys2Proof.Machine.execTrainingAttemptEnd p k cause s
  | .qualificationWindowEnd p k corrected uncorr => Sys2Proof.Machine.execQualificationWindowEnd p k corrected uncorr s
  | .portDegrade p k lanes uncorr => Sys2Proof.Machine.execPortDegrade p k lanes uncorr s
  | .subportAssayStart p k => Sys2Proof.Machine.execSubportAssayStart p k s
  | .linkAssayEnd p k lasting => Sys2Proof.Machine.execLinkAssayEnd p k lasting s
  | .portDown p k fourth => Sys2Proof.Machine.execPortDown p k fourth s
  | .failedRetry p k => Sys2Proof.Machine.execFailedRetry p k s
  | .recalibrationStep p lane up => Sys2Proof.Machine.execRecalibrationStep p lane up s
  | .lldpSend p k => Sys2Proof.Machine.execLldpSend p k s
  | .gratuitousArp p k => Sys2Proof.Machine.execGratuitousArp p k s
  | .frameReceive p k fr => Sys2Proof.Machine.execFrameReceive p k fr s
  | .neighborSolicitation p k target => Sys2Proof.Machine.execNeighborSolicitation p k target s
  | .rxPut st => Sys2Proof.Machine.execRxPut st s
  | .rxGet st ups => Sys2Proof.Machine.execRxGet st ups s
  | .rxAdd st => Sys2Proof.Machine.execRxAdd st s
  | .rxSend st => Sys2Proof.Machine.execRxSend st s
  | .rxGetr st => Sys2Proof.Machine.execRxGetr st s
  | .ackPkt st => Sys2Proof.Machine.execAckPkt st s
  | .ackSend cn => Sys2Proof.Machine.execAckSend cn s
  | .packetLoss cn psn timer => Sys2Proof.Machine.execPacketLoss cn psn timer s
  | .initPkt st => Sys2Proof.Machine.execInitPkt st s
  | .initAckPkt st => Sys2Proof.Machine.execInitAckPkt st s
  | .confirmPkt st => Sys2Proof.Machine.execConfirmPkt st s
  | .refusePkt st => Sys2Proof.Machine.execRefusePkt st s
  | .closePkt st => Sys2Proof.Machine.execClosePkt st s
  | .rekeyPkt st => Sys2Proof.Machine.execRekeyPkt st s
  | .oldPhaseKeyExpiry cn => Sys2Proof.Machine.execOldPhaseKeyExpiry cn s
  | .initResend cn => Sys2Proof.Machine.execInitResend cn s
  | .setupTimeout cn => Sys2Proof.Machine.execSetupTimeout cn s
  | .fabConnLost cn => Sys2Proof.Machine.execFabConnLost cn s
  | .idleClose cn => Sys2Proof.Machine.execIdleClose cn s
  | .drainWindowEnd fl ep => Sys2Proof.Machine.execDrainWindowEnd fl ep s
  | .congestionTick cn => Sys2Proof.Machine.execCongestionTick cn s
  | .putOp c ring => Sys2Proof.Machine.execPutOp c ring s
  | .getOp c ring => Sys2Proof.Machine.execGetOp c ring s
  | .addOp c ring => Sys2Proof.Machine.execAddOp c ring s
  | .sendOp c ring => Sys2Proof.Machine.execSendOp c ring s
  | .operationComplete c ring => Sys2Proof.Machine.execOperationComplete c ring s
  | .fabCfgEnWrite st en => Sys2Proof.Machine.execFabCfgEnWrite st en s
  | .fwHang u => Sys2Proof.Machine.execFwHang u s
  | .firmwareRestartDone u => Sys2Proof.Machine.execFirmwareRestartDone u s
  | .logAppend => Sys2Proof.Machine.execLogAppend s
  | .tracePoint u point payload => Sys2Proof.Machine.execTracePoint u point payload s
  | .bgLate u act => Sys2Proof.Machine.execBgLate u act s
  | .telemetry st => Sys2Proof.Machine.execTelemetry st s
  | .tsPair st => Sys2Proof.Machine.execTsPair st s
  | .dramRecalibrationStep sl ch => Sys2Proof.Machine.execDramRecalibrationStep sl ch s
  | .storedSettingsWrite => Sys2Proof.Machine.execStoredSettingsWrite s
  | .egDoorbell g src => Sys2Proof.Machine.execEgDoorbell g src s
  | .egClaim g t => Sys2Proof.Machine.execEgClaim g t s
  | .egComplete g t src => Sys2Proof.Machine.execEgComplete g t src s
  | .egHcomplete f kind => Sys2Proof.Machine.execEgHcomplete f kind s
  | .assayVerdict asr fault rows lanesFailed => Sys2Proof.Machine.execAssayVerdict asr fault rows lanesFailed s
  | .errorReport kind u addr syn fl => Sys2Proof.Machine.execErrorReport kind u addr syn fl s
  | .thConvReq t => Sys2Proof.Machine.execThConvReq t s
  | .diodeDone t valid temp watts => Sys2Proof.Machine.execDiodeDone t valid temp watts s
  | .conversionWatchdog t => Sys2Proof.Machine.execConversionWatchdog t s
  | .stackTrip st cause => Sys2Proof.Machine.execStackTrip st cause s
  | .shutdownRecord t => Sys2Proof.Machine.execShutdownRecord t s
  | .thCtlTrip st => Sys2Proof.Machine.execThCtlTrip st s
  | .thCtlRelease st => Sys2Proof.Machine.execThCtlRelease st s
  | .iodTrip cause => Sys2Proof.Machine.execIodTrip cause s
  | .trayRead got => Sys2Proof.Machine.execTrayRead got s
  | .trayIbi => Sys2Proof.Machine.execTrayIbi s
  | .coolantAlarm => Sys2Proof.Machine.execCoolantAlarm s
  | .coolantAlarmClear => Sys2Proof.Machine.execCoolantAlarmClear s
  | .powerInterval input iod perStack => Sys2Proof.Machine.execPowerInterval input iod perStack s
  | .fastThrottle amps perStack => Sys2Proof.Machine.execFastThrottle amps perStack s
  | .fastThrottleEnd st => Sys2Proof.Machine.execFastThrottleEnd st s
  | .coldBoot => Sys2Proof.Machine.execColdBoot s
  | .coldPhaseEnd r => Sys2Proof.Machine.execColdPhaseEnd r s
  | .fabricPhaseTimeout => Sys2Proof.Machine.execFabricPhaseTimeout s
  | .warmReentry => Sys2Proof.Machine.execWarmReentry s
  | .warmStepEnd r => Sys2Proof.Machine.execWarmStepEnd r s
  | .resetN us => Sys2Proof.Machine.execResetN us s
  | .powerUp mv => Sys2Proof.Machine.execPowerUp mv s
  | .powerLoss mv => Sys2Proof.Machine.execPowerLoss mv s
  | .i3cRoleRequest => Sys2Proof.Machine.execI3cRoleRequest s
  | .configBlockWrite block => Sys2Proof.Machine.execConfigBlockWrite block s
  | .debugToken token => Sys2Proof.Machine.execDebugToken token s
  | .registerWrite r inst v => Sys2Proof.Machine.execRegisterWrite r inst v s
  | .vfEnable en => Sys2Proof.Machine.execVfEnable en s
  | .controllerRoleReturn => Sys2Proof.Machine.execControllerRoleReturn s
  | .flashWearLevelling block eraseFails => Sys2Proof.Machine.execFlashWearLevelling block eraseFails s
  | .invalidationComplete sl => Sys2Proof.Machine.execInvalidationComplete sl s
  | .pacedTransmission st => Sys2Proof.Machine.execPacedTransmission st s

end Sys2Proof.Machine
end

