-- ==== Sys2Proof/Safety.lean ====
section
/-! DEFINITION. What counts as a safe run: the block goes on (no command ends in a fault or a refusal), and the properties
that every step keeps: canonical tables, and register fields within the widths of their tables. -/
namespace Sys2Proof.Machine

/-- Memory's canonical form: addresses strictly rising, no byte listed that an unlisted address would read as. -/
def Memory.wf (m : Store Byte) : Bool := Store.wf 0 m

/-- The register file's canonical form (Store.wfBy with each field's reset value). -/
def Regs.wf (m : Store Nat) : Prop :=
  Store.sorted m = true ∧ ∀ r i v, (regKey r i, v) ∈ m → v ≠ regDflt r i

/-- Every register field listed, live or shadow, fits the width its table gives it (R20). -/
def Regs.fit (m : Store Nat) : Prop := ∀ r i v, (regKey r i, v) ∈ m → v < 2 ^ r.info.width

/-- Every table of units is canonical: keys strictly rising, no unit listed at its reset value. -/
structure State.Canonical (s : State) : Prop where
  mem : Memory.wf s.mem = true
  marks : Store.wf {} s.marks = true
  hmem : Memory.wf s.hmem = true
  mbox : Memory.wf s.mbox = true
  owner : Store.wf none s.owner = true
  slice : Store.wf {} s.slice = true
  core : Store.wf {} s.core = true
  queue : Store.wf {} s.queue = true
  acc : Store.wf {} s.acc = true
  bank : Store.wf {} s.bank = true
  page : Store.wf {} s.page = true
  seq : Store.wf {} s.seq = true
  ctx : Store.wf {} s.ctx = true
  conn : Store.wf {} s.conn = true
  gath : Store.wf {} s.gath = true
  regs : Regs.wf s.regs

/-- Live and shadow register values fit their fields. -/
def State.Fit (s : State) : Prop := Regs.fit s.regs ∧ Regs.fit s.shad

/-- The step went on. -/
def Ran (o : Host.Outcome State Fault Refusal) (t : State) : Prop := o = .next t

/-- A step is safe: the block goes on to a state that keeps the canonical form. -/
def SafeStep (s : State) : Prop := ∃ t, Ran (step s) t ∧ (s.Canonical → t.Canonical)

/-! What statements say of what a command leaves alone. -/

/-- The parts of State, one name a field. -/
inductive Part where
  | pending
  | tick
  | rsp
  | out
  | fuse
  | misc
  | regs
  | shad
  | mem
  | marks
  | wb
  | cache
  | openRow
  | slice
  | owner
  | cluster
  | stack
  | members
  | hwAdds
  | port
  | sub
  | job
  | conn
  | fabOp
  | cring
  | fab
  | cfg
  | cfgSlots
  | ladle
  | bucket
  | core
  | queue
  | acc
  | ag
  | bank
  | path
  | page
  | pte
  | seq
  | slag
  | slot
  | kv
  | mbox
  | fn
  | wq
  | ctx
  | image
  | flaskSt
  | hmem
  | account
  | attend
  | gath
  | note
  | assayer
  | lasting
  | fifo
  | dropped
  | retirements
  | excl
  | excluded
  | fw
  | sec
  | therm
  | th
  | shut
  | held
  | flashLog
  deriving DecidableEq, Repr

/-- A part is the same in two states. -/
def Part.same : Part → State → State → Prop
  | .pending, s, t => t.pending = s.pending
  | .tick, s, t => t.tick = s.tick
  | .rsp, s, t => t.rsp = s.rsp
  | .out, s, t => t.out = s.out
  | .fuse, s, t => t.fuse = s.fuse
  | .misc, s, t => t.misc = s.misc
  | .regs, s, t => ∀ r i, t.reg r i = s.reg r i
  | .shad, s, t => t.shad = s.shad
  | .mem, s, t => t.mem = s.mem
  | .marks, s, t => t.marks = s.marks
  | .wb, s, t => t.wb = s.wb
  | .cache, s, t => t.cache = s.cache
  | .openRow, s, t => t.openRow = s.openRow
  | .slice, s, t => t.slice = s.slice
  | .owner, s, t => t.owner = s.owner
  | .cluster, s, t => t.cluster = s.cluster
  | .stack, s, t => t.stack = s.stack
  | .members, s, t => t.members = s.members
  | .hwAdds, s, t => t.hwAdds = s.hwAdds
  | .port, s, t => t.port = s.port
  | .sub, s, t => t.sub = s.sub
  | .job, s, t => t.job = s.job
  | .conn, s, t => t.conn = s.conn
  | .fabOp, s, t => t.fabOp = s.fabOp
  | .cring, s, t => t.cring = s.cring
  | .fab, s, t => t.fab = s.fab
  | .cfg, s, t => t.cfg = s.cfg
  | .cfgSlots, s, t => t.cfgSlots = s.cfgSlots
  | .ladle, s, t => t.ladle = s.ladle
  | .bucket, s, t => t.bucket = s.bucket
  | .core, s, t => t.core = s.core
  | .queue, s, t => t.queue = s.queue
  | .acc, s, t => t.acc = s.acc
  | .ag, s, t => t.ag = s.ag
  | .bank, s, t => t.bank = s.bank
  | .path, s, t => t.path = s.path
  | .page, s, t => t.page = s.page
  | .pte, s, t => t.pte = s.pte
  | .seq, s, t => t.seq = s.seq
  | .slag, s, t => t.slag = s.slag
  | .slot, s, t => t.slot = s.slot
  | .kv, s, t => t.kv = s.kv
  | .mbox, s, t => t.mbox = s.mbox
  | .fn, s, t => t.fn = s.fn
  | .wq, s, t => t.wq = s.wq
  | .ctx, s, t => t.ctx = s.ctx
  | .image, s, t => t.image = s.image
  | .flaskSt, s, t => t.flaskSt = s.flaskSt
  | .hmem, s, t => t.hmem = s.hmem
  | .account, s, t => t.account = s.account
  | .attend, s, t => t.attend = s.attend
  | .gath, s, t => t.gath = s.gath
  | .note, s, t => t.note = s.note
  | .assayer, s, t => t.assayer = s.assayer
  | .lasting, s, t => t.lasting = s.lasting
  | .fifo, s, t => t.fifo = s.fifo
  | .dropped, s, t => t.dropped = s.dropped
  | .retirements, s, t => t.retirements = s.retirements
  | .excl, s, t => t.excl = s.excl
  | .excluded, s, t => t.excluded = s.excluded
  | .fw, s, t => t.fw = s.fw
  | .sec, s, t => t.sec = s.sec
  | .therm, s, t => t.therm = s.therm
  | .th, s, t => t.th = s.th
  | .shut, s, t => t.shut = s.shut
  | .held, s, t => t.held = s.held
  | .flashLog, s, t => t.flashLog = s.flashLog

/-- A command's frame: every part of State outside a list is unchanged, and every register field outside a second list, at
every index. A list that holds the whole register file says nothing of registers (a reset). -/
structure OnlyChanges (parts : List Part) (regs : List Fld) (s t : State) : Prop where
  rest : ∀ p, p ∉ parts → p ≠ .regs → p.same s t
  reg : Part.regs ∉ parts → ∀ r, r ∉ regs → ∀ i, t.reg r i = s.reg r i

/-- What an answer to a mailbox request may change beside its own effect (R482, R483, R391-R393): messages sent, the function's
pages and mailbox state, and the note that reports a deferred completion. -/
def answerParts : List Part := [.out, .mbox, .fn, .gath, .note, .held]

/-- Registers of an answer. -/
def answerRegs : List Fld := [.MB_STATE_state, .EG_STAT_bad_src, .EG_HNOTE_wr_seq, .MSIX_pend]

/-- What a report of an error or an event may change (R571, R577-R582): the assayers and the log's queue. -/
def reportParts : List Part := [.tick, .misc, .assayer, .fifo, .dropped]

/-- A power of two, as a rational. -/
def ratPow2 (e : Int) : Rat := if 0 ≤ e then ((2 ^ e.toNat : Nat) : Rat) else 1 / ((2 ^ (-e).toNat : Nat) : Rat)

/-- The number a finite value stands for (R48); 0 for the others. -/
def FV.rat : FV → Rat
  | .fin neg m e => (if neg then -1 else 1) * (m : Rat) * ratPow2 e
  | _ => 0

/-- A value is finite. -/
def FV.finite : FV → Bool
  | .fin .. => true
  | _ => false

/-- Distance of two numbers. -/
def ratDist (x y : Rat) : Rat := if x ≤ y then y - x else x - y

/-- A code of a format is the nearest finite one to a number, and even where two are equally near (R56). -/
structure Nearest (fmt : Nat) (x : Rat) (c : Nat) : Prop where
  finite : (ofFmt fmt c).finite = true
  nearest : ∀ k, k < 2 ^ fmtWidth fmt → (ofFmt fmt k).finite = true → ratDist (ofFmt fmt c).rat x ≤ ratDist (ofFmt fmt k).rat x
  even : ∀ k, k < 2 ^ fmtWidth fmt → (ofFmt fmt k).finite = true → ratDist (ofFmt fmt c).rat x = ratDist (ofFmt fmt k).rat x →
    (ofFmt fmt c).rat = (ofFmt fmt k).rat ∨ c % 2 = 0

/-- Register fields are unchanged at every index but one. -/
def RegsElsewhere (rs : List Fld) (i : Nat) (s t : State) : Prop := ∀ r ∈ rs, ∀ j, j ≠ i → t.reg r j = s.reg r j

/-- A byte lies in none of the 8-byte words that a range of addresses reaches: a store writes whole words with their check
bits (R214, R223). -/
def OutsideWords (b a len : Nat) : Prop := b < a / 8 * 8 ∨ (a + len + 7) / 8 * 8 ≤ b

/-! What statements say of a mailbox request. -/

/-- Firmware takes a function's posted request of an opcode now (R488, R465, R547, R467): it passed the checks of R486, the
SCH runs, and neither the flask nor the context it names is under reset or reconfiguration. -/
structure RequestDue (s : State) (f op : Nat) (r : Req) : Prop where
  posted : (s.fnAt f).run = some r
  code : r.op = op
  awake : ¬2 ∈ s.fw.restarting
  service : s.misc.phase = 0x20 ∨ ((op = 1 ∨ op = 2) ∨ s.misc.phase = 0x30 ∧ f = 0 ∧ op = 0x0601)
  flask : ∀ o, opRow op = some o → (o.flask && s.flaskBusy r.flask && op ≠ 0x0101) = false
  ctx : r.ctx = 0xFFFF ∨ (s.ctxAt r.ctx).dying = false
  body : ∀ o, opRow op = some o → bodyBad r o = false

/-- The function's request has its response (R482, R483, R491): state DONE, the opcode, tag and status, the DEFERRED bit and
the body in the response buffer, nothing left to carry out, and the request kept for a RETRY. -/
structure Answered (t : State) (f : Nat) (r : Req) (status : Nat) (deferred : Bool) (body : List Byte) : Prop where
  done : t.reg .MB_STATE_state f = 2
  free : (t.fnAt f).run = none
  kept : (t.fnAt f).last = some (r.tag, r.op, r.crc)
  code : field (t.mboxBytes f 0x802 2) 0 2 = r.op % 2 ^ 16
  length : field (t.mboxBytes f 0x804 2) 0 2 = body.length % 2 ^ 16
  flags : field (t.mboxBytes f 0x806 2) 0 2 = if deferred then 256 else 0
  tag : field (t.mboxBytes f 0x808 2) 0 2 = r.tag % 2 ^ 16
  status : field (t.mboxBytes f 0x810 2) 0 2 = status % 2 ^ 16
  body : t.mboxBytes f 0x820 body.length = body

/-! What statements say of a Brodit engine. -/

/-- The engine takes a DATA frame of an operation code next (R446, R449): the n-th of its frames, on an open connection, inside
the window and not performed before. -/
structure RxReady (s : State) (st code n i : Nat) (x : RxItem) : Prop where
  live : s.fabLive st = true
  first : (s.fabAt st).rx.findIdx? (fun y => y.fr.ptype == 0 && y.fr.op == code && y.conn.any (fun j => (s.connAt j).mayPerform y.fr))
    = some n
  frame : (s.fabAt st).rx[n]? = some x
  conn : x.conn = some i
  fresh : 2 ^ 23 ≤ psnDist (s.connAt i).ack x.fr.psn ∧ x.fr.psn ∉ (s.connAt i).got
  window : psnDist x.fr.psn (s.connAt i).ack ≤ 4096

/-- The frame has been taken and performed (R447): it has left the engine, and the acknowledgement covers it. -/
structure RxPerformed (s t : State) (st n i : Nat) (x : RxItem) : Prop where
  taken : (t.fabAt st).rx = (s.fabAt st).rx.eraseIdx n
  ack : (t.connAt i).ack = advance (x.fr.psn :: (s.connAt i).got) 4096 (s.connAt i).ack
  since : (t.connAt i).since = (s.connAt i).since + 1

/-- A handshake or control frame of a type is the n-th of an engine's frames and its next (R432). -/
structure RxNext (s : State) (st type n : Nat) (x : RxItem) : Prop where
  live : s.fabLive st = true
  first : (s.fabAt st).rx.findIdx? (fun y => y.fr.ptype == type) = some n
  frame : (s.fabAt st).rx[n]? = some x

/-- The next entry of a command ring holds an operation of a kind to another module that nothing refuses, and its connection
stands (R453, R456). -/
structure CommandReady (s : State) (c ring kind i : Nat) (x : Cmd) : Prop where
  on : (s.jobAt ((s.flaskOf c).getD 16)).on = true
  stays : (s.jobAt ((s.flaskOf c).getD 16)).leaving = false
  entries : 0 < (s.jobAt ((s.flaskOf c).getD 16)).ringEntries
  live : s.fabLive (c / 8) = true
  held : s.clusterHeld c = false
  read : (s.readResult 13 false none (s.cmdAddr c ring (Store.get 0 s.cring (c * 13 + ring))) 128).bad = false
  entry : x = parseCmd (s.readResult 13 false none (s.cmdAddr c ring (Store.get 0 s.cring (c * 13 + ring))) 128).data (s.mtu (c / 8) 3)
  valid : x.valid = true
  kind : x.op = kind
  good : x.bad = false
  away : s.ownEndpoint (x.remote / 2 ^ 46) = false
  member : ((s.flaskOf c).getD 16, x.remote / 2 ^ 46) ∈ s.members
  present : x.remote / 2 ^ 46 ∉ (s.jobAt ((s.flaskOf c).getD 16)).gone
  conn : s.connOf (c / 8) ((s.flaskOf c).getD 16) (x.remote / 2 ^ 46) = some i
  stands : (s.connAt i).drain = false

/-- Packets on a connection's queue in a class: the connection's own class and number (R444, R457). -/
def queued (c : Conn) (cls : Nat) (ps : List Pkt) : List Pkt :=
  let k := if c.ver = 1 ∧ 1 < cls then 1 else cls
  ps.map (fun p => { p with cls := k, csn := c.csn.getD k 0 })

/-- The operation has been taken from its ring and its packets wait on the connection (R453-R455). -/
structure CommandQueued (s t : State) (c ring i : Nat) (x : Cmd) (ps : List Pkt) : Prop where
  next : Store.get 0 t.cring (c * 13 + ring) =
    (Store.get 0 s.cring (c * 13 + ring) + 1) % (s.jobAt ((s.flaskOf c).getD 16)).ringEntries
  queue : (t.connAt i).queue = (s.connAt i).queue ++ queued (s.connAt i) x.cls ps
  left : (t.opAt s.misc.opNext).left = ps.length + responsesOf (s.mtu (c / 8) (s.connAt i).ver) x

end Sys2Proof.Machine
end

