-- ==== Sys2Proof/Certificates/Slice0/Obligations.lean ====
section
/-! DEFINITION. The statements for the provers: what the commands of the block do, clause by clause. A statement is the
conjunction of its clauses; a comment before each clause names it. The words `OnlyChanges`, `Canonical`, `Fit`, `RequestDue` and
the like are defined in Sys2Proof/Safety.lean. -/
set_option linter.all false
set_option exponentiation.threshold 1000
set_option maxRecDepth 20000
open Sys2Proof Sys2Proof.Machine

/-- HELLO, GET_INFO, ATTEST, LICENCE_INSTALL, LEGACY_GRADE and the requests on flasks, contexts and queues: each, when
firmware takes it and nothing it says is refused, is answered OK with its body, and has its effect. Rests on
20_mailbox_protocol.md, 21_contexts_and_flasks.md, 26_security_and_licences.md. -/
def Obligations.FlaskAndContextRequestsComplete : Prop :=
  -- hello
  (∀ (f : FnIx) (s : State) (r : Req) (v : Nat × Nat), RequestDue s f 1 r → (s.fnAt f).deferred = [] →
    helloChoice (field r.body 0 1) (field r.body 1 1) (field r.body 2 1) = some v → ∃ t, exec (.hello f) s = .next t ∧
      Answered t f r 0 false (padTo8 (byte v.1 ++ byte v.2 ++ leBytes f 2 ++ leBytes 2016 4 ++ leBytes 1760 4 ++ leBytes 0 4)) ∧
      (t.fnAt f).major = v.1 ∧ (t.fnAt f).minor = some v.2) ∧
  -- getInfo
  (∀ (f : FnIx) (s : State) (r : Req), RequestDue s f 2 r → ∃ t, exec (.getInfo f) s = .next t ∧
      Answered t f r 0 false (padTo8 (s.infoBody (Config.free s.tick)))) ∧
  -- attest
  (∀ (f : FnIx) (s : State) (r : Req), RequestDue s f 3 r → ((r.body.take 64).all (· == 0)) = false →
    ∃ t, exec (.attest f) s = .next t ∧ t.sec.signed = (s.sec.signed + 1) % 2 ^ 64 ∧
      Answered t f r 0 false (padTo8 (s.reportBody (r.body.take 64) ++ fit 512 (Config.identitySign (s.reportBody (r.body.take 64)))))) ∧
  -- certificate
  (∀ (f : FnIx) (s : State) (r : Req), RequestDue s f 3 r → (r.body.take 64).all (· == 0) = true →
    ∃ t, exec (.attest f) s = .next t ∧
      Answered t f r 0 false (padTo8 (s.certificateBody ++ fit 512 (Config.certificateSign s.certificateBody)))) ∧
  -- licenceInstall
  (∀ (f : FnIx) (s : State) (r : Req) (n : Nat) (ls new kept : List (List Byte)) (ok : Bool), RequestDue s f 4 r → s.misc.linkUp = true →
    n = field r.body 8 4 → n ≠ 0 → n % 576 = 0 → n ≤ 8064 →
    ls = (List.range (n / 576)).map (fun k => ((s.hostBytes f (field r.body 0 8) n).drop (576 * k)).take 576) →
    ok = ls.all (fun x => s.licenceOk x (s.counter 0) (min (s.counter 1 + 1) 0xFFFFFFFF)) →
    new = ls.zipIdx.filterMap (fun x => if (ls.drop (x.2 + 1)).any (fun y => field y 16 4 == field x.1 16 4) then none else some x.1) →
    kept = s.sec.licences.filter (fun x => s.licenceOk x (s.counter 0) (min (s.counter 1 + 1) 0xFFFFFFFF)
      && !new.any (fun y => field y 16 4 == field x 16 4)) →
    ∃ t, exec (.licenceInstall f) s = .next t ∧ if ok = true ∧ kept.length + new.length ≤ 32
      then t.sec.lic = s.sec.lic + 1 ∧ t.sec.licences = kept ++ new ∧ t.misc.licence = s.misc.licence ||| features new ∧
        Answered t f r 0 false (padTo8 (leBytes t.misc.licence 4))
      else t.sec = s.sec ∧ t.misc = s.misc ∧ Answered t f r (if ok then stNoResource else stDenied) false []) ∧
  -- legacyGrade
  (∀ (f : FnIx) (s : State) (r : Req), RequestDue s f 5 r → ∃ t, exec (.legacyGrade f) s = .next t ∧
      Answered t f r 0 false (padTo8 (byte t.legacyByte ++ byte (legacyCode t.legacyByte)))) ∧
  -- flaskConfigSet
  (∀ (f : FnIx) (s : State) (r : Req) (cs rs : List Nat), RequestDue s f 0x0101 r → field r.body 0 1 = 0 → s.misc.linkUp = true →
    (s.fnAt f).deferred.length < 16 → field r.body 32 4 ≤ 83968 → cs = (List.range 96).filter (fun c => bit (field r.body 8 12) c) →
    rs = nub (u32s (s.hostBytes f (field r.body 24 8) (4 * field r.body 32 4)) (field r.body 32 4)) →
    s.flaskRefusal r.flask 0 cs rs (field r.body 32 4) = 0 → ∃ t, exec (.flaskConfigSet f) s = .next t ∧
      Answered t f r 0 true (padTo8 (leBytes ((s.regionsOf r.flask).length + (rs.filter (fun x => s.ownerAt x == none)).length) 4)) ∧
      (t.fnAt f).deferred = (s.fnAt f).deferred ++ [{ op := r.op, tag := r.tag, work := .flaskSet r.flask cs rs }]) ∧
  -- flaskConfigRemove
  (∀ (f : FnIx) (s : State) (r : Req) (cs rs : List Nat), RequestDue s f 0x0101 r → field r.body 0 1 = 1 → s.misc.linkUp = true →
    (s.fnAt f).deferred.length < 16 → field r.body 32 4 ≤ 83968 → cs = (List.range 96).filter (fun c => bit (field r.body 8 12) c) →
    rs = nub (u32s (s.hostBytes f (field r.body 24 8) (4 * field r.body 32 4)) (field r.body 32 4)) →
    s.flaskRefusal r.flask 1 cs rs (field r.body 32 4) = 0 → ∃ t, exec (.flaskConfigRemove f) s = .next t ∧
      Answered t f r 0 true (padTo8 (leBytes ((s.regionsOf r.flask).length - rs.length) 4)) ∧
      (t.fnAt f).deferred = (s.fnAt f).deferred ++ [{ op := r.op, tag := r.tag, work := .flaskRemove r.flask cs rs }]) ∧
  -- flaskReset
  (∀ (f : FnIx) (s : State) (r : Req), RequestDue s f 0x0102 r → (s.fnAt f).deferred.length < 16 →
    ∃ t, exec (.flaskReset f) s = .next t ∧ Answered t f r 0 true [] ∧
      (t.fnAt f).deferred = (s.fnAt f).deferred ++ [{ op := r.op, tag := r.tag, work := .flaskReset r.flask }]) ∧
  -- flaskReg
  (∀ (f : FnIx) (s : State) (r : Req), RequestDue s f 0x0103 r → (∀ k < 4, regWordBad (field r.body (8 * k) 8) = false) →
    ∃ t, exec (.flaskReg f) s = .next t ∧ Answered t f r 0 false [] ∧
      (t.flaskStAt r.flask).regs = (List.range 4).map (fun k => field r.body (8 * k) 8) ∧
      t.reg .REG_FAR_rate r.flask = bits (field r.body 0 8) 63 48 % 2 ^ 16 ∧
      t.reg .REG_HOST_rate r.flask = bits (field r.body 8 8) 63 48 % 2 ^ 16) ∧
  -- ctxCreate
  (∀ (f : FnIx) (s : State) (r : Req) (x : Nat), RequestDue s f 0x0110 r → r.ctx = 0xFFFF → field r.body 0 1 ≤ 7 →
    1 ≤ field r.body 2 1 → field r.body 3 1 + field r.body 2 1 ≤ 96 →
    (∀ k < field r.body 2 1, s.flaskOf (field r.body 3 1 + k) = some r.flask) →
    findNat (fun x => !(s.ctxAt x).on) 256 0 = some x → s.poolRoom (field r.body 2 1 * s.perCluster) = true →
    ∃ t, exec (.ctxCreate f) s = .next t ∧ Answered t f r 0 false (padTo8 (leBytes x 2)) ∧
      t.ctxAt x = { on := true, flask := r.flask, fn := f, prio := field r.body 0 1, first := field r.body 3 1, count := field r.body 2 1 }) ∧
  -- ctxDestroy
  (∀ (f : FnIx) (s : State) (r : Req), RequestDue s f 0x0111 r → r.ctx ≠ 0xFFFF → (s.fnAt f).deferred.length < 16 →
    ∃ t, exec (.ctxDestroy f) s = .next t ∧ Answered t f r 0 true [] ∧ (t.ctxAt r.ctx).dying = true ∧
      (t.fnAt f).deferred = (s.fnAt f).deferred ++ [{ op := r.op, tag := r.tag, work := .ctxDestroy r.ctx }]) ∧
  -- queueCreate
  (∀ (f : FnIx) (s : State) (r : Req) (q k : Nat), RequestDue s f 0x0112 r → field r.body 0 8 % 4096 = 0 →
    4 ≤ field r.body 8 1 → field r.body 8 1 ≤ 16 → r.ctx ≠ 0xFFFF → findNat (fun q => !(s.wqAt (wqKey f q)).on) 256 0 = some q →
    findNat (fun k => !(s.wq.any (fun p => p.2.on && p.2.num == k))) 4096 0 = some k →
    ∃ t, exec (.queueCreate f) s = .next t ∧ Answered t f r 0 false (padTo8 (leBytes q 2 ++ leBytes k 2)) ∧
      t.wqAt (wqKey f q) = { on := true, num := k, ctx := r.ctx, base := field r.body 0 8, log2 := field r.body 8 1 }) ∧
  -- queueDestroy
  (∀ (f : FnIx) (s : State) (r : Req) (k : Nat), RequestDue s f 0x0113 r → field r.body 0 2 ≤ 255 → k = wqKey f (field r.body 0 2) →
    (s.wqAt k).on = true → (s.wqAt k).dying = false → s.wqFlask (s.wqAt k) = r.flask → (s.fnAt f).deferred.length < 16 →
    ∃ t, exec (.queueDestroy f) s = .next t ∧ Answered t f r 0 true [] ∧ (t.wqAt k).dying = true ∧ (t.wqAt k).tail = (s.wqAt k).started ∧
      (t.fnAt f).deferred = (s.fnAt f).deferred ++ [{ op := r.op, tag := r.tag, work := .queueDestroy k }])

/-- The requests on memory, the far tier, the KV cache and sequences: each, when firmware takes it and nothing it says is
refused, is answered OK with its body, and has its effect. Rests on 20_mailbox_protocol.md, 07_stacked_memory.md,
10_kv_cache_pages.md, 12_cache_pressure.md, 21_contexts_and_flasks.md. -/
def Obligations.MemoryAndCacheRequestsComplete : Prop :=
  -- memInit
  (∀ (f : FnIx) (s : State) (r : Req) (rs : List Nat), RequestDue s f 0x0201 r → rs = u32s (r.body.drop 8) (field r.body 0 4) →
    (∀ x ∈ rs, x < 18432 ∧ s.ownerAt x = some r.flask ∧ s.stackHeld (x / 16 / 96) = false) →
    ∃ t, exec (.memInit f) s = .next t ∧ Answered t f r 0 false [] ∧
      ∀ x ∈ rs, bit (t.reg .ECC_INIT_regions (x / 16)) (x % 16) = true ∧ ∀ a, x * 2 ^ 26 ≤ a → a < (x + 1) * 2 ^ 26 → t.byteAt a = 0) ∧
  -- pageRetire
  (∀ (f : FnIx) (s : State) (r : Req) (ps ks new : List Nat), RequestDue s f 0x0202 r → (s.fnAt f).deferred.length < 16 →
    ps = u32s (r.body.drop 8) (field r.body 0 4) → (∀ p ∈ ps, p < 2 ^ 26 ∧ p / 2 ^ 22 ≤ 11 ∧ p / 2 ^ 15 % 128 ≤ 95) →
    ks = nub (ps.map keyOfPfn) →
    new = ks.filter (fun k => !s.retired (k / 32768) (k / 256 % 128) (k % 256) && !(s.pageAt k).retire) →
    (∀ k ∈ new, s.retireCount (k / 32768) + (s.page.filter (fun p => p.1 / 32768 == k / 32768 && p.2.retire && p.2.state != 6)).length
      + (new.filter (fun j => j / 32768 == k / 32768)).length ≤ 32) →
    ∃ t, exec (.pageRetire f) s = .next t ∧ Answered t f r 0 true [] ∧
      (t.fnAt f).deferred = (s.fnAt f).deferred ++ [{ op := r.op, tag := r.tag, work := .pageRetire ks }] ∧
      ∀ k ∈ new, (t.pageAt k).retire = true) ∧
  -- testGrant
  (∀ (f : FnIx) (s : State) (r : Req) (rg sl : Nat), RequestDue s f 0x0203 r → rg = field r.body 4 4 → sl = rg / 16 →
    field r.body 0 1 ≤ 15 → s.regionExists rg = true → rg < 18432 → s.ownerAt rg = some (field r.body 0 1) →
    s.flag .ECC_TWG_grant sl = false → s.grants (field r.body 0 1) < 4 →
    ∃ t, exec (.testGrant f) s = .next t ∧ Answered t f r 0 false [] ∧ t.reg .ECC_TWG_grant sl = 1 ∧
      t.reg .ECC_TWG_flask sl = field r.body 0 1 ∧ t.reg .ECC_TWG_region sl = rg % 16 ∧
      bit (t.reg .ECC_INIT_regions sl) (rg % 16) = false) ∧
  -- testRevoke
  (∀ (f : FnIx) (s : State) (r : Req) (rg sl : Nat), RequestDue s f 0x0204 r → rg = field r.body 4 4 → sl = rg / 16 →
    field r.body 0 1 ≤ 15 → s.regionExists rg = true → rg < 18432 →
    s.reg .ECC_TWG_grant sl = 1 → s.reg .ECC_TWG_flask sl = field r.body 0 1 → s.reg .ECC_TWG_region sl = rg % 16 →
    ∃ t, exec (.testRevoke f) s = .next t ∧ Answered t f r 0 false [] ∧ t.reg .ECC_TWG_grant sl = 0 ∧
      bit (t.reg .ECC_INIT_regions sl) (rg % 16) = true ∧ ∀ a, rg * 2 ^ 26 ≤ a → a < (rg + 1) * 2 ^ 26 → t.byteAt a = 0) ∧
  -- eccTestRead
  (∀ (f : FnIx) (s : State) (r : Req) (a sl : Nat), RequestDue s f 0x0205 r → field r.body 0 1 = 0 → a = field r.body 8 8 →
    sl = a / 2 ^ 30 → a % 8 = 0 → s.granted a = true → s.reg .ECC_TWG_flask sl = r.flask → s.stackHeld (sl / 96) = false →
    ∃ t, exec (.eccTestRead f) s = .next t ∧ Answered t f r 0 false (padTo8 (t.twBody sl)) ∧
      t.reg .ECC_TW_ADDR_word sl = a % 2 ^ 30 / 8 ∧ (s.undefWord (a / 8) = false →
        t.reg .ECC_TW_CHK_check sl = (s.rawCheck (a / 8)).toNat ∧
        t.reg .ECC_TW_DATA_data sl = (BitVec.ofNat 64 (s.rawWord a) ^^^ BitVec.ofNat 64 (s.markAt (a / 8)).flips.toNat).toNat)) ∧
  -- eccTestWrite
  (∀ (f : FnIx) (s : State) (r : Req) (a sl : Nat), RequestDue s f 0x0205 r → field r.body 0 1 = 1 → a = field r.body 8 8 →
    sl = a / 2 ^ 30 → a % 8 = 0 → s.granted a = true → s.reg .ECC_TWG_flask sl = r.flask → s.stackHeld (sl / 96) = false →
    ∃ t, exec (.eccTestWrite f) s = .next t ∧ Answered t f r 0 false (padTo8 (t.twBody sl)) ∧
      t.rawWord a = field r.body 16 8 ∧ (t.markAt (a / 8)).raw = some (BitVec.ofNat 16 (field r.body 24 2)) ∧
      (t.markAt (a / 8)).flips = 0) ∧
  -- retireList
  (∀ (f : FnIx) (s : State) (r : Req) (w : Nat), RequestDue s f 0x0206 r → field r.body 8 4 % 4 = 0 → s.misc.linkUp = true →
    w = min (field r.body 8 4 / 4) s.retirements.length →
    ∃ t, exec (.retireList f) s = .next t ∧ Answered t f r 0 false (padTo8 (leBytes w 4 ++ leBytes s.retirements.length 4)) ∧
      t.hostBytes f (field r.body 0 8) (4 * w) = (s.retirements.take w).flatMap (fun k => leBytes (pfnOfKey k) 4)) ∧
  -- ladleSubmit
  (∀ (f : FnIx) (s : State) (r : Req) (a e ch : Nat), RequestDue s f 0x0210 r → a = field r.body 0 8 → a % 64 = 0 → a < 2 ^ 46 →
    s.memOwner a = some r.flask → s.freeChannel = some (e, ch) →
    ∃ t, exec (.ladleSubmit f) s = .next t ∧ Answered t f r 0 false [] ∧ t.reg .LDL_CH_head (e * 16 + ch) = a ∧
      t.reg .LDL_CH_state (e * 16 + ch) = 1 ∧ (t.ladleAt e).queue = (s.ladleAt e).queue ++ [ch]) ∧
  -- kvConfig
  (∀ (f : FnIx) (s : State) (r : Req) (rs : List Nat), RequestDue s f 0x0301 r → (s.fnAt f).deferred.length < 16 →
    s.misc.linkUp = true → field r.body 8 4 ≤ 18432 →
    rs = nub (u32s (s.hostBytes f (field r.body 0 8) (4 * field r.body 8 4)) (field r.body 8 4)) →
    s.kvRefusal r.flask (kvCfgOf (s.kvAt r.flask) r.body) rs (field r.body 8 4) = 0 →
    ∃ t, exec (.kvConfig f) s = .next t ∧ Answered t f r 0 true [] ∧
      (t.fnAt f).deferred = (s.fnAt f).deferred ++ [{ op := r.op, tag := r.tag, work := .done }] ∧
      t.kvAt r.flask = kvCfgOf (t.kvAt r.flask) r.body) ∧
  -- kvQuery
  (∀ (f : FnIx) (s : State) (r : Req), RequestDue s f 0x0302 r → (s.kvAt r.flask).set = true →
    ∃ t, exec (.kvQuery f) s = .next t ∧ Answered t f r 0 false (padTo8 (leBytes (s.kvAt r.flask).descBase 8
      ++ leBytes (s.kvAt r.flask).slagBase 8 ++ leBytes (s.kvAt r.flask).acctBase 8))) ∧
  -- kvQueryUnset
  (∀ (f : FnIx) (s : State) (r : Req), RequestDue s f 0x0302 r → (s.kvAt r.flask).set = false →
    ∃ t, exec (.kvQuery f) s = .next t ∧ Answered t f r 0 false (padTo8 (leBytes (Config.free s.tick % 2 ^ 46) 8
      ++ leBytes (Config.free (s.tick + 1) % 2 ^ 46) 8 ++ leBytes (Config.free (s.tick + 2) % 2 ^ 46) 8))) ∧
  -- seqCreate
  (∀ (f : FnIx) (s : State) (r : Req) (x : SeqSt) (q pt da : Nat), RequestDue s f 0x0310 r → x = seqOf r → seqBad r.body x = false →
    (∀ sl ∈ x.spread.take x.spreadN, s.flaskOf (sl / 12) = some r.flask) → s.freeSeq = some q →
    s.place r.flask (s.kvRegionsOf r.flask) (s.kvTaken r.flask) x.tableLen (Config.free s.tick) = some pt →
    s.place r.flask (s.kvRegionsOf r.flask) ((pt, x.tableLen) :: s.kvTaken r.flask) 64 (Config.free (s.tick + 1)) = some da →
    ∃ t, exec (.seqCreate f) s = .next t ∧ t.seqAt q = { x with ptBase := pt, descAddr := da } ∧
      Answered t f r 0 false (padTo8 (leBytes q 2 ++ leBytes 0 6 ++ leBytes da 8 ++ leBytes pt 8))) ∧
  -- seqFork
  (∀ (f : FnIx) (s : State) (r : Req) (a b len pt da : Nat) (x : SeqSt), RequestDue s f 0x0311 r → a = field r.body 0 2 → a ≤ 8191 →
    x = s.seqAt a → x.state ≠ 0 → x.flask = r.flask → len = field r.body 4 4 → x.cow = false → x.swapping = false →
    (∀ st < x.streams, len ≤ s.liveTokens a st) →
    ((List.range x.streams).filter (fun st => s.forkCopy a st len)).length ≤ s.freeCount (x.sliceOf (len / max 1 x.capacity)) →
    (∀ st < x.streams, ∀ p ≤ len / max 1 x.capacity, (s.pteAt a st p).kind = 1 → (s.pageAt (s.pteAt a st p).key).refcount < 65535) →
    s.freeSeq = some b → s.place r.flask (s.kvRegionsOf r.flask) (s.kvTaken r.flask) x.tableLen (Config.free s.tick) = some pt →
    s.place r.flask (s.kvRegionsOf r.flask) ((pt, x.tableLen) :: s.kvTaken r.flask) 64 (Config.free (s.tick + 1)) = some da →
    ∃ t, exec (.seqFork f) s = .next t ∧ (t.seqAt b).state = 1 ∧ (t.seqAt b).flask = r.flask ∧ (t.seqAt b).streams = x.streams ∧
      (t.seqAt b).capacity = x.capacity ∧ (t.seqAt b).ptBase = pt ∧ (t.seqAt b).ctx = (if r.ctx = 0xFFFF then none else some r.ctx) ∧
      Answered t f r 0 false (padTo8 (leBytes b 2 ++ leBytes 0 6 ++ leBytes da 8 ++ leBytes pt 8))) ∧
  -- seqFree
  (∀ (f : FnIx) (s : State) (r : Req) (q : Nat), RequestDue s f 0x0312 r → q = field r.body 0 2 → q ≤ 8191 →
    (s.seqAt q).state ≠ 0 → (s.seqAt q).flask = r.flask → (s.seqAt q).cow = false →
    ∃ t, exec (.seqFree f) s = .next t ∧ Answered t f r 0 false [] ∧ (t.seqAt q).state = 0 ∧ (t.seqAt q).ctx = none ∧
      (t.slagAt q).valid = false) ∧
  -- seqEvict
  (∀ (f : FnIx) (s : State) (r : Req) (q : Nat), RequestDue s f 0x0313 r → (s.fnAt f).deferred.length < 16 → q = field r.body 0 2 →
    q ≤ 8191 → (s.seqAt q).state ≠ 0 → (s.seqAt q).flask = r.flask →
    ∃ t, exec (.seqEvict f) s = .next t ∧ Answered t f r 0 true [] ∧
      (t.fnAt f).deferred = (s.fnAt f).deferred ++ [{ op := r.op, tag := r.tag, work := .seqEvict q (!(s.seqAt q).cow) }] ∧
      ((s.seqAt q).cow = false → (s.seqAt q).policy = 0 → (t.seqAt q).state = 2) ∧
      ((s.seqAt q).cow = false → (s.seqAt q).policy = 1 → (s.seqAt q).state = 1 → (t.seqAt q).state = 3 ∧ (t.seqAt q).swapping = true)) ∧
  -- seqReady
  (∀ (f : FnIx) (s : State) (r : Req) (q : Nat), RequestDue s f 0x0314 r → q = field r.body 0 2 → q ≤ 8191 →
    (s.seqAt q).state = 2 → (s.seqAt q).flask = r.flask → (s.seqAt q).stepOpen = false →
    ∃ t, exec (.seqReady f) s = .next t ∧ Answered t f r 0 false [] ∧ (t.seqAt q).state = 1 ∧ (t.slagAt q).valid = false) ∧
  -- seqResume
  (∀ (f : FnIx) (s : State) (r : Req) (q : Nat), RequestDue s f 0x0315 r → q = field r.body 0 2 → q ≤ 8191 →
    (s.seqAt q).state = 3 → (s.seqAt q).flask = r.flask → (s.seqAt q).swapping = false →
    ∃ t, exec (.seqResume f) s = .next t ∧ Answered t f r 0 false [] ∧ (t.seqAt q).state = 1 ∧ (t.seqAt q).held = false)

/-- The requests on ports, jobs, power, firmware and the log: each, when firmware takes it and nothing it says is refused,
is answered OK with its body, and has its effect. Rests on 20_mailbox_protocol.md, 17_fabric_ports.md,
18_fabric_transport.md, 25_thermal_and_cooling.md, 19_firmware.md. -/
def Obligations.FabricPowerAndFirmwareRequestsComplete : Prop :=
  -- portConfig
  (∀ (f : FnIx) (s : State) (r : Req), RequestDue s f 0x0401 r → portFieldsBad r.body = false →
    ∃ t, exec (.portConfig f) s = .next t ∧ Answered t f r 0 false [] ∧
      t.cfg = stampBlock (field s.cfgBlock 8 8 + 1) (portBlock r.body s.cfgBlock)) ∧
  -- portStatus
  (∀ (f : FnIx) (s : State) (r : Req) (g : Nat), RequestDue s f 0x0402 r → g = field r.body 0 1 → g ≤ 59 → s.portLive g = true →
    ∃ t, exec (.portStatus f) s = .next t ∧ Answered t f r 0 false (padTo8 (s.portBody g (Config.free s.tick))) ∧
      t.reg .FP_STAT_link_downs g = 0) ∧
  -- endpointSet
  (∀ (f : FnIx) (s : State) (r : Req) (e : Nat), RequestDue s f 0x0403 r → e = field r.body 0 4 → (e ≤ 262143 ∨ e = 0xFFFFFFFF) →
    s.anyJob = false → ∃ t, exec (.endpointSet f) s = .next t ∧ Answered t f r 0 false (padTo8 (leBytes e 4)) ∧
      t.misc.endpoint = (if e = 0xFFFFFFFF then none else some e) ∧
      t.cfg = stampBlock (field s.cfgBlock 8 8 + 1) (putAt s.cfgBlock 24 (leBytes e 4))) ∧
  -- jobJoin
  (∀ (f : FnIx) (s : State) (r : Req), RequestDue s f 0x0410 r → s.misc.linkUp = true → field r.body 4 1 ≤ 1 → field r.body 5 1 ≤ 1 →
    field r.body 28 1 ≤ 16 → field r.body 20 4 % 128 = 0 → field r.body 20 4 + 13 * field r.body 24 4 * 128 ≤ 2 ^ 24 →
    (∀ k < field r.body 28 1, s.rxRingBad r.body k = false) → (field r.body 5 1 = 1 → bit s.misc.licence 0 = true) →
    s.misc.endpoint.isSome → (s.jobAt r.flask).on = false →
    ∃ t, exec (.jobJoin f) s = .next t ∧ Answered t f r 0 false [] ∧ t.jobAt r.flask =
      { on := true, job := field r.body 0 4, jobMode := field r.body 4 1 == 1, encrypt := field r.body 5 1 == 1,
        policy := s.hostBytes f (field r.body 8 8) (field r.body 16 4), ringOff := field r.body 20 4,
        ringEntries := field r.body 24 4, rings := (List.range (field r.body 28 1)).map (rxRingOf r.body) }) ∧
  -- jobLeave
  (∀ (f : FnIx) (s : State) (r : Req), RequestDue s f 0x0411 r → (s.fnAt f).deferred.length < 16 → (s.jobAt r.flask).on = true →
    (s.jobAt r.flask).leaving = false → ∃ t, exec (.jobLeave f) s = .next t ∧ Answered t f r 0 true [] ∧
      (t.fnAt f).deferred = (s.fnAt f).deferred ++ [{ op := r.op, tag := r.tag, work := .jobLeave r.flask }] ∧
      ((s.peersOf r.flask = [] ∧ (s.jobAt r.flask).gone = []) → (t.jobAt r.flask).on = false)) ∧
  -- jobKey
  (∀ (f : FnIx) (s : State) (r : Req) (p : Option (List Byte)) (ok : Bool), RequestDue s f 0x0412 r → s.misc.linkUp = true →
    field r.body 8 4 = 512 → field r.body 12 1 ≤ 1 → (s.jobAt r.flask).on = true → (s.jobAt r.flask).leaving = false →
    p = Config.unwrap (s.hostBytes f (field r.body 0 8) 512) →
    ok = p.any (fun p => p.length == 40 && field p 0 4 == (s.jobAt r.flask).job && field p 4 1 == field r.body 12 1 && field p 5 3 == 0) →
    ∃ t, exec (.jobKey f) s = .next t ∧ Answered t f r (if ok then 0 else stDenied) false [] ∧
      (ok = true → (t.jobAt r.flask).phase = field r.body 12 1 ∧
        (t.jobAt r.flask).keys = ((s.jobAt r.flask).keys.filter (fun k => k.1 != field r.body 12 1)) ++ [(field r.body 12 1, (p.getD []).drop 8)]) ∧
      (ok = false → t.job = s.job)) ∧
  -- membershipCommit
  (∀ (f : FnIx) (s : State) (r : Req) (n : Nat) (es : List (List Byte)), RequestDue s f 0x0413 r → s.misc.linkUp = true →
    n = field r.body 4 4 → es = entriesOf (s.hostBytes f (field r.body 8 8) (64 * n)) n →
    s.commitRefusal (s.jobAt r.flask) (field r.body 0 4) n es = 0 →
    ∃ t, exec (.membershipCommit f) s = .next t ∧ Answered t f r 0 false (padTo8 (leBytes (field r.body 0 4) 4)) ∧
      (t.jobAt r.flask).table = es.map memberOf ∧ (t.jobAt r.flask).epoch = field r.body 0 4) ∧
  -- thermAckTrip
  (∀ (f : FnIx) (s : State) (r : Req) (u : Nat) (x : Shut), RequestDue s f 0x0501 r → u = field r.body 0 1 → u ≤ 12 →
    s.unacked u = some x → x.seq = field r.body 8 8 →
    ∃ t, exec (.thermAckTrip f) s = .next t ∧ Answered t f r 0 false [] ∧ (u < 12 → t.reg .TH_STAT_tripped u = 0) ∧
      t.shut = s.shut.map (fun y => if y.seq = x.seq then { y with acked := true } else y)) ∧
  -- pwrLimit
  (∀ (f : FnIx) (s : State) (r : Req) (c : Nat), RequestDue s f 0x0502 r → c = field r.body 0 4 → (c = 0 ∨ (1200 ≤ c ∧ c ≤ 4400)) →
    ∃ t, exec (.pwrLimit f) s = .next t ∧ Answered t f r 0 false (padTo8 (leBytes t.moduleCap 4)) ∧
      t.cfg = stampBlock (field s.cfgBlock 8 8 + 1) (putAt s.cfgBlock 20 (leBytes c 4))) ∧
  -- fwUpdate
  (∀ (f : FnIx) (s : State) (r : Req) (k last n : Nat) (img : List Byte) (low ok : Bool), RequestDue s f 0x0601 r → s.misc.linkUp = true →
    k = field r.body 0 1 → last = field r.body 1 1 → n = field r.body 16 4 → k ≤ 1 → last ≤ 1 → n ≤ 2 ^ 20 →
    (last = 0 → n % 4096 = 0) → (k ≠ s.fw.running ∨ s.misc.phase = 0x30) →
    img = putChunk (s.imgBank k).bytes (field r.body 4 4) (s.hostBytes f (field r.body 8 8) n) →
    low = (Config.imageSec img).any (fun v => decide (v < s.sec.floor)) → ok = (last == 1 && Config.imageOk img && !low) →
    ∃ t, exec (.fwUpdate f) s = .next t ∧ t.imgBank k = { valid := ok, bytes := img } ∧
      (low = false → (last = 1 → ok = true) → Answered t f r 0 false (padTo8 (byte (b2n ok)))) ∧
      ((low = true ∨ last = 1 ∧ ok = false) → Answered t f r stDenied false [])) ∧
  -- fwActivate
  (∀ (f : FnIx) (s : State) (r : Req) (k : Nat), RequestDue s f 0x0602 r → k = field r.body 0 1 → k ≤ 1 →
    (s.imgBank k).valid = true → ∃ t, exec (.fwActivate f) s = .next t ∧ Answered t f r 0 false [] ∧ t.fw.preferred = k ∧
      t.imgBank k = { s.imgBank k with trial := true, trialCount := 0 }) ∧
  -- logConfig
  (∀ (f : FnIx) (s : State) (r : Req) (k : Nat), RequestDue s f 0x0610 r → k < 8 → field r.body 0 4 = 2 ^ (12 + k) →
    ∃ t, exec (.logConfig f) s = .next t ∧ Answered t f r 0 false [] ∧ t.misc.logCap = 2 ^ (12 + k) ∧ t.dropped = 0 ∧
      t.cfg = stampBlock (field s.cfgBlock 8 8 + 1) (putAt s.cfgBlock 28 (leBytes (2 ^ (12 + k)) 4))) ∧
  -- logFetch
  (∀ (f : FnIx) (s : State) (r : Req) (recs : List (List Nat)), RequestDue s f 0x0611 r → s.misc.linkUp = true →
    recs = (s.flashLog.drop (max (field r.body 0 4) s.flashOldest)).take (field r.body 4 4) →
    ∃ t, exec (.logFetch f) s = .next t ∧ t.hostBytes f (field r.body 8 8) (recs.flatMap wordsBytes).length = recs.flatMap wordsBytes ∧
      Answered t f r 0 false (padTo8 (leBytes recs.length 4 ++ leBytes 0 4 ++ leBytes s.flashOldest 8))) ∧
  -- traceSet
  (∀ (f : FnIx) (s : State) (r : Req), RequestDue s f 0x0612 r → field r.body 0 512 < 2 ^ 3840 →
    ∃ t, exec (.traceSet f) s = .next t ∧ Answered t f r 0 false [] ∧ t.fw.trace = field r.body 0 512) ∧
  -- traceQuery
  (∀ (f : FnIx) (s : State) (r : Req) (d : List Byte), RequestDue s f 0x0613 r → s.misc.linkUp = true →
    d = Config.traceTable.take (field r.body 8 4) →
    ∃ t, exec (.traceQuery f) s = .next t ∧ t.hostBytes f (field r.body 0 8) d.length = d ∧
      Answered t f r 0 false (padTo8 (leBytes d.length 4)))

/-- What the host sends a function (a doorbell, a tail, a window access, a level reset), the host link and the deferred
requests: each, when it is due, has its effect. Rests on 20_mailbox_protocol.md, 15_io_die.md,
21_contexts_and_flasks.md. -/
def Obligations.HostEventsComplete : Prop :=
  -- mbDoorbellPost
  (∀ (f : FnIx) (d : List Byte) (s : State) (o : OpRow), s.misc.linkUp = true → s.fnOn f = true → s.fwUp = true →
    s.reg .MB_STATE_state f ≠ 1 → d.length = 2048 → headerBad d = false → messageCrc d (field d 6 2) = field d 28 4 →
    ¬(bit (field d 6 2) 1 = true ∧ (s.fnAt f).last = some ((requestOf f d).tag, (requestOf f d).op, (requestOf f d).crc)) →
    (field d 0 1 = (s.fnAt f).major ∨ (requestOf f d).op = 1) → opRow (requestOf f d).op = some o →
    ¬((s.fnAt f).major = 2 ∧ o.v2 = false) → o.len ≤ (requestOf f d).body.length →
    bodyLen (requestOf f d).op (requestOf f d).body o ≤ (requestOf f d).body.length → s.permitted f (requestOf f d) o = true →
    ¬((requestOf f d).op = 3 ∧ 16 ≤ s.signing) →
    ∃ t, exec (.mbDoorbellPost f d) s = .next t ∧ t.reg .MB_STATE_state f = 1 ∧ t.reg .MB_STATE_tag f = field d 8 2 ∧
      (t.fnAt f).run = some (requestOf f d) ∧ t.mboxBytes f 0 2048 = d) ∧
  -- mbDoorbellBusy
  (∀ (f : FnIx) (d : List Byte) (s : State), s.misc.linkUp = true → s.fnOn f = true → s.misc.phase ≠ 0 →
    s.reg .MB_STATE_state f = 1 → ∃ t, exec (.mbDoorbellPost f d) s = .next t ∧ t.reg .MB_STATE_ring_busy f = 1 ∧
      (d ≠ [] → t.reg .MB_STATE_wr_busy f = 1) ∧ t.reg .MB_STATE_state f = 1 ∧ t.mbox = s.mbox) ∧
  -- deferredCompletion
  (∀ (f : FnIx) (s : State) (d : Deferred) (i : Nat), s.fwUp = true → 2 ∉ s.fw.restarting →
    (s.fnAt f).deferred.zipIdx.find? (fun x => s.workDue x.1.work) = some (d, i) → nextWork (run (doWork d.work) s) d.work = none →
    ∃ t, exec (.deferredCompletion f) s = .next t ∧ (t.fnAt f).deferred = (s.fnAt f).deferred.eraseIdx i ∧
      (t.fnAt f).defSeq = (s.fnAt f).defSeq + 1 ∧
      t.mboxBytes f (0xF00 + ((s.fnAt f).defSeq + 1) % 16 * 16) 16 = deferredEntry d ((s.fnAt f).defSeq + 1)) ∧
  -- wqDbTailWrite
  (∀ (f : FnIx) (slot : Fin 256) (tail : BitVec 32) (s : State) (q : WqSt), q = s.wqAt (wqKey f slot) → s.misc.linkUp = true →
    s.fnOn f = true → q.on = true → q.dying = false → 0 ≤ signed 32 (wrap 32 ((tail.toNat : Int) - q.tail)) →
    wrap 32 ((tail.toNat : Int) - q.completed) ≤ 2 ^ q.log2 →
    ∃ t, exec (.wqDbTailWrite f slot tail) s = .next t ∧ t.wqAt (wqKey f slot) = { q with tail := tail.toNat }) ∧
  -- hostWindowRead
  (∀ (f : FnIx) (off len : Nat) (s : State), s.misc.linkUp = true → s.fnOn f = true → off + len ≤ 2 ^ 34 →
    ∃ t, exec (.hostWindowAccess f false off len [] []) s = .next t ∧
      ∀ p ∈ linePieces (s.reg .WIN_BASE_base f * 2 ^ 26 + off) len,
        ∃ d b, Msg.completion f (off + p.1 - (s.reg .WIN_BASE_base f * 2 ^ 26 + off)) d b ∈ t.out) ∧
  -- hostWindowWrite
  (∀ (f : FnIx) (off : Nat) (data : List Byte) (s : State) (a : Nat), s.misc.linkUp = true → s.fnOn f = true →
    off + data.length ≤ 2 ^ 34 → a = s.reg .WIN_BASE_base f * 2 ^ 26 + off →
    (∀ l ∈ linesOf a data.length, s.judgeWindow f (f.val == 0 && s.ringAccess true a data.length) l = .ok) →
    (∀ b, a ≤ b → b < a + data.length → b < stackedEnd → bit (s.sliceAt (b / 2 ^ 30)).deadCh (chanOf (b % 2 ^ 30)) = false) →
    ∃ t, exec (.hostWindowAccess f true off 0 data []) s = .next t ∧ t.rawBytes a data.length = data) ∧
  -- functionLevelReset
  (∀ (f : FnIx) (s : State), s.misc.linkUp = true → s.fnOn f = true → ∃ t, exec (.functionLevelReset f) s = .next t ∧
      t.fnAt f = {} ∧ t.mboxBytes f 0 4096 = List.replicate 4096 0 ∧ t.reg .MB_STATE_state f = 0 ∧
      (f.val = 0 → t.misc.vfOn = false)) ∧
  -- hostLinkDown
  (∀ (s : State), s.misc.linkUp = true → ∃ t, exec .hostLinkDown s = .next t ∧ t.misc.linkUp = false) ∧
  -- hostLinkRetrain
  (∀ (width rate : Nat) (s : State), s.misc.phase ≠ 0 → s.misc.linkUp = false → (width = 16 ∨ width = 8 ∨ width = 4) → 0 < rate →
    rate ≤ s.fullRate → ∃ t, exec (.hostLinkRetrain width rate) s = .next t ∧ t.misc.linkUp = true ∧
      t.misc.linkWidth = width ∧ t.misc.linkRate = rate) ∧
  -- perstNAssert
  (∀ (s : State), s.misc.phase ≠ 0 → ∃ t, exec .perstNAssert s = .next t ∧ t.misc.linkUp = false ∧ t.misc.vfOn = false ∧ t.held = []) ∧
  -- vfEnable
  (∀ (en : Bool) (s : State), s.misc.linkUp = true → ∃ t, exec (.vfEnable en) s = .next t ∧ t.misc.vfOn = en)

/-- What the SCH does with contexts and work items: each, when it is due, has its effect. Rests on
21_contexts_and_flasks.md, 20_mailbox_protocol.md. -/
def Obligations.SchedulerEventsComplete : Prop :=
  -- workItemStart
  (∀ (x : CtxIx) (s : State) (key : Nat) (q : WqSt) (w : List Nat), s.mayStart x = true → (s.ctxAt x).item = none →
    s.nextQueue x = some (key, q) → s.wqAt key = q → s.misc.linkUp = true → w = s.entryWords key q q.started → entryBad w = false →
    ∃ t, exec (.workItemStart x) s = .next t ∧ (t.wqAt key).started = (q.started + 1) % 2 ^ 32 ∧ (t.ctxAt x).item = some
      { queue := key, idx := q.started, list := w.getD 0 0, event := bit (w.getD 1 0) 63, addEn := bit (w.getD 1 0) 62
        doneAddr := w.getD 2 0 }) ∧
  -- workItemComplete
  (∀ (x : CtxIx) (s : State) (i : Item), s.schLive = true → (s.ctxAt x).item = some i → i.saved = none → i.lost = false →
    (∀ k ∈ s.sitesOf (s.ctxAt x), s.coreLive k.2 = true ∧ s.seqState k.2 = 0) →
    ∃ t, exec (.workItemComplete x) s = .next t ∧ (t.ctxAt x).item = none ∧ (t.ctxAt x).moved = true ∧
      (t.wqAt i.queue).completed = ((s.wqAt i.queue).completed + 1) % 2 ^ 32) ∧
  -- stoppingFault
  (∀ (x : CtxIx) (n : SiteIx) (why : StopWhy) (s : State) (i : Item) (v : Nat × Nat × Nat), s.schLive = true →
    (s.ctxAt x).item = some i → ((∃ k ∈ s.sitesOf (s.ctxAt x), k.2 = n.val) ∨ why = .clusterReset) → s.faultOf x n why = some v →
    ∃ t, exec (.stoppingFault x n why) s = .next t ∧ (t.ctxAt x).item = none ∧
      (t.wqAt i.queue).completed = ((s.wqAt i.queue).completed + 1) % 2 ^ 32) ∧
  -- stallLimit
  (∀ (n : SiteIx) (s : State), s.coreLive n = true → s.cccLive (n / 12) = true → 8 ≤ (s.coreAt n).stalls →
    (s.coreAt n).stallDone = s.reg .SEQ_DONE_count n → ∃ t, exec (.stallLimit n) s = .next t ∧ (t.coreAt n).limit = true ∧
      (t.coreAt n).stalls = 0 ∧ t.reg .Q_WDOG_snap_valid n = 0) ∧
  -- preemption
  (∀ (x : CtxIx) (s : State) (i : Item), s.schLive = true → (s.ctxAt x).item = some i → i.saved = none → i.lost = false →
    i.pausing = false → i.noPause = false → (s.outranked x = true ∨ s.itemHeld i = true) →
    ∃ t j, exec (.preemption x) s = .next t ∧ (t.ctxAt x).item = some j ∧ (j.pausing = true ∨ j.saved ≠ none)) ∧
  -- preemptionSaves
  (∀ (x : CtxIx) (s : State) (i : Item), s.schLive = true → (s.ctxAt x).item = some i → i.saved = none → i.lost = false →
    i.pausing = true → (∀ k ∈ s.sitesOf (s.ctxAt x), (s.seqState k.2 = 6 ∨ s.seqState k.2 = 0) ∧ s.addsDone k.2 = true) →
    ∃ t j, exec (.preemption x) s = .next t ∧ (t.ctxAt x).item = some j ∧ j.pausing = false ∧ j.saved = some
      (((s.sitesOf (s.ctxAt x)).filter (fun k => s.seqState k.2 == 6)).map (fun k => (k.1, s.reg .SEQ_PC_addr k.2)))) ∧
  -- preemptionAbandon
  (∀ (x : CtxIx) (s : State) (i : Item), s.schLive = true → (s.ctxAt x).item = some i → i.pausing = true →
    (∃ k ∈ s.sitesOf (s.ctxAt x), s.seqState k.2 ≠ 6 ∧ s.seqState k.2 ≠ 0) →
    ∃ t, exec (.preemptionAbandon x) s = .next t ∧ (t.ctxAt x).item = some { i with pausing := false, noPause := true }) ∧
  -- itemResume
  (∀ (x : CtxIx) (s : State) (i : Item) (l : List (Nat × Nat)), s.mayStart x = true → (s.ctxAt x).item = some i → i.saved = some l →
    ∃ t, exec (.itemResume x) s = .next t ∧ (t.ctxAt x).item = some { i with saved := none }) ∧
  -- batchBoundary
  (∀ (x : CtxIx) (s : State) (r : Nat), s.schLive = true → (s.ctxAt x).rot = some r → (s.ctxAt x).on = true → Store.sorted s.ctx = true →
    (∀ p ∈ s.rotSet r, p.2.moved = true ∧ p.2.item = none) →
    ∃ t, exec (.batchBoundary x) s = .next t ∧ (t.ctxAt x).moved = false ∧
      (t.ctxAt x).range = ((s.ctxAt x).range + 1) % (s.rotSet r).length)

/-- The sequencer of a core: go, stop and pause by the state they meet, and fetch, load, wait, start, completion and drain
when each is due. Rests on 04_charge_records.md, 03_matrix_array.md. -/
def Obligations.SequencerEventsComplete : Prop :=
  -- seqCtlGoIdle
  (∀ (n : SiteIx) (s : State), s.coreLive n = true → s.seqState n = 0 → ∃ t, exec (.seqCtlGo n) s = .next t ∧ t.seqState n = 1 ∧
      t.reg .SEQ_PC_addr n = s.reg .SEQ_LIST_addr n % 2 ^ 43 ∧ t.reg .SEQ_STATUS_cause n = 0 ∧ t.reg .SEQ_STATUS_fx n = 0) ∧
  -- seqCtlGoPaused
  (∀ (n : SiteIx) (s : State), s.coreLive n = true → s.seqState n = 6 → ∃ t, exec (.seqCtlGo n) s = .next t ∧ t.seqState n = 1 ∧
      t.reg .SEQ_PC_addr n = s.reg .SEQ_PC_addr n ∧ t.reg .SEQ_STATUS_cause n = 0) ∧
  -- seqCtlStopError
  (∀ (n : SiteIx) (s : State), s.coreLive n = true → s.seqState n = 7 → ∃ t, exec (.seqCtlStop n) s = .next t ∧ t.seqState n = 0) ∧
  -- seqCtlStopPaused
  (∀ (n : SiteIx) (s : State), s.coreLive n = true → s.seqState n = 6 → ∃ t, exec (.seqCtlStop n) s = .next t ∧ t.seqState n = 7 ∧
      t.reg .SEQ_STATUS_cause n = 5 ∧ t.reg .SEQ_ERR_addr n = s.reg .SEQ_PC_addr n % 2 ^ 43) ∧
  -- seqCtlStopRunning
  (∀ (n : SiteIx) (s : State), s.coreLive n = true → 1 ≤ s.seqState n → s.seqState n ≤ 5 →
    ∃ t, exec (.seqCtlStop n) s = .next t ∧ t.seqState n = 7 ∧ t.reg .SEQ_STATUS_cause n = 5 ∧ (t.coreAt n).pours = [] ∧
      (t.coreAt n).arr = none ∧ (t.coreAt n).vec = none ∧ (t.coreAt n).bnk = none ∧
      t.reg .SEQ_ERR_addr n = (match (s.coreAt n).pours with | p :: _ => p.addr | [] => s.reg .SEQ_PC_addr n) % 2 ^ 43) ∧
  -- seqCtlPause
  (∀ (n : SiteIx) (s : State), s.coreLive n = true → s.seqState n ≠ 0 → s.seqState n ≠ 6 → s.seqState n ≠ 7 →
    ∃ t, exec (.seqCtlPause n) s = .next t ∧ t.coreAt n = { s.coreAt n with pauseReq := true }) ∧
  -- recordFetch
  (∀ (n : SiteIx) (ups : List Upset) (s : State) (u : State) (len : Nat), s.coreLive n = true → s.seqState n = 1 →
    u = run (applyUpsets ups) s →
    len = (let h := leNat (u.readResult (n / 96) true (s.coreFlask n) (s.reg .SEQ_PC_addr n * 8) 8).data
           if headerSub h = 0 then hdrLength h else 1) →
    ∃ t, exec (.recordFetch n ups) s = .next t ∧
      ((u.readResult (n / 96) true (s.coreFlask n) (s.reg .SEQ_PC_addr n * 8) (8 * len)).status = 0 → t.seqState n = 2 ∧
        (t.coreAt n).words = wordsOf len (u.readResult (n / 96) true (s.coreFlask n) (s.reg .SEQ_PC_addr n * 8) (8 * len)).data) ∧
      ((u.readResult (n / 96) true (s.coreFlask n) (s.reg .SEQ_PC_addr n * 8) (8 * len)).status ≠ 0 → t.seqState n = 5 ∧
        (t.coreAt n).drainErr = 3)) ∧
  -- recordLoad
  (∀ (n : SiteIx) (s : State) (h : Nat), s.coreLive n = true → s.seqState n = 2 → h = (s.coreAt n).hdr → headerSub h = 0 →
    (syncActs (s.coreAt n) = true → (s.coreAt n).pours = []) → lockWaits s n = false →
    ∃ t, exec (.recordLoad n) s = .next t ∧ (hdrWait h = true → t.seqState n = 3) ∧
      (hdrWait h = false → hdrType h = 1 → t.seqState n = 4) ∧
      (hdrWait h = false → hdrType h = 0 → t.seqState n =
        if hdrBranch h || hdrLast h || (s.coreAt n).pauseReq then 5 else 1)) ∧
  -- recordLoadError
  (∀ (n : SiteIx) (s : State), s.coreLive n = true → s.seqState n = 2 → headerSub (s.coreAt n).hdr ≠ 0 →
    ∃ t, exec (.recordLoad n) s = .next t ∧ t.seqState n = 7 ∧ t.reg .SEQ_STATUS_cause n = 1 ∧
      t.reg .SEQ_STATUS_sub n = headerSub (s.coreAt n).hdr % 2 ^ 8 ∧ t.reg .SEQ_ERR_addr n = s.reg .SEQ_PC_addr n % 2 ^ 43) ∧
  -- waitRelease
  (∀ (n : SiteIx) (s : State) (h : Nat), s.coreLive n = true → s.seqState n = 3 → h = (s.coreAt n).hdr → s.selTrue n (hdrSel h) = true →
    ∃ t, exec (.waitRelease n) s = .next t ∧ t.seqState n =
      if hdrType h = 1 then 4 else if hdrBranch h || hdrLast h || (s.coreAt n).pauseReq then 5 else 1) ∧
  -- pourStart
  (∀ (n : SiteIx) (s : State), s.coreLive n = true → s.seqState n = 4 → s.engagedIdle n = true → (s.coreAt n).pours.length < 4 →
    startCheck (run (settle n) s) n = none → ∃ t, exec (.pourStart n) s = .next t ∧
      (t.coreAt n).pours.length = (s.coreAt n).pours.length + 1 ∧ (t.coreAt n).nextPour = (s.coreAt n).nextPour + 1 ∧
      t.seqState n = if hdrBranch (s.coreAt n).hdr || hdrLast (s.coreAt n).hdr || (s.coreAt n).pauseReq then 5 else 1) ∧
  -- pourStartError
  (∀ (n : SiteIx) (s : State) (v : Nat × Nat), s.coreLive n = true → s.seqState n = 4 → s.engagedIdle n = true →
    (s.coreAt n).pours.length < 4 → startCheck (run (settle n) s) n = some v → ∃ t, exec (.pourStart n) s = .next t ∧
      t.seqState n = 7 ∧ t.reg .SEQ_STATUS_cause n = v.1 % 2 ^ 8 ∧ (t.coreAt n).pours = (s.coreAt n).pours) ∧
  -- pourComplete
  (∀ (n : SiteIx) (s : State) (p : Pour) (ps : List Pour), s.coreLive n = true → (s.coreAt n).pours = p :: ps → s.drained n p = true →
    ∃ t, exec (.pourComplete n) s = .next t ∧ (t.coreAt n).pours = ps ∧
      t.reg .SEQ_DONE_count n = (s.reg .SEQ_DONE_count n + 1) % 2 ^ 14 ∧ t.reg .SEQ_DONE_addr n = p.addr % 2 ^ 43 ∧
      t.reg .SEQ_DONE_fx n = p.fx % 2 ^ 4) ∧
  -- shadowCopy
  (∀ (n : SiteIx) (blk : Fin 13) (s : State), s.coreLive n = true → s.blkBusy n blk = false →
    ∃ t, exec (.shadowCopy n blk) s = .next t ∧ ∀ x ∈ layout blk, t.shadow x.1 (blkInst n blk) = none ∧
      ∀ v, s.shadow x.1 (blkInst n blk) = some v → t.reg x.1 (blkInst n blk) = v % 2 ^ x.1.info.width) ∧
  -- drainEnd
  (∀ (n : SiteIx) (s : State) (c : CoreSt) (br : Bool) (next : Nat), s.coreLive n = true → s.seqState n = 5 → c = s.coreAt n →
    c.pours = [] → br = (hdrBranch c.hdr && s.selTrue n (hdrSel c.hdr)) →
    next = (if br then wrap 43 ((s.reg .SEQ_PC_addr n : Int) + hdrOff c.hdr) else s.nextRec n) →
    ∃ t, exec (.drainEnd n) s = .next t ∧
      (c.drainErr ≠ 0 → t.seqState n = 7 ∧ t.reg .SEQ_STATUS_cause n = c.drainErr % 2 ^ 8) ∧
      (c.drainErr = 0 → br = false → hdrLast c.hdr = true → t.seqState n = 0) ∧
      (c.drainErr = 0 → (br = true ∨ hdrLast c.hdr = false) → (c.pauseReq && s.preemptPoint n) = true →
        t.seqState n = 6 ∧ t.reg .SEQ_PC_addr n = next % 2 ^ 43) ∧
      (c.drainErr = 0 → (br = true ∨ hdrLast c.hdr = false) → (c.pauseReq && s.preemptPoint n) = false →
        t.seqState n = 1 ∧ t.reg .SEQ_PC_addr n = next % 2 ^ 43)) ∧
  -- remoteAddFailure
  (∀ (n : SiteIx) (addr : Word) (s : State), s.fifo.length < 1024 → ∃ t, exec (.remoteAddFailure n addr) s = .next t ∧
      t.fifo = s.fifo ++ [{ err := true, words := errWords { kind := 0x12, cls := 0, id := n, addr := addr.toNat, syn := 0, flask := (s.coreFlask n).getD 31, detail := [], ts := Config.free s.tick, tsSrc := n / 96 } 0 false 0 }])

/-- The array, the vector unit, the address generators, queues and counters of a core: each event, when it is due, has its
effect. Rests on 03_matrix_array.md, 05_queues_and_address_generation.md, 06_vector_unit.md, 04_charge_records.md. -/
def Obligations.ArrayVectorAndQueueEventsComplete : Prop :=
  -- passEntry
  (∀ (n : SiteIx) (s : State) (r : Run) (tl : Tile), s.coreLive n = true → (s.coreAt n).arr = some r →
    (if s.flag .CHG_ARR_wgt_reuse n then (s.coreAt n).active
      else if (s.coreAt n).shadowBusy then none else (s.coreAt n).shadow) = some tl →
    (∀ k < s.reg .CHG_ARR_m_count n, s.entryHeld n (s.reg .CHG_ARR_acc_base n + k) = false) →
    ∃ t, exec (.passEntry n) s = .next t ∧ (t.coreAt n).passes = (s.coreAt n).passes ++ [latchPass s n r tl] ∧
      (t.coreAt n).active = some tl ∧ t.reg .ARR_STATUS_stall_acc n = 0 ∧
      (t.coreAt n).arr = (if s.reg .CHG_ARR_repeats n ≤ r.done + 1 then none else some { r with done := r.done + 1 })) ∧
  -- passEntryHeld
  (∀ (n : SiteIx) (s : State) (r : Run) (tl : Tile) (k : Nat), s.coreLive n = true → (s.coreAt n).arr = some r →
    (if s.flag .CHG_ARR_wgt_reuse n then (s.coreAt n).active
      else if (s.coreAt n).shadowBusy then none else (s.coreAt n).shadow) = some tl →
    k < s.reg .CHG_ARR_m_count n → s.entryHeld n (s.reg .CHG_ARR_acc_base n + k) = true →
    ∃ t, exec (.passEntry n) s = .next t ∧ t.reg .ARR_STATUS_stall_acc n = 1 ∧ t.coreAt n = s.coreAt n) ∧
  -- tileLoadComplete
  (∀ (n : SiteIx) (s : State) (f p wq : Nat) (sp : Bool), s.coreLive n = true → s.tilesWanted n = true → f = s.reg .CHG_ARR_wgt_fmt n →
    p = payload f → wq = s.reg .CHG_QB_wgt n → sp = s.flag .CHG_ARR_sparse n → tileBytes f ≤ s.qHeld n wq p →
    (s.wgtScaled n = true → tileScales sp ≤ s.qHeld n (s.reg .CHG_QB_wsc n) 128) →
    (sp = true → tileMeta ≤ s.qHeld n (s.reg .CHG_QB_meta n) 128) →
    ∃ t, exec (.tileLoadComplete n) s = .next t ∧ t.reg .ARR_STATUS_stall_wgt n = 0 ∧ t.reg .ARR_STATUS_stall_wsc n = 0 ∧
      t.reg .ARR_STATUS_stall_meta n = 0 ∧ (s.wgtScaled n = false → sp = false → (s.qPeek n wq p (tileBytes f)).2 = false →
        (t.coreAt n).shadow = some { fmt := f, sparse := false, w := (s.qPeek n wq p (tileBytes f)).1, sc := [], md := [] })) ∧
  -- shadowRelease
  (∀ (n : SiteIx) (s : State), s.coreLive n = true → (s.coreAt n).shadowBusy = true →
    ∃ t, exec (.shadowRelease n) s = .next t ∧ t.coreAt n = { s.coreAt n with shadowBusy := false, shadow := none }) ∧
  -- accumulatorWrite
  (∀ (n : SiteIx) (accErr : Nat) (s : State) (p : Pass) (l : List Pass) (e : Nat) (old : AccEnt) (keep undef : Bool), s.coreLive n = true →
    (s.coreAt n).passes = p :: l → actBytes p.act p.sparse ≤ s.qHeld n (s.reg .CHG_QB_act n) (payload p.act) →
    (p.actScale = true → ascBytes p.sparse ≤ s.qHeld n (s.reg .CHG_QB_asc n) 128) →
    (p.push = false ∨ (p.step ≠ 0 ∧ p.step ≠ 3)) → p.bad = false → accErr < 3 → e = (p.base + p.done) % 2048 → old = s.accAt n e →
    keep = (p.step == 2 || p.step == 3) → undef = (keep && (old.st == .free || old.int != p.accInt)) →
    ∃ t asc, exec (.accumulatorWrite n false accErr) s = .next t ∧ (p.actScale = false → asc = []) ∧ t.accAt n e =
      { st := if p.step == 0 || p.step == 3 then .committed else .openE, int := p.accInt, poison := keep && old.poison
        v := (List.range 64).map (fun j => (column p { act := leNat (s.qPeek n (s.reg .CHG_QB_act n) (payload p.act) (actBytes p.act p.sparse)).1
                                                       asc := asc, w := leNat p.tile.w, wsc := p.tile.sc, md := leNat p.tile.md }
          (if keep then some (if undef then Config.undefWord s.tick j % 2 ^ 32 else old.v.getD j 0) else none) j).1) }) ∧
  -- accumulatorPush
  (∀ (n : SiteIx) (accErr : Nat) (s : State) (p : Pass) (l : List Pass), s.coreLive n = true →
    (s.coreAt n).passes = p :: l → actBytes p.act p.sparse ≤ s.qHeld n (s.reg .CHG_QB_act n) (payload p.act) →
    (p.actScale = true → ascBytes p.sparse ≤ s.qHeld n (s.reg .CHG_QB_asc n) 128) → p.push = true → (p.step = 0 ∨ p.step = 3) →
    64 * fmtWidth p.outFmt / 8 ≤ s.qRoom n (s.reg .CHG_QB_out n) 128 → p.bad = false → accErr < 3 →
    ∃ t, exec (.accumulatorWrite n false accErr) s = .next t ∧ t.accAt n (p.base + p.done) = {} ∧ t.reg .ARR_STATUS_stall_out n = 0) ∧
  -- arrayStallEnd
  (∀ (n : SiteIx) (s : State), s.coreLive n = true → ∃ t, exec (.arrayStallEnd n) s = .next t ∧
      t.reg .ARR_STATUS_stall_act n = (if 0 < s.qHeld n (s.reg .CHG_QB_act n) 128 then 0 else s.reg .ARR_STATUS_stall_act n) ∧
      t.reg .ARR_STATUS_stall_wgt n = (if 0 < s.qHeld n (s.reg .CHG_QB_wgt n) 128 then 0 else s.reg .ARR_STATUS_stall_wgt n) ∧
      t.reg .ARR_STATUS_stall_out n = (if 0 < s.qRoom n (s.reg .CHG_QB_out n) 128 then 0 else s.reg .ARR_STATUS_stall_out n)) ∧
  -- vectorIteration
  (∀ (n : SiteIx) (accErr : Nat) (s : State) (r : Run), s.coreLive n = true → (s.coreAt n).vec = some r →
    (if s.reg .CHG_QB_vin_a n = 16 then (s.coreAt n).order ≠ []
      else vecBytes (s.reg .CHG_VEC_in_fmt_a n) ≤ s.qHeld n (s.reg .CHG_QB_vin_a n) (payload (s.reg .CHG_VEC_in_fmt_a n))) →
    (s.flag .CHG_VEC_in_b_en n = true →
      vecBytes (s.reg .CHG_VEC_in_fmt_b n) ≤ s.qHeld n (s.reg .CHG_QB_vin_b n) (payload (s.reg .CHG_VEC_in_fmt_b n))) →
    ((s.chain n).any (fun w => slotDst w == 4 && (slotOp w != 0x30 || decide (s.reg .CHG_VEC_repeats n ≤ r.done + 1))) = true →
      vecBytes (s.reg .CHG_VEC_out_fmt n) ≤ s.qRoom n (s.reg .CHG_QB_vout n) (payload (s.reg .CHG_VEC_out_fmt n)) ∧
      (s.flag .CHG_VEC_out_scale n = true → 2 ≤ s.qRoom n (s.reg .CHG_QB_vosc n) 128)) →
    ∃ t, exec (.vectorIteration n accErr) s = .next t ∧ t.reg .VEC_STATUS_iter n = (s.reg .VEC_STATUS_iter n + 1) % 2 ^ 20 ∧
      t.reg .VEC_PERF_iters n = (s.reg .VEC_PERF_iters n + 1) % 2 ^ 64 ∧ t.reg .VEC_STATUS_stall_a n = 0 ∧
      t.reg .VEC_STATUS_stall_b n = 0 ∧ t.reg .VEC_STATUS_stall_push n = 0) ∧
  -- agLoad
  (∀ (n : SiteIx) (g : Fin 8) (ups : List Upset) (s u : State) (r : Run) (b z : Nat) (rd : Rd), s.coreLive n = true →
    (s.agAt n g).run = some r → ((s.coreAt n).bnk = none ∨ s.reg .CHG_BNK_addr_ag n ≠ g) →
    s.farHeld (n / 96) (s.coreFlask n) (agAddr s n g r.done) = false → s.flag .CHG_AG_dir (n * 8 + g) = false →
    s.ring n (s.reg .CHG_AG_q (n * 8 + g)) = some (b, z) → u = run (applyUpsets ups) s →
    reserved (s.queueAt n (s.reg .CHG_AG_q (n * 8 + g))).fill (s.agAt n g).loads + s.reg .CHG_AG_len (n * 8 + g)
      ≤ (z - (s.queueAt n (s.reg .CHG_AG_q (n * 8 + g))).count) * 128 →
    rd = u.readResult (srcOf (coreIss n)) true (s.coreFlask n) (agAddr s n g r.done) (s.reg .CHG_AG_len (n * 8 + g)) → rd.bad = false →
    ∃ t, exec (.agAccess n g ups) s = .next t ∧ (t.agAt n g).loads = (s.agAt n g).loads ++
        [{ pour := r.pour, q := s.reg .CHG_AG_q (n * 8 + g), data := rd.data, close := agCloses s n g r.done }] ∧
      (t.agAt n g).run = (if r.done + 1 = agTotal s n g then none else some { r with done := r.done + 1 })) ∧
  -- agStore
  (∀ (n : SiteIx) (g : Fin 8) (ups : List Upset) (s : State) (r : Run), s.coreLive n = true →
    (s.agAt n g).run = some r → ((s.coreAt n).bnk = none ∨ s.reg .CHG_BNK_addr_ag n ≠ g) →
    s.farHeld (n / 96) (s.coreFlask n) (agAddr s n g r.done) = false → s.flag .CHG_AG_dir (n * 8 + g) = true →
    (if s.reg .CHG_AG_q (n * 8 + g) = 16 then (s.coreAt n).order ≠ []
      else s.reg .CHG_AG_len (n * 8 + g) ≤ s.qHeld n (s.reg .CHG_AG_q (n * 8 + g)) 128) →
    ∃ t, exec (.agAccess n g ups) s = .next t ∧ (t.agAt n g).stores = (s.agAt n g).stores ++ [r.pour]) ∧
  -- loadDataPush
  (∀ (n : SiteIx) (g : Fin 8) (s : State) (l : Load) (ls : List Load), s.coreLive n = true → (s.agAt n g).loads = l :: ls →
    ∃ t, exec (.loadDataPush n g) s = .next t ∧ (t.agAt n g).loads = ls ∧ (l.close = false → (s.ring n l.q).isSome →
      (t.queueAt n l.q).count = (s.queueAt n l.q).count + ((s.queueAt n l.q).fill + l.data.length) / 128 ∧
      (t.queueAt n l.q).fill = ((s.queueAt n l.q).fill + l.data.length) % 128)) ∧
  -- storeAck
  (∀ (n : SiteIx) (g : Fin 8) (s : State), s.coreLive n = true → (s.agAt n g).stores ≠ [] →
    ∃ t, exec (.storeAck n g) s = .next t ∧ (t.agAt n g).stores = (s.agAt n g).stores.drop 1 ∧ t.reg .Q_WDOG_idle n = 0) ∧
  -- queueStallEnd
  (∀ (n : SiteIx) (q : Fin 16) (s : State), s.coreLive n = true → ∃ t, exec (.queueStallEnd n q) s = .next t ∧
      (0 < s.qHeld n q 128 → (t.queueAt n q).stallPop = false) ∧ (0 < s.qRoom n q 128 → (t.queueAt n q).stallPush = false) ∧
      (t.queueAt n q).count = (s.queueAt n q).count) ∧
  -- queueStall
  (∀ (n : SiteIx) (s : State), s.coreLive n = true → (s.coreAt n).pours ≠ [] → ∃ t, exec (.queueStall n) s = .next t ∧
      t.reg .Q_WDOG_idle n = 0 ∧ t.reg .Q_WDOG_snap_valid n ≠ 0 ∧
      (s.reg .Q_WDOG_snap_valid n ≠ 0 → t.reg .Q_WDOG_snap_lost n = 1) ∧
      (s.reg .Q_WDOG_snap_valid n = 0 → t.reg .Q_SNAPPC_addr n = s.reg .SEQ_PC_addr n % 2 ^ 43) ∧
      (t.coreAt n).stalls = if (s.coreAt n).stallDone = s.reg .SEQ_DONE_count n then (s.coreAt n).stalls + 1 else 1) ∧
  -- qCtlFlush
  (∀ (n : SiteIx) (m : BitVec 16) (s : State), s.coreLive n = true → (s.seqState n = 0 ∨ s.seqState n = 6 ∨ s.seqState n = 7) →
    ∃ t, exec (.qCtlFlush n m) s = .next t ∧ ∀ q < 16, t.queueAt n q = if m.getLsbD q then {} else s.queueAt n q) ∧
  -- counterAdd
  (∀ (n : SiteIx) (ct : Fin 8) (v : BitVec 32) (iss : Issuer) (fl : FlaskIx) (s : State),
    judgeAdd s (srcOf iss) (some fl.val) (counterAddr n ct) = .done n ct → ∃ t, exec (.counterAdd n ct v iss fl) s = .next t ∧
      t.reg .CT_value (n * 8 + ct) = (s.reg .CT_value (n * 8 + ct) + v.toNat) % 2 ^ 32 ∧ t.rsp = leBytes 0 4) ∧
  -- arrPerfClear
  (∀ (n : SiteIx) (s : State), s.coreLive n = true → ∃ t, exec (.arrPerfClear n) s = .next t ∧ t.reg .ARR_PERF_issue n = 0 ∧
      t.reg .ARR_PERF_bubble n = 0 ∧ t.reg .ARR_PERF_stall n = 0 ∧ t.reg .ARR_PERF_passes n = 0) ∧
  -- vecPerfClear
  (∀ (n : SiteIx) (s : State), s.coreLive n = true → ∃ t, exec (.vecPerfClear n) s = .next t ∧ t.reg .VEC_PERF_iters n = 0 ∧
      t.reg .VEC_PERF_stall n = 0)

/-- The bank-side units: each event of a command's way (issue, acceptance, token, row burst, the command's work, its
record), when it is due, has its effect. Rests on 09_bank_side_units.md. -/
def Obligations.BankUnitEventsComplete : Prop :=
  -- bankCommandIssue
  (∀ (n : SiteIx) (s : State) (r : Run), s.coreLive n = true → (s.coreAt n).bnk = some r → (s.pathAt n).outstanding < 64 →
    s.flag .CHG_BNK_arg_en n = false → ∃ t, exec (.bankCommandIssue n) s = .next t ∧
      (t.pathAt n).next = (s.pathAt n).next + 1 ∧
      (t.pathAt n).out.map (·.num) = (s.pathAt n).out.map (·.num) ++ [(s.pathAt n).next] ∧
      t.reg .BNK_STATUS_stall_ctx n = 0 ∧ t.reg .BNK_STATUS_stall_arg n = 0 ∧
      (t.coreAt n).bnk = (if s.reg .CHG_BNK_count n ≤ r.done + 1 then none else some { r with done := r.done + 1 })) ∧
  -- bankCommandIssueStall
  (∀ (n : SiteIx) (s : State) (r : Run), s.coreLive n = true → (s.coreAt n).bnk = some r → 64 ≤ (s.pathAt n).outstanding →
    ∃ t, exec (.bankCommandIssue n) s = .next t ∧ t.reg .BNK_STATUS_stall_ctx n = 1 ∧ t.path = s.path) ∧
  -- bankCommandAccept
  (∀ (sl : SliceIx) (b : BankIx) (s : State) (k : Task) (ws : List Task), s.stackHeld (sl / 96) = false →
    (s.bankAt sl b).wait = k :: ws → (s.bankAt sl b).ctx.length < 8 → bit (s.sliceAt sl).bsuOff b = false → s.bankAssay sl b = false →
    placementBad k.cmd k.imm k.addr = false →
    (∀ f ∈ frames k.cmd k.imm k.addr, s.judge (pathStack k.path) true (s.pathFlask k.path) (f / 64) = .ok) →
    ∃ t, exec (.bankCommandAccept sl b) s = .next t ∧ (t.bankAt sl b).wait = ws ∧
      (t.bankAt sl b).ctx = (s.bankAt sl b).ctx ++ [{ k with epoch := s.reg .BSU_EPOCH_current sl }]) ∧
  -- streamTokenGrant
  (∀ (sl : SliceIx) (b : BankIx) (s : State), s.stackHeld (sl / 96) = false → s.streaming sl < s.reg .BSU_CAP_streams sl →
    ((List.range 128).map (fun k => ((s.sliceAt sl).tokNext + k) % 128)).find?
      (fun b => !(s.bankAt sl b).ctx.isEmpty && !(s.bankAt sl b).token) = some b.val →
    ∃ t, exec (.streamTokenGrant sl) s = .next t ∧ t.bankAt sl b = { s.bankAt sl b with token := true } ∧
      (t.sliceAt sl).tokNext = (b + 1) % 128) ∧
  -- rowBurst
  (∀ (sl : SliceIx) (b : BankIx) (ups : List Upset) (s : State) (k : Task) (ready : List Task), s.stackHeld (sl / 96) = false →
    (s.bankAt sl b).token = true → ready = (s.bankAt sl b).ctx.filter (taskReady (s.bankAt sl b).ctx) →
    ready.find? (fun x => x.bursts == ready.foldl (fun m x => min m x.bursts) (ready.headD {}).bursts) = some k →
    ∃ t, exec (.rowBurst sl b ups) s = .next t ∧ (t.bankAt sl b).token = false ∧
      (t.bankAt sl b).ctx = (s.bankAt sl b).ctx.map
        (fun u => if u.path == k.path && u.num == k.num then { u with bursts := u.bursts + 1 } else u) ∧
      t.reg .BSU_PERF_bursts sl = (s.reg .BSU_PERF_bursts sl + 1) % 2 ^ 64) ∧
  -- attendCmd
  (∀ (sl : SliceIx) (b : BankIx) (s : State) (k : Task), k.path < 1168 → (s.bankAt sl b).ctx.find?
      (fun x => x.cmd == 1 && decide (0 < x.bursts) && taskReady (s.bankAt sl b).ctx x) = some k →
    ∃ t, exec (.attendCmd sl b) s = .next t ∧
      (t.bankAt sl b).ctx = (s.bankAt sl b).ctx.filter (fun u => !(u.path == k.path && u.num == k.num)) ∧
      (t.pathAt k.path).out = (s.pathAt k.path).out.map (fun x => if x.num = k.num then { x with
        accepted := true, done := some (resultRecord (k.addr / 2 ^ 30) (bankOf (k.addr % 2 ^ 30)) k.epoch (runAttend s k)) } else x)) ∧
  -- scoreCmd
  (∀ (sl : SliceIx) (b : BankIx) (s : State) (k : Task), k.path < 1168 → (s.bankAt sl b).ctx.find?
      (fun x => x.cmd == 2 && decide (0 < x.bursts) && taskReady (s.bankAt sl b).ctx x) = some k →
    ∃ t, exec (.scoreCmd sl b) s = .next t ∧
      (t.bankAt sl b).ctx = (s.bankAt sl b).ctx.filter (fun u => !(u.path == k.path && u.num == k.num)) ∧
      (t.pathAt k.path).out = (s.pathAt k.path).out.map (fun x => if x.num = k.num then { x with
        accepted := true, done := some (resultRecord (k.addr / 2 ^ 30) (bankOf (k.addr % 2 ^ 30)) k.epoch (runAttend s k)) } else x)) ∧
  -- valueCmd
  (∀ (sl : SliceIx) (b : BankIx) (s : State) (k : Task), k.path < 1168 → (s.bankAt sl b).ctx.find?
      (fun x => x.cmd == 3 && decide (0 < x.bursts) && taskReady (s.bankAt sl b).ctx x) = some k →
    ∃ t, exec (.valueCmd sl b) s = .next t ∧
      (t.bankAt sl b).ctx = (s.bankAt sl b).ctx.filter (fun u => !(u.path == k.path && u.num == k.num)) ∧
      (t.pathAt k.path).out = (s.pathAt k.path).out.map (fun x => if x.num = k.num then { x with
        accepted := true, done := some (resultRecord (k.addr / 2 ^ 30) (bankOf (k.addr % 2 ^ 30)) k.epoch (runValue s k)) } else x)) ∧
  -- reduceCmd
  (∀ (sl : SliceIx) (b : BankIx) (s : State) (k : Task), k.path < 1168 → (s.bankAt sl b).ctx.find?
      (fun x => x.cmd == 7 && decide (0 < x.bursts) && taskReady (s.bankAt sl b).ctx x) = some k →
    ∃ t, exec (.reduceCmd sl b) s = .next t ∧
      (t.bankAt sl b).ctx = (s.bankAt sl b).ctx.filter (fun u => !(u.path == k.path && u.num == k.num)) ∧
      (t.pathAt k.path).out = (s.pathAt k.path).out.map (fun x => if x.num = k.num then { x with
        accepted := true, done := some (resultRecord (k.addr / 2 ^ 30) (bankOf (k.addr % 2 ^ 30)) k.epoch (runReduce s k)) } else x)) ∧
  -- appendQCmd
  (∀ (sl : SliceIx) (b : BankIx) (s : State) (k : Task) (h : Header) (idx fl : Nat) (rc : List Byte), k.path < 1168 → k.addr % 8 = 0 →
    (s.bankAt sl b).ctx.find? (fun x => x.cmd == 4 && decide (0 < x.bursts) && taskReady (s.bankAt sl b).ctx x) = some k →
    s.pageHeader k.addr = some h →
    appendResult s k.addr (bits k.imm 11 0) (tokenOf k.fmt (bits k.imm 11 0) k.args) = (0, idx, rc, fl) →
    ∃ t, exec (.appendQCmd sl b) s = .next t ∧
      (t.bankAt sl b).ctx = (s.bankAt sl b).ctx.filter (fun u => !(u.path == k.path && u.num == k.num)) ∧
      (∀ j < 8, t.byteAt (k.addr + 8 + j) = (leBytes (idx + 1) 8).getD j 0) ∧
      (t.pathAt k.path).out = (s.pathAt k.path).out.map (fun x => if x.num = k.num then { x with
        accepted := true, done := some (resultRecord (k.addr / 2 ^ 30) (bankOf (k.addr % 2 ^ 30)) k.epoch { fx := fl, tokens := idx }) } else x)) ∧
  -- fillCmd
  (∀ (sl : SliceIx) (b : BankIx) (s : State) (k : Task), k.path < 1168 → (s.bankAt sl b).ctx.find?
      (fun x => x.cmd == 5 && decide (0 < x.bursts) && taskReady (s.bankAt sl b).ctx x) = some k →
    ∃ t, exec (.fillCmd sl b) s = .next t ∧
      (t.bankAt sl b).ctx = (s.bankAt sl b).ctx.filter (fun u => !(u.path == k.path && u.num == k.num)) ∧
      (∀ j < 32768, t.byteAt (k.addr / 32768 * 32768 + j) = (leBytes k.imm 8).getD (j % 8) 0) ∧
      (t.pathAt k.path).out = (s.pathAt k.path).out.map (fun x => if x.num = k.num then { x with
        accepted := true, done := some (resultRecord (k.addr / 2 ^ 30) (bankOf (k.addr % 2 ^ 30)) k.epoch {}) } else x)) ∧
  -- copyPageCmd
  (∀ (sl : SliceIx) (b : BankIx) (s : State) (k : Task) (src : Nat), k.path < 1168 → src = k.addr / 32768 * 32768 →
    (s.bankAt sl b).ctx.find? (fun x => x.cmd == 6 && decide (0 < x.bursts) && taskReady (s.bankAt sl b).ctx x) = some k →
    (s.bsuBytes src 32768).2 = false → ∃ t, exec (.copyPageCmd sl b) s = .next t ∧
      (t.bankAt sl b).ctx = (s.bankAt sl b).ctx.filter (fun u => !(u.path == k.path && u.num == k.num)) ∧
      (t.pathAt k.path).out = (s.pathAt k.path).out.map (fun x => if x.num = k.num then { x with
        accepted := true, done := some (resultRecord (k.addr / 2 ^ 30) (bankOf (k.addr % 2 ^ 30)) k.epoch {}) } else x)) ∧
  -- bankFence
  (∀ (pa : PathIx) (s : State) (f : PathEnt), (s.pathAt pa).out.find? (fun e => e.fence.isSome && e.done.isNone &&
      e.waitFor.all (fun k => !(s.pathAt pa).out.any (fun x => x.num == k && x.done.isNone))) = some f →
    ∃ t, exec (.bankFence pa) s = .next t ∧ (t.pathAt pa).out = (s.pathAt pa).out.map
      (fun e => if e.num = f.num then { e with done := some (resultRecord f.slice f.bank 0 {}) } else e)) ∧
  -- bankResultPush
  (∀ (pa : PathIx) (s : State) (e : PathEnt) (es : List PathEnt) (d : List Byte), pa.val < 1152 →
    (s.pathAt pa).out.dropWhile (fun e => e.done.isSome && !e.resEn) = e :: es → e.done = some d →
    d.length ≤ s.qRoom pa (s.reg .CHG_BNK_res_q pa) 128 →
    ∃ t, exec (.bankResultPush pa) s = .next t ∧ (t.pathAt pa).out = es ∧ t.reg .BNK_STATUS_stall_res pa = 0) ∧
  -- bankResultStall
  (∀ (pa : PathIx) (s : State) (e : PathEnt) (es : List PathEnt) (d : List Byte), pa.val < 1152 →
    (s.pathAt pa).out.dropWhile (fun e => e.done.isSome && !e.resEn) = e :: es → e.done = some d →
    s.qRoom pa (s.reg .CHG_BNK_res_q pa) 128 < d.length →
    ∃ t, exec (.bankResultPush pa) s = .next t ∧ t.path = s.path ∧ t.reg .BNK_STATUS_stall_res pa = 1) ∧
  -- bsuFault
  (∀ (sl : SliceIx) (b : BankIx) (s : State) (k : Task) (ks : List Task), s.stackHeld (sl / 96) = false →
    (s.bankAt sl b).ctx = k :: ks → k.path < 1168 → ∃ t, exec (.bsuFault sl b) s = .next t ∧
      (t.bankAt sl b).ctx = (s.bankAt sl b).ctx.filter (fun u => !(u.path == k.path && u.num == k.num)) ∧
      (t.pathAt k.path).out = (s.pathAt k.path).out.map (fun x => if x.num = k.num then { x with
        accepted := true, done := some (resultRecord (k.addr / 2 ^ 30) (bankOf (k.addr % 2 ^ 30)) k.epoch {
          status := stUncorrectable, known := decide (4 ≤ k.cmd), payload := failPayload k.cmd k.nq k.imm 0 0 }) } else x)) ∧
  -- bsuPerfClear
  (∀ (sl : SliceIx) (s : State), s.stackHeld (sl / 96) = false → ∃ t, exec (.bsuPerfClear sl) s = .next t ∧
      t.reg .BSU_PERF_bursts sl = 0 ∧ t.reg .BSU_PERF_cap_wait sl = 0 ∧ t.reg .BSU_PERF_commands sl = 0)

/-- Stacked memory, its error correction, refresh, fills and caches: each event or access, when it is due, has its effect.
Rests on 07_stacked_memory.md, 08_error_correction.md. -/
def Obligations.StackedMemoryEventsComplete : Prop :=
  -- memoryRead
  (∀ (iss : Issuer) (addr len : Nat) (hint : Fin 4) (ups : List Upset) (s u : State) (r : Rd), u = run (applyUpsets ups) s →
    r = u.readResult (srcOf iss) (issChecked iss) (u.issFlask iss) addr len →
    ∃ t, exec (.memoryRead iss addr len hint ups) s = .next t ∧ t.rsp = leBytes r.status 4 ++ r.data) ∧
  -- memoryReadClean
  (∀ (iss : Issuer) (addr len : Nat) (hint : Fin 4) (s : State), 0 < len →
    (∀ l ∈ linesOf addr len, s.judge (srcOf iss) (issChecked iss) (s.issFlask iss) l = .ok) →
    (∀ w, addr / 8 ≤ w → w ≤ (addr + len - 1) / 8 → s.deliver w = ⟨BitVec.ofNat 64 (s.rawWord (w * 8)), 0, 0⟩) →
    ∃ t, exec (.memoryRead iss addr len hint []) s = .next t ∧ t.rsp = leBytes 0 4 ++ s.rawBytes addr len) ∧
  -- memoryWrite
  (∀ (iss : Issuer) (addr : Nat) (hint : Fin 4) (data : List Byte) (ups : List Upset) (s u : State), u = run (applyUpsets ups) s →
    ∃ t, exec (.memoryWrite iss addr hint data ups) s = .next t ∧
      t.rsp = leBytes (u.writeStatus (srcOf iss) (issChecked iss) (u.issFlask iss) addr data.length) 4) ∧
  -- memoryWriteStores
  (∀ (iss : Issuer) (addr : Nat) (hint : Fin 4) (data : List Byte) (s : State),
    (∀ l ∈ linesOf addr data.length, s.judge (srcOf iss) (issChecked iss) (s.issFlask iss) l = .ok) →
    (∀ a, addr ≤ a → a < addr + data.length → a < stackedEnd → bit (s.sliceAt (a / 2 ^ 30)).deadCh (chanOf (a % 2 ^ 30)) = false) →
    ∃ t, exec (.memoryWrite iss addr hint data []) s = .next t ∧ t.rsp = leBytes 0 4 ∧ t.rawBytes addr data.length = data) ∧
  -- eccWriteBack
  (∀ (line : Nat) (s : State), Store.get 0 s.wb line ≠ 0 → ∃ t, exec (.eccWriteBack line) s = .next t ∧ Store.get 0 t.wb line = 0 ∧
      (∀ k < 8, bit (Store.get 0 s.wb line) k = true →
        (s.decodeWord (line * 8 + k)).verdict = 1 ∨ (s.decodeWord (line * 8 + k)).verdict = 2 →
        (t.markAt (line * 8 + k)).flips = 0 ∧
        t.rawBytes ((line * 8 + k) * 8) 8 = wordBytes (s.decodeWord (line * 8 + k)).data) ∧
      (line * 64 < stackedEnd → Store.get 0 s.wb line % 256 = 0 →
        t.reg .ECC_WB_skipped (line / 2 ^ 24) = (s.reg .ECC_WB_skipped (line / 2 ^ 24) + 1) % 2 ^ 32) ∧
      (line * 64 < stackedEnd → Store.get 0 s.wb line % 256 ≠ 0 →
        t.reg .ECC_WB_done (line / 2 ^ 24) = (s.reg .ECC_WB_done (line / 2 ^ 24) + 1) % 2 ^ 32)) ∧
  -- refreshSlot
  (∀ (sl : SliceIx) (b : BankIx) (s : State), s.stackHeld (sl / 96) = false → ∃ t, exec (.refreshSlot sl b) s = .next t ∧
      Store.get 0 t.openRow (sl * 128 + b) = 0 ∧ t.reg .MC_PERF_refresh sl = (s.reg .MC_PERF_refresh sl + 1) % 2 ^ 64 ∧
      (setBit (s.sliceAt sl).slots b true = 2 ^ 128 - 1 → (t.sliceAt sl).slots = 0 ∧ t.reg .MC_STAT_refresh sl = s.refreshRate sl % 2 ^ 2) ∧
      (setBit (s.sliceAt sl).slots b true ≠ 2 ^ 128 - 1 → (t.sliceAt sl).slots = setBit (s.sliceAt sl).slots b true)) ∧
  -- selfRefreshEntry
  (∀ (st : StackIx) (s : State), s.stackHeld st = true → ∃ t, exec (.selfRefreshEntry st) s = .next t ∧ t.reg .CRS_STAT_self_refresh st = 1) ∧
  -- selfRefreshExit
  (∀ (st : StackIx) (s : State), s.stackHeld st = false → s.flag .CRS_STAT_self_refresh st = true →
    ∃ t, exec (.selfRefreshExit st) s = .next t ∧ t.reg .CRS_STAT_self_refresh st = 0 ∧ ∀ k < 96, t.reg .MC_STAT_sr (st * 96 + k) = 1) ∧
  -- scrubRead
  (∀ (sl : SliceIx) (ups : List Upset) (s : State), s.flag .ECC_SCRUB_en sl = true → s.stackHeld (sl / 96) = false →
    (s.sliceAt sl).withheld = false → ∃ t, exec (.scrubRead sl ups) s = .next t ∧
      t.reg .ECC_SCRUB_pos sl = (s.reg .ECC_SCRUB_pos sl + 1) % 2 ^ 24 ∧
      ((s.reg .ECC_SCRUB_pos sl + 1) % 2 ^ 24 = 0 → t.reg .ECC_SCRUB_passes sl = (s.reg .ECC_SCRUB_passes sl + 1) % 2 ^ 16)) ∧
  -- sramScrubRead
  (∀ (addr : Nat) (ups : List Upset) (s u : State) (w : Nat), u = run (applyUpsets ups) s →
    ((∃ c, u.target addr = .csram c) ∨ (∃ n, u.target addr = .scratch n)) → w / 16 = addr / 128 →
    ((u.decodeWord w).verdict = 1 ∨ (u.decodeWord w).verdict = 2) →
    ∃ t, exec (.sramScrubRead addr ups) s = .next t ∧ bit (Store.get 0 t.wb (w / 8)) (w % 8) = true) ∧
  -- eccFillStart
  (∀ (sl : SliceIx) (regions : BitVec 16) (s : State), s.stackHeld (sl / 96) = false → s.flag .ECC_FILL_busy sl = false →
    ∃ t, exec (.eccFillStart sl regions) s = .next t ∧ t.reg .ECC_FILL_busy sl = 1 ∧ t.reg .ECC_FILL_regions sl = regions.toNat ∧
      (t.sliceAt sl).filling = regions.toNat) ∧
  -- fillEngineDone
  (∀ (sl : SliceIx) (s : State), s.flag .ECC_FILL_busy sl = true → ∃ t, exec (.fillEngineDone sl) s = .next t ∧
      t.reg .ECC_FILL_busy sl = 0 ∧ (t.sliceAt sl).filling = 0 ∧
      ∀ r < 16, bit (s.sliceAt sl).filling r = true → bit (t.reg .ECC_INIT_regions sl) r = true ∧
        ∀ j < 2 ^ 26, t.byteAt (sl * 2 ^ 30 + r * 2 ^ 26 + j) = 0) ∧
  -- eccTwRead
  (∀ (sl : SliceIx) (s : State) (w : Nat), s.flag .ECC_TWG_grant sl = true → w = sl * 2 ^ 27 + s.reg .ECC_TW_ADDR_word sl →
    ∃ t, exec (.eccTwRead sl) s = .next t ∧
      (s.undefWord w = false →
        t.reg .ECC_TW_DATA_data sl = (BitVec.ofNat 64 (s.rawWord (w * 8)) ^^^ BitVec.ofNat 64 (s.markAt w).flips.toNat).toNat ∧
        t.reg .ECC_TW_CHK_check sl = (s.rawCheck w).toNat) ∧ t.reg .ECC_TW_CHK_verdict sl = (s.decodeWord w).verdict % 2 ^ 3 ∧
      t.reg .ECC_TW_CHK_syndrome sl = (s.decodeWord w).syn % 2 ^ 16) ∧
  -- eccTwWrite
  (∀ (sl : SliceIx) (s : State) (w : Nat), s.flag .ECC_TWG_grant sl = true → w = sl * 2 ^ 27 + s.reg .ECC_TW_ADDR_word sl →
    ∃ t, exec (.eccTwWrite sl) s = .next t ∧ t.rawBytes (w * 8) 8 = leBytes (s.reg .ECC_TW_DATA_data sl) 8 ∧
      (t.markAt w).raw = some (BitVec.ofNat 16 (s.reg .ECC_TW_CHK_check sl)) ∧
      ∀ c ∈ t.cacheSet (w / 8), c.line ≠ w / 8) ∧
  -- mcCtlInval
  (∀ (sl : SliceIx) (s : State), s.stackHeld (sl / 96) = false → ∃ t, exec (.mcCtlInval sl) s = .next t ∧
      t.reg .MC_STAT_inval_busy sl = 1 ∧ ∀ k, k / 512 = sl → Store.get [] t.cache k = []) ∧
  -- invalidationComplete
  (∀ (sl : SliceIx) (s : State), ∃ t, exec (.invalidationComplete sl) s = .next t ∧ t.reg .MC_STAT_inval_busy sl = 0) ∧
  -- mcPerfClear
  (∀ (sl : SliceIx) (s : State), s.stackHeld (sl / 96) = false → ∃ t, exec (.mcPerfClear sl) s = .next t ∧
      t.reg .MC_PERF_rd_lines sl = 0 ∧ t.reg .MC_PERF_wr_lines sl = 0 ∧ t.reg .MC_PERF_hits sl = 0 ∧
      t.reg .MC_PERF_row_miss sl = 0 ∧ t.reg .MC_PERF_refresh sl = 0)

/-- A read or a write of a register field, by its access code (R20): read-write, read-only, write 1 to clear, read clears,
and a write while its block is busy (R121). Rests on 00_scope.md, 04_charge_records.md. -/
def Obligations.RegisterAccessesComplete : Prop :=
  -- readClearCounter
  (∀ (r : Fld) (i : Nat) (s : State), s.fieldExists r i = true → s.blockLive r i = true → r.info.acc = .rc →
    r ∉ [.KV_FL_POP_valid, .KV_FL_POP_bank, .KV_FL_POP_frame, .KV_FL_POPB_valid, .KV_FL_POPB_bank, .KV_FL_POPB_frame,
      .EG_CLAIM_valid, .EG_CLAIM_prio, .EG_CLAIM_src] →
    ∃ t, exec (.readClearCounter r i) s = .next t ∧ t.rsp = leBytes (s.reg r i) 8 ∧ t.reg r i = 0) ∧
  -- readPop
  (∀ (sl : SliceIx) (s : State), ∃ t, exec (.readClearCounter .KV_FL_POP_valid sl) s = .next t ∧ exec (.kvFlPop sl) s = .next t) ∧
  -- registerWrite
  (∀ (r : Fld) (i : Nat) (v : Word) (s u : State), s.fieldExists r i = true → (r.info.unit = .site → s.coreOff (i / r.info.per) = false) →
    s.blockLive r i = true → u = (if r.info.unit = .site then run (settle (i / r.info.per)) s else s) → r.info.acc = .rw →
    (trigger r i).isNone = true → r ∉ [.WIN_CTL_flask, .EG_SRC_target, .EG_SRC_prio, .FP_CFG_en, .FAB_CFG_en, .LDL_CH_head] →
    (u.fieldBusy r i = false ∨ r.info.cls = .d) →
    ∃ t, exec (.registerWrite r i v) s = .next t ∧ t.reg r i = v.toNat % 2 ^ r.info.width) ∧
  -- registerWriteBusy
  (∀ (r : Fld) (i : Nat) (v : Word) (s u : State), s.fieldExists r i = true → (r.info.unit = .site → s.coreOff (i / r.info.per) = false) →
    s.blockLive r i = true → u = (if r.info.unit = .site then run (settle (i / r.info.per)) s else s) → r.info.acc = .rw →
    (trigger r i).isNone = true → u.fieldBusy r i = true →
    ∃ t, exec (.registerWrite r i v) s = .next t ∧ (r.info.cls = .s → t.reg r i = u.reg r i ∧ t.shadow r i = some (v.toNat % 2 ^ r.info.width)) ∧
      (r.info.cls = .l → t.reg r i = u.reg r i)) ∧
  -- registerWriteReadOnly
  (∀ (r : Fld) (i : Nat) (v : Word) (s : State), r.info.unit ≠ .site → (r.info.acc = .ro ∨ r.info.acc = .rc) →
    exec (.registerWrite r i v) s = .next s) ∧
  -- registerWriteClearsOnes
  (∀ (r : Fld) (i : Nat) (v : Word) (s : State), s.fieldExists r i = true → r.info.unit ≠ .site → s.blockLive r i = true →
    r.info.acc = .w1c → ∃ t, exec (.registerWrite r i v) s = .next t ∧
      t.reg r i = (s.reg r i &&& (2 ^ 64 - 1 - v.toNat)) % 2 ^ r.info.width)

/-- KV frames, appends, copy-on-write, attends, reclamation, eviction, swap and restore: each event, when it is due, has
its effect. Rests on 10_kv_cache_pages.md, 11_attention_execution.md, 12_cache_pressure.md. -/
def Obligations.KvCacheEventsComplete : Prop :=
  -- kvFlPop
  (∀ (sl : SliceIx) (s : State) (b f : Nat), s.stackHeld (sl / 96) = false → s.popChoice sl = some (b, f) →
    ∃ t, exec (.kvFlPop sl) s = .next t ∧ t.rsp = leBytes (2 ^ 31 + b * 256 + f) 4 ∧
      (t.sliceAt sl).freeMap = setBit (s.sliceAt sl).freeMap (b * 256 + f) false ∧ t.reg .KV_FL_STAT_next_bank sl = (b + 1) % 128) ∧
  -- kvFlPopEmpty
  (∀ (sl : SliceIx) (s : State), s.stackHeld (sl / 96) = false → s.popChoice sl = none →
    exec (.kvFlPop sl) s = .next { s with rsp := leBytes 0 4 }) ∧
  -- kvFlPopb
  (∀ (sl : SliceIx) (s : State) (b f : Nat), s.stackHeld (sl / 96) = false → b = s.reg .KV_FL_CTL_bank sl →
    freeInBank (s.sliceAt sl).freeMap b = some f → ∃ t, exec (.kvFlPopb sl) s = .next t ∧
      t.rsp = leBytes (2 ^ 31 + b * 256 + f) 4 ∧ (t.sliceAt sl).freeMap = setBit (s.sliceAt sl).freeMap (b * 256 + f) false) ∧
  -- kvFlPush
  (∀ (sl : SliceIx) (b : BankIx) (fr : Fin 256) (s : State), s.stackHeld (sl / 96) = false →
    bit (s.sliceAt sl).freeMap (b * 256 + fr) = false → ∃ t, exec (.kvFlPush sl b fr) s = .next t ∧
      (t.sliceAt sl).freeMap = setBit (s.sliceAt sl).freeMap (b * 256 + fr) true ∧ t.regs = s.regs) ∧
  -- kvFlPushFree
  (∀ (sl : SliceIx) (b : BankIx) (fr : Fin 256) (s : State), s.stackHeld (sl / 96) = false →
    bit (s.sliceAt sl).freeMap (b * 256 + fr) = true → ∃ t, exec (.kvFlPush sl b fr) s = .next t ∧
      t.reg .KV_FL_STAT_dup_push sl = 1 ∧ t.slice = s.slice) ∧
  -- appendRequest
  (∀ (n : SiteIx) (s u : State) (h p k idx fx : Nat) (r : AppReq) (q : SeqSt) (rc : List Byte), s.cccLive (n / 12) = true →
    (s.kvAt ((s.coreFlask n).getD 16)).set = true → 128 ≤ (s.kvAt ((s.coreFlask n).getD 16)).appSize → s.appNext n = none →
    h = s.appHeadAt n 1024 ((s.coreAt n).appHead % ((s.kvAt ((s.coreFlask n).getD 16)).appSize / 128)) → r = s.appReq n h →
    r.valid = true → (∀ y ∈ (s.coreAt n).appAside, y.1 ≠ h ∧ (s.appReq n y.1).seq ≠ r.seq) →
    (s.seqAt r.seq).state = 1 → s.coreFlask n = some (s.seqAt r.seq).flask →
    u = run (.seq (setCore n (fun c => { c with appHead := (h + s.appEntries r) % ((s.kvAt ((s.coreFlask n).getD 16)).appSize / 128) }))
      (stepBegins (s.runner n) r.seq)) s →
    u.appReq n h = r → r.bad = false → q = u.seqAt r.seq → q.state = 1 → u.coreFlask n = some q.flask → r.stream < q.streams →
    r.position = u.streamTokens r.seq r.stream → p = r.position / max 1 q.capacity → p < q.maxPages →
    (q.sliceOf p / 12 = n / 12 ∨ u.cccLive (q.sliceOf p / 12) = true) → q.cow = false → (u.pteAt r.seq r.stream p).kind = 1 →
    k = (u.pteAt r.seq r.stream p).key → bit (u.sliceAt (k / 32768)).bsuOff (k / 256 % 128) = false →
    u.bankAssay (k / 32768) (k / 256 % 128) = false →
    (u.ringBytes (ringAddr n (u.kvAt q.flask).appOff (u.kvAt q.flask).appSize) (u.kvAt q.flask).appSize h
      (16 + q.tlen * argWidth r.fmt)).bad = false →
    appendResult u (addrOfKey k) q.tlen (tokenOf r.fmt q.tlen ((u.ringBytes (ringAddr n (u.kvAt q.flask).appOff
      (u.kvAt q.flask).appSize) (u.kvAt q.flask).appSize h (16 + q.tlen * argWidth r.fmt)).data.drop 16)) = (0, idx, rc, fx) →
    ∃ t, exec (.appendRequest n) s = .next t ∧
      t.pteAt r.seq r.stream p = { u.pteAt r.seq r.stream p with tokens := idx + 1 } ∧
      t.reg .BSU_PERF_commands (k / 32768) = (s.reg .BSU_PERF_commands (k / 32768) + 1) % 2 ^ 64) ∧
  -- copyOnWrite
  (∀ (n : SiteIx) (s : State) (c : Cow) (cs : List Cow), s.cccLive (n / 12) = true → (s.coreAt n).cows = c :: cs →
    (s.bsuBytes (addrOfKey c.src) 32).2 = false → ∃ u,
      exec (.copyOnWrite n) s = .next (run (.seq (appendTry n c.entry c.ctx) (Eff.opt (s.coreFlask n) acctSync)) u) ∧
      (u.coreAt n).cows = cs ∧ (u.seqAt c.q).cow = false ∧ (u.pteAt c.q c.stream c.page).kind = 1 ∧
      (u.pteAt c.q c.stream c.page).loc = pfnOfKey c.dst ∧ (c.src ≠ c.dst → (u.pageAt c.dst).state = 1)) ∧
  -- attendRequest
  (∀ (n : SiteIx) (s u : State) (h : Nat) (r : AttReq) (q : SeqSt), s.cccLive (n / 12) = true →
    (s.kvAt ((s.coreFlask n).getD 16)).set = true → 128 ≤ (s.kvAt ((s.coreFlask n).getD 16)).attSize →
    (s.coreAt n).attAside.find? (fun y => !s.attBlocked n (s.attReq n y.1)) = none →
    h = s.attHeadAt n ((s.kvAt ((s.coreFlask n).getD 16)).attSize / 128) 4096
      ((s.coreAt n).attHead % ((s.kvAt ((s.coreFlask n).getD 16)).attSize / 128)) → r = s.attReq n h → r.valid = true →
    (∀ y ∈ (s.coreAt n).attAside, y.1 ≠ h) → (∀ a ∈ s.attendsAt (n / 12), ¬(a.site = n.val ∧ a.entry = h)) →
    (s.seqAt r.seq).state = 1 → s.coreFlask n = some (s.seqAt r.seq).flask → r.bad = false →
    u = run (.seq (setCore n (fun c => { c with attHead := (h + 1) % ((s.kvAt ((s.coreFlask n).getD 16)).attSize / 128) }))
      (stepBegins (s.runner n) r.seq)) s →
    u.attReq n h = r → q = u.seqAt r.seq → q.state = 1 → u.coreFlask n = some q.flask → r.stream < q.streams →
    slotsBad r q = false → r.lo ≤ r.hi → r.hi ≤ u.streamTokens r.seq r.stream → u.attBlocked n r = false →
    ∃ t a, exec (.attendRequest n) s = .next t ∧ t.attendsAt (n / 12) = s.attendsAt (n / 12) ++ [a] ∧ a.site = n.val ∧ a.entry = h ∧
      (t.coreAt n).attHead = (h + 1) % ((s.kvAt ((s.coreFlask n).getD 16)).attSize / 128)) ∧
  -- memberMerge
  (∀ (n : SiteIx) (s : State) (a : Attend), s.cccLive (n / 12) = true → (s.attendsAt (n / 12)).find? (fun a => a.site == n.val) = some a →
    ∃ t, exec (.memberMerge n) s = .next t ∧
      t.attendsAt (n / 12) = (s.attendsAt (n / 12)).filter (fun b => !(b.site == n.val && b.entry == a.entry))) ∧
  -- stepEnd
  (∀ (q : SeqIx) (s : State), (s.seqAt q).stepOpen = true → ∃ t, exec (.stepEnd q) s = .next t ∧
      t.seqAt q = { s.seqAt q with stepOpen := false, deferred := [], lastStep := (s.seq.foldl (fun m p => max m p.2.lastStep) 0) + 1 }) ∧
  -- epochDrain
  (∀ (sl : SliceIx) (s : State), s.cccLive (sl / 12) = true → (s.sliceAt sl).heldRel = [] → ∃ t, exec (.epochDrain sl) s = .next t ∧
      ∀ k, k / 32768 = sl → (s.pageAt k).pend = true →
        0 < signed 16 (wrap 16 ((s.bsuOldest sl : Int) - (s.pageAt k).epoch)) → (t.pageAt k).pend = false) ∧
  -- reclamation
  (∀ (sl : SliceIx) (s : State) (q : Nat), s.cccLive (sl / 12) = true → (s.sliceAt sl).reclaim = true → s.swapRuns sl = false →
    s.needed sl ≠ 0 → s.victim sl = some q → ∃ t, exec (.reclamation sl) s = .next t ∧
      (t.seqAt q).state = if (s.seqAt q).policy = 0 then 2 else 3) ∧
  -- reclamationOver
  (∀ (sl : SliceIx) (s : State), s.cccLive (sl / 12) = true → (s.sliceAt sl).reclaim = true → s.swapRuns sl = false →
    s.needed sl = 0 → ∃ t, exec (.reclamation sl) s = .next t ∧ (t.sliceAt sl).reclaim = false) ∧
  -- dropEviction
  (∀ (q : SeqIx) (sl : SliceIx) (s : State), s.cccLive (sl / 12) = true → (s.sliceAt sl).reclaim = true → (s.seqAt q).policy = 0 →
    0 < s.needed sl → (s.victim sl = some q.val ∨ (s.victim sl = none ∧ s.waitsIn q sl = true)) →
    ∃ t, exec (.dropEviction q sl) s = .next t ∧ (t.seqAt q).state = 2) ∧
  -- swapEviction
  (∀ (q : SeqIx) (s : State), (s.seqAt q).state = 1 → (s.seqAt q).policy = 1 →
    (∃ sl ∈ (s.seqAt q).spread.take (s.seqAt q).spreadN, (s.sliceAt sl).reclaim = true ∧ s.victim sl = some q.val) →
    ∃ t, exec (.swapEviction q) s = .next t ∧ (t.seqAt q).state = 3 ∧ (t.seqAt q).swapping = true) ∧
  -- swapPageDone
  (∀ (q : SeqIx) (s : State) (e : Nat × Nat) (i fl k : Nat), s.swapDue q = true → s.swapNext q = some e → fl = (s.seqAt q).flask →
    s.freeSlot fl = some i → k = (s.pteAt q e.1 e.2).key → s.slotReached fl i = true → (s.bsuBytes (addrOfKey k) 32768).2 = false →
    ∃ t, exec (.swapPageDone q true) s = .next t ∧
      t.slotAt fl i = { holders := (s.holdersOf k).map (fun h => (h.1, h.2.1, h.2.2.1))
                        tokens := (s.holdersOf k).map (·.2.2.2), desc := s.pageAt k } ∧
      ∀ h ∈ s.holdersOf k, (t.pteAt h.1 h.2.1 h.2.2.1).kind = 2 ∧ (t.pteAt h.1 h.2.1 h.2.2.1).loc = (s.kvAt fl).swapArea * 2 ^ 30 + i) ∧
  -- pageRestore
  (∀ (q : SeqIx) (st p : Fin 65536) (s : State) (sl b f tk : Nat), (s.seqAt q).state = 1 → (s.pteAt q st p).kind = 2 →
    (st.val, p.val) ∈ (s.seqAt q).want → sl = (s.seqAt q).sliceOf p → s.cccLive (sl / 12) = true → s.popChoice sl = some (b, f) →
    s.slotReached (s.seqAt q).flask (s.pteAt q st p).slotIx = true →
    ((q.val, st.val, p.val), tk) ∈ (s.slotAt (s.seqAt q).flask (s.pteAt q st p).slotIx).holders.zip
      (s.slotAt (s.seqAt q).flask (s.pteAt q st p).slotIx).tokens →
    ∃ t, exec (.pageRestore q st p true) s = .next t ∧ (t.pteAt q st p).kind = 1 ∧
      (t.pteAt q st p).loc = pfnOfKey (frameKey sl b f) ∧ t.slotAt (s.seqAt q).flask (s.pteAt q st p).slotIx = {}) ∧
  -- kvStarved
  (∀ (q : SeqIx) (sl : SliceIx) (s : State) (fl : Nat), s.waitsIn q sl = true → (s.seqAt q).policy = 1 → (s.seqAt q).starved = true →
    fl = (s.seqAt q).flask → fl < 16 → s.flaskExists fl = true → s.fnOn (fl + 1) = true →
    ∃ t, exec (.kvStarved q sl) s = .next t ∧ (t.seqAt q).starved = true ∧
      t.reg .EG_HNOTE_wr_seq (fl + 1) = (s.reg .EG_HNOTE_wr_seq (fl + 1) + 1) % 2 ^ 64 ∧
      Store.get 0 t.note ((fl + 1) * 128 + s.reg .EG_HNOTE_wr_seq (fl + 1) % 128) =
        (q + sl * 2 ^ 16) % 2 ^ 32 + 6 * 2 ^ 32 + s.reg .EG_HNOTE_wr_seq (fl + 1) * 2 ^ 64)

/-- Reset domains and clocks: each reset, release, lost or regained clock, when it is due, has its effect. Rests on
14_clocks_crossings_resets.md. -/
def Obligations.ResetAndClockEventsComplete : Prop :=
  -- crsRstFp
  (∀ (st : StackIx) (s : State), s.misc.phase ≠ 0 → (s.stackAt st).out = false → (s.stackAt st).causes = 0 →
    ∃ t, exec (.crsRstFp st) s = .next t ∧ (t.stackAt st).causes = 1 ∧ (t.stackAt st).down = true ∧
      t.reg .CRS_CAUSE_last st = 1 ∧ t.reg .CRS_CAUSE_count st = min (s.reg .CRS_CAUSE_count st + 1) (2 ^ 16 - 1)) ∧
  -- crsRstCluster
  (∀ (c : ClusterIx) (s : State), s.stackHeld (c / 8) = false → (s.clusterAt c).causes = 0 →
    ∃ t, exec (.crsRstCluster c) s = .next t ∧ (t.clusterAt c).causes = 1 ∧ (t.clusterAt c).zeroed = false ∧ t.gathAt c = {}) ∧
  -- crsRstClusterMore
  (∀ (c : ClusterIx) (s : State), s.stackHeld (c / 8) = false → (s.clusterAt c).causes ≠ 0 →
    ∃ t, exec (.crsRstCluster c) s = .next t ∧ t.clusterAt c = { s.clusterAt c with causes := (s.clusterAt c).causes ||| 1 } ∧ t.core = s.core) ∧
  -- crsCoreGo
  (∀ (n : SiteIx) (s : State), s.coreOff n = false → s.clusterHeld (n / 12) = false → ∃ t, exec (.crsCoreGo n) s = .next t ∧
      bit (t.clusterAt (n / 12)).coreRst (n % 12) = true ∧ (t.pathAt n).out = [] ∧ (t.coreAt n).pours = [] ∧ (t.coreAt n).passes = []) ∧
  -- resetReleaseFp
  (∀ (st : StackIx) (s : State), ∃ t, exec (.resetRelease (.fp st)) s = .next t ∧
      t.stackAt st = { s.stackAt st with causes := (s.stackAt st).causes - ((s.stackAt st).causes &&& 1) }) ∧
  -- resetReleaseCluster
  (∀ (c : ClusterIx) (s : State), (s.clusterAt c).causes = 1 → ∃ t, exec (.resetRelease (.cluster c)) s = .next t ∧
      (t.clusterAt c).causes = 0 ∧ (t.clusterAt c).zeroed = true) ∧
  -- resetReleaseCore
  (∀ (n : SiteIx) (s : State), ∃ t, exec (.resetRelease (.core n)) s = .next t ∧
      (t.clusterAt (n / 12)).coreRst = setBit (s.clusterAt (n / 12)).coreRst (n % 12) false) ∧
  -- fabricPlaneReturn
  (∀ (st : StackIx) (s : State), (s.stackAt st).down = true → (s.stackAt st).causes = 0 → 3 ≤ s.misc.phase →
    ¬(0x11 ≤ s.misc.phase ∧ s.misc.phase ≤ 0x16) → ∃ t, exec (.fabricPlaneReturn st) s = .next t ∧ (t.stackAt st).down = false ∧
      t.reg .CRS_STAT_self_refresh st = 0 ∧ ∀ k < 8, (s.clusterAt (st * 8 + k)).causes = 4 → (t.clusterAt (st * 8 + k)).causes = 0) ∧
  -- pllLockLossRegion
  (∀ (st : StackIx) (r : Fin 2) (s : State), ∃ t, exec (.pllLockLoss st (.region r)) s = .next t ∧
      t.reg .CRS_STAT_region_lock st = setBit (s.reg .CRS_STAT_region_lock st) r false % 4 ∧
      ∀ k < 4, (t.clusterAt (st * 8 + r * 4 + k)).causes = (s.clusterAt (st * 8 + r * 4 + k)).causes ||| 2) ∧
  -- pllLockLossPlane
  (∀ (st : StackIx) (s : State), (∃ t, exec (.pllLockLoss st .memory) s = .next t ∧ t.reg .CRS_STAT_mem_lock st = 0 ∧
      (t.stackAt st).causes = (s.stackAt st).causes ||| 4) ∧
    (∃ t, exec (.pllLockLoss st .fabric) s = .next t ∧ t.reg .CRS_STAT_fab_lock st = 0 ∧
      (t.stackAt st).causes = (s.stackAt st).causes ||| 2)) ∧
  -- pllRelockRegion
  (∀ (st : StackIx) (r : Fin 2) (s : State), ∃ t, exec (.pllRelock st (.region r)) s = .next t ∧
      t.reg .CRS_STAT_region_lock st = setBit (s.reg .CRS_STAT_region_lock st) r true % 4 ∧
      ∀ k < 4, (t.clusterAt (st * 8 + r * 4 + k)).causes =
        (s.clusterAt (st * 8 + r * 4 + k)).causes - ((s.clusterAt (st * 8 + r * 4 + k)).causes &&& 2)) ∧
  -- pllRelockPlane
  (∀ (st : StackIx) (s : State), (∃ t, exec (.pllRelock st .memory) s = .next t ∧ t.reg .CRS_STAT_mem_lock st = 1 ∧
      (t.stackAt st).causes = (s.stackAt st).causes - ((s.stackAt st).causes &&& 4)) ∧
    (∃ t, exec (.pllRelock st .fabric) s = .next t ∧ t.reg .CRS_STAT_fab_lock st = 1 ∧
      (t.stackAt st).causes = (s.stackAt st).causes - ((s.stackAt st).causes &&& 2))) ∧
  -- clockSlewStep
  (∀ (st : StackIx) (r : Fin 2) (s : State), ∃ t, exec (.clockSlewStep st r) s = .next t ∧
      t.stackAt st = (if r.val = 0 then { s.stackAt st with clk0 := clockStep (s.stackAt st).clk0 (s.clockSet st 0) }
        else { s.stackAt st with clk1 := clockStep (s.stackAt st).clk1 (s.clockSet st 1) })) ∧
  -- peerReset
  (∀ (c : ClusterIx) (s : State), s.clusterHeld c = true → ∃ t, exec (.peerReset c) s = .next t ∧ t.gathAt c = {} ∧
      (t.pathAt (1152 + c)).out = [] ∧ ∀ k < 12, (t.pathAt (c * 12 + k)).out = [])

/-- The package network's links and routes: each event, when it is due, has its effect. Rests on 13_on_package_network.md. -/
def Obligations.PackageNetworkEventsComplete : Prop :=
  -- linkDown
  (∀ (st : StackIx) (k : Fin 3) (peerLost : Bool) (s : State), s.stackHeld st = false → ∃ t, exec (.linkDown st k peerLost) s = .next t ∧
      t.reg .NOC_LINK_up (st * 3 + k) = 0 ∧ t.reg .NOC_LINK_rate (st * 3 + k) = 0 ∧
      (s.flag .NOC_CTL_auto_en st = true → t.reg .NOC_STAT_failover st = 1)) ∧
  -- d2dTimeout
  (∀ (st : StackIx) (dest : Fin 13) (s : State), s.stackHeld st = false → ∃ t, exec (.d2dTimeout st dest) s = .next t ∧
      t.reg .NOC_STAT_timeouts st = min (s.reg .NOC_STAT_timeouts st + 1) (2 ^ 16 - 1)) ∧
  -- d2dLink
  (∀ (st : StackIx) (k : Fin 3) (s : State), s.stackHeld st = false → s.linkUp st k = true →
    ({ cls := 5, id := st.val * 3 + k.val } : UnitId) ∉ s.lasting → ∃ t, exec (.d2dLink st k) s = .next t ∧
      t.reg .NOC_LINK_assay (st * 3 + k) = 1 ∧ t.reg .NOC_LINK_up (st * 3 + k) = 0) ∧
  -- nocCtlApply
  (∀ (st : StackIx) (s : State) (ok : List Nat), s.stackHeld st = false →
    ok = (List.range 13).filter (fun t => s.nextEntry st t != s.entry st t && t != st &&
      (linkOfCode t (s.nextEntry st t)).all (fun k => s.linkUp st k)) →
    ∃ t, exec (.nocCtlApply st) s = .next t ∧ (t.stackAt st).routes = ok.map (fun d => (d, s.nextEntry st d)) ∧
      t.reg .NOC_STAT_draining st = (if ok = [] then 0 else 1)) ∧
  -- routeSwitch
  (∀ (st : StackIx) (dest : Fin 13) (s : State) (code : Nat), s.stackHeld st = false → code < 4 →
    (s.stackAt st).routes.find? (fun r => r.1 == dest.val) = some (dest.val, code) →
    ∃ t, exec (.routeSwitch st dest) s = .next t ∧ t.entry st dest = code ∧
      (t.stackAt st).routes = (s.stackAt st).routes.filter (fun y => y.1 != dest.val))

/-- The ladle engines, the regulators of the I/O-die switch and the far links: each event, when it is due, has its effect.
Rests on 16_ladle_dma.md, 15_io_die.md. -/
def Obligations.LadleAndRegulatorEventsComplete : Prop :=
  -- ldlChHeadWrite
  (∀ (e : EngIx) (ch : Fin 16) (head : BitVec 46) (s : State), s.ladleLive e = true → s.flag .LDL_CTL_disable e = false →
    s.reg .LDL_CH_state (e * 16 + ch) ≠ 1 → s.reg .LDL_CH_state (e * 16 + ch) ≠ 2 → ∃ t, exec (.ldlChHeadWrite e ch head) s = .next t ∧
      t.reg .LDL_CH_head (e * 16 + ch) = head.toNat ∧ t.reg .LDL_CH_state (e * 16 + ch) = 1 ∧
      (t.ladleAt e).queue = (s.ladleAt e).queue ++ [ch.val]) ∧
  -- ldlChHeadWriteBusy
  (∀ (e : EngIx) (ch : Fin 16) (head : BitVec 46) (s : State), s.ladleLive e = true → s.flag .LDL_CTL_disable e = false →
    (s.reg .LDL_CH_state (e * 16 + ch) = 1 ∨ s.reg .LDL_CH_state (e * 16 + ch) = 2) → ∃ t, exec (.ldlChHeadWrite e ch head) s = .next t ∧
      t.reg .LDL_STAT_busy_err e = 1 ∧ t.ladle = s.ladle) ∧
  -- ladleDescriptorStart
  (∀ (e : EngIx) (ups : List Upset) (s : State) (ch : Nat) (rest : List Nat), s.ladleLive e = true → (s.ladleAt e).run = none →
    (s.ladleAt e).queue = ch :: rest → ∃ t r, exec (.ladleDescriptorStart e ups) s = .next t ∧
      t.ladleAt e = { s.ladleAt e with queue := rest, run := some r } ∧ r.ch = ch ∧ r.addr = s.reg .LDL_CH_head (e * 16 + ch) ∧
      r.busy = true ∧ t.reg .LDL_CH_state (e * 16 + ch) = 2 ∧ t.reg .LDL_CH_status (e * 16 + ch) = 0 ∧
      t.reg .LDL_CH_descs (e * 16 + ch) = 0) ∧
  -- ladleDescriptorNext
  (∀ (e : EngIx) (ups : List Upset) (s : State) (r : LadleRun), s.ladleLive e = true → (s.ladleAt e).run = some r → r.busy = false →
    ∃ t r', exec (.ladleDescriptorStart e ups) s = .next t ∧ (t.ladleAt e).run = some r' ∧ r'.ch = r.ch ∧ r'.addr = r.addr ∧ r'.busy = true) ∧
  -- ladleDescriptorDone
  (∀ (e : EngIx) (s : State) (r : LadleRun) (d : Desc) (rd : Rd), s.ladleLive e = true → (s.ladleAt e).run = some r → r.busy = true →
    d = parseDesc r.words → s.descBad e r.flask d = false → d.srcHost = false → d.dstHost = false → d.convert = false →
    s.farHeld (srcOf (ladleIss e)) (some r.flask) d.src = false → s.farHeld (srcOf (ladleIss e)) (some r.flask) d.dst = false →
    s.goodRun (srcOf (ladleIss e)) r.flask d.src d.len = (d.len, 0) → s.goodRun (srcOf (ladleIss e)) r.flask d.dst d.len = (d.len, 0) →
    rd = s.readResult (srcOf (ladleIss e)) true (some r.flask) d.src d.len → rd.bad = false →
    ∃ t, exec (.ladleDescriptorDone e false) s = .next t ∧
      t.reg .LDL_CH_descs (e * 16 + r.ch) = min (s.reg .LDL_CH_descs (e * 16 + r.ch) + 1) (2 ^ 24 - 1) ∧
      t.reg .LDL_PERF_bytes e = (s.reg .LDL_PERF_bytes e + d.len) % 2 ^ 64 ∧
      (t.ladleAt e).run = (if d.next = 0 then none else some { r with addr := d.next, busy := false }) ∧
      (d.next = 0 → t.reg .LDL_CH_state (e * 16 + r.ch) = 3)) ∧
  -- ladleDescriptorCopies
  (∀ (e : EngIx) (s : State) (r : LadleRun) (d : Desc) (rd : Rd), s.ladleLive e = true → (s.ladleAt e).run = some r → r.busy = true →
    d = parseDesc r.words → s.descBad e r.flask d = false → d.srcHost = false → d.dstHost = false → d.convert = false → d.addEn = false →
    (d.src + d.len ≤ d.dst ∨ d.dst + d.len ≤ d.src) →
    s.farHeld (srcOf (ladleIss e)) (some r.flask) d.src = false → s.farHeld (srcOf (ladleIss e)) (some r.flask) d.dst = false →
    s.goodRun (srcOf (ladleIss e)) r.flask d.src d.len = (d.len, 0) → s.goodRun (srcOf (ladleIss e)) r.flask d.dst d.len = (d.len, 0) →
    (∀ a, d.dst ≤ a → a < d.dst + d.len → a < stackedEnd → bit (s.sliceAt (a / 2 ^ 30)).deadCh (chanOf (a % 2 ^ 30)) = false) →
    rd = s.readResult (srcOf (ladleIss e)) true (some r.flask) d.src d.len → rd.bad = false →
    ∃ t, exec (.ladleDescriptorDone e false) s = .next t ∧
      ∀ j < d.len, d.dst + j < r.addr + 56 ∨ r.addr + 64 ≤ d.dst + j → t.byteAt (d.dst + j) = rd.data.getD j 0) ∧
  -- ldlCtlDisable
  (∀ (e : EngIx) (s : State), s.ladleLive e = true → ∃ t, exec (.ldlCtlDisable e) s = .next t ∧ t.reg .LDL_CTL_disable e = 1 ∧
      t.ladleAt e = {} ∧ ∀ ch ∈ (s.ladleAt e).queue ++ ((s.ladleAt e).run.map (·.ch)).toList, t.reg .LDL_CH_state (e * 16 + ch) = 4) ∧
  -- ldlPerfClear
  (∀ (e : EngIx) (s : State), s.ladleLive e = true → ∃ t, exec (.ldlPerfClear e) s = .next t ∧
      t.reg .LDL_PERF_bytes e = 0 ∧ t.reg .LDL_PERF_reg_wait e = 0) ∧
  -- regulatorReleaseHost
  (∀ (fl : FlaskIx) (s : State), s.flag .REG_HOST_en fl = true → s.reg .REG_HOST_rate fl ≠ 0 →
    ∃ t, exec (.regulatorRelease true fl) s = .next t ∧ 1 ≤ Store.get 0 t.bucket (2 * fl + 1)) ∧
  -- regulatorReleaseFar
  (∀ (fl : FlaskIx) (s : State), s.flag .REG_FAR_en fl = true → s.reg .REG_FAR_rate fl ≠ 0 →
    ∃ t, exec (.regulatorRelease false fl) s = .next t ∧ 1 ≤ Store.get 0 t.bucket (2 * fl)) ∧
  -- farLinkDown
  (∀ (u : Fin 8) (s : State), 0 < s.misc.farCaps.getD u 0 → bit s.misc.farDown u = false → ∃ t, exec (.farLinkDown u) s = .next t ∧
      bit t.misc.farDown u = true)

/-- Fabric ports and the port manager's frames: each event, when it is due, has its effect. Rests on 17_fabric_ports.md. -/
def Obligations.PortEventsComplete : Prop :=
  -- fpCfgEnWrite
  (∀ (p : PortIx) (s : State), s.portLive p = true → ∃ t, exec (.fpCfgEnWrite p true) s = .next t ∧ t.reg .FP_CFG_en p = 1 ∧
      ∀ k < 4, s.subUsed p k = true → s.subState p k = 0 → t.subState p k = 1 ∧ t.reg .SP_STAT_attempts (p * 4 + k) = 0) ∧
  -- fpCfgEnWriteOff
  (∀ (p : PortIx) (s : State), s.portLive p = true → ∃ t, exec (.fpCfgEnWrite p false) s = .next t ∧ t.reg .FP_CFG_en p = 0 ∧
      ∀ k < 4, t.subState p k = 0) ∧
  -- fpCtlRequal
  (∀ (p : PortIx) (s : State), s.portLive p = true → ∃ t, exec (.fpCtlRequal p) s = .next t ∧
      ∀ k < 4, s.subCarries p k = true → t.subState p k = 2 ∧ (t.subAt (p * 4 + k)).full = true ∧
        (t.subAt (p * 4 + k)).qual = s.qualNow p) ∧
  -- fpPerfClear
  (∀ (p : PortIx) (s : State), s.portLive p = true → ∃ t, exec (.fpPerfClear p) s = .next t ∧
      (∀ k < 4, ∀ r ∈ [Fld.SP_TXFRM_count, .SP_RXFRM_count, .SP_TXBYTE_count, .SP_RXBYTE_count, .SP_RXFCS_count,
        .SP_RXDROP_count, .SP_FECCORR_count, .SP_FECUNC_count], t.reg r (p * 4 + k) = 0) ∧
      ∀ l < 8, t.reg .FP_LANE_ERR_bits (p * 8 + l) = 0 ∧ t.reg .FP_LANE_RX_bits (p * 8 + l) = 0) ∧
  -- trainingAttemptEnd
  (∀ (p : PortIx) (k : SubIx) (s : State), s.portLive p = true → s.subState p k = 1 → ∃ t, exec (.trainingAttemptEnd p k 0) s = .next t ∧
      t.subState p k = 2 ∧ (t.subAt (p * 4 + k)).full = (s.subAt (p * 4 + k)).full ∧ (t.subAt (p * 4 + k)).qual = s.qualNow p) ∧
  -- trainingAttemptFails
  (∀ (p : PortIx) (k : SubIx) (cause : Fin 5) (s : State) (a : Nat), s.portLive p = true → s.subState p k = 1 → cause.val ≠ 0 →
    a = min (s.reg .SP_STAT_attempts (p * 4 + k) + 1) 15 → ∃ t, exec (.trainingAttemptEnd p k cause) s = .next t ∧
      t.reg .SP_STAT_cause (p * 4 + k) = cause.val ∧ t.reg .SP_STAT_attempts (p * 4 + k) = a ∧
      t.subState p k = if 3 ≤ a then 6 else 1) ∧
  -- qualificationWindowEnd
  (∀ (p : PortIx) (k : SubIx) (corrected : List Nat) (s : State) (x : SubSt), s.managed p = true → s.subState p k = 2 →
    x = s.subAt (p * 4 + k) →
    (∀ l ∈ (subLanes (s.ways p) k).zipIdx, rateAbove (corrected.getD l.2 0) (2 ^ (if x.full then x.qual.getD 1 0 else x.qual.getD 2 0))
      (x.qual.getD 5 0) (x.qual.getD 6 0) = false ∧ (x.post = true → rateAbove (corrected.getD l.2 0)
        (2 ^ (if x.full then x.qual.getD 1 0 else x.qual.getD 2 0)) (x.qual.getD 3 0) (x.qual.getD 4 0) = false)) →
    ∃ t, exec (.qualificationWindowEnd p k corrected 0) s = .next t ∧ t.subState p k = 3 ∧
      t.reg .SP_STAT_attempts (p * 4 + k) = 0 ∧ (t.subAt (p * 4 + k)).due = true) ∧
  -- qualificationWindowFails
  (∀ (p : PortIx) (k : SubIx) (corrected : List Nat) (uncorr : Nat) (s : State) (x : SubSt), s.managed p = true → s.subState p k = 2 →
    x = s.subAt (p * 4 + k) → x.post = false →
    (∃ l ∈ (subLanes (s.ways p) k).zipIdx, rateAbove (corrected.getD l.2 0) (2 ^ (if x.full then x.qual.getD 1 0 else x.qual.getD 2 0))
      (x.qual.getD 5 0) (x.qual.getD 6 0) = true) →
    ∃ t, exec (.qualificationWindowEnd p k corrected uncorr) s = .next t ∧ t.reg .SP_STAT_cause (p * 4 + k) = 5 ∧
      t.reg .SP_STAT_attempts (p * 4 + k) = min (s.reg .SP_STAT_attempts (p * 4 + k) + 1) 15) ∧
  -- portDegrade
  (∀ (p : PortIx) (k : SubIx) (lanes : List (Nat × Nat)) (uncorr : Nat) (s : State) (x : SubSt), s.managed p = true →
    x = s.subAt (p * 4 + k) → s.subState p k = 3 →
    ((∃ l ∈ lanes, rateAbove l.1 l.2 (x.qual.getD 3 1) (x.qual.getD 4 4) = true) ∨ x.qual.getD 0 16 < uncorr) →
    ∃ t, exec (.portDegrade p k lanes uncorr) s = .next t ∧ t.subState p k = 4 ∧
      t.reg .SP_FECUNC_count (p * 4 + k) = (s.reg .SP_FECUNC_count (p * 4 + k) + uncorr) % 2 ^ 64) ∧
  -- subportAssayStart
  (∀ (p : PortIx) (k : SubIx) (s : State) (r : Report), s.managed p = true → s.subState p k = 4 →
    (s.assayerAt (96 + portStack p)).run = some r → r.cls = 6 → r.id = p * 4 + k →
    ∃ t, exec (.subportAssayStart p k) s = .next t ∧ t.subState p k = 5) ∧
  -- linkAssayEnd
  (∀ (p : PortIx) (k : SubIx) (lasting : Bool) (s : State) (r : Report), s.managed p = true → s.subState p k = 5 →
    (s.assayerAt (96 + portStack p)).run = some r → r.cls = 6 → r.id = p * 4 + k → (s.portAt p).next = none →
    ∃ t, exec (.linkAssayEnd p k lasting) s = .next t ∧
      t.subState p k = (if (lasting || (s.assayerAt (96 + portStack p)).second) then 6 else 2) ∧
      ((lasting || (s.assayerAt (96 + portStack p)).second) = true → t.reg .SP_STAT_cause (p * 4 + k) = 7)) ∧
  -- portDown
  (∀ (p : PortIx) (k : SubIx) (fourth : Bool) (s : State), s.managed p = true → (s.subState p k = 3 ∨ s.subState p k = 4) →
    ∃ t, exec (.portDown p k fourth) s = .next t ∧ t.subState p k = 1 ∧ (t.subAt (p * 4 + k)).full = fourth ∧
      t.reg .FP_STAT_link_downs p = min (s.reg .FP_STAT_link_downs p + 1) (2 ^ 16 - 1)) ∧
  -- failedRetry
  (∀ (p : PortIx) (k : SubIx) (s : State), s.managed p = true → s.subState p k = 6 → ∃ t, exec (.failedRetry p k) s = .next t ∧
      t.subState p k = 1 ∧ (t.subAt (p * 4 + k)).full = true) ∧
  -- recalibrationStep
  (∀ (p : PortIx) (lane : Fin 8) (up : Bool) (s : State) (e : List Int), s.managed p = true → s.flag .FP_CTL_recal_en p = true →
    s.subCarries p (lane.val * s.ways p / 8) = true → e = ((s.portAt p).eq ++ List.replicate 8 0).take 8 →
    ∃ t, exec (.recalibrationStep p lane up) s = .next t ∧
      t.portAt p = { s.portAt p with eq := e.set lane.val (e.getD lane.val 0 + (if up then 1 else -1)) }) ∧
  -- lldpSend
  (∀ (p : PortIx) (k : SubIx) (s : State), s.managed p = true → s.subState p k = 3 → ∃ t, exec (.lldpSend p k) s = .next t ∧
      t.out = s.out ++ [.lldp (pathIx p k)] ∧
      t.reg .SP_TXFRM_count (p * 4 + k) = (s.reg .SP_TXFRM_count (p * 4 + k) + 1) % 2 ^ 64) ∧
  -- gratuitousArp
  (∀ (p : PortIx) (k : SubIx) (s : State) (a : Nat), s.managed p = true → s.subState p k = 3 → s.v4Of p k = some a →
    ∃ t, exec (.gratuitousArp p k) s = .next t ∧ t.out = s.out ++ [.arp (pathIx p k) a] ∧
      t.reg .SP_TXFRM_count (p * 4 + k) = (s.reg .SP_TXFRM_count (p * 4 + k) + 1) % 2 ^ 64) ∧
  -- neighborSolicitation
  (∀ (p : PortIx) (k : SubIx) (s : State), s.portLive p = true → s.subCarries p k = true →
    ∃ t, exec (.neighborSolicitation p k (s.v6Base + pathIx p k)) s = .next t ∧
      t.out = s.out ++ [.advert (pathIx p k) (s.v6Base + pathIx p k)] ∧
      t.reg .SP_RXFRM_count (p * 4 + k) = (s.reg .SP_RXFRM_count (p * 4 + k) + 1) % 2 ^ 64)

/-- Brodit frames received and performed, acknowledged, lost: each event, when it is due, has its effect. Rests on
18_fabric_transport.md. -/
def Obligations.BroditReceptionsComplete : Prop :=
  -- frameReceive
  (∀ (p : PortIx) (k : SubIx) (fr : Frame) (s : State), s.portLive p = true → s.subCarries p k = true → fr.fcsOk = true → 64 ≤ fr.len →
    fr.len ≤ 9216 → fr.dst ≤ 2 → fr.ether ≤ 1 → s.fabLive (portStack p) = true → fr.frag = false → fr.ptype ≠ 2 →
    (s.connAt fr.dstConn).phase ≠ 0 → (s.connAt fr.dstConn).stack = portStack p → s.peerKnown (s.connAt fr.dstConn) fr = true →
    drainOk (s.connAt fr.dstConn) fr = true → fr.tagOk = true → s.keyHeld (s.connAt fr.dstConn) fr.phase = true →
    ∃ t, exec (.frameReceive p k fr) s = .next t ∧
      t.reg .SP_RXFRM_count (p * 4 + k) = (s.reg .SP_RXFRM_count (p * 4 + k) + 1) % 2 ^ 64 ∧
      (t.fabAt (portStack p)).rx = (s.fabAt (portStack p)).rx ++ [{
        conn := some fr.dstConn, flask := (s.connAt fr.dstConn).flask, ep := (s.connAt fr.dstConn).ep, path := pathIx p k, fr := fr }]) ∧
  -- frameReceiveBad
  (∀ (p : PortIx) (k : SubIx) (fr : Frame) (s : State), s.portLive p = true → s.subCarries p k = true →
    (fr.fcsOk = false ∨ fr.len < 64 ∨ 9216 < fr.len) → ∃ t, exec (.frameReceive p k fr) s = .next t ∧
      t.reg .SP_RXFCS_count (p * 4 + k) = (s.reg .SP_RXFCS_count (p * 4 + k) + 1) % 2 ^ 64 ∧ t.fab = s.fab) ∧
  -- rxPut
  (∀ (st : StackIx) (s : State) (n i : Nat) (x : RxItem), RxReady s st 1 n i x → ∃ t, exec (.rxPut st) s = .next t ∧
      RxPerformed s t st n i x) ∧
  -- rxGet
  (∀ (st : StackIx) (s : State) (n i : Nat) (x : RxItem), RxReady s st 2 n i x → ∃ t, exec (.rxGet st []) s = .next t ∧
      RxPerformed s t st n i x ∧ ((t.connAt i).queue = (s.connAt i).queue ∨
        ∃ p, (t.connAt i).queue = (s.connAt i).queue ++ [p] ∧ p.code = 5 ∧ p.addr = x.fr.aux)) ∧
  -- rxAdd
  (∀ (st : StackIx) (s : State) (n i : Nat) (x : RxItem), RxReady s st 3 n i x → ∃ t, exec (.rxAdd st) s = .next t ∧
      RxPerformed s t st n i x) ∧
  -- rxSend
  (∀ (st : StackIx) (s : State) (n i : Nat) (x : RxItem), RxReady s st 4 n i x → ∃ t, exec (.rxSend st) s = .next t ∧
      RxPerformed s t st n i x) ∧
  -- rxGetr
  (∀ (st : StackIx) (s : State) (n i : Nat) (x : RxItem), RxReady s st 5 n i x → ∃ t, exec (.rxGetr st) s = .next t ∧
      RxPerformed s t st n i x ∧
      (∀ g, (s.connAt i).gets.find? (fun g => g.1 == x.fr.addr) = some g → (t.connAt i).gets = (s.connAt i).gets.filter (· != g))) ∧
  -- ackPkt
  (∀ (st : StackIx) (s : State) (n i : Nat) (x : RxItem), RxNext s st 1 n x → x.conn = some i → ∃ t, exec (.ackPkt st) s = .next t ∧
      (t.fabAt st).rx = (s.fabAt st).rx.eraseIdx n ∧
      (t.connAt i).out = (s.connAt i).out.filter (fun p => !acked x.fr.ack x.fr.sack p.psn)) ∧
  -- ackSend
  (∀ (cn : ConnIx) (s : State) (p : Nat), (s.connAt cn).phase = 3 → s.fabLive (s.connAt cn).stack = true → 0 < (s.connAt cn).since →
    s.anyPath (s.connAt cn).stack = some p → ∃ t m, exec (.ackSend cn) s = .next t ∧ t.out = s.out ++ [m] ∧
      (t.connAt cn).ece = 0 ∧ (t.connAt cn).stats = (s.connAt cn).stats.drop 8) ∧
  -- packetLoss
  (∀ (cn : ConnIx) (psn : BitVec 24) (s : State) (p : Pkt), (s.connAt cn).phase = 3 → s.fabLive (s.connAt cn).stack = true →
    (s.connAt cn).out.find? (fun p => p.psn == psn.toNat) = some p → p.resends < s.reg .FAB_CFG_retry_max (s.connAt cn).stack →
    s.connPaths (s.connAt cn) ≠ [] → ∃ t path, exec (.packetLoss cn psn true) s = .next t ∧
      (t.connAt cn).out = (s.connAt cn).out.map
        (fun x => if x.psn = p.psn then { p with resends := p.resends + 1, path := path } else x) ∧
      t.reg .FAB_RETX_count (s.connAt cn).stack = (s.reg .FAB_RETX_count (s.connAt cn).stack + 1) % 2 ^ 64 ∧
      (t.connAt cn).r = max ((s.connAt cn).r / 2) (s.reg .FAB_CC_r_min (s.connAt cn).stack : Nat) ∧ (t.connAt cn).t = (s.connAt cn).r)

/-- Brodit handshakes, rekeying, congestion control and the ends of connections: each event, when it is due, has its
effect. Rests on 18_fabric_transport.md. -/
def Obligations.BroditConnectionEventsComplete : Prop :=
  -- initPkt
  (∀ (st : StackIx) (s : State) (n i ver : Nat) (x : RxItem), RxNext s st 2 n x → s.keyOk x.flask x.ep x.fr = true →
    x.fr.encrypt = (s.jobAt x.flask).encrypt → x.fr.keyMode = b2n (s.jobAt x.flask).jobMode → s.version x.fr = some ver →
    s.connOf st x.flask x.ep = none → s.freeConn = some i → ∃ t, exec (.initPkt st) s = .next t ∧
      (t.fabAt st).rx = (s.fabAt st).rx.eraseIdx n ∧ (t.connAt i).phase = 2 ∧ (t.connAt i).ver = ver ∧ (t.connAt i).peer = x.fr.srcConn ∧
      (t.connAt i).ack = (x.fr.ipsn + 2 ^ 24 - 1) % 2 ^ 24) ∧
  -- initAckPkt
  (∀ (st : StackIx) (s : State) (n i : Nat) (x : RxItem), RxNext s st 3 n x → x.conn = some i → (s.connAt i).phase = 1 →
    s.keyOk x.flask x.ep x.fr = true → ((s.jobAt x.flask).jobMode = true ∨ x.fr.reportOk = true) → ∃ t, exec (.initAckPkt st) s = .next t ∧
      (t.connAt i).phase = 3 ∧ (t.connAt i).ver = min 3 x.fr.verHi ∧ (t.connAt i).peer = x.fr.srcConn ∧ (t.connAt i).paths = x.fr.paths) ∧
  -- confirmPkt
  (∀ (st : StackIx) (s : State) (n i : Nat) (x : RxItem), RxNext s st 4 n x → x.conn = some i → (s.connAt i).phase = 2 →
    ((s.jobAt x.flask).jobMode = true ∨ x.fr.reportOk = true) → ∃ t, exec (.confirmPkt st) s = .next t ∧ (t.connAt i).phase = 3) ∧
  -- refusePkt
  (∀ (st : StackIx) (s : State) (n i : Nat) (x : RxItem), RxNext s st 5 n x → x.conn = some i → (s.connAt i).phase = 1 →
    ∃ t, exec (.refusePkt st) s = .next t ∧ t.connAt i = {}) ∧
  -- closePkt
  (∀ (st : StackIx) (s : State) (n i : Nat) (x : RxItem), RxNext s st 6 n x → x.conn = some i →
    ∃ t, exec (.closePkt st) s = .next t ∧ t.connAt i = {}) ∧
  -- rekeyPkt
  (∀ (st : StackIx) (s : State) (n i : Nat) (x : RxItem), RxNext s st 7 n x → x.conn = some i →
    ∃ t, exec (.rekeyPkt st) s = .next t ∧ t.connAt i = { s.connAt i with rxPhase := 1 - (s.connAt i).rxPhase, rxOld := true }) ∧
  -- oldPhaseKeyExpiry
  (∀ (cn : ConnIx) (s : State), (s.connAt cn).phase ≠ 0 → ∃ t, exec (.oldPhaseKeyExpiry cn) s = .next t ∧
      t.connAt cn = { s.connAt cn with rxOld := false }) ∧
  -- initResend
  (∀ (cn : ConnIx) (s : State), (s.connAt cn).phase = 1 → s.fabLive (s.connAt cn).stack = true → ∃ t, exec (.initResend cn) s = .next t ∧
      (t.connAt cn).inits = (s.connAt cn).inits + 1 ∧
      (t.connAt cn).paths = (s.connAt cn).paths.map (fun p => 20 * (s.connAt cn).stack + (p + 1) % 20)) ∧
  -- setupTimeout
  (∀ (cn : ConnIx) (s : State), ((s.connAt cn).phase = 1 ∨ (s.connAt cn).phase = 2) → s.fabLive (s.connAt cn).stack = true →
    ∃ t, exec (.setupTimeout cn) s = .next t ∧ t.connAt cn = {}) ∧
  -- fabConnLost
  (∀ (cn : ConnIx) (s : State), (s.connAt cn).phase ≠ 0 → (s.connAt cn).out ≠ [] → s.fabLive (s.connAt cn).stack = true →
    ∃ t, exec (.fabConnLost cn) s = .next t ∧ t.connAt cn = {} ∧ t.reg .FAB_STAT_conn_lost (s.connAt cn).stack =
      min (s.reg .FAB_STAT_conn_lost (s.connAt cn).stack + 1) (2 ^ 16 - 1)) ∧
  -- idleClose
  (∀ (cn : ConnIx) (s : State), (s.connAt cn).idle = true → s.fabLive (s.connAt cn).stack = true →
    ∃ t, exec (.idleClose cn) s = .next t ∧ t.connAt cn = {}) ∧
  -- drainWindowEnd
  (∀ (fl : FlaskIx) (ep : Fin 262144) (s : State), ep.val ∈ (s.jobAt fl).gone → ∃ t, exec (.drainWindowEnd fl ep) s = .next t ∧
      ∀ i ∈ s.connsWith fl ep, t.connAt i = {}) ∧
  -- congestionTick
  (∀ (cn : ConnIx) (s : State) (c : Conn) (g : Rat), (s.connAt cn).phase = 3 → s.fabLive (s.connAt cn).stack = true → c = s.connAt cn →
    g = 1 / (2 ^ s.reg .FAB_CC_g_shift c.stack : Nat) → ∃ t, exec (.congestionTick cn) s = .next t ∧
      (t.connAt cn).alpha = (1 - g) * c.alpha ∧ (t.connAt cn).n = c.n + 1 ∧
      (t.connAt cn).t = (if 5 < c.n + 1 then min (c.t + (s.reg .FAB_CC_r_ai c.stack : Nat)) (s.rMax c) else c.t) ∧
      (t.connAt cn).r = (c.r + (t.connAt cn).t) / 2)

/-- Brodit operations started and completed, paced transmission, FAB_CFG and FAB_PERF writes: each event, when it is due,
has its effect. Rests on 18_fabric_transport.md. -/
def Obligations.BroditOperationsComplete : Prop :=
  -- putOp
  (∀ (c : ClusterIx) (ring : Fin 13) (s : State) (i : Nat) (x : Cmd) (rd : Rd), CommandReady s c ring 1 i x →
    rd = s.readResult (srcOf (ringIss s c ring)) true (some ((s.flaskOf c).getD 16)) x.loc x.len → rd.status = 0 →
    ∃ t, exec (.putOp c ring) s = .next t ∧
      CommandQueued s t c ring i x (packetsOf s.misc.opNext (s.mtu (c / 8) (s.connAt i).ver) x rd.data)) ∧
  -- getOp
  (∀ (c : ClusterIx) (ring : Fin 13) (s : State) (i : Nat) (x : Cmd), CommandReady s c ring 2 i x →
    s.writeStatus (srcOf (ringIss s c ring)) true (some ((s.flaskOf c).getD 16)) x.loc x.len = 0 →
    ∃ t, exec (.getOp c ring) s = .next t ∧
      CommandQueued s t c ring i x (packetsOf s.misc.opNext (s.mtu (c / 8) (s.connAt i).ver) x [])) ∧
  -- addOp
  (∀ (c : ClusterIx) (ring : Fin 13) (s : State) (i : Nat) (x : Cmd), CommandReady s c ring 3 i x →
    ∃ t, exec (.addOp c ring) s = .next t ∧
      CommandQueued s t c ring i x (packetsOf s.misc.opNext (s.mtu (c / 8) (s.connAt i).ver) x [])) ∧
  -- sendOp
  (∀ (c : ClusterIx) (ring : Fin 13) (s : State) (i : Nat) (x : Cmd) (rd : Rd), CommandReady s c ring 4 i x →
    ¬((s.connAt i).phase = 3 ∧ (s.connAt i).ver = 1) →
    rd = s.readResult (srcOf (ringIss s c ring)) true (some ((s.flaskOf c).getD 16)) x.loc x.len → rd.status = 0 →
    ∃ t, exec (.sendOp c ring) s = .next t ∧
      CommandQueued s t c ring i x (packetsOf s.misc.opNext (s.mtu (c / 8) (s.connAt i).ver) x rd.data)) ∧
  -- operationComplete
  (∀ (c : ClusterIx) (ring : Fin 13) (s : State) (id a : Nat) (o : FabOp),
    s.fabOp.find? (fun p => p.2.left == 0 && p.2.ring.any (fun r => r.1 == c.val && r.2.1 == ring.val)) = some (id, o) →
    a = s.cmdAddr c ring (o.ring.elim 0 (·.2.2)) → s.clusterHeld c = false → ∃ t, exec (.operationComplete c ring) s = .next t ∧
      t.opAt id = {} ∧
      t.rawBytes a 8 = leBytes (s.rawWord a % 2 ^ 63 / 2 ^ 48 * 2 ^ 48 + o.status * 2 ^ 32 + s.rawWord a % 2 ^ 32) 8) ∧
  -- fabCfgEnWrite
  (∀ (st : StackIx) (en : Bool) (s : State), s.stackHeld st = false → ∃ t, exec (.fabCfgEnWrite st en) s = .next t ∧
      t.reg .FAB_CFG_en st = b2n en ∧
      (en = false → ∀ x ∈ s.conn, x.2.phase ≠ 0 → x.2.stack = st → t.connAt x.1 = {})) ∧
  -- fabPerfClear
  (∀ (st : StackIx) (s : State), s.stackHeld st = false → ∃ t, exec (.fabPerfClear st) s = .next t ∧ t.reg .FAB_STRANGER_count st = 0 ∧
      t.reg .FAB_AUTHFAIL_count st = 0 ∧ t.reg .FAB_RETX_count st = 0 ∧ t.reg .FAB_CE_count st = 0) ∧
  -- pacedTransmission
  (∀ (st : StackIx) (s u : State) (i : Nat) (p : Pkt) (rest : List Pkt), s.fabLive st = true → u = run (takeHwAdds st) s →
    (((u.conn.filter (fun p => p.2.stack == st.val && u.canSend p.2)).map (·.1)).find? (fun i => decide ((u.fabAt st).turn ≤ i))).orElse
      (fun _ => ((u.conn.filter (fun p => p.2.stack == st.val && u.canSend p.2)).map (·.1)).head?) = some i →
    (u.flag .REG_FAB_en (st * 16 + (u.connAt i).flask) = false ∨
      1 ≤ Store.get 0 u.bucket (32 + 2 * (st * 16 + (u.connAt i).flask) + 1)) → (u.connAt i).queue = p :: rest →
    ∃ t path, exec (.pacedTransmission st) s = .next t ∧ (t.connAt i).queue = rest ∧
      (t.connAt i).out = (u.connAt i).out ++ [{ p with psn := (u.connAt i).psn, path := path }] ∧
      (t.connAt i).psn = ((u.connAt i).psn + 1) % 2 ^ 24 ∧ (t.fabAt st).turn = i + 1)

/-- Firmware supervision, the log, trace points and the background activities: each event, when it is due, has its effect.
Rests on 19_firmware.md. -/
def Obligations.FirmwareAndLogEventsComplete : Prop :=
  -- fwHangBoard
  (∀ (u : Fin 99) (s : State), s.coreUp u = true → 1 ≤ u.val → u.val < 3 → u.val ∉ s.fw.restarted → ∃ t, exec (.fwHang u) s = .next t ∧
      t.fw.restarting = s.fw.restarting ++ [u.val] ∧ 0x54 ∈ (t.gathAt 96).pend) ∧
  -- fwHangCluster
  (∀ (u : Fin 99) (s : State), s.coreUp u = true → 3 ≤ u.val → u.val ∉ s.fw.restarted → ∃ t, exec (.fwHang u) s = .next t ∧
      t.fw.restarting = s.fw.restarting ++ [u.val] ∧ (t.clusterAt (u - 3)).causes = (s.clusterAt (u - 3)).causes ||| 1) ∧
  -- fwHangSec
  (∀ (s : State), s.coreUp 0 = true → s.misc.phase = 0x20 → ∃ t, exec (.fwHang 0) s = .next t ∧ t.misc.phase = 0x11) ∧
  -- firmwareRestartDone
  (∀ (u : Fin 99) (s : State), u.val ∈ s.fw.restarting → ∃ t, exec (.firmwareRestartDone u) s = .next t ∧ u.val ∉ t.fw.restarting ∧
      (3 ≤ u.val → (s.clusterAt (u - 3)).causes = 1 → (t.clusterAt (u - 3)).causes = 0)) ∧
  -- logAppend
  (∀ (s : State) (w : List Nat) (rest : List LogItem) (base n : Nat), s.fifo = { err := false, words := [w] } :: rest → w.length = 8 →
    base = s.misc.logBase → n = s.rawWord (base + 8) → s.ringUp base = true → ∃ t, exec .logAppend s = .next t ∧ t.fifo = rest ∧
      t.rawWord (base + 8) = (n + 1) % 2 ^ 64 ∧
      t.rawBytes (base + 64 * (1 + n % s.misc.logCap)) 64 = wordsBytes (n % 2 ^ 64 :: w.drop 1)) ∧
  -- logAppendError
  (∀ (s : State) (ws : List (List Nat)) (rest : List LogItem), s.fifo = { err := true, words := ws } :: rest →
    s.ringUp s.misc.logBase = true → ∃ t, exec .logAppend s = .next t ∧ t.fifo = rest) ∧
  -- tracePoint
  (∀ (u : Fin 99) (point : Fin 4096) (payload : List Word) (s : State), s.coreUp u = true → (tracer u point).isSome = true →
    bit s.fw.trace point = true → (∀ x ∈ s.fw.traced, x.1 = u.val → x.2 < 64) → s.fifo.length < 1024 →
    ∃ t x, exec (.tracePoint u point payload) s = .next t ∧ t.fifo = s.fifo ++ [x] ∧ x.err = false) ∧
  -- bgLate
  (∀ (u : Fin 99) (act : Fin 5) (s : State), s.coreUp u = true → runsActivity u act = true → s.fifo.length < 1024 →
    ∃ t x, exec (.bgLate u act) s = .next t ∧ t.fifo = s.fifo ++ [x] ∧ x.err = false) ∧
  -- telemetry
  (∀ (st : StackIx) (s : State), s.pmcLive = true → s.stackHeld st = false → s.fifo.length < 1024 →
    ∃ t x, exec (.telemetry st) s = .next t ∧ t.fifo = s.fifo ++ [x] ∧ x.err = false) ∧
  -- tsPair
  (∀ (st : StackIx) (s : State), s.pmcLive = true → s.stackHeld st = false → s.fifo.length < 1024 →
    ∃ t x, exec (.tsPair st) s = .next t ∧ t.fifo = s.fifo ++ [x] ∧ x.err = false) ∧
  -- dramRecalibrationStep
  (∀ (sl : SliceIx) (ch : Fin 8) (s : State), s.cccLive (sl / 12) = true → ∃ t, exec (.dramRecalibrationStep sl ch) s = .next t ∧
      (t.sliceAt sl).recal = (if setBit (s.sliceAt sl).recal ch true = 255 then 0 else setBit (s.sliceAt sl).recal ch true)) ∧
  -- storedSettingsWrite
  (∀ (s : State), s.misc.phase = 0x20 → ∃ t, exec .storedSettingsWrite s = .next t ∧ ∀ st < 12, s.stackHeld st = false →
      (t.thAt st).setBoot = s.sec.boot + 1 ∧ (t.thAt st).setTemp = signed 16 (s.reg .TH_RES_temp st)) ∧
  -- flashWearLevelling
  (∀ (block : Nat) (fails : Bool) (s : State), s.coreUp 0 = true → block ∉ s.fw.badBlocks →
    ∃ t, exec (.flashWearLevelling block fails) s = .next t ∧
      t.fw.erases.head? = some (block, ((s.fw.erases.find? (fun e => e.1 == block)).map (·.2)).getD 0 + 1) ∧
      (fails = true → block ∈ t.fw.badBlocks) ∧ (fails = false → t.fw.badBlocks = s.fw.badBlocks))

/-- The event gatherers, error reports and assays: each event, when it is due, has its effect. Rests on
22_event_gatherer.md, 24_errors_and_recovery.md. -/
def Obligations.ErrorAndGathererEventsComplete : Prop :=
  -- egDoorbell
  (∀ (g : GathIx) (src : BitVec 10) (s : State), s.gathUp g = true → hostOfSource g src.toNat = none →
    (if g.val = 96 then moduleSource src.toNat else localSource src.toNat) = true →
    ∃ t, exec (.egDoorbell g src) s = .next t ∧ src.toNat ∈ (t.gathAt g).pend) ∧
  -- egDoorbellBad
  (∀ (g : GathIx) (src : BitVec 10) (s : State), s.gathUp g = true → hostOfSource g src.toNat = none →
    (if g.val = 96 then moduleSource src.toNat else localSource src.toNat) = false →
    ∃ t, exec (.egDoorbell g src) s = .next t ∧ t.reg .EG_STAT_bad_src g = 1 ∧ t.gath = s.gath) ∧
  -- egClaim
  (∀ (g : GathIx) (tg : Fin 3) (s : State) (n : Nat), s.gathUp g = true → targetExists g tg = true →
    s.topSource g (s.eligible g tg) = some n → ∃ t, exec (.egClaim g tg) s = .next t ∧
      t.rsp = leBytes (2 ^ 31 + s.srcPrio g n * 2 ^ 16 + n) 4 ∧ n ∉ (t.gathAt g).pend ∧ n ∈ (t.gathAt g).act) ∧
  -- egClaimNone
  (∀ (g : GathIx) (tg : Fin 3) (s : State), s.gathUp g = true → targetExists g tg = true → s.topSource g (s.eligible g tg) = none →
    ∃ t, exec (.egClaim g tg) s = .next t ∧ t.rsp = leBytes 0 4 ∧ t.gath = s.gath) ∧
  -- egComplete
  (∀ (g : GathIx) (tg : Fin 3) (src : BitVec 10) (s : State), s.gathUp g = true → targetExists g tg = true →
    s.flag .EG_TGT_mode (g * 4 + tg) = false → src.toNat ∈ (s.gathAt g).act → src.toNat ∉ (s.gathAt g).pend →
    ∃ t, exec (.egComplete g tg src) s = .next t ∧ src.toNat ∉ (t.gathAt g).act) ∧
  -- egCompleteBad
  (∀ (g : GathIx) (tg : Fin 3) (src : BitVec 10) (s : State), s.gathUp g = true → targetExists g tg = true →
    s.flag .EG_TGT_mode (g * 4 + tg) = false → src.toNat ∉ (s.gathAt g).act →
    ∃ t, exec (.egComplete g tg src) s = .next t ∧ t.reg .EG_STAT_bad_complete g = 1 ∧ t.gath = s.gath) ∧
  -- egCompletePoll
  (∀ (g : GathIx) (tg : Fin 3) (src : BitVec 10) (s : State), s.gathUp g = true → targetExists g tg = true →
    s.flag .EG_TGT_mode (g * 4 + tg) = true → ∃ t, exec (.egComplete g tg src) s = .next t ∧
      t.gathAt g = { pend := (s.gathAt g).pend.filter (· != src.toNat), act := (s.gathAt g).act.filter (· != src.toNat) }) ∧
  -- egHcomplete
  (∀ (f : FnIx) (kind : Fin 32) (s : State), s.misc.linkUp = true → s.fnOn f = true → hostKind f kind = true →
    hostSource f kind ∉ (s.gathAt 96).pend → ∃ t, exec (.egHcomplete f kind) s = .next t ∧ hostSource f kind ∉ (t.gathAt 96).act) ∧
  -- assayVerdictTransient
  (∀ (a : Fin 96) (lanes : Nat) (s : State) (r : Report), s.cccLive a = true → (s.assayerAt a).run = some r → (s.assayerAt a).second = false →
    (∀ q ∈ (s.assayerAt a).queue, ({ cls := q.cls, id := q.id } : UnitId) ∉ s.lasting) →
    ∃ t, exec (.assayVerdict (a.castLE (by decide)) false [] lanes) s = .next t ∧ t.lasting = s.lasting ∧
      t.assayerAt a = { run := (s.assayerAt a).queue.head?, queue := (s.assayerAt a).queue.drop 1 }) ∧
  -- assayVerdictLasting
  (∀ (a : Fin 96) (rows : List Nat) (lanes : Nat) (s : State) (r : Report), s.cccLive a = true → (s.assayerAt a).run = some r →
    assayOf r.kind r.cls = 1 → ∃ t, exec (.assayVerdict (a.castLE (by decide)) true rows lanes) s = .next t ∧
      ({ cls := 0, id := r.id } : UnitId) ∈ t.lasting ∧ ({ cls := 0, id := r.id } : UnitId) ∈ t.excl) ∧
  -- errorReport
  (∀ (kind : Nat) (u : UnitId) (addr : Nat) (syn : Word) (fl : Nat) (s : State), s.misc.phase ≠ 0 → unitExists u = true →
    kindOf kind u.cls = true → (memKind kind && s.granted (addr % 2 ^ 64)) = false → assayOf kind u.cls = 0 → s.fifo.length < 1024 →
    ∃ t x, exec (.errorReport kind u addr syn fl) s = .next t ∧ t.fifo = s.fifo ++ [x] ∧ x.err = true) ∧
  -- errorReportAssay
  (∀ (kind : Nat) (u : UnitId) (addr : Nat) (syn : Word) (fl : Nat) (s : State), s.misc.phase ≠ 0 → unitExists u = true →
    kindOf kind u.cls = true → (memKind kind && s.granted (addr % 2 ^ 64)) = false → assayOf kind u.cls ≠ 0 → u ∉ s.lasting →
    (s.assayerAt (assayerOf u.cls u.id)).run = none → ∃ t r, exec (.errorReport kind u addr syn fl) s = .next t ∧
      (t.assayerAt (assayerOf u.cls u.id)).run = some r ∧ r.kind = kind ∧ r.cls = u.cls ∧ r.id = u.id ∧ r.syn = syn.toNat)

/-- Conversions, trips, the tray, the coolant alarm and the power loops: each event, when it is due, has its effect. Rests
on 25_thermal_and_cooling.md. -/
def Obligations.ThermalEventsComplete : Prop :=
  -- thConvReq
  (∀ (h : ThIx) (s : State), s.misc.phase ≠ 0 → s.flag .TH_CONV_busy h = false → ∃ t, exec (.thConvReq h) s = .next t ∧
      t.reg .TH_CONV_busy h = 1 ∧ t.reg .TH_WDOG_armed h = 1) ∧
  -- diodeDone
  (∀ (h : ThIx) (temp : Int) (watts : Nat) (s : State), s.flag .TH_CONV_busy h = true →
    signed 16 (s16 temp) < signed 16 (s.reg .TH_LIM_hw_trip h) → ∃ t, exec (.diodeDone h true temp watts) s = .next t ∧
      t.reg .TH_CONV_busy h = 0 ∧ t.reg .TH_RES_seq h = (s.reg .TH_RES_seq h + 1) % 2 ^ 16 ∧ t.reg .TH_RES_valid h = 1 ∧
      t.reg .TH_RES_temp h = s16 temp ∧ t.reg .TH_PWR_power_w h = watts % 2 ^ 16 ∧ t.reg .TH_WDOG_elapsed h = 0) ∧
  -- diodeDoneTrips
  (∀ (st : StackIx) (temp : Int) (watts : Nat) (s : State), s.flag .TH_CONV_busy st = true →
    signed 16 (s.reg .TH_LIM_hw_trip st) ≤ signed 16 (s16 temp) → s.flag .TH_STAT_tripped st = false → (s.stackAt st).causes &&& 8 = 0 →
    ∃ t, exec (.diodeDone (st.castLE (by decide)) true temp watts) s = .next t ∧ t.reg .TH_STAT_tripped st = 1 ∧
      t.reg .TH_STAT_cause st = 1 ∧ (t.stackAt st).causes = (s.stackAt st).causes ||| 8) ∧
  -- conversionWatchdog
  (∀ (st : StackIx) (s : State), s.flag .TH_WDOG_armed st = true → s.flag .TH_CONV_busy st = false → s.flag .TH_STAT_tripped st = false →
    (s.stackAt st).causes &&& 8 = 0 → ∃ t, exec (.conversionWatchdog (st.castLE (by decide))) s = .next t ∧
      t.reg .TH_STAT_tripped st = 1 ∧ t.reg .TH_STAT_cause st = 2 ∧ t.reg .TH_WDOG_elapsed st = 500) ∧
  -- conversionWatchdogBusy
  (∀ (h : ThIx) (s : State), s.flag .TH_WDOG_armed h = true → s.flag .TH_CONV_busy h = true →
    ∃ t, exec (.conversionWatchdog h) s = .next t ∧ t.reg .TH_WDOG_elapsed h = 500 ∧ t.stack = s.stack ∧ t.misc = s.misc) ∧
  -- stackTrip
  (∀ (st : StackIx) (cause : Fin 16) (s : State), s.misc.powerGood = true → 1 ≤ cause.val → cause.val ≤ 4 →
    s.flag .TH_STAT_tripped st = false → (s.stackAt st).causes &&& 8 = 0 → ∃ t, exec (.stackTrip st cause) s = .next t ∧
      t.reg .TH_STAT_tripped st = 1 ∧ t.reg .TH_STAT_cause st = cause.val ∧ (t.stackAt st).causes = (s.stackAt st).causes ||| 8 ∧
      (t.thAt st).due = true ∧ t.misc.alarmPin = true) ∧
  -- shutdownRecord
  (∀ (h : ThIx) (s : State), s.pmcLive = true → (s.thAt h).due = true → ∃ t x, exec (.shutdownRecord h) s = .next t ∧
      (t.thAt h).due = false ∧ t.therm.records = s.therm.records + 1 ∧ t.shut.getLast? = some x ∧ x.unit = h ∧
      x.seq = s.therm.records + 1 ∧ x.acked = false) ∧
  -- thCtlTrip
  (∀ (st : StackIx) (s : State), s.pmcLive = true → s.flag .TH_STAT_tripped st = false → (s.stackAt st).causes &&& 8 = 0 →
    ∃ t, exec (.thCtlTrip st) s = .next t ∧ t.reg .TH_STAT_tripped st = 1 ∧
      t.reg .TH_STAT_cause st = (if s.reg .TH_STAT_cause_wr st = 4 then 4 else 3)) ∧
  -- thCtlRelease
  (∀ (st : StackIx) (s : State), s.pmcLive = true → s.unacked st = none → (s.thAt st).due = false → s.flag .TH_STAT_tripped st = true →
    ∃ t, exec (.thCtlRelease st) s = .next t ∧ t.reg .TH_STAT_tripped st = 0 ∧ t.reg .TH_STAT_cause st = 0 ∧
      (t.stackAt st).causes = (s.stackAt st).causes - ((s.stackAt st).causes &&& 8)) ∧
  -- iodTrip
  (∀ (cause : Fin 16) (s : State), s.misc.powerGood = true → s.misc.iodOff = false → 1 ≤ cause.val → cause.val ≤ 4 →
    ∃ t, exec (.iodTrip cause) s = .next t ∧ t.misc.iodOff = true ∧ t.misc.alarmPin = true ∧ t.misc.phase = 0 ∧
      t.therm.iodCause = cause.val) ∧
  -- trayRead
  (∀ (y : Tray) (s : State), s.pmcLive = true → s.misc.trayRole = false → ∃ t, exec (.trayRead (some y)) s = .next t ∧
      t.therm.tray = some y ∧ t.therm.fails = 0 ∧ t.therm.lost = false ∧
      t.out = s.out ++ [.tray 0x20 (run (setTherm fun x => { x with tray := some y, fails := 0, lost := false }) s).flowFor]) ∧
  -- trayReadFails
  (∀ (s : State), s.pmcLive = true → ∃ t, exec (.trayRead none) s = .next t ∧ t.therm.fails = s.therm.fails + 1 ∧
      t.therm.tray = s.therm.tray ∧ t.therm.lost = (s.therm.lost || decide (2 ≤ s.therm.fails))) ∧
  -- trayIbi
  (∀ (s : State), s.misc.phase ≠ 0 → ∃ t, exec .trayIbi s = .next t ∧ 0x53 ∈ (t.gathAt 96).pend) ∧
  -- coolantAlarm
  (∀ (s : State), s.pmcLive = true → s.coolantBad = true → s.therm.alarm = false → ∃ t, exec .coolantAlarm s = .next t ∧
      t.therm.alarm = true ∧ t.misc.alarmPin = true ∧ ∀ st < 12, (t.thAt st).warming = false) ∧
  -- coolantAlarmClear
  (∀ (s : State), s.pmcLive = true → s.coolantBad = false → s.therm.alarm = true → ∃ t, exec .coolantAlarmClear s = .next t ∧
      t.therm.alarm = false) ∧
  -- powerInterval
  (∀ (input iod : Nat) (perStack : List Nat) (s : State), s.pmcLive = true → ∃ t, exec (.powerInterval input iod perStack) s = .next t ∧
      t.therm.input = input ∧ t.reg .TH_PWR_power_w 12 = iod % 2 ^ 16 ∧
      ∀ st < 12, t.reg .TH_PWR_power_w st = perStack.getD st 0 % 2 ^ 16) ∧
  -- fastThrottle
  (∀ (amps : Nat) (perStack : List Nat) (s : State), ∃ t, exec (.fastThrottle amps perStack) s = .next t ∧
      ∀ st < 12, (s.flag .TH_CTL_fast_en st = true ∧ (110 < amps ∨ s.reg .TH_FAST_limit_w st < perStack.getD st 0) →
          t.reg .TH_STAT_fast st = 1) ∧
        (¬(s.flag .TH_CTL_fast_en st = true ∧ (110 < amps ∨ s.reg .TH_FAST_limit_w st < perStack.getD st 0)) →
          t.reg .TH_STAT_fast st = s.reg .TH_STAT_fast st)) ∧
  -- fastThrottleEnd
  (∀ (st : StackIx) (s : State), ∃ t, exec (.fastThrottleEnd st) s = .next t ∧ t.reg .TH_STAT_fast st = 0)

/-- Bring-up, warm re-entry, the supply, the reset input, the sideband and the test port: each event, when it is due, has
its effect. Rests on 23_bring_up.md, 27_module_interface.md. -/
def Obligations.BringUpAndModuleEventsComplete : Prop :=
  -- coldBoot
  (∀ (s : State), s.misc.powerGood = true → s.misc.iodOff = false → ∃ t, exec .coldBoot s = .next t ∧ t.misc.phase = 1 ∧
      t.sec.boot = (s.sec.boot + 1) % 2 ^ 32) ∧
  -- coldPhaseOne
  (∀ (r : PhaseIn) (s : State), s.misc.phase = 1 → ∃ t, exec (.coldPhaseEnd r) s = .next t ∧ t.misc.phase = 2 ∧
      ∀ st < 12, t.reg .CRS_STAT_fab_lock st = 1 ∧ t.reg .CRS_STAT_mem_lock st = 1 ∧ t.reg .CRS_STAT_region_lock st = 3) ∧
  -- coldPhaseTwo
  (∀ (r : PhaseIn) (s : State), s.misc.phase = 2 → (s.imgBank s.fw.preferred).trial = false →
    s.bankOk s.fw.preferred (if s.fw.preferred = 0 then r.bankA else r.bankB) = true →
    ∃ t, exec (.coldPhaseEnd r) s = .next t ∧ t.misc.phase = 3 ∧ t.fw.running = s.fw.preferred) ∧
  -- coldPhaseNoImage
  (∀ (r : PhaseIn) (s : State), s.misc.phase = 2 → (s.imgBank s.fw.preferred).trial = false → s.bootChoice r.bankA r.bankB = none →
    ∃ t, exec (.coldPhaseEnd r) s = .next t ∧ t.misc.phase = 0x30) ∧
  -- coldPhases
  (∀ (r : PhaseIn) (s : State), 3 ≤ s.misc.phase → s.misc.phase ≤ 6 → ∃ t, exec (.coldPhaseEnd r) s = .next t ∧
      t.misc.phase = (if s.misc.phase = 6 ∧ s.anyPort = false then 0x20 else s.misc.phase + 1)) ∧
  -- coldPhaseSeven
  (∀ (r : PhaseIn) (s : State), s.misc.phase = 7 → s.portsDone = true → ∃ t, exec (.coldPhaseEnd r) s = .next t ∧
      t.misc.phase = 0x20 ∧ t.fw.warmFails = 0) ∧
  -- fabricPhaseTimeout
  (∀ (s : State), s.misc.phase = 7 → ∃ t, exec .fabricPhaseTimeout s = .next t ∧ t.misc.phase = 0x20 ∧ t.fw.warmFails = 0) ∧
  -- warmReentry
  (∀ (s : State), s.misc.phase = 0x20 ∨ s.misc.phase = 7 → ∃ t, exec .warmReentry s = .next t ∧ t.misc.phase = 0x11 ∧
      t.fw.restarting = [] ∧ t.fw.trace = 0 ∧ ∀ st < 12, (t.stackAt st).causes = (s.stackAt st).causes ||| 16) ∧
  -- warmReentryEarly
  (∀ (s : State), 1 ≤ s.misc.phase → s.misc.phase ≤ 6 → ∃ t, exec .warmReentry s = .next t ∧ t.misc.phase = 2) ∧
  -- warmStepEnd
  (∀ (r : PhaseIn) (s : State), (s.misc.phase = 0x11 ∨ (0x13 ≤ s.misc.phase ∧ s.misc.phase ≤ 0x16)) →
    ∃ t, exec (.warmStepEnd r) s = .next t ∧ t.misc.phase = s.misc.phase + 1) ∧
  -- warmStepLast
  (∀ (r : PhaseIn) (s : State), s.misc.phase = 0x17 → ∃ t, exec (.warmStepEnd r) s = .next t ∧ t.misc.phase = 0x20 ∧ t.fw.warmFails = 0) ∧
  -- resetN
  (∀ (us : Nat) (s : State), s.misc.powerGood = true → 10 ≤ us → ∃ t, exec (.resetN us) s = .next t ∧ t.misc.phase = 1 ∧
      t.misc.iodOff = false ∧ t.sec.boot = (s.sec.boot + 1) % 2 ^ 32) ∧
  -- powerUp
  (∀ (mv : Nat) (s : State), s.misc.powerGood = false → 43000 ≤ mv → mv < 58000 → (s.misc.overVolt = true → mv ≤ 56500) →
    ∃ t, exec (.powerUp mv) s = .next t ∧ t.misc.powerGood = true ∧ t.misc.phase = 1 ∧ t.sec.boot = (s.sec.boot + 1) % 2 ^ 32) ∧
  -- powerLoss
  (∀ (mv : Nat) (s : State), s.misc.powerGood = true → (mv ≤ 41000 ∨ 58000 ≤ mv) → ∃ t, exec (.powerLoss mv) s = .next t ∧
      t.misc.powerGood = false ∧ t.misc.phase = 0 ∧ t.misc.alarmPin = false ∧ ∀ sl < 1152, t.reg .ECC_INIT_regions sl = 0) ∧
  -- i3cRoleRequest
  (∀ (s : State), s.pmcLive = true → ∃ t, exec .i3cRoleRequest s = .next t ∧ t.misc = { s.misc with trayRole := true }) ∧
  -- configBlockWrite
  (∀ (block : List Byte) (s : State), s.misc.trayRole = true → block.length = 4096 → ∃ t, exec (.configBlockWrite block) s = .next t ∧
      t.cfgSlots = s.cfgSlots.set (1 - s.misc.cfgSlot) block ∧ t.cfg = s.cfg) ∧
  -- debugToken
  (∀ (token : List Byte) (s : State), s.coreUp 0 = true → ∃ t, exec (.debugToken token) s = .next t ∧
      t.sec = (if s.tokenOk token then { s.sec with debug := true, scope := field token 20 4 } else s.sec)) ∧
  -- controllerRoleReturn
  (∀ (s : State), s.misc.trayRole = true → ∃ t, exec .controllerRoleReturn s = .next t ∧ t.misc = { s.misc with trayRole := false })

/-- Each of these commands answers a next state and changes only the parts of the state and the register fields listed for
it (mailbox requests). Rests on 20_mailbox_protocol.md, 21_contexts_and_flasks.md, 10_kv_cache_pages.md,
12_cache_pressure.md. -/
def Obligations.RequestFrames : Prop :=
  (∀ f s, ∃ t, exec (.hello f) s = .next t ∧ OnlyChanges answerParts answerRegs s t) ∧
  (∀ f s, ∃ t, exec (.getInfo f) s = .next t ∧ OnlyChanges (answerParts.append [.tick]) answerRegs s t) ∧
  (∀ f s, ∃ t, exec (.attest f) s = .next t ∧ OnlyChanges (answerParts.append [.sec]) answerRegs s t) ∧
  (∀ f s, ∃ t, exec (.licenceInstall f) s = .next t ∧ OnlyChanges (answerParts.append [.misc, .sec]) answerRegs s t) ∧
  (∀ f s, ∃ t, exec (.legacyGrade f) s = .next t ∧ OnlyChanges (answerParts.append [.misc, .cfg, .cfgSlots])
    (answerRegs.append [.CRS_CLK_core1_mhz, .CRS_CLK_core0_mhz, .CRS_STAT_slewing]) s t) ∧
  (∀ f s, ∃ t, exec (.flaskConfigSet f) s = .next t ∧ OnlyChanges answerParts answerRegs s t) ∧
  (∀ f s, ∃ t, exec (.flaskConfigRemove f) s = .next t ∧ OnlyChanges answerParts answerRegs s t) ∧
  (∀ f s, ∃ t, exec (.flaskReset f) s = .next t ∧ OnlyChanges (answerParts.append (reportParts.append [.regs, .shad,
    .mem, .marks, .wb, .cache, .openRow, .slice, .cluster, .hwAdds, .ladle, .core, .queue, .acc, .ag, .path, .page,
    .pte, .seq, .wq, .ctx, .image, .hmem, .account, .attend])) [] s t) ∧
  (∀ f s, ∃ t, exec (.flaskReg f) s = .next t ∧ OnlyChanges (answerParts.append [.bucket, .flaskSt])
    (answerRegs.append [.REG_FAR_rate, .REG_FAR_burst, .REG_FAR_en, .REG_HOST_rate, .REG_HOST_burst, .REG_HOST_en,
    .REG_D2D_rate, .REG_D2D_burst, .REG_D2D_en, .REG_FAB_rate, .REG_FAB_burst, .REG_FAB_en]) s t) ∧
  (∀ f s, ∃ t, exec (.ctxCreate f) s = .next t ∧ OnlyChanges (answerParts.append [.ctx, .image]) answerRegs s t) ∧
  (∀ f s, ∃ t, exec (.ctxDestroy f) s = .next t ∧ OnlyChanges (answerParts.append [.mem, .marks, .wb, .core, .queue,
    .ag, .wq, .ctx, .hmem]) (answerRegs.append [.SEQ_STATUS_sub, .SEQ_STATUS_cause, .SEQ_STATUS_state,
    .SEQ_ERR_addr, .Q_WDOG_idle]) s t) ∧
  (∀ f s, ∃ t, exec (.queueCreate f) s = .next t ∧ OnlyChanges (answerParts.append [.wq]) answerRegs s t) ∧
  (∀ f s, ∃ t, exec (.queueDestroy f) s = .next t ∧ OnlyChanges (answerParts.append [.wq, .hmem]) answerRegs s t) ∧
  (∀ f s, ∃ t, exec (.memInit f) s = .next t ∧ OnlyChanges (answerParts.append [.mem, .marks, .wb, .cache, .slice])
    (answerRegs.append [.ECC_INIT_regions]) s t) ∧
  (∀ f s, ∃ t, exec (.pageRetire f) s = .next t ∧ OnlyChanges (answerParts.append [.mem, .marks, .wb, .slice, .page,
    .retirements]) (answerRegs.append [.ECC_RETIRE_valid, .ECC_RETIRE_bank, .ECC_RETIRE_frame]) s t) ∧
  (∀ f s, ∃ t, exec (.testGrant f) s = .next t ∧ OnlyChanges answerParts (answerRegs.append [.ECC_INIT_regions,
    .ECC_TWG_grant, .ECC_TWG_flask, .ECC_TWG_region]) s t) ∧
  (∀ f s, ∃ t, exec (.testRevoke f) s = .next t ∧ OnlyChanges (answerParts.append [.mem, .marks, .wb, .cache, .slice])
    (answerRegs.append [.ECC_INIT_regions, .ECC_TWG_grant]) s t) ∧
  (∀ f s, ∃ t, exec (.eccTestRead f) s = .next t ∧ OnlyChanges (answerParts.append [.tick, .mem, .marks, .wb, .cache])
    (answerRegs.append [.ECC_TW_ADDR_word, .ECC_TW_DATA_data, .ECC_TW_CHK_syndrome, .ECC_TW_CHK_verdict,
    .ECC_TW_CHK_check]) s t) ∧
  (∀ f s, ∃ t, exec (.eccTestWrite f) s = .next t ∧ OnlyChanges (answerParts.append [.tick, .mem, .marks, .wb,
    .cache]) (answerRegs.append [.ECC_TW_ADDR_word, .ECC_TW_DATA_data, .ECC_TW_CHK_syndrome, .ECC_TW_CHK_verdict,
    .ECC_TW_CHK_check]) s t) ∧
  (∀ f s, ∃ t, exec (.retireList f) s = .next t ∧ OnlyChanges (answerParts.append [.hmem]) answerRegs s t) ∧
  (∀ f s, ∃ t, exec (.ladleSubmit f) s = .next t ∧ OnlyChanges (answerParts.append [.mem, .marks, .wb, .ladle])
    (answerRegs.append [.LDL_STAT_busy_err, .LDL_STAT_running, .LDL_STAT_active, .LDL_STAT_queued, .LDL_CH_head,
    .LDL_CH_state]) s t) ∧
  (∀ f s, ∃ t, exec (.kvConfig f) s = .next t ∧ OnlyChanges (answerParts.append [.tick, .mem, .marks, .wb, .slice,
    .core, .page, .kv, .account]) (answerRegs.append [.KV_FL_CTL_low, .KV_FL_STAT_dup_push]) s t) ∧
  (∀ f s, ∃ t, exec (.kvQuery f) s = .next t ∧ OnlyChanges (answerParts.append [.tick]) answerRegs s t) ∧
  (∀ f s, ∃ t, exec (.seqCreate f) s = .next t ∧ OnlyChanges (answerParts.append [.tick, .mem, .marks, .wb, .seq,
    .slag, .account]) answerRegs s t) ∧
  (∀ f s, ∃ t, exec (.seqFork f) s = .next t ∧ OnlyChanges (answerParts.append (reportParts.append [.mem, .marks, .wb,
    .cache, .slice, .page, .pte, .seq, .slag, .slot, .hmem, .account])) (answerRegs.append [.ECC_CNT_ce,
    .ECC_CNT_ue, .ECC_CNT_poison, .KV_FL_STAT_next_bank]) s t) ∧
  (∀ f s, ∃ t, exec (.seqFree f) s = .next t ∧ OnlyChanges (answerParts.append [.mem, .marks, .wb, .slice, .core,
    .page, .pte, .seq, .slag, .slot, .image, .account]) (answerRegs.append [.Q_WDOG_idle, .CT_value,
    .BSU_EPOCH_current]) s t) ∧
  (∀ f s, ∃ t, exec (.seqEvict f) s = .next t ∧ OnlyChanges (answerParts.append [.mem, .marks, .wb, .slice, .page,
    .pte, .seq, .slag, .slot, .account]) (answerRegs.append [.BSU_EPOCH_current]) s t) ∧
  (∀ f s, ∃ t, exec (.seqReady f) s = .next t ∧ OnlyChanges (answerParts.append [.mem, .marks, .wb, .pte, .seq, .slag,
    .account]) answerRegs s t) ∧
  (∀ f s, ∃ t, exec (.seqResume f) s = .next t ∧ OnlyChanges (answerParts.append [.mem, .marks, .wb, .seq, .account])
    answerRegs s t) ∧
  (∀ f s, ∃ t, exec (.portConfig f) s = .next t ∧ OnlyChanges (answerParts.append [.misc, .port, .sub, .cfg,
    .cfgSlots]) (answerRegs.append [.FP_CFG_rx_inv, .FP_CFG_tx_inv, .FP_CFG_an_en, .FP_CFG_en, .FP_CFG_mode,
    .FP_QUAL_uc_max, .FP_QUAL_win_full, .FP_QUAL_win_short, .FP_QUAL_deg_mant, .FP_QUAL_deg_exp,
    .FP_QUAL_qual_mant, .FP_QUAL_qual_exp, .SP_STAT_attempts, .SP_STAT_state]) s t) ∧
  (∀ f s, ∃ t, exec (.portStatus f) s = .next t ∧ OnlyChanges (answerParts.append [.tick]) (answerRegs.append
    [.FP_STAT_link_downs]) s t) ∧
  (∀ f s, ∃ t, exec (.endpointSet f) s = .next t ∧ OnlyChanges (answerParts.append [.misc, .cfg, .cfgSlots])
    answerRegs s t) ∧
  (∀ f s, ∃ t, exec (.jobJoin f) s = .next t ∧ OnlyChanges (answerParts.append [.job, .cring]) answerRegs s t) ∧
  (∀ f s, ∃ t, exec (.jobLeave f) s = .next t ∧ OnlyChanges (answerParts.append (reportParts.append [.members, .job,
    .conn, .fabOp])) (answerRegs.append [.FAB_STAT_conns]) s t) ∧
  (∀ f s, ∃ t, exec (.jobKey f) s = .next t ∧ OnlyChanges (answerParts.append [.job]) answerRegs s t) ∧
  (∀ f s, ∃ t, exec (.membershipCommit f) s = .next t ∧ OnlyChanges (answerParts.append (reportParts.append [.members,
    .job, .conn, .fabOp])) (answerRegs.append [.FAB_STAT_conns]) s t) ∧
  (∀ f s, ∃ t, exec (.thermAckTrip f) s = .next t ∧ OnlyChanges (answerParts.append [.misc, .stack, .th, .shut])
    (answerRegs.append [.CRS_CLK_core1_mhz, .CRS_CLK_core0_mhz, .CRS_STAT_slewing, .TH_STAT_cause,
    .TH_STAT_tripped]) s t) ∧
  (∀ f s, ∃ t, exec (.pwrLimit f) s = .next t ∧ OnlyChanges (answerParts.append [.misc, .cfg, .cfgSlots]) answerRegs s
    t) ∧
  (∀ f s, ∃ t, exec (.fwUpdate f) s = .next t ∧ OnlyChanges (answerParts.append [.tick, .misc, .fifo, .dropped, .fw])
    answerRegs s t) ∧
  (∀ f s, ∃ t, exec (.fwActivate f) s = .next t ∧ OnlyChanges (answerParts.append [.tick, .misc, .fifo, .dropped,
    .fw]) answerRegs s t) ∧
  (∀ f s, ∃ t, exec (.logConfig f) s = .next t ∧ OnlyChanges (answerParts.append [.misc, .mem, .marks, .wb, .cfg,
    .cfgSlots, .dropped]) answerRegs s t) ∧
  (∀ f s, ∃ t, exec (.logFetch f) s = .next t ∧ OnlyChanges (answerParts.append [.hmem]) answerRegs s t) ∧
  (∀ f s, ∃ t, exec (.traceSet f) s = .next t ∧ OnlyChanges (answerParts.append [.fw]) answerRegs s t) ∧
  (∀ f s, ∃ t, exec (.traceQuery f) s = .next t ∧ OnlyChanges (answerParts.append [.hmem]) answerRegs s t)

/-- Each of these commands answers a next state and changes only the parts of the state and the register fields listed for
it (host and scheduler events). Rests on 20_mailbox_protocol.md, 21_contexts_and_flasks.md, 15_io_die.md. -/
def Obligations.HostAndSchedulerFrames : Prop :=
  (∀ f buf s, ∃ t, exec (.mbDoorbellPost f buf) s = .next t ∧ OnlyChanges answerParts (answerRegs.append
    [.MB_STATE_tag, .MB_STATE_ring_busy, .MB_STATE_wr_busy]) s t) ∧
  (∀ f s, ∃ t, exec (.deferredCompletion f) s = .next t ∧ OnlyChanges (answerParts.append (reportParts.append [.regs,
    .shad, .mem, .marks, .wb, .cache, .openRow, .slice, .owner, .cluster, .ladle, .core, .queue, .acc, .ag, .path,
    .page, .pte, .seq, .slag, .slot, .kv, .wq, .ctx, .image, .flaskSt, .hmem, .account, .attend, .retirements])) []
    s t) ∧
  (∀ f slot tail s, ∃ t, exec (.wqDbTailWrite f slot tail) s = .next t ∧ OnlyChanges [.out, .wq, .ctx, .gath, .note,
    .held] [.EG_STAT_bad_src, .EG_HNOTE_wr_seq, .MSIX_pend] s t) ∧
  (∀ x s, ∃ t, exec (.workItemStart x) s = .next t ∧ OnlyChanges (reportParts.append [.out, .mem, .marks, .wb,
    .hwAdds, .bucket, .core, .wq, .ctx, .image, .hmem, .gath, .note, .held]) [.CHG_ARR_k_passes, .CHG_ARR_m_count,
    .CHG_ARR_k_active, .CHG_ARR_acc_seq, .CHG_ARR_acc_type, .CHG_ARR_sparse, .CHG_ARR_wgt_scale,
    .CHG_ARR_act_scale, .CHG_ARR_wgt_fmt, .CHG_ARR_act_fmt, .CHG_ARR_repeats, .CHG_ARR_sat, .CHG_ARR_out_fmt,
    .CHG_ARR_out_mode, .CHG_ARR_wgt_reuse, .CHG_ARR_acc_advance, .CHG_ARR_acc_base, .CHG_VEC_repeats,
    .CHG_VEC_n_ops, .CHG_VEC_in_b_en, .CHG_VEC_out_scale, .CHG_VEC_sat, .CHG_VEC_out_fmt, .CHG_VEC_in_fmt_b,
    .CHG_VEC_in_fmt_a, .CHG_VEC_k1, .CHG_VEC_k0, .CHG_VEC_slot0_3, .CHG_VEC_slot4_7, .CHG_BNK_count,
    .CHG_BNK_arg_en, .CHG_BNK_res_en, .CHG_BNK_fmt, .CHG_BNK_nq, .CHG_BNK_res_q, .CHG_BNK_arg_q, .CHG_BNK_addr_ag,
    .CHG_BNK_cmd, .CHG_BNK_imm, .CHG_SYNC_start_sub, .CHG_SYNC_end_inc, .CHG_SYNC_eng_ag, .CHG_SYNC_eng_bnk,
    .CHG_SYNC_eng_vec, .CHG_SYNC_eng_arr, .CHG_SYNC_remote_val, .CHG_SYNC_remote_en, .CHG_SYNC_remote_addr,
    .CHG_SYNC_cm_value, .CHG_SYNC_preset, .CHG_SYNC_cm_load, .CHG_SYNC_cm_rel, .CHG_SYNC_cm_ct, .CHG_SYNC_cm_idx,
    .SEQ_LIST_addr, .SEQ_STATUS_fx, .SEQ_STATUS_sub, .SEQ_STATUS_cause, .SEQ_STATUS_state, .SEQ_PC_addr,
    .CHG_AG_base, .CHG_AG_len, .CHG_AG_q, .CHG_AG_seg_lvl, .CHG_AG_hint, .CHG_AG_dir, .CHG_AG_count0,
    .CHG_AG_count1, .CHG_AG_count2, .CHG_AG_count3, .CHG_AG_stride0, .CHG_AG_stride1, .CHG_AG_stride2,
    .CHG_AG_stride3, .Q_WDOG_idle, .CT_value, .CM_value, .CM_rel, .CM_ct, .REG_IOB_host, .EG_STAT_bad_src,
    .EG_HNOTE_wr_seq, .CHG_QB_q0, .CHG_QB_q1, .CHG_QB_q2, .CHG_QB_q3, .CHG_QB_q4, .CHG_QB_q5, .CHG_QB_q6,
    .CHG_QB_q7, .CHG_QB_q8, .CHG_QB_q9, .CHG_QB_q10, .CHG_QB_q11, .CHG_QB_q12, .CHG_QB_q13, .CHG_QB_q14,
    .CHG_QB_q15, .CHG_QB_act, .CHG_QB_wgt, .CHG_QB_asc, .CHG_QB_wsc, .CHG_QB_meta, .CHG_QB_out, .CHG_QB_vin_a,
    .CHG_QB_vin_b, .CHG_QB_vout, .CHG_QB_vosc, .MSIX_pend] s t) ∧
  (∀ x s, ∃ t, exec (.workItemComplete x) s = .next t ∧ OnlyChanges (reportParts.append [.out, .mem, .marks, .wb,
    .slice, .hwAdds, .page, .seq, .wq, .ctx, .image, .hmem, .account, .gath, .note, .held]) [.Q_WDOG_idle,
    .CT_value, .BSU_EPOCH_current, .EG_STAT_bad_src, .EG_HNOTE_wr_seq, .MSIX_pend] s t) ∧
  (∀ x n why s, ∃ t, exec (.stoppingFault x n why) s = .next t ∧ OnlyChanges (reportParts.append [.out, .regs, .shad,
    .mem, .marks, .wb, .slice, .hwAdds, .core, .queue, .acc, .ag, .path, .page, .seq, .wq, .ctx, .image, .hmem,
    .account, .gath, .note, .held]) [] s t) ∧
  (∀ n s, ∃ t, exec (.stallLimit n) s = .next t ∧ OnlyChanges (reportParts.append [.core]) [.Q_WDOG_snap_valid] s t) ∧
  (∀ x s, ∃ t, exec (.preemption x) s = .next t ∧ OnlyChanges [.regs, .shad, .mem, .marks, .wb, .slice, .core, .queue,
    .acc, .ag, .path, .page, .seq, .ctx, .image, .account] [] s t) ∧
  (∀ x s, ∃ t, exec (.preemptionAbandon x) s = .next t ∧ OnlyChanges [.core, .ctx] [.SEQ_STATUS_fx, .SEQ_STATUS_sub,
    .SEQ_STATUS_cause, .SEQ_STATUS_state, .SEQ_PC_addr] s t) ∧
  (∀ x s, ∃ t, exec (.itemResume x) s = .next t ∧ OnlyChanges [.misc, .mem, .marks, .wb, .core, .ctx, .image]
    [.CHG_ARR_k_passes, .CHG_ARR_m_count, .CHG_ARR_k_active, .CHG_ARR_acc_seq, .CHG_ARR_acc_type, .CHG_ARR_sparse,
    .CHG_ARR_wgt_scale, .CHG_ARR_act_scale, .CHG_ARR_wgt_fmt, .CHG_ARR_act_fmt, .CHG_ARR_repeats, .CHG_ARR_sat,
    .CHG_ARR_out_fmt, .CHG_ARR_out_mode, .CHG_ARR_wgt_reuse, .CHG_ARR_acc_advance, .CHG_ARR_acc_base,
    .CHG_VEC_repeats, .CHG_VEC_n_ops, .CHG_VEC_in_b_en, .CHG_VEC_out_scale, .CHG_VEC_sat, .CHG_VEC_out_fmt,
    .CHG_VEC_in_fmt_b, .CHG_VEC_in_fmt_a, .CHG_VEC_k1, .CHG_VEC_k0, .CHG_VEC_slot0_3, .CHG_VEC_slot4_7,
    .CHG_BNK_count, .CHG_BNK_arg_en, .CHG_BNK_res_en, .CHG_BNK_fmt, .CHG_BNK_nq, .CHG_BNK_res_q, .CHG_BNK_arg_q,
    .CHG_BNK_addr_ag, .CHG_BNK_cmd, .CHG_BNK_imm, .CHG_SYNC_start_sub, .CHG_SYNC_end_inc, .CHG_SYNC_eng_ag,
    .CHG_SYNC_eng_bnk, .CHG_SYNC_eng_vec, .CHG_SYNC_eng_arr, .CHG_SYNC_remote_val, .CHG_SYNC_remote_en,
    .CHG_SYNC_remote_addr, .CHG_SYNC_cm_value, .CHG_SYNC_preset, .CHG_SYNC_cm_load, .CHG_SYNC_cm_rel,
    .CHG_SYNC_cm_ct, .CHG_SYNC_cm_idx, .SEQ_LIST_addr, .SEQ_STATUS_fx, .SEQ_STATUS_sub, .SEQ_STATUS_cause,
    .SEQ_STATUS_state, .SEQ_PC_addr, .CHG_AG_base, .CHG_AG_len, .CHG_AG_q, .CHG_AG_seg_lvl, .CHG_AG_hint,
    .CHG_AG_dir, .CHG_AG_count0, .CHG_AG_count1, .CHG_AG_count2, .CHG_AG_count3, .CHG_AG_stride0, .CHG_AG_stride1,
    .CHG_AG_stride2, .CHG_AG_stride3, .CT_value, .CM_value, .CM_rel, .CM_ct, .CHG_QB_q0, .CHG_QB_q1, .CHG_QB_q2,
    .CHG_QB_q3, .CHG_QB_q4, .CHG_QB_q5, .CHG_QB_q6, .CHG_QB_q7, .CHG_QB_q8, .CHG_QB_q9, .CHG_QB_q10, .CHG_QB_q11,
    .CHG_QB_q12, .CHG_QB_q13, .CHG_QB_q14, .CHG_QB_q15, .CHG_QB_act, .CHG_QB_wgt, .CHG_QB_asc, .CHG_QB_wsc,
    .CHG_QB_meta, .CHG_QB_out, .CHG_QB_vin_a, .CHG_QB_vin_b, .CHG_QB_vout, .CHG_QB_vosc] s t) ∧
  (∀ x s, ∃ t, exec (.batchBoundary x) s = .next t ∧ OnlyChanges [.ctx] [] s t) ∧
  (∀ f write off len data ups s, ∃ t, exec (.hostWindowAccess f write off len data ups) s = .next t ∧ OnlyChanges
    (reportParts.append [.out, .mem, .marks, .wb, .cache, .openRow, .bucket]) [.MC_PERF_rd_lines,
    .MC_PERF_wr_lines, .MC_PERF_hits, .MC_PERF_row_miss, .ECC_CNT_ce, .ECC_CNT_ue, .ECC_CNT_poison,
    .WIN_STAT_errors, .WIN_STAT_last, .REG_IOB_far, .REG_IOB_host, .REG_EGB_d2d, .REG_EGW_cycles] s t) ∧
  (∀ f s, ∃ t, exec (.functionLevelReset f) s = .next t ∧ OnlyChanges (answerParts.append (reportParts.append [.regs,
    .shad, .mem, .marks, .wb, .cache, .openRow, .slice, .cluster, .hwAdds, .ladle, .core, .queue, .acc, .ag, .path,
    .page, .pte, .seq, .wq, .ctx, .image, .hmem, .account, .attend])) [] s t) ∧
  (∀ s, ∃ t, exec .hostLinkDown s = .next t ∧ OnlyChanges [.misc, .gath] [.EG_STAT_bad_src] s t) ∧
  (∀ width rate s, ∃ t, exec (.hostLinkRetrain width rate) s = .next t ∧ OnlyChanges [.out, .misc, .gath, .note,
    .held] [.EG_STAT_bad_src, .EG_HNOTE_wr_seq, .MSIX_pend] s t) ∧
  (∀ s, ∃ t, exec .perstNAssert s = .next t ∧ OnlyChanges (reportParts.append [.out, .regs, .shad, .mem, .marks, .wb,
    .cache, .openRow, .slice, .cluster, .hwAdds, .ladle, .core, .queue, .acc, .ag, .path, .page, .pte, .seq, .wq,
    .ctx, .image, .hmem, .account, .attend, .gath, .note, .held]) [] s t) ∧
  (∀ en s, ∃ t, exec (.vfEnable en) s = .next t ∧ OnlyChanges (reportParts.append [.out, .regs, .shad, .mem, .marks,
    .wb, .cache, .openRow, .slice, .cluster, .hwAdds, .ladle, .core, .queue, .acc, .ag, .path, .page, .pte, .seq,
    .wq, .ctx, .image, .hmem, .account, .attend, .gath, .note, .held]) [] s t)

/-- Each of these commands answers a next state and changes only the parts of the state and the register fields listed for
it (sequencer, array, vector-unit and queue events). Rests on 04_charge_records.md, 03_matrix_array.md,
05_queues_and_address_generation.md, 06_vector_unit.md. -/
def Obligations.CoreFrames : Prop :=
  (∀ n s, ∃ t, exec (.seqCtlGo n) s = .next t ∧ OnlyChanges [.core] [.SEQ_STATUS_fx, .SEQ_STATUS_sub,
    .SEQ_STATUS_cause, .SEQ_STATUS_state, .SEQ_PC_addr] s t) ∧
  (∀ n s, ∃ t, exec (.seqCtlStop n) s = .next t ∧ OnlyChanges [.mem, .marks, .wb, .core, .queue, .ag, .gath]
    [.SEQ_STATUS_sub, .SEQ_STATUS_cause, .SEQ_STATUS_state, .SEQ_ERR_addr, .Q_WDOG_idle, .EG_STAT_bad_src] s t) ∧
  (∀ n s, ∃ t, exec (.seqCtlPause n) s = .next t ∧ OnlyChanges [.core] [] s t) ∧
  (∀ n ups s, ∃ t, exec (.recordFetch n ups) s = .next t ∧ OnlyChanges (reportParts.append [.marks, .wb, .cache,
    .openRow, .bucket, .core]) [.SEQ_STATUS_state, .MC_PERF_rd_lines, .MC_PERF_hits, .MC_PERF_row_miss,
    .ECC_CNT_ce, .ECC_CNT_ue, .ECC_CNT_poison, .REG_IOB_far, .REG_IOB_host, .REG_EGB_d2d, .REG_EGW_cycles] s t) ∧
  (∀ n s, ∃ t, exec (.recordLoad n) s = .next t ∧ OnlyChanges [.shad, .queue, .gath] [.CHG_ARR_k_passes,
    .CHG_ARR_m_count, .CHG_ARR_k_active, .CHG_ARR_acc_seq, .CHG_ARR_acc_type, .CHG_ARR_sparse, .CHG_ARR_wgt_scale,
    .CHG_ARR_act_scale, .CHG_ARR_wgt_fmt, .CHG_ARR_act_fmt, .CHG_ARR_repeats, .CHG_ARR_sat, .CHG_ARR_out_fmt,
    .CHG_ARR_out_mode, .CHG_ARR_wgt_reuse, .CHG_ARR_acc_advance, .CHG_ARR_acc_base, .CHG_VEC_repeats,
    .CHG_VEC_n_ops, .CHG_VEC_in_b_en, .CHG_VEC_out_scale, .CHG_VEC_sat, .CHG_VEC_out_fmt, .CHG_VEC_in_fmt_b,
    .CHG_VEC_in_fmt_a, .CHG_VEC_k1, .CHG_VEC_k0, .CHG_VEC_slot0_3, .CHG_VEC_slot4_7, .CHG_BNK_count,
    .CHG_BNK_arg_en, .CHG_BNK_res_en, .CHG_BNK_fmt, .CHG_BNK_nq, .CHG_BNK_res_q, .CHG_BNK_arg_q, .CHG_BNK_addr_ag,
    .CHG_BNK_cmd, .CHG_BNK_imm, .CHG_SYNC_start_sub, .CHG_SYNC_end_inc, .CHG_SYNC_eng_ag, .CHG_SYNC_eng_bnk,
    .CHG_SYNC_eng_vec, .CHG_SYNC_eng_arr, .CHG_SYNC_remote_val, .CHG_SYNC_remote_en, .CHG_SYNC_remote_addr,
    .CHG_SYNC_cm_value, .CHG_SYNC_preset, .CHG_SYNC_cm_load, .CHG_SYNC_cm_rel, .CHG_SYNC_cm_ct, .CHG_SYNC_cm_idx,
    .SEQ_STATUS_sub, .SEQ_STATUS_cause, .SEQ_STATUS_state, .SEQ_PC_addr, .SEQ_ERR_addr, .CHG_AG_base, .CHG_AG_len,
    .CHG_AG_q, .CHG_AG_seg_lvl, .CHG_AG_hint, .CHG_AG_dir, .CHG_AG_count0, .CHG_AG_count1, .CHG_AG_count2,
    .CHG_AG_count3, .CHG_AG_stride0, .CHG_AG_stride1, .CHG_AG_stride2, .CHG_AG_stride3, .CT_value, .CM_value,
    .CM_rel, .CM_ct, .EG_STAT_bad_src, .CHG_QB_q0, .CHG_QB_q1, .CHG_QB_q2, .CHG_QB_q3, .CHG_QB_q4, .CHG_QB_q5,
    .CHG_QB_q6, .CHG_QB_q7, .CHG_QB_q8, .CHG_QB_q9, .CHG_QB_q10, .CHG_QB_q11, .CHG_QB_q12, .CHG_QB_q13,
    .CHG_QB_q14, .CHG_QB_q15, .CHG_QB_act, .CHG_QB_wgt, .CHG_QB_asc, .CHG_QB_wsc, .CHG_QB_meta, .CHG_QB_out,
    .CHG_QB_vin_a, .CHG_QB_vin_b, .CHG_QB_vout, .CHG_QB_vosc] s t) ∧
  (∀ n s, ∃ t, exec (.waitRelease n) s = .next t ∧ OnlyChanges [] [.SEQ_STATUS_state, .SEQ_PC_addr] s t) ∧
  (∀ n s, ∃ t, exec (.pourStart n) s = .next t ∧ OnlyChanges [.shad, .core, .ag, .gath] [.ARR_FX_invalid, .ARR_FX_inf,
    .ARR_FX_sat, .ARR_FX_nan, .CHG_ARR_k_passes, .CHG_ARR_m_count, .CHG_ARR_k_active, .CHG_ARR_acc_seq,
    .CHG_ARR_acc_type, .CHG_ARR_sparse, .CHG_ARR_wgt_scale, .CHG_ARR_act_scale, .CHG_ARR_wgt_fmt, .CHG_ARR_act_fmt,
    .CHG_ARR_repeats, .CHG_ARR_sat, .CHG_ARR_out_fmt, .CHG_ARR_out_mode, .CHG_ARR_wgt_reuse, .CHG_ARR_acc_advance,
    .CHG_ARR_acc_base, .CHG_VEC_repeats, .CHG_VEC_n_ops, .CHG_VEC_in_b_en, .CHG_VEC_out_scale, .CHG_VEC_sat,
    .CHG_VEC_out_fmt, .CHG_VEC_in_fmt_b, .CHG_VEC_in_fmt_a, .CHG_VEC_k1, .CHG_VEC_k0, .CHG_VEC_slot0_3,
    .CHG_VEC_slot4_7, .CHG_BNK_count, .CHG_BNK_arg_en, .CHG_BNK_res_en, .CHG_BNK_fmt, .CHG_BNK_nq, .CHG_BNK_res_q,
    .CHG_BNK_arg_q, .CHG_BNK_addr_ag, .CHG_BNK_cmd, .CHG_BNK_imm, .CHG_SYNC_start_sub, .CHG_SYNC_end_inc,
    .CHG_SYNC_eng_ag, .CHG_SYNC_eng_bnk, .CHG_SYNC_eng_vec, .CHG_SYNC_eng_arr, .CHG_SYNC_remote_val,
    .CHG_SYNC_remote_en, .CHG_SYNC_remote_addr, .CHG_SYNC_cm_value, .CHG_SYNC_preset, .CHG_SYNC_cm_load,
    .CHG_SYNC_cm_rel, .CHG_SYNC_cm_ct, .CHG_SYNC_cm_idx, .SEQ_STATUS_sub, .SEQ_STATUS_cause, .SEQ_STATUS_state,
    .SEQ_PC_addr, .SEQ_ERR_addr, .CHG_AG_base, .CHG_AG_len, .CHG_AG_q, .CHG_AG_seg_lvl, .CHG_AG_hint, .CHG_AG_dir,
    .CHG_AG_count0, .CHG_AG_count1, .CHG_AG_count2, .CHG_AG_count3, .CHG_AG_stride0, .CHG_AG_stride1,
    .CHG_AG_stride2, .CHG_AG_stride3, .Q_WDOG_idle, .CT_value, .VEC_STATUS_iter, .VEC_STATUS_fx, .BNK_ERR_valid,
    .EG_STAT_bad_src, .CHG_QB_q0, .CHG_QB_q1, .CHG_QB_q2, .CHG_QB_q3, .CHG_QB_q4, .CHG_QB_q5, .CHG_QB_q6,
    .CHG_QB_q7, .CHG_QB_q8, .CHG_QB_q9, .CHG_QB_q10, .CHG_QB_q11, .CHG_QB_q12, .CHG_QB_q13, .CHG_QB_q14,
    .CHG_QB_q15, .CHG_QB_act, .CHG_QB_wgt, .CHG_QB_asc, .CHG_QB_wsc, .CHG_QB_meta, .CHG_QB_out, .CHG_QB_vin_a,
    .CHG_QB_vin_b, .CHG_QB_vout, .CHG_QB_vosc] s t) ∧
  (∀ n s, ∃ t, exec (.pourComplete n) s = .next t ∧ OnlyChanges (reportParts.append [.hwAdds, .core, .gath])
    [.SEQ_STATUS_fx, .SEQ_DONE_count, .SEQ_DONE_fx, .SEQ_DONE_addr, .Q_WDOG_idle, .CT_value, .EG_STAT_bad_src] s t) ∧
  (∀ n blk s, ∃ t, exec (.shadowCopy n blk) s = .next t ∧ OnlyChanges [.shad] [.CHG_ARR_k_passes, .CHG_ARR_m_count,
    .CHG_ARR_k_active, .CHG_ARR_acc_seq, .CHG_ARR_acc_type, .CHG_ARR_sparse, .CHG_ARR_wgt_scale,
    .CHG_ARR_act_scale, .CHG_ARR_wgt_fmt, .CHG_ARR_act_fmt, .CHG_ARR_repeats, .CHG_ARR_sat, .CHG_ARR_out_fmt,
    .CHG_ARR_out_mode, .CHG_ARR_wgt_reuse, .CHG_ARR_acc_advance, .CHG_ARR_acc_base, .CHG_VEC_repeats,
    .CHG_VEC_n_ops, .CHG_VEC_in_b_en, .CHG_VEC_out_scale, .CHG_VEC_sat, .CHG_VEC_out_fmt, .CHG_VEC_in_fmt_b,
    .CHG_VEC_in_fmt_a, .CHG_VEC_k1, .CHG_VEC_k0, .CHG_VEC_slot0_3, .CHG_VEC_slot4_7, .CHG_BNK_count,
    .CHG_BNK_arg_en, .CHG_BNK_res_en, .CHG_BNK_fmt, .CHG_BNK_nq, .CHG_BNK_res_q, .CHG_BNK_arg_q, .CHG_BNK_addr_ag,
    .CHG_BNK_cmd, .CHG_BNK_imm, .CHG_SYNC_start_sub, .CHG_SYNC_end_inc, .CHG_SYNC_eng_ag, .CHG_SYNC_eng_bnk,
    .CHG_SYNC_eng_vec, .CHG_SYNC_eng_arr, .CHG_SYNC_remote_val, .CHG_SYNC_remote_en, .CHG_SYNC_remote_addr,
    .CHG_SYNC_cm_value, .CHG_SYNC_preset, .CHG_SYNC_cm_load, .CHG_SYNC_cm_rel, .CHG_SYNC_cm_ct, .CHG_SYNC_cm_idx,
    .CHG_AG_base, .CHG_AG_len, .CHG_AG_q, .CHG_AG_seg_lvl, .CHG_AG_hint, .CHG_AG_dir, .CHG_AG_count0,
    .CHG_AG_count1, .CHG_AG_count2, .CHG_AG_count3, .CHG_AG_stride0, .CHG_AG_stride1, .CHG_AG_stride2,
    .CHG_AG_stride3, .CHG_QB_q0, .CHG_QB_q1, .CHG_QB_q2, .CHG_QB_q3, .CHG_QB_q4, .CHG_QB_q5, .CHG_QB_q6,
    .CHG_QB_q7, .CHG_QB_q8, .CHG_QB_q9, .CHG_QB_q10, .CHG_QB_q11, .CHG_QB_q12, .CHG_QB_q13, .CHG_QB_q14,
    .CHG_QB_q15, .CHG_QB_act, .CHG_QB_wgt, .CHG_QB_asc, .CHG_QB_wsc, .CHG_QB_meta, .CHG_QB_out, .CHG_QB_vin_a,
    .CHG_QB_vin_b, .CHG_QB_vout, .CHG_QB_vosc] s t) ∧
  (∀ n s, ∃ t, exec (.drainEnd n) s = .next t ∧ OnlyChanges [.core, .gath] [.SEQ_STATUS_sub, .SEQ_STATUS_cause,
    .SEQ_STATUS_state, .SEQ_PC_addr, .SEQ_ERR_addr, .EG_STAT_bad_src] s t) ∧
  (∀ n addr s, ∃ t, exec (.remoteAddFailure n addr) s = .next t ∧ OnlyChanges reportParts [] s t) ∧
  (∀ n s, ∃ t, exec (.passEntry n) s = .next t ∧ OnlyChanges [.core] [.ARR_STATUS_stall_acc, .CHG_ARR_acc_base,
    .Q_WDOG_idle] s t) ∧
  (∀ n s, ∃ t, exec (.tileLoadComplete n) s = .next t ∧ OnlyChanges (reportParts.append [.mem, .marks, .wb, .core,
    .queue, .ag, .gath]) [.ARR_STATUS_stall_meta, .ARR_STATUS_stall_wsc, .ARR_STATUS_stall_wgt, .SEQ_STATUS_sub,
    .SEQ_STATUS_cause, .SEQ_STATUS_state, .SEQ_ERR_addr, .Q_WDOG_idle, .EG_STAT_bad_src] s t) ∧
  (∀ n s, ∃ t, exec (.shadowRelease n) s = .next t ∧ OnlyChanges [.core] [] s t) ∧
  (∀ n parityBad accErr s, ∃ t, exec (.accumulatorWrite n parityBad accErr) s = .next t ∧ OnlyChanges
    (reportParts.append [.mem, .marks, .wb, .core, .queue, .acc, .ag, .gath]) [.ARR_STATUS_stall_out,
    .ARR_STATUS_stall_asc, .ARR_STATUS_stall_act, .ARR_ERR_acc_ce_count, .ARR_ERR_wpar, .ARR_ERR_acc_ue,
    .ARR_ERR_acc_ce, .ARR_FX_invalid, .ARR_FX_inf, .ARR_FX_sat, .ARR_FX_nan, .ARR_PERF_passes, .SEQ_STATUS_sub,
    .SEQ_STATUS_cause, .SEQ_STATUS_state, .SEQ_ERR_addr, .Q_WDOG_idle, .EG_STAT_bad_src] s t) ∧
  (∀ n s, ∃ t, exec (.arrayStallEnd n) s = .next t ∧ OnlyChanges [] [.ARR_STATUS_stall_out, .ARR_STATUS_stall_acc,
    .ARR_STATUS_stall_meta, .ARR_STATUS_stall_wsc, .ARR_STATUS_stall_asc, .ARR_STATUS_stall_wgt,
    .ARR_STATUS_stall_act, .CHG_ARR_m_count, .CHG_ARR_acc_base, .CHG_QB_act, .CHG_QB_wgt, .CHG_QB_asc, .CHG_QB_wsc,
    .CHG_QB_meta, .CHG_QB_out] s t) ∧
  (∀ n accErr s, ∃ t, exec (.vectorIteration n accErr) s = .next t ∧ OnlyChanges (reportParts.append [.mem, .marks,
    .wb, .core, .queue, .acc, .ag, .gath]) [.ARR_ERR_acc_ce_count, .ARR_ERR_acc_ue, .ARR_ERR_acc_ce,
    .SEQ_STATUS_sub, .SEQ_STATUS_cause, .SEQ_STATUS_state, .SEQ_ERR_addr, .Q_WDOG_idle, .VEC_STATUS_iter,
    .VEC_STATUS_fx, .VEC_STATUS_stall_push, .VEC_STATUS_stall_b, .VEC_STATUS_stall_a, .VEC_PERF_iters,
    .EG_STAT_bad_src] s t) ∧
  (∀ n g ups s, ∃ t, exec (.agAccess n g ups) s = .next t ∧ OnlyChanges (reportParts.append [.mem, .marks, .wb,
    .cache, .openRow, .bucket, .core, .queue, .acc, .ag, .gath]) [.SEQ_STATUS_sub, .SEQ_STATUS_cause,
    .SEQ_STATUS_state, .SEQ_ERR_addr, .Q_WDOG_idle, .MC_PERF_rd_lines, .MC_PERF_wr_lines, .MC_PERF_hits,
    .MC_PERF_row_miss, .ECC_CNT_ce, .ECC_CNT_ue, .ECC_CNT_poison, .REG_IOB_far, .REG_IOB_host, .REG_EGB_d2d,
    .REG_EGW_cycles, .EG_STAT_bad_src] s t) ∧
  (∀ n g s, ∃ t, exec (.loadDataPush n g) s = .next t ∧ OnlyChanges [.mem, .marks, .wb, .queue, .ag] [.Q_WDOG_idle] s
    t) ∧
  (∀ n g s, ∃ t, exec (.storeAck n g) s = .next t ∧ OnlyChanges [.ag] [.Q_WDOG_idle] s t) ∧
  (∀ n q s, ∃ t, exec (.queueStallEnd n q) s = .next t ∧ OnlyChanges [.queue] [] s t) ∧
  (∀ n s, ∃ t, exec (.queueStall n) s = .next t ∧ OnlyChanges [.core, .gath] [.Q_WDOG_snap_lost, .Q_WDOG_snap_valid,
    .Q_WDOG_idle, .Q_SNAPPC_addr, .EG_STAT_bad_src, .Q_SNAP_cons, .Q_SNAP_prod, .Q_SNAP_stall_pop,
    .Q_SNAP_stall_push, .Q_SNAP_open_fill, .Q_SNAP_head_used, .Q_SNAP_count, .Q_SNAP_tail, .Q_SNAP_head] s t) ∧
  (∀ n bitmap s, ∃ t, exec (.qCtlFlush n bitmap) s = .next t ∧ OnlyChanges [.queue] [] s t) ∧
  (∀ n ct v iss fl s, ∃ t, exec (.counterAdd n ct v iss fl) s = .next t ∧ OnlyChanges (reportParts.append [.rsp])
    [.Q_WDOG_idle, .CT_value] s t) ∧
  (∀ n s, ∃ t, exec (.arrPerfClear n) s = .next t ∧ OnlyChanges [] [.ARR_PERF_issue, .ARR_PERF_bubble,
    .ARR_PERF_stall, .ARR_PERF_passes] s t) ∧
  (∀ n s, ∃ t, exec (.vecPerfClear n) s = .next t ∧ OnlyChanges [] [.VEC_PERF_iters, .VEC_PERF_stall] s t)

/-- Each of these commands answers a next state and changes only the parts of the state and the register fields listed for
it (bank-side-unit and stacked-memory events). Rests on 09_bank_side_units.md, 07_stacked_memory.md,
08_error_correction.md. -/
def Obligations.BankAndMemoryFrames : Prop :=
  (∀ n s, ∃ t, exec (.bankCommandIssue n) s = .next t ∧ OnlyChanges (reportParts.append [.mem, .marks, .wb, .core,
    .queue, .ag, .bank, .path, .gath]) [.SEQ_STATUS_sub, .SEQ_STATUS_cause, .SEQ_STATUS_state, .SEQ_ERR_addr,
    .Q_WDOG_idle, .BNK_STATUS_stall_arg, .BNK_STATUS_stall_ctx, .BNK_ERR_status, .BNK_ERR_count, .BNK_ERR_valid,
    .BNK_ERR_addr, .EG_STAT_bad_src] s t) ∧
  (∀ sl b s, ∃ t, exec (.bankCommandAccept sl b) s = .next t ∧ OnlyChanges (reportParts.append [.bank, .path, .gath])
    [.BNK_ERR_status, .BNK_ERR_count, .BNK_ERR_valid, .BNK_ERR_addr, .EG_STAT_bad_src] s t) ∧
  (∀ sl s, ∃ t, exec (.streamTokenGrant sl) s = .next t ∧ OnlyChanges [.slice, .bank] [] s t) ∧
  (∀ sl b ups s, ∃ t, exec (.rowBurst sl b ups) s = .next t ∧ OnlyChanges [.marks, .openRow, .bank] [.BSU_PERF_bursts]
    s t) ∧
  (∀ sl b s, ∃ t, exec (.attendCmd sl b) s = .next t ∧ OnlyChanges (reportParts.append [.wb, .bank, .path, .gath])
    [.ECC_CNT_ce, .ECC_CNT_ue, .ECC_CNT_poison, .BSU_PERF_commands, .BNK_ERR_status, .BNK_ERR_count,
    .BNK_ERR_valid, .BNK_ERR_addr, .EG_STAT_bad_src] s t) ∧
  (∀ sl b s, ∃ t, exec (.scoreCmd sl b) s = .next t ∧ OnlyChanges (reportParts.append [.wb, .bank, .path, .gath])
    [.ECC_CNT_ce, .ECC_CNT_ue, .ECC_CNT_poison, .BSU_PERF_commands, .BNK_ERR_status, .BNK_ERR_count,
    .BNK_ERR_valid, .BNK_ERR_addr, .EG_STAT_bad_src] s t) ∧
  (∀ sl b s, ∃ t, exec (.valueCmd sl b) s = .next t ∧ OnlyChanges (reportParts.append [.wb, .bank, .path, .gath])
    [.ECC_CNT_ce, .ECC_CNT_ue, .ECC_CNT_poison, .BSU_PERF_commands, .BNK_ERR_status, .BNK_ERR_count,
    .BNK_ERR_valid, .BNK_ERR_addr, .EG_STAT_bad_src] s t) ∧
  (∀ sl b s, ∃ t, exec (.appendQCmd sl b) s = .next t ∧ OnlyChanges (reportParts.append [.mem, .marks, .wb, .cache,
    .bank, .path, .gath]) [.ECC_CNT_ce, .ECC_CNT_ue, .ECC_CNT_poison, .BSU_PERF_commands, .BNK_ERR_status,
    .BNK_ERR_count, .BNK_ERR_valid, .BNK_ERR_addr, .EG_STAT_bad_src] s t) ∧
  (∀ sl b s, ∃ t, exec (.fillCmd sl b) s = .next t ∧ OnlyChanges (reportParts.append [.mem, .marks, .wb, .cache,
    .bank, .path, .gath]) [.ECC_CNT_ce, .ECC_CNT_ue, .ECC_CNT_poison, .BSU_PERF_commands, .BNK_ERR_status,
    .BNK_ERR_count, .BNK_ERR_valid, .BNK_ERR_addr, .EG_STAT_bad_src] s t) ∧
  (∀ sl b s, ∃ t, exec (.copyPageCmd sl b) s = .next t ∧ OnlyChanges (reportParts.append [.mem, .marks, .wb, .cache,
    .bank, .path, .gath]) [.ECC_CNT_ce, .ECC_CNT_ue, .ECC_CNT_poison, .BSU_PERF_commands, .BNK_ERR_status,
    .BNK_ERR_count, .BNK_ERR_valid, .BNK_ERR_addr, .EG_STAT_bad_src] s t) ∧
  (∀ sl b s, ∃ t, exec (.reduceCmd sl b) s = .next t ∧ OnlyChanges (reportParts.append [.wb, .bank, .path, .gath])
    [.ECC_CNT_ce, .ECC_CNT_ue, .ECC_CNT_poison, .BSU_PERF_commands, .BNK_ERR_status, .BNK_ERR_count,
    .BNK_ERR_valid, .BNK_ERR_addr, .EG_STAT_bad_src] s t) ∧
  (∀ pa s, ∃ t, exec (.bankFence pa) s = .next t ∧ OnlyChanges [.cache, .path] [] s t) ∧
  (∀ pa s, ∃ t, exec (.bankResultPush pa) s = .next t ∧ OnlyChanges [.mem, .marks, .wb, .queue, .path] [.Q_WDOG_idle,
    .BNK_STATUS_stall_res] s t) ∧
  (∀ sl b s, ∃ t, exec (.bsuFault sl b) s = .next t ∧ OnlyChanges (reportParts.append [.bank, .path, .gath])
    [.BSU_PERF_commands, .BNK_ERR_status, .BNK_ERR_count, .BNK_ERR_valid, .BNK_ERR_addr, .EG_STAT_bad_src] s t) ∧
  (∀ iss addr len hint ups s, ∃ t, exec (.memoryRead iss addr len hint ups) s = .next t ∧ OnlyChanges
    (reportParts.append [.rsp, .marks, .wb, .cache, .openRow, .bucket]) [.MC_PERF_rd_lines, .MC_PERF_hits,
    .MC_PERF_row_miss, .ECC_CNT_ce, .ECC_CNT_ue, .ECC_CNT_poison, .REG_IOB_far, .REG_IOB_host, .REG_EGB_d2d,
    .REG_EGW_cycles] s t) ∧
  (∀ iss addr hint data ups s, ∃ t, exec (.memoryWrite iss addr hint data ups) s = .next t ∧ OnlyChanges
    (reportParts.append [.rsp, .mem, .marks, .wb, .cache, .openRow, .bucket]) [.MC_PERF_wr_lines,
    .MC_PERF_row_miss, .REG_IOB_far, .REG_IOB_host, .REG_EGB_d2d, .REG_EGW_cycles] s t) ∧
  (∀ line s, ∃ t, exec (.eccWriteBack line) s = .next t ∧ OnlyChanges [.mem, .marks, .wb] [.ECC_WB_done,
    .ECC_WB_skipped] s t) ∧
  (∀ sl b s, ∃ t, exec (.refreshSlot sl b) s = .next t ∧ OnlyChanges [.openRow, .slice] [.MC_STAT_refresh,
    .MC_PERF_refresh] s t) ∧
  (∀ st s, ∃ t, exec (.selfRefreshEntry st) s = .next t ∧ OnlyChanges [] [.CRS_STAT_self_refresh] s t) ∧
  (∀ st s, ∃ t, exec (.selfRefreshExit st) s = .next t ∧ OnlyChanges [] [.MC_STAT_sr, .CRS_STAT_self_refresh] s t) ∧
  (∀ sl ups s, ∃ t, exec (.scrubRead sl ups) s = .next t ∧ OnlyChanges (reportParts.append [.marks, .wb, .openRow])
    [.MC_PERF_row_miss, .ECC_SCRUB_pos, .ECC_SCRUB_passes, .ECC_CNT_ce, .ECC_CNT_ue, .ECC_CNT_poison] s t) ∧
  (∀ addr ups s, ∃ t, exec (.sramScrubRead addr ups) s = .next t ∧ OnlyChanges (reportParts.append [.marks, .wb])
    [.ECC_CNT_ce, .ECC_CNT_ue, .ECC_CNT_poison] s t) ∧
  (∀ sl regions s, ∃ t, exec (.eccFillStart sl regions) s = .next t ∧ OnlyChanges [.slice] [.ECC_FILL_busy,
    .ECC_FILL_regions] s t) ∧
  (∀ sl s, ∃ t, exec (.fillEngineDone sl) s = .next t ∧ OnlyChanges [.mem, .marks, .wb, .cache, .slice]
    [.ECC_INIT_regions, .ECC_FILL_busy] s t) ∧
  (∀ sl s, ∃ t, exec (.eccTwRead sl) s = .next t ∧ OnlyChanges [.tick] [.ECC_TW_DATA_data, .ECC_TW_CHK_syndrome,
    .ECC_TW_CHK_verdict, .ECC_TW_CHK_check] s t) ∧
  (∀ sl s, ∃ t, exec (.eccTwWrite sl) s = .next t ∧ OnlyChanges [.mem, .marks, .wb, .cache] [] s t) ∧
  (∀ sl s, ∃ t, exec (.mcCtlInval sl) s = .next t ∧ OnlyChanges [.cache] [.MC_STAT_inval_busy] s t) ∧
  (∀ sl s, ∃ t, exec (.mcPerfClear sl) s = .next t ∧ OnlyChanges [] [.MC_PERF_rd_lines, .MC_PERF_wr_lines,
    .MC_PERF_hits, .MC_PERF_row_miss, .MC_PERF_refresh] s t) ∧
  (∀ sl s, ∃ t, exec (.bsuPerfClear sl) s = .next t ∧ OnlyChanges [] [.BSU_PERF_bursts, .BSU_PERF_cap_wait,
    .BSU_PERF_commands] s t) ∧
  (∀ sl s, ∃ t, exec (.kvFlPop sl) s = .next t ∧ OnlyChanges [.rsp, .slice, .gath] [.KV_FL_STAT_next_bank,
    .EG_STAT_bad_src] s t) ∧
  (∀ sl s, ∃ t, exec (.invalidationComplete sl) s = .next t ∧ OnlyChanges [] [.MC_STAT_inval_busy] s t)

/-- Each of these commands answers a next state and changes only the parts of the state and the register fields listed for
it (KV-cache, attend and reclamation events). Rests on 10_kv_cache_pages.md, 11_attention_execution.md,
12_cache_pressure.md. -/
def Obligations.KvCacheFrames : Prop :=
  (∀ sl s, ∃ t, exec (.kvFlPopb sl) s = .next t ∧ OnlyChanges [.rsp, .slice, .gath] [.EG_STAT_bad_src] s t) ∧
  (∀ sl b fr s, ∃ t, exec (.kvFlPush sl b fr) s = .next t ∧ OnlyChanges [.slice] [.KV_FL_STAT_dup_push] s t) ∧
  (∀ n s, ∃ t, exec (.appendRequest n) s = .next t ∧ OnlyChanges (reportParts.append [.out, .mem, .marks, .wb, .cache,
    .slice, .core, .page, .pte, .seq, .slag, .slot, .ctx, .image, .account, .gath, .note, .held]) [.Q_WDOG_idle,
    .CT_value, .ECC_CNT_ce, .ECC_CNT_ue, .ECC_CNT_poison, .BSU_EPOCH_current, .BSU_PERF_commands,
    .KV_FL_STAT_next_bank, .EG_STAT_bad_src, .EG_HNOTE_wr_seq, .MSIX_pend] s t) ∧
  (∀ n s, ∃ t, exec (.copyOnWrite n) s = .next t ∧ OnlyChanges (reportParts.append [.out, .mem, .marks, .wb, .cache,
    .slice, .core, .page, .pte, .seq, .slag, .slot, .image, .account, .gath, .note, .held]) [.Q_WDOG_idle,
    .CT_value, .ECC_CNT_ce, .ECC_CNT_ue, .ECC_CNT_poison, .BSU_EPOCH_current, .BSU_PERF_commands,
    .KV_FL_STAT_next_bank, .EG_STAT_bad_src, .EG_HNOTE_wr_seq, .MSIX_pend] s t) ∧
  (∀ n s, ∃ t, exec (.attendRequest n) s = .next t ∧ OnlyChanges (reportParts.append [.mem, .marks, .wb, .core, .seq,
    .ctx, .image, .attend]) [.Q_WDOG_idle, .CT_value, .ECC_CNT_ce, .ECC_CNT_ue, .ECC_CNT_poison,
    .BSU_PERF_commands] s t) ∧
  (∀ n s, ∃ t, exec (.memberMerge n) s = .next t ∧ OnlyChanges (reportParts.append [.mem, .marks, .wb, .cache,
    .openRow, .bucket, .core, .ctx, .image, .attend]) [.Q_WDOG_idle, .CT_value, .MC_PERF_wr_lines,
    .MC_PERF_row_miss, .REG_IOB_far, .REG_IOB_host, .REG_EGB_d2d, .REG_EGW_cycles] s t) ∧
  (∀ q s, ∃ t, exec (.stepEnd q) s = .next t ∧ OnlyChanges [.mem, .marks, .wb, .slice, .page, .seq, .account]
    [.BSU_EPOCH_current] s t) ∧
  (∀ sl s, ∃ t, exec (.epochDrain sl) s = .next t ∧ OnlyChanges [.mem, .marks, .wb, .slice, .page, .account]
    [.BSU_EPOCH_current, .KV_FL_STAT_dup_push] s t) ∧
  (∀ sl s, ∃ t, exec (.reclamation sl) s = .next t ∧ OnlyChanges [.out, .mem, .marks, .wb, .slice, .page, .pte, .seq,
    .slag, .slot, .account, .gath, .note, .held] [.BSU_EPOCH_current, .EG_STAT_bad_src, .EG_HNOTE_wr_seq,
    .MSIX_pend] s t) ∧
  (∀ q sl s, ∃ t, exec (.dropEviction q sl) s = .next t ∧ OnlyChanges [.out, .mem, .marks, .wb, .slice, .page, .pte,
    .seq, .slag, .slot, .account, .gath, .note, .held] [.BSU_EPOCH_current, .EG_STAT_bad_src, .EG_HNOTE_wr_seq,
    .MSIX_pend] s t) ∧
  (∀ q s, ∃ t, exec (.swapEviction q) s = .next t ∧ OnlyChanges [.out, .mem, .marks, .wb, .slice, .page, .pte, .seq,
    .slag, .slot, .account, .gath, .note, .held] [.BSU_EPOCH_current, .EG_STAT_bad_src, .EG_HNOTE_wr_seq,
    .MSIX_pend] s t) ∧
  (∀ q ok s, ∃ t, exec (.swapPageDone q ok) s = .next t ∧ OnlyChanges (reportParts.append [.out, .mem, .marks, .wb,
    .slice, .page, .pte, .seq, .slag, .slot, .hmem, .account, .gath, .note, .held]) [.ECC_CNT_ce, .ECC_CNT_ue,
    .ECC_CNT_poison, .BSU_EPOCH_current, .EG_STAT_bad_src, .EG_HNOTE_wr_seq, .MSIX_pend] s t) ∧
  (∀ q stream page ok s, ∃ t, exec (.pageRestore q stream page ok) s = .next t ∧ OnlyChanges [.out, .mem, .marks, .wb,
    .cache, .slice, .page, .pte, .seq, .slag, .slot, .account, .gath, .note, .held] [.BSU_EPOCH_current,
    .KV_FL_STAT_next_bank, .KV_FL_STAT_dup_push, .EG_STAT_bad_src, .EG_HNOTE_wr_seq, .MSIX_pend] s t) ∧
  (∀ q sl s, ∃ t, exec (.kvStarved q sl) s = .next t ∧ OnlyChanges [.out, .mem, .marks, .wb, .seq, .account, .gath,
    .note, .held] [.EG_STAT_bad_src, .EG_HNOTE_wr_seq, .MSIX_pend] s t)

/-- Each of these commands answers a next state and changes only the parts of the state and the register fields listed for
it (reset, clock, network, ladle, regulator and port events). Rests on 13_on_package_network.md,
14_clocks_crossings_resets.md, 15_io_die.md, 16_ladle_dma.md, 17_fabric_ports.md. -/
def Obligations.NetworkAndPortFrames : Prop :=
  (∀ e s, ∃ t, exec (.ldlPerfClear e) s = .next t ∧ OnlyChanges [] [.LDL_PERF_bytes, .LDL_PERF_reg_wait] s t) ∧
  (∀ p s, ∃ t, exec (.fpPerfClear p) s = .next t ∧ OnlyChanges [] [.SP_TXFRM_count, .SP_RXFRM_count, .SP_TXBYTE_count,
    .SP_RXBYTE_count, .SP_RXFCS_count, .SP_RXDROP_count, .SP_FECCORR_count, .SP_FECUNC_count, .FP_LANE_ERR_bits,
    .FP_LANE_RX_bits] s t) ∧
  (∀ st s, ∃ t, exec (.crsRstFp st) s = .next t ∧ OnlyChanges (reportParts.append [.out, .regs, .shad, .mem, .marks,
    .wb, .cache, .openRow, .slice, .cluster, .stack, .port, .sub, .job, .conn, .fabOp, .fab, .ladle, .bucket,
    .core, .queue, .acc, .ag, .bank, .path, .page, .seq, .ctx, .hmem, .attend, .gath, .note, .held]) [] s t) ∧
  (∀ c s, ∃ t, exec (.crsRstCluster c) s = .next t ∧ OnlyChanges (reportParts.append [.regs, .shad, .mem, .marks, .wb,
    .cache, .openRow, .slice, .cluster, .ladle, .core, .queue, .acc, .ag, .path, .page, .seq, .ctx, .hmem, .attend,
    .gath]) [] s t) ∧
  (∀ n s, ∃ t, exec (.crsCoreGo n) s = .next t ∧ OnlyChanges [.regs, .shad, .cluster, .core, .queue, .acc, .ag, .path]
    [] s t) ∧
  (∀ h s, ∃ t, exec (.resetRelease h) s = .next t ∧ OnlyChanges [.tick, .misc, .mem, .marks, .wb, .cluster, .stack,
    .pte] [.EG_TGT_mode, .EG_SRC_target, .EG_SRC_prio] s t) ∧
  (∀ st s, ∃ t, exec (.fabricPlaneReturn st) s = .next t ∧ OnlyChanges [.tick, .misc, .mem, .marks, .wb, .cache,
    .slice, .cluster, .stack, .port, .sub, .bucket, .page, .pte, .fifo, .dropped] [.MC_CFG_cache_en, .MC_STAT_sr,
    .ECC_INIT_regions, .ECC_RETIRE_valid, .ECC_RETIRE_bank, .ECC_RETIRE_frame, .KV_FL_CTL_low,
    .KV_FL_STAT_dup_push, .NOC_ROUTE_iod, .NOC_ROUTE_stack, .NOC_STAT_draining, .NOC_LINK_good_mods,
    .NOC_LINK_rate, .NOC_LINK_up, .CRS_STAT_self_refresh, .FP_CFG_rx_inv, .FP_CFG_tx_inv, .FP_CFG_an_en,
    .FP_CFG_en, .FP_CFG_mode, .FP_QUAL_uc_max, .FP_QUAL_win_full, .FP_QUAL_win_short, .FP_QUAL_deg_mant,
    .FP_QUAL_deg_exp, .FP_QUAL_qual_mant, .FP_QUAL_qual_exp, .SP_STAT_attempts, .SP_STAT_state, .REG_D2D_rate,
    .REG_D2D_burst, .REG_D2D_en, .REG_FAB_rate, .REG_FAB_burst, .REG_FAB_en, .EG_TGT_mode, .EG_SRC_target,
    .EG_SRC_prio] s t) ∧
  (∀ st pll s, ∃ t, exec (.pllLockLoss st pll) s = .next t ∧ OnlyChanges (reportParts.append [.out, .regs, .shad,
    .mem, .marks, .wb, .cache, .openRow, .slice, .cluster, .stack, .port, .sub, .job, .conn, .fabOp, .fab, .ladle,
    .bucket, .core, .queue, .acc, .ag, .bank, .path, .page, .seq, .ctx, .hmem, .attend, .gath, .note, .held]) [] s
    t) ∧
  (∀ st pll s, ∃ t, exec (.pllRelock st pll) s = .next t ∧ OnlyChanges [.tick, .misc, .mem, .marks, .wb, .cluster,
    .stack, .pte] [.CRS_STAT_fab_lock, .CRS_STAT_mem_lock, .CRS_STAT_region_lock, .EG_TGT_mode, .EG_SRC_target,
    .EG_SRC_prio] s t) ∧
  (∀ st r s, ∃ t, exec (.clockSlewStep st r) s = .next t ∧ OnlyChanges [.stack] [.CRS_STAT_slewing] s t) ∧
  (∀ c s, ∃ t, exec (.peerReset c) s = .next t ∧ OnlyChanges [.path, .gath] [] s t) ∧
  (∀ st k peerLost s, ∃ t, exec (.linkDown st k peerLost) s = .next t ∧ OnlyChanges [.tick, .out, .stack, .gath,
    .note, .held] [.NOC_ROUTE_iod, .NOC_ROUTE_stack, .NOC_STAT_replays, .NOC_STAT_draining, .NOC_STAT_failover,
    .NOC_LINK_rate, .NOC_LINK_up, .EG_STAT_bad_src, .EG_HNOTE_wr_seq, .MSIX_pend] s t) ∧
  (∀ st dest s, ∃ t, exec (.d2dTimeout st dest) s = .next t ∧ OnlyChanges reportParts [.NOC_STAT_timeouts] s t) ∧
  (∀ st k s, ∃ t, exec (.d2dLink st k) s = .next t ∧ OnlyChanges (reportParts.append [.out, .stack, .gath, .note,
    .held]) [.NOC_ROUTE_iod, .NOC_ROUTE_stack, .NOC_STAT_replays, .NOC_STAT_draining, .NOC_STAT_failover,
    .NOC_LINK_retries, .NOC_LINK_crc, .NOC_LINK_rate, .NOC_LINK_assay, .NOC_LINK_up, .EG_STAT_bad_src,
    .EG_HNOTE_wr_seq, .MSIX_pend] s t) ∧
  (∀ st s, ∃ t, exec (.nocCtlApply st) s = .next t ∧ OnlyChanges [.stack] [.NOC_STAT_bad_route, .NOC_STAT_draining] s
    t) ∧
  (∀ st dest s, ∃ t, exec (.routeSwitch st dest) s = .next t ∧ OnlyChanges [.stack] [.NOC_ROUTE_iod, .NOC_ROUTE_stack,
    .NOC_STAT_draining] s t) ∧
  (∀ e ch head s, ∃ t, exec (.ldlChHeadWrite e ch head) s = .next t ∧ OnlyChanges [.ladle] [.LDL_STAT_busy_err,
    .LDL_STAT_running, .LDL_STAT_active, .LDL_STAT_queued, .LDL_CH_head, .LDL_CH_state] s t) ∧
  (∀ e ups s, ∃ t, exec (.ladleDescriptorStart e ups) s = .next t ∧ OnlyChanges [.marks, .ladle] [.LDL_STAT_running,
    .LDL_STAT_active, .LDL_STAT_queued, .LDL_CH_status, .LDL_CH_fx, .LDL_CH_state, .LDL_CH_descs] s t) ∧
  (∀ e lost s, ∃ t, exec (.ladleDescriptorDone e lost) s = .next t ∧ OnlyChanges (reportParts.append [.out, .mem,
    .marks, .wb, .cache, .openRow, .hwAdds, .ladle, .bucket, .hmem, .gath, .note, .held]) [.Q_WDOG_idle, .CT_value,
    .MC_PERF_rd_lines, .MC_PERF_wr_lines, .MC_PERF_hits, .MC_PERF_row_miss, .ECC_CNT_ce, .ECC_CNT_ue,
    .ECC_CNT_poison, .REG_IOB_far, .REG_IOB_host, .LDL_STAT_running, .LDL_STAT_active, .LDL_STAT_queued,
    .LDL_PERF_bytes, .LDL_PERF_reg_wait, .LDL_CH_status, .LDL_CH_fx, .LDL_CH_state, .LDL_CH_descs, .REG_EGB_d2d,
    .REG_EGW_cycles, .EG_STAT_bad_src, .EG_HNOTE_wr_seq, .MSIX_pend] s t) ∧
  (∀ e s, ∃ t, exec (.ldlCtlDisable e) s = .next t ∧ OnlyChanges (reportParts.append [.mem, .marks, .wb, .cache,
    .openRow, .ladle, .hmem]) [.MC_PERF_wr_lines, .MC_PERF_row_miss, .LDL_CTL_disable, .LDL_STAT_running,
    .LDL_STAT_active, .LDL_STAT_queued, .LDL_PERF_bytes, .LDL_CH_state] s t) ∧
  (∀ host fl s, ∃ t, exec (.regulatorRelease host fl) s = .next t ∧ OnlyChanges [.tick, .bucket] [.REG_IOW_cycles] s t) ∧
  (∀ u s, ∃ t, exec (.farLinkDown u) s = .next t ∧ OnlyChanges [.out, .misc, .gath, .note, .held] [.EG_STAT_bad_src,
    .EG_HNOTE_wr_seq, .MSIX_pend] s t) ∧
  (∀ p en s, ∃ t, exec (.fpCfgEnWrite p en) s = .next t ∧ OnlyChanges [.sub] [.FP_CFG_en, .SP_STAT_attempts,
    .SP_STAT_state] s t) ∧
  (∀ p s, ∃ t, exec (.fpCtlRequal p) s = .next t ∧ OnlyChanges [.sub] [.SP_STAT_state] s t) ∧
  (∀ p k cause s, ∃ t, exec (.trainingAttemptEnd p k cause) s = .next t ∧ OnlyChanges (reportParts.append [.out, .sub,
    .gath, .note, .held]) [.SP_STAT_attempts, .SP_STAT_cause, .SP_STAT_state, .EG_STAT_bad_src, .EG_HNOTE_wr_seq,
    .MSIX_pend] s t) ∧
  (∀ p k corrected uncorr s, ∃ t, exec (.qualificationWindowEnd p k corrected uncorr) s = .next t ∧ OnlyChanges
    (reportParts.append [.out, .sub, .gath, .note, .held]) [.SP_STAT_attempts, .SP_STAT_cause, .SP_STAT_state,
    .SP_FECCORR_count, .SP_FECUNC_count, .FP_LANE_ERR_bits, .FP_LANE_RX_bits, .EG_STAT_bad_src, .EG_HNOTE_wr_seq,
    .MSIX_pend] s t) ∧
  (∀ p k lanes uncorr s, ∃ t, exec (.portDegrade p k lanes uncorr) s = .next t ∧ OnlyChanges (reportParts.append
    [.out, .gath, .note, .held]) [.SP_STAT_state, .SP_RXFCS_count, .SP_FECUNC_count, .FP_LANE_ERR_bits,
    .FP_LANE_RX_bits, .EG_STAT_bad_src, .EG_HNOTE_wr_seq, .MSIX_pend] s t) ∧
  (∀ p k s, ∃ t, exec (.subportAssayStart p k) s = .next t ∧ OnlyChanges [] [.SP_STAT_state] s t) ∧
  (∀ p k lasting s, ∃ t, exec (.linkAssayEnd p k lasting) s = .next t ∧ OnlyChanges [.misc, .port, .sub, .assayer,
    .fifo, .dropped] [.FP_CFG_rx_inv, .FP_CFG_tx_inv, .FP_CFG_an_en, .FP_CFG_en, .FP_CFG_mode, .FP_QUAL_uc_max,
    .FP_QUAL_win_full, .FP_QUAL_win_short, .FP_QUAL_deg_mant, .FP_QUAL_deg_exp, .FP_QUAL_qual_mant,
    .FP_QUAL_qual_exp, .SP_STAT_attempts, .SP_STAT_cause, .SP_STAT_state] s t) ∧
  (∀ p k fourth s, ∃ t, exec (.portDown p k fourth) s = .next t ∧ OnlyChanges (reportParts.append [.out, .sub, .conn,
    .fab, .bucket, .gath, .note, .held]) [.FP_STAT_link_downs, .SP_STAT_attempts, .SP_STAT_cause, .SP_STAT_state,
    .SP_TXFRM_count, .SP_TXBYTE_count, .FAB_RETX_count, .REG_EGB_fab, .EG_STAT_bad_src, .EG_HNOTE_wr_seq,
    .MSIX_pend] s t) ∧
  (∀ p k s, ∃ t, exec (.failedRetry p k) s = .next t ∧ OnlyChanges [.sub] [.SP_STAT_state] s t) ∧
  (∀ p lane up s, ∃ t, exec (.recalibrationStep p lane up) s = .next t ∧ OnlyChanges [.port] [] s t) ∧
  (∀ p k s, ∃ t, exec (.lldpSend p k) s = .next t ∧ OnlyChanges [.tick, .out] [.SP_TXFRM_count, .SP_TXBYTE_count] s t) ∧
  (∀ p k s, ∃ t, exec (.gratuitousArp p k) s = .next t ∧ OnlyChanges [.out] [.SP_TXFRM_count, .SP_TXBYTE_count] s t) ∧
  (∀ p k target s, ∃ t, exec (.neighborSolicitation p k target) s = .next t ∧ OnlyChanges [.tick, .out]
    [.SP_TXFRM_count, .SP_RXFRM_count, .SP_TXBYTE_count, .SP_RXBYTE_count] s t)

/-- Each of these commands answers a next state and changes only the parts of the state and the register fields listed for
it (Brodit events). Rests on 18_fabric_transport.md. -/
def Obligations.FabricFrames : Prop :=
  (∀ st s, ∃ t, exec (.fabPerfClear st) s = .next t ∧ OnlyChanges [] [.FAB_STRANGER_count, .FAB_AUTHFAIL_count,
    .FAB_RETX_count, .FAB_CE_count] s t) ∧
  (∀ p k fr s, ∃ t, exec (.frameReceive p k fr) s = .next t ∧ OnlyChanges (reportParts.append [.port, .fab])
    [.SP_RXFRM_count, .SP_RXBYTE_count, .SP_RXFCS_count, .SP_RXDROP_count, .FAB_STRANGER_count,
    .FAB_AUTHFAIL_count] s t) ∧
  (∀ st s, ∃ t, exec (.rxPut st) s = .next t ∧ OnlyChanges (reportParts.append [.mem, .marks, .wb, .cache, .openRow,
    .conn, .fabOp, .fab, .bucket]) [.Q_WDOG_idle, .CT_value, .MC_PERF_wr_lines, .MC_PERF_row_miss, .REG_IOB_far,
    .REG_IOB_host, .FAB_CE_count, .REG_EGB_d2d, .REG_EGW_cycles] s t) ∧
  (∀ st ups s, ∃ t, exec (.rxGet st ups) s = .next t ∧ OnlyChanges (reportParts.append [.marks, .wb, .cache, .openRow,
    .conn, .fabOp, .fab, .bucket]) [.Q_WDOG_idle, .CT_value, .MC_PERF_rd_lines, .MC_PERF_hits, .MC_PERF_row_miss,
    .ECC_CNT_ce, .ECC_CNT_ue, .ECC_CNT_poison, .REG_IOB_far, .REG_IOB_host, .FAB_CE_count, .REG_EGB_d2d,
    .REG_EGW_cycles] s t) ∧
  (∀ st s, ∃ t, exec (.rxAdd st) s = .next t ∧ OnlyChanges (reportParts.append [.conn, .fabOp, .fab]) [.Q_WDOG_idle,
    .CT_value, .FAB_CE_count] s t) ∧
  (∀ st s, ∃ t, exec (.rxSend st) s = .next t ∧ OnlyChanges (reportParts.append [.mem, .marks, .wb, .cache, .openRow,
    .job, .conn, .fabOp, .fab, .bucket]) [.Q_WDOG_idle, .CT_value, .MC_PERF_rd_lines, .MC_PERF_wr_lines,
    .MC_PERF_hits, .MC_PERF_row_miss, .ECC_CNT_ce, .ECC_CNT_ue, .ECC_CNT_poison, .REG_IOB_far, .REG_IOB_host,
    .FAB_CE_count, .REG_EGB_d2d, .REG_EGW_cycles] s t) ∧
  (∀ st s, ∃ t, exec (.rxGetr st) s = .next t ∧ OnlyChanges (reportParts.append [.mem, .marks, .wb, .cache, .openRow,
    .conn, .fabOp, .fab, .bucket]) [.Q_WDOG_idle, .CT_value, .MC_PERF_wr_lines, .MC_PERF_row_miss, .REG_IOB_far,
    .REG_IOB_host, .FAB_CE_count, .REG_EGB_d2d, .REG_EGW_cycles] s t) ∧
  (∀ st s, ∃ t, exec (.ackPkt st) s = .next t ∧ OnlyChanges (reportParts.append [.conn, .fabOp, .fab]) [] s t) ∧
  (∀ cn s, ∃ t, exec (.ackSend cn) s = .next t ∧ OnlyChanges [.tick, .out, .conn, .fab] [.SP_TXFRM_count,
    .SP_TXBYTE_count] s t) ∧
  (∀ cn psn timer s, ∃ t, exec (.packetLoss cn psn timer) s = .next t ∧ OnlyChanges (reportParts.append [.out, .job,
    .conn, .fabOp, .fab, .bucket, .gath, .note, .held]) [.SP_TXFRM_count, .SP_TXBYTE_count, .FAB_STAT_conns,
    .FAB_STAT_conn_lost, .FAB_RETX_count, .REG_EGB_fab, .EG_STAT_bad_src, .EG_HNOTE_wr_seq, .MSIX_pend] s t) ∧
  (∀ st s, ∃ t, exec (.initPkt st) s = .next t ∧ OnlyChanges (reportParts.append [.out, .job, .conn, .fabOp, .fab,
    .gath, .note, .sec, .held]) [.SP_TXFRM_count, .SP_TXBYTE_count, .FAB_STAT_conns, .FAB_STAT_conn_lost,
    .FAB_AUTHFAIL_count, .EG_STAT_bad_src, .EG_HNOTE_wr_seq, .MSIX_pend] s t) ∧
  (∀ st s, ∃ t, exec (.initAckPkt st) s = .next t ∧ OnlyChanges (reportParts.append [.out, .conn, .fabOp, .fab, .sec])
    [.SP_TXFRM_count, .SP_TXBYTE_count, .FAB_AUTHFAIL_count] s t) ∧
  (∀ st s, ∃ t, exec (.confirmPkt st) s = .next t ∧ OnlyChanges (reportParts.append [.conn, .fab])
    [.FAB_AUTHFAIL_count] s t) ∧
  (∀ st s, ∃ t, exec (.refusePkt st) s = .next t ∧ OnlyChanges (reportParts.append [.out, .job, .conn, .fabOp, .fab,
    .gath, .note, .held]) [.FAB_STAT_conns, .EG_STAT_bad_src, .EG_HNOTE_wr_seq, .MSIX_pend] s t) ∧
  (∀ st s, ∃ t, exec (.closePkt st) s = .next t ∧ OnlyChanges (reportParts.append [.out, .job, .conn, .fabOp, .fab,
    .gath, .note, .held]) [.FAB_STAT_conns, .EG_STAT_bad_src, .EG_HNOTE_wr_seq, .MSIX_pend] s t) ∧
  (∀ st s, ∃ t, exec (.rekeyPkt st) s = .next t ∧ OnlyChanges [.conn, .fab] [] s t) ∧
  (∀ cn s, ∃ t, exec (.oldPhaseKeyExpiry cn) s = .next t ∧ OnlyChanges [.conn] [] s t) ∧
  (∀ cn s, ∃ t, exec (.initResend cn) s = .next t ∧ OnlyChanges [.tick, .out, .conn, .fab] [.SP_TXFRM_count,
    .SP_TXBYTE_count] s t) ∧
  (∀ cn s, ∃ t, exec (.setupTimeout cn) s = .next t ∧ OnlyChanges (reportParts.append [.out, .job, .conn, .fabOp,
    .gath, .note, .held]) [.FAB_STAT_conns, .EG_STAT_bad_src, .EG_HNOTE_wr_seq, .MSIX_pend] s t) ∧
  (∀ cn s, ∃ t, exec (.fabConnLost cn) s = .next t ∧ OnlyChanges (reportParts.append [.out, .job, .conn, .fabOp,
    .gath, .note, .held]) [.FAB_STAT_conns, .FAB_STAT_conn_lost, .EG_STAT_bad_src, .EG_HNOTE_wr_seq, .MSIX_pend] s
    t) ∧
  (∀ cn s, ∃ t, exec (.idleClose cn) s = .next t ∧ OnlyChanges (reportParts.append [.out, .job, .conn, .fabOp, .fab,
    .gath, .note, .held]) [.SP_TXFRM_count, .SP_TXBYTE_count, .FAB_STAT_conns, .EG_STAT_bad_src, .EG_HNOTE_wr_seq,
    .MSIX_pend] s t) ∧
  (∀ fl ep s, ∃ t, exec (.drainWindowEnd fl ep) s = .next t ∧ OnlyChanges (reportParts.append [.out, .job, .conn,
    .fabOp, .fab, .gath, .note, .held]) [.SP_TXFRM_count, .SP_TXBYTE_count, .FAB_STAT_conns, .EG_STAT_bad_src,
    .EG_HNOTE_wr_seq, .MSIX_pend] s t) ∧
  (∀ cn s, ∃ t, exec (.congestionTick cn) s = .next t ∧ OnlyChanges [.conn] [] s t) ∧
  (∀ c ring s, ∃ t, exec (.putOp c ring) s = .next t ∧ OnlyChanges (reportParts.append [.out, .mem, .marks, .wb,
    .cache, .openRow, .job, .conn, .fabOp, .cring, .fab, .bucket]) [.Q_WDOG_idle, .CT_value, .MC_PERF_rd_lines,
    .MC_PERF_wr_lines, .MC_PERF_hits, .MC_PERF_row_miss, .ECC_CNT_ce, .ECC_CNT_ue, .ECC_CNT_poison, .REG_IOB_far,
    .REG_IOB_host, .SP_TXFRM_count, .SP_TXBYTE_count, .FAB_STAT_conns, .REG_EGB_d2d, .REG_EGW_cycles] s t) ∧
  (∀ c ring s, ∃ t, exec (.getOp c ring) s = .next t ∧ OnlyChanges (reportParts.append [.out, .mem, .marks, .wb,
    .cache, .openRow, .job, .conn, .fabOp, .cring, .fab, .bucket]) [.Q_WDOG_idle, .CT_value, .MC_PERF_rd_lines,
    .MC_PERF_wr_lines, .MC_PERF_hits, .MC_PERF_row_miss, .ECC_CNT_ce, .ECC_CNT_ue, .ECC_CNT_poison, .REG_IOB_far,
    .REG_IOB_host, .SP_TXFRM_count, .SP_TXBYTE_count, .FAB_STAT_conns, .REG_EGB_d2d, .REG_EGW_cycles] s t) ∧
  (∀ c ring s, ∃ t, exec (.addOp c ring) s = .next t ∧ OnlyChanges (reportParts.append [.out, .mem, .marks, .wb,
    .cache, .openRow, .job, .conn, .fabOp, .cring, .fab, .bucket]) [.Q_WDOG_idle, .CT_value, .MC_PERF_rd_lines,
    .MC_PERF_wr_lines, .MC_PERF_hits, .MC_PERF_row_miss, .ECC_CNT_ce, .ECC_CNT_ue, .ECC_CNT_poison, .REG_IOB_far,
    .REG_IOB_host, .SP_TXFRM_count, .SP_TXBYTE_count, .FAB_STAT_conns, .REG_EGB_d2d, .REG_EGW_cycles] s t) ∧
  (∀ c ring s, ∃ t, exec (.sendOp c ring) s = .next t ∧ OnlyChanges (reportParts.append [.out, .mem, .marks, .wb,
    .cache, .openRow, .job, .conn, .fabOp, .cring, .fab, .bucket]) [.Q_WDOG_idle, .CT_value, .MC_PERF_rd_lines,
    .MC_PERF_wr_lines, .MC_PERF_hits, .MC_PERF_row_miss, .ECC_CNT_ce, .ECC_CNT_ue, .ECC_CNT_poison, .REG_IOB_far,
    .REG_IOB_host, .SP_TXFRM_count, .SP_TXBYTE_count, .FAB_STAT_conns, .REG_EGB_d2d, .REG_EGW_cycles] s t) ∧
  (∀ c ring s, ∃ t, exec (.operationComplete c ring) s = .next t ∧ OnlyChanges [.mem, .marks, .wb, .fabOp]
    [.Q_WDOG_idle, .CT_value] s t) ∧
  (∀ st en s, ∃ t, exec (.fabCfgEnWrite st en) s = .next t ∧ OnlyChanges (reportParts.append [.out, .job, .conn,
    .fabOp, .gath, .note, .held]) [.FAB_CFG_en, .FAB_STAT_conns, .FAB_STAT_conn_lost, .EG_STAT_bad_src,
    .EG_HNOTE_wr_seq, .MSIX_pend] s t) ∧
  (∀ st s, ∃ t, exec (.pacedTransmission st) s = .next t ∧ OnlyChanges (reportParts.append [.out, .hwAdds, .conn,
    .fabOp, .fab, .bucket]) [.SP_TXFRM_count, .SP_TXBYTE_count, .FAB_STAT_conns, .FAB_RETX_count, .REG_EGB_fab,
    .REG_EGW_cycles] s t)

/-- Each of these commands answers a next state and changes only the parts of the state and the register fields listed for
it (firmware, gatherer, error, thermal, bring-up and module events). Rests on 19_firmware.md, 22_event_gatherer.md,
24_errors_and_recovery.md, 25_thermal_and_cooling.md, 23_bring_up.md, 27_module_interface.md. -/
def Obligations.ServiceFrames : Prop :=
  (∀ u s, ∃ t, exec (.fwHang u) s = .next t ∧ OnlyChanges (answerParts.append (reportParts.append [.regs, .shad, .mem,
    .marks, .wb, .cache, .openRow, .slice, .cluster, .stack, .members, .hwAdds, .port, .sub, .job, .conn, .fabOp,
    .cring, .fab, .ladle, .bucket, .core, .queue, .acc, .ag, .bank, .path, .page, .seq, .wq, .ctx, .image, .hmem,
    .account, .attend, .fw, .sec])) [] s t) ∧
  (∀ u s, ∃ t, exec (.firmwareRestartDone u) s = .next t ∧ OnlyChanges (answerParts.append [.tick, .misc, .mem,
    .marks, .wb, .slice, .cluster, .pte, .fw]) (answerRegs.append [.MC_CFG_refresh, .EG_TGT_mode, .EG_SRC_target,
    .EG_SRC_prio, .TH_CONV_busy, .TH_WDOG_armed]) s t) ∧
  (∀ s, ∃ t, exec .logAppend s = .next t ∧ OnlyChanges [.tick, .out, .mem, .marks, .wb, .gath, .note, .fifo, .held,
    .flashLog] [.EG_STAT_bad_src, .EG_HNOTE_wr_seq, .MSIX_pend] s t) ∧
  (∀ u point payload s, ∃ t, exec (.tracePoint u point payload) s = .next t ∧ OnlyChanges [.tick, .misc, .fifo,
    .dropped, .fw] [] s t) ∧
  (∀ u act s, ∃ t, exec (.bgLate u act) s = .next t ∧ OnlyChanges [.tick, .misc, .fifo, .dropped] [] s t) ∧
  (∀ st s, ∃ t, exec (.telemetry st) s = .next t ∧ OnlyChanges [.tick, .misc, .fifo, .dropped] [] s t) ∧
  (∀ st s, ∃ t, exec (.tsPair st) s = .next t ∧ OnlyChanges [.tick, .misc, .fifo, .dropped] [] s t) ∧
  (∀ sl ch s, ∃ t, exec (.dramRecalibrationStep sl ch) s = .next t ∧ OnlyChanges [.slice] [] s t) ∧
  (∀ s, ∃ t, exec .storedSettingsWrite s = .next t ∧ OnlyChanges [.th] [] s t) ∧
  (∀ g src s, ∃ t, exec (.egDoorbell g src) s = .next t ∧ OnlyChanges [.tick, .out, .gath, .note, .held]
    [.EG_STAT_bad_src, .EG_HNOTE_wr_seq, .MSIX_pend] s t) ∧
  (∀ g t s, ∃ w, exec (.egClaim g t) s = .next w ∧ OnlyChanges [.rsp, .gath] [] s w) ∧
  (∀ g t src s, ∃ w, exec (.egComplete g t src) s = .next w ∧ OnlyChanges [.out, .gath, .held] [.EG_STAT_bad_complete,
    .MSIX_pend] s w) ∧
  (∀ f kind s, ∃ t, exec (.egHcomplete f kind) s = .next t ∧ OnlyChanges [.out, .gath, .held] [.MSIX_pend] s t) ∧
  (∀ asr fault rows lanesFailed s, ∃ t, exec (.assayVerdict asr fault rows lanesFailed) s = .next t ∧ OnlyChanges
    (reportParts.append [.out, .regs, .shad, .mem, .marks, .wb, .slice, .cluster, .stack, .port, .sub, .core,
    .queue, .acc, .ag, .path, .page, .pte, .seq, .slag, .slot, .account, .gath, .note, .lasting, .excl, .held]) []
    s t) ∧
  (∀ kind u addr syn fl s, ∃ t, exec (.errorReport kind u addr syn fl) s = .next t ∧ OnlyChanges reportParts [] s t) ∧
  (∀ t s, ∃ w, exec (.thConvReq t) s = .next w ∧ OnlyChanges [] [.TH_CONV_busy, .TH_WDOG_armed] s w) ∧
  (∀ st cause s, ∃ t, exec (.stackTrip st cause) s = .next t ∧ OnlyChanges (reportParts.append [.out, .regs, .shad,
    .mem, .marks, .wb, .cache, .openRow, .slice, .cluster, .stack, .port, .sub, .job, .conn, .fabOp, .fab, .ladle,
    .bucket, .core, .queue, .acc, .ag, .bank, .path, .page, .seq, .ctx, .hmem, .attend, .gath, .note, .th, .held])
    [] s t) ∧
  (∀ t s, ∃ w, exec (.shutdownRecord t) s = .next w ∧ OnlyChanges [.out, .gath, .note, .therm, .th, .shut, .held]
    [.EG_STAT_bad_src, .EG_HNOTE_wr_seq, .MSIX_pend] s w) ∧
  (∀ st s, ∃ t, exec (.thCtlRelease st) s = .next t ∧ OnlyChanges [.misc, .stack, .th] [.CRS_CLK_core1_mhz,
    .CRS_CLK_core0_mhz, .CRS_STAT_slewing, .TH_STAT_cause, .TH_STAT_tripped] s t) ∧
  (∀ got s, ∃ t, exec (.trayRead got) s = .next t ∧ OnlyChanges [.tick, .out, .misc, .fifo, .dropped, .therm] [] s t) ∧
  (∀ s, ∃ t, exec .trayIbi s = .next t ∧ OnlyChanges [.gath] [.EG_STAT_bad_src] s t) ∧
  (∀ s, ∃ t, exec .coolantAlarm s = .next t ∧ OnlyChanges [.out, .misc, .therm, .th] [] s t) ∧
  (∀ s, ∃ t, exec .coolantAlarmClear s = .next t ∧ OnlyChanges [.misc, .therm] [] s t) ∧
  (∀ input iod perStack s, ∃ t, exec (.powerInterval input iod perStack) s = .next t ∧ OnlyChanges [.tick, .misc,
    .fifo, .dropped, .therm, .th] [.CRS_CLK_core1_mhz, .CRS_CLK_core0_mhz, .CRS_STAT_slewing, .TH_PWR_peak_w,
    .TH_PWR_power_w] s t) ∧
  (∀ amps perStack s, ∃ t, exec (.fastThrottle amps perStack) s = .next t ∧ OnlyChanges [] [.TH_STAT_fast] s t) ∧
  (∀ st s, ∃ t, exec (.fastThrottleEnd st) s = .next t ∧ OnlyChanges [] [.TH_STAT_fast] s t) ∧
  (∀ r s, ∃ t, exec (.coldPhaseEnd r) s = .next t ∧ OnlyChanges (answerParts.append (reportParts.append [.mem, .marks,
    .wb, .cache, .slice, .cluster, .stack, .port, .sub, .cfg, .pte, .excl, .excluded, .fw, .sec, .therm, .th,
    .shut])) (answerRegs.append [.MC_CFG_cache_en, .ECC_INIT_regions, .ECC_RETIRE_valid, .ECC_RETIRE_bank,
    .ECC_RETIRE_frame, .NOC_ROUTE_iod, .NOC_ROUTE_stack, .NOC_STAT_replays, .NOC_STAT_draining, .NOC_STAT_failover,
    .NOC_LINK_good_mods, .NOC_LINK_rate, .NOC_LINK_up, .CRS_CLK_core1_mhz, .CRS_CLK_core0_mhz, .CRS_STAT_slewing,
    .CRS_STAT_fab_lock, .CRS_STAT_mem_lock, .CRS_STAT_region_lock, .FP_CFG_rx_inv, .FP_CFG_tx_inv, .FP_CFG_an_en,
    .FP_CFG_en, .FP_CFG_mode, .FP_QUAL_uc_max, .FP_QUAL_win_full, .FP_QUAL_win_short, .FP_QUAL_deg_mant,
    .FP_QUAL_deg_exp, .FP_QUAL_qual_mant, .FP_QUAL_qual_exp, .SP_STAT_attempts, .SP_STAT_state, .EG_TGT_mode,
    .EG_SRC_target, .EG_SRC_prio, .TH_CONV_busy, .TH_WDOG_armed]) s t) ∧
  (∀ s, ∃ t, exec .fabricPhaseTimeout s = .next t ∧ OnlyChanges [.tick, .misc, .fifo, .dropped, .fw, .sec, .th] [] s t) ∧
  (∀ s, ∃ t, exec .warmReentry s = .next t ∧ OnlyChanges (answerParts.append (reportParts.append [.regs, .shad, .mem,
    .marks, .wb, .cache, .openRow, .slice, .cluster, .stack, .members, .hwAdds, .port, .sub, .job, .conn, .fabOp,
    .cring, .fab, .ladle, .bucket, .core, .queue, .acc, .ag, .bank, .path, .page, .seq, .wq, .ctx, .image, .hmem,
    .account, .attend, .fw, .sec])) [] s t) ∧
  (∀ r s, ∃ t, exec (.warmStepEnd r) s = .next t ∧ OnlyChanges (answerParts.append (reportParts.append [.mem, .marks,
    .wb, .cache, .slice, .cluster, .stack, .port, .sub, .cfg, .bucket, .page, .pte, .excl, .excluded, .fw, .sec,
    .therm, .th, .shut])) (answerRegs.append [.MC_CFG_cache_en, .MC_STAT_sr, .ECC_INIT_regions, .ECC_TWG_grant,
    .ECC_RETIRE_valid, .ECC_RETIRE_bank, .ECC_RETIRE_frame, .KV_FL_CTL_low, .KV_FL_STAT_dup_push, .NOC_ROUTE_iod,
    .NOC_ROUTE_stack, .NOC_STAT_replays, .NOC_STAT_draining, .NOC_STAT_failover, .NOC_LINK_good_mods,
    .NOC_LINK_rate, .NOC_LINK_up, .CRS_CLK_core1_mhz, .CRS_CLK_core0_mhz, .CRS_STAT_self_refresh,
    .CRS_STAT_slewing, .FP_CFG_rx_inv, .FP_CFG_tx_inv, .FP_CFG_an_en, .FP_CFG_en, .FP_CFG_mode, .FP_QUAL_uc_max,
    .FP_QUAL_win_full, .FP_QUAL_win_short, .FP_QUAL_deg_mant, .FP_QUAL_deg_exp, .FP_QUAL_qual_mant,
    .FP_QUAL_qual_exp, .SP_STAT_attempts, .SP_STAT_state, .REG_D2D_rate, .REG_D2D_burst, .REG_D2D_en,
    .REG_FAB_rate, .REG_FAB_burst, .REG_FAB_en, .EG_TGT_mode, .EG_SRC_target, .EG_SRC_prio, .TH_CONV_busy,
    .TH_WDOG_armed]) s t) ∧
  (∀ s, ∃ t, exec .i3cRoleRequest s = .next t ∧ OnlyChanges [.misc] [] s t) ∧
  (∀ block s, ∃ t, exec (.configBlockWrite block) s = .next t ∧ OnlyChanges [.cfgSlots] [] s t) ∧
  (∀ token s, ∃ t, exec (.debugToken token) s = .next t ∧ OnlyChanges [.sec] [] s t) ∧
  (∀ s, ∃ t, exec .controllerRoleReturn s = .next t ∧ OnlyChanges [.misc] [] s t) ∧
  (∀ block eraseFails s, ∃ t, exec (.flashWearLevelling block eraseFails) s = .next t ∧ OnlyChanges [.fw] [] s t)

/-- Every byte of memory outside the words a command stores to reads as before; the words are computed as the command
computes them. Rests on 07_stacked_memory.md, 09_bank_side_units.md, 10_kv_cache_pages.md, 16_ladle_dma.md. -/
def Obligations.StoresReachOnlyTheirAddresses : Prop :=
  -- memoryWrite
  (∀ iss addr hint data ups s, ∃ t, exec (.memoryWrite iss addr hint data ups) s = .next t ∧
    ∀ b, OutsideWords b addr data.length → t.byteAt b = s.byteAt b) ∧
  -- hostWindowWrite
  (∀ f off len data ups s, ∃ t, exec (.hostWindowAccess f true off len data ups) s = .next t ∧
    ∀ b, OutsideWords b (s.reg .WIN_BASE_base f * 2 ^ 26 + off) data.length → t.byteAt b = s.byteAt b) ∧
  -- hostWindowRead
  (∀ f off len data ups s, ∃ t, exec (.hostWindowAccess f false off len data ups) s = .next t ∧ ∀ b, t.byteAt b = s.byteAt b) ∧
  -- eccWriteBack
  (∀ line s, ∃ t, exec (.eccWriteBack line) s = .next t ∧ ∀ b, OutsideWords b (line * 64) 64 → t.byteAt b = s.byteAt b) ∧
  -- eccTwWrite
  (∀ sl s, ∃ t, exec (.eccTwWrite sl) s = .next t ∧
    ∀ b, OutsideWords b ((sl * 2 ^ 27 + s.reg .ECC_TW_ADDR_word sl) * 8) 8 → t.byteAt b = s.byteAt b) ∧
  -- eccTestWrite
  (∀ f s, ∃ t, exec (.eccTestWrite f) s = .next t ∧
    ∀ b, (∀ r, (s.fnAt f).run = some r → field r.body 8 8 / 2 ^ 30 < 1152 → OutsideWords b (field r.body 8 8) 8) →
      t.byteAt b = s.byteAt b) ∧
  -- testRevoke
  (∀ f s, ∃ t, exec (.testRevoke f) s = .next t ∧
    ∀ b, (∀ r, (s.fnAt f).run = some r → OutsideWords b (field r.body 4 4 * 2 ^ 26) (2 ^ 26)) → t.byteAt b = s.byteAt b) ∧
  -- memInit
  (∀ f s, ∃ t, exec (.memInit f) s = .next t ∧
    ∀ b, (∀ r, (s.fnAt f).run = some r → ∀ x ∈ u32s (r.body.drop 8) (field r.body 0 4), OutsideWords b (x * 2 ^ 26) (2 ^ 26)) →
      t.byteAt b = s.byteAt b) ∧
  -- fillEngineDone
  (∀ sl s, ∃ t, exec (.fillEngineDone sl) s = .next t ∧
    ∀ b, (∀ r < 16, bit (s.sliceAt sl).filling r = true → OutsideWords b (sl * 2 ^ 30 + r * 2 ^ 26) (2 ^ 26)) →
      t.byteAt b = s.byteAt b) ∧
  -- agAccessLoad
  (∀ n g ups s, s.flag .CHG_AG_dir (n * 8 + g) = false → ∃ t, exec (.agAccess n g ups) s = .next t ∧
    ∀ b, (∀ q base z, s.ring n q = some (base, z) → OutsideWords b (scratchBase + n * 2 ^ 21 + base) (z * 128)) → t.byteAt b = s.byteAt b) ∧
  -- agAccessStore
  (∀ n g ups s, s.flag .CHG_AG_dir (n * 8 + g) = true → s.reg .CHG_AG_q (n * 8 + g) ≠ 16 → ∃ t, exec (.agAccess n g ups) s = .next t ∧
    ∀ b, (∀ q base z, s.ring n q = some (base, z) → OutsideWords b (scratchBase + n * 2 ^ 21 + base) (z * 128)) →
      (∀ r, (s.agAt n g).run = some r → OutsideWords b (agAddr s n g r.done) (s.reg .CHG_AG_len (n * 8 + g))) → t.byteAt b = s.byteAt b) ∧
  -- agAccessStoreSums
  (∀ n g ups s, s.flag .CHG_AG_dir (n * 8 + g) = true → s.reg .CHG_AG_q (n * 8 + g) = 16 →
    (∀ e, (s.accAt n e).v.length ≤ 64) → ∃ t, exec (.agAccess n g ups) s = .next t ∧
    ∀ b, (∀ r, (s.agAt n g).run = some r → OutsideWords b (agAddr s n g r.done) 256) → t.byteAt b = s.byteAt b) ∧
  -- loadDataPush
  (∀ n g s, ∃ t, exec (.loadDataPush n g) s = .next t ∧
    ∀ b, (∀ q base z, s.ring n q = some (base, z) → OutsideWords b (scratchBase + n * 2 ^ 21 + base) (z * 128)) → t.byteAt b = s.byteAt b) ∧
  -- tileLoadComplete
  (∀ n s, ∃ t, exec (.tileLoadComplete n) s = .next t ∧
    ∀ b, (∀ q base z, s.ring n q = some (base, z) → OutsideWords b (scratchBase + n * 2 ^ 21 + base) (z * 128)) → t.byteAt b = s.byteAt b) ∧
  -- accumulatorWrite
  (∀ n parityBad accErr s, ∃ t, exec (.accumulatorWrite n parityBad accErr) s = .next t ∧
    ∀ b, (∀ q base z, s.ring n q = some (base, z) → OutsideWords b (scratchBase + n * 2 ^ 21 + base) (z * 128)) → t.byteAt b = s.byteAt b) ∧
  -- vectorIteration
  (∀ n accErr s, ∃ t, exec (.vectorIteration n accErr) s = .next t ∧
    ∀ b, (∀ q base z, s.ring n q = some (base, z) → OutsideWords b (scratchBase + n * 2 ^ 21 + base) (z * 128)) → t.byteAt b = s.byteAt b) ∧
  -- bankResultPush
  (∀ pa s, ∃ t, exec (.bankResultPush pa) s = .next t ∧
    ∀ b, (∀ q base z, s.ring pa q = some (base, z) → OutsideWords b (scratchBase + pa * 2 ^ 21 + base) (z * 128)) → t.byteAt b = s.byteAt b) ∧
  -- appendQCmd
  (∀ sl b s, ∃ t, exec (.appendQCmd sl b) s = .next t ∧
    ∀ a, (∀ x h, (s.bankAt sl b).ctx.find? (fun y => y.cmd == 4 && decide (0 < y.bursts) && taskReady (s.bankAt sl b).ctx y) = some x →
        s.pageHeader x.addr = some h → let r := appendResult s x.addr (bits x.imm 11 0) (tokenOf x.fmt (bits x.imm 11 0) x.args)
        OutsideWords a (x.addr + 8) 8 ∧ OutsideWords a (x.addr + 256 + r.2.1 * h.stride) r.2.2.1.length) → t.byteAt a = s.byteAt a) ∧
  -- fillCmd
  (∀ sl b s, ∃ t, exec (.fillCmd sl b) s = .next t ∧
    ∀ a, (∀ x, (s.bankAt sl b).ctx.find? (fun y => y.cmd == 5 && decide (0 < y.bursts) && taskReady (s.bankAt sl b).ctx y) = some x →
        OutsideWords a (x.addr / 32768 * 32768) 32768) → t.byteAt a = s.byteAt a) ∧
  -- copyPageCmd
  (∀ sl b s, ∃ t, exec (.copyPageCmd sl b) s = .next t ∧
    ∀ a, (∀ x, (s.bankAt sl b).ctx.find? (fun y => y.cmd == 6 && decide (0 < y.bursts) && taskReady (s.bankAt sl b).ctx y) = some x →
        OutsideWords a (((frames 6 x.imm x.addr)[1]?).getD 0) 32768) → t.byteAt a = s.byteAt a) ∧
  -- ladleDescriptorDone
  (∀ e lost s, ∃ t, exec (.ladleDescriptorDone e lost) s = .next t ∧
    ∀ b, (∀ r, (s.ladleAt e).run = some r → OutsideWords b (r.addr + 56) 8 ∧
        ((parseDesc r.words).dstHost = true ∨ OutsideWords b (parseDesc r.words).dst (parseDesc r.words).dstLen)) → t.byteAt b = s.byteAt b) ∧
  -- rxPut
  (∀ st s, ∃ t, exec (.rxPut st) s = .next t ∧
    ∀ b, (∀ x ∈ (s.fabAt st).rx, x.fr.ptype = 0 → x.fr.op = 1 → OutsideWords b x.fr.addr x.fr.data.length) → t.byteAt b = s.byteAt b)

/-- A command on one unit leaves the other units of its kind, and the same registers of other units, as they were. Rests on
01_module_hierarchy.md, 04_charge_records.md, 05_queues_and_address_generation.md, 22_event_gatherer.md. -/
def Obligations.OneUnitCommandsLeaveTheOtherUnits : Prop :=
  -- seqCtlPause
  (∀ n s, ∃ u, exec (.seqCtlPause n) s = .next u ∧
    (∀ j : Nat, j ≠ n.val → u.coreAt j = s.coreAt j)) ∧
  -- shadowRelease
  (∀ n s, ∃ u, exec (.shadowRelease n) s = .next u ∧
    (∀ j : Nat, j ≠ n.val → u.coreAt j = s.coreAt j)) ∧
  -- passEntry
  (∀ n s, ∃ u, exec (.passEntry n) s = .next u ∧
    (∀ j : Nat, j ≠ n.val → u.coreAt j = s.coreAt j) ∧ RegsElsewhere [.ARR_STATUS_stall_acc, .CHG_ARR_acc_base, .Q_WDOG_idle] n s u) ∧
  -- waitRelease
  (∀ n s, ∃ u, exec (.waitRelease n) s = .next u ∧
    RegsElsewhere [.SEQ_STATUS_state, .SEQ_PC_addr] n s u) ∧
  -- storeAck
  (∀ n g s, ∃ u, exec (.storeAck n g) s = .next u ∧
    (∀ m k, m * 8 + k ≠ n.val * 8 + g.val → u.agAt m k = s.agAt m k) ∧ RegsElsewhere [.Q_WDOG_idle] n s u) ∧
  -- queueStallEnd
  (∀ n q s, ∃ u, exec (.queueStallEnd n q) s = .next u ∧
    ∀ m k, m * 16 + k ≠ n.val * 16 + q.val → u.queueAt m k = s.queueAt m k) ∧
  -- qCtlFlush
  (∀ n bitmap s, ∃ u, exec (.qCtlFlush n bitmap) s = .next u ∧
    ∀ m k, (∀ q, q < 16 → bit bitmap.toNat q = true → m * 16 + k ≠ n * 16 + q) → u.queueAt m k = s.queueAt m k) ∧
  -- arrPerfClear
  (∀ n s, ∃ u, exec (.arrPerfClear n) s = .next u ∧
    RegsElsewhere [.ARR_PERF_issue, .ARR_PERF_bubble, .ARR_PERF_stall, .ARR_PERF_passes] n s u) ∧
  -- vecPerfClear
  (∀ n s, ∃ u, exec (.vecPerfClear n) s = .next u ∧
    RegsElsewhere [.VEC_PERF_iters, .VEC_PERF_stall] n s u) ∧
  -- refreshSlot
  (∀ sl b s, ∃ u, exec (.refreshSlot sl b) s = .next u ∧
    (∀ j : Nat, j ≠ sl.val → u.sliceAt j = s.sliceAt j) ∧ (∀ k, k ≠ sl.val * 128 + b.val → Store.get 0 u.openRow k = Store.get 0 s.openRow k) ∧
    RegsElsewhere [.MC_STAT_refresh, .MC_PERF_refresh] sl s u) ∧
  -- eccFillStart
  (∀ sl regions s, ∃ u, exec (.eccFillStart sl regions) s = .next u ∧
    (∀ j : Nat, j ≠ sl.val → u.sliceAt j = s.sliceAt j) ∧ RegsElsewhere [.ECC_FILL_busy, .ECC_FILL_regions] sl s u) ∧
  -- eccTwRead
  (∀ sl s, ∃ u, exec (.eccTwRead sl) s = .next u ∧
    RegsElsewhere [.ECC_TW_DATA_data, .ECC_TW_CHK_syndrome, .ECC_TW_CHK_verdict, .ECC_TW_CHK_check] sl s u) ∧
  -- mcCtlInval
  (∀ sl s, ∃ u, exec (.mcCtlInval sl) s = .next u ∧
    (∀ k, k / 512 ≠ sl.val → Store.get [] u.cache k = Store.get [] s.cache k) ∧ RegsElsewhere [.MC_STAT_inval_busy] sl s u) ∧
  -- invalidationComplete
  (∀ sl s, ∃ u, exec (.invalidationComplete sl) s = .next u ∧
    RegsElsewhere [.MC_STAT_inval_busy] sl s u) ∧
  -- mcPerfClear
  (∀ sl s, ∃ u, exec (.mcPerfClear sl) s = .next u ∧
    RegsElsewhere [.MC_PERF_rd_lines, .MC_PERF_wr_lines, .MC_PERF_hits, .MC_PERF_row_miss, .MC_PERF_refresh] sl s u) ∧
  -- bsuPerfClear
  (∀ sl s, ∃ u, exec (.bsuPerfClear sl) s = .next u ∧
    RegsElsewhere [.BSU_PERF_bursts, .BSU_PERF_cap_wait, .BSU_PERF_commands] sl s u) ∧
  -- dramRecalibrationStep
  (∀ sl ch s, ∃ u, exec (.dramRecalibrationStep sl ch) s = .next u ∧
    (∀ j : Nat, j ≠ sl.val → u.sliceAt j = s.sliceAt j)) ∧
  -- kvFlPop
  (∀ sl s, ∃ u, exec (.kvFlPop sl) s = .next u ∧
    (∀ j : Nat, j ≠ sl.val → u.sliceAt j = s.sliceAt j) ∧ RegsElsewhere [.KV_FL_STAT_next_bank] sl s u) ∧
  -- kvFlPopb
  (∀ sl s, ∃ u, exec (.kvFlPopb sl) s = .next u ∧
    (∀ j : Nat, j ≠ sl.val → u.sliceAt j = s.sliceAt j)) ∧
  -- kvFlPush
  (∀ sl b fr s, ∃ u, exec (.kvFlPush sl b fr) s = .next u ∧
    (∀ j : Nat, j ≠ sl.val → u.sliceAt j = s.sliceAt j) ∧ RegsElsewhere [.KV_FL_STAT_dup_push] sl s u) ∧
  -- streamTokenGrant
  (∀ sl s, ∃ u, exec (.streamTokenGrant sl) s = .next u ∧
    (∀ j : Nat, j ≠ sl.val → u.sliceAt j = s.sliceAt j) ∧ ∀ m b, m * 128 + b < sl.val * 128 ∨ sl.val * 128 + 128 ≤ m * 128 + b → u.bankAt m b = s.bankAt m b) ∧
  -- rowBurst
  (∀ sl b ups s, ∃ u, exec (.rowBurst sl b ups) s = .next u ∧
    (∀ m k, m * 128 + k ≠ sl.val * 128 + b.val → u.bankAt m k = s.bankAt m k) ∧ RegsElsewhere [.BSU_PERF_bursts] sl s u) ∧
  -- selfRefreshEntry
  (∀ st s, ∃ u, exec (.selfRefreshEntry st) s = .next u ∧
    RegsElsewhere [.CRS_STAT_self_refresh] st s u) ∧
  -- selfRefreshExit
  (∀ st s, ∃ u, exec (.selfRefreshExit st) s = .next u ∧
    RegsElsewhere [.CRS_STAT_self_refresh] st s u ∧ ∀ j : Nat, j / 96 ≠ st.val → u.reg .MC_STAT_sr j = s.reg .MC_STAT_sr j) ∧
  -- clockSlewStep
  (∀ st r s, ∃ u, exec (.clockSlewStep st r) s = .next u ∧
    (∀ j : Nat, j ≠ st.val → u.stackAt j = s.stackAt j) ∧ RegsElsewhere [.CRS_STAT_slewing] st s u) ∧
  -- nocCtlApply
  (∀ st s, ∃ u, exec (.nocCtlApply st) s = .next u ∧
    (∀ j : Nat, j ≠ st.val → u.stackAt j = s.stackAt j) ∧ RegsElsewhere [.NOC_STAT_bad_route, .NOC_STAT_draining] st s u) ∧
  -- routeSwitch
  (∀ st dest s, ∃ u, exec (.routeSwitch st dest) s = .next u ∧
    (∀ j : Nat, j ≠ st.val → u.stackAt j = s.stackAt j) ∧ RegsElsewhere [.NOC_ROUTE_iod, .NOC_ROUTE_stack, .NOC_STAT_draining] st s u) ∧
  -- d2dTimeout
  (∀ st dest s, ∃ u, exec (.d2dTimeout st dest) s = .next u ∧
    RegsElsewhere [.NOC_STAT_timeouts] st s u) ∧
  -- fastThrottleEnd
  (∀ st s, ∃ u, exec (.fastThrottleEnd st) s = .next u ∧
    RegsElsewhere [.TH_STAT_fast] st s u) ∧
  -- fpCfgEnWrite
  (∀ p en s, ∃ u, exec (.fpCfgEnWrite p en) s = .next u ∧
    (∀ j : Nat, j / 4 ≠ p.val → u.subAt j = s.subAt j ∧ u.reg .SP_STAT_state j = s.reg .SP_STAT_state j) ∧ RegsElsewhere [.FP_CFG_en] p s u) ∧
  -- trainingAttemptEnd
  (∀ p k cause s, ∃ u, exec (.trainingAttemptEnd p k cause) s = .next u ∧
    (∀ j : Nat, j ≠ p.val * 4 + k.val → u.subAt j = s.subAt j) ∧ RegsElsewhere [.SP_STAT_attempts, .SP_STAT_cause, .SP_STAT_state] (p.val * 4 + k.val) s u) ∧
  -- failedRetry
  (∀ p k s, ∃ u, exec (.failedRetry p k) s = .next u ∧
    (∀ j : Nat, j ≠ p.val * 4 + k.val → u.subAt j = s.subAt j) ∧ RegsElsewhere [.SP_STAT_state] (p.val * 4 + k.val) s u) ∧
  -- subportAssayStart
  (∀ p k s, ∃ u, exec (.subportAssayStart p k) s = .next u ∧
    RegsElsewhere [.SP_STAT_state] (p.val * 4 + k.val) s u) ∧
  -- recalibrationStep
  (∀ p lane up s, ∃ u, exec (.recalibrationStep p lane up) s = .next u ∧
    (∀ j : Nat, j ≠ p.val → u.portAt j = s.portAt j)) ∧
  -- ldlPerfClear
  (∀ e s, ∃ u, exec (.ldlPerfClear e) s = .next u ∧
    RegsElsewhere [.LDL_PERF_bytes, .LDL_PERF_reg_wait] e s u) ∧
  -- fabPerfClear
  (∀ st s, ∃ u, exec (.fabPerfClear st) s = .next u ∧
    RegsElsewhere [.FAB_STRANGER_count, .FAB_AUTHFAIL_count, .FAB_RETX_count, .FAB_CE_count] st s u) ∧
  -- oldPhaseKeyExpiry
  (∀ cn s, ∃ u, exec (.oldPhaseKeyExpiry cn) s = .next u ∧
    (∀ j : Nat, j ≠ cn.val → u.connAt j = s.connAt j)) ∧
  -- congestionTick
  (∀ cn s, ∃ u, exec (.congestionTick cn) s = .next u ∧
    (∀ j : Nat, j ≠ cn.val → u.connAt j = s.connAt j)) ∧
  -- wqDbTailWrite
  (∀ f slot tail s, ∃ u, exec (.wqDbTailWrite f slot tail) s = .next u ∧
    (∀ k, k ≠ wqKey f slot → u.wqAt k = s.wqAt k) ∧ ∀ x, x ≠ (s.wqAt (wqKey f slot)).ctx → u.ctxAt x = s.ctxAt x) ∧
  -- egDoorbell
  (∀ g src s, ∃ u, exec (.egDoorbell g src) s = .next u ∧
    (∀ j : Nat, j ≠ g.val → u.gathAt j = s.gathAt j)) ∧
  -- egClaim
  (∀ g t s, ∃ u, exec (.egClaim g t) s = .next u ∧
    (∀ j : Nat, j ≠ g.val → u.gathAt j = s.gathAt j)) ∧
  -- egComplete
  (∀ g t src s, ∃ u, exec (.egComplete g t src) s = .next u ∧
    (∀ j : Nat, j ≠ g.val → j ≠ 96 → u.gathAt j = s.gathAt j) ∧ RegsElsewhere [.EG_STAT_bad_complete] g s u) ∧
  -- thConvReq
  (∀ t s, ∃ u, exec (.thConvReq t) s = .next u ∧
    RegsElsewhere [.TH_CONV_busy, .TH_WDOG_armed] t s u)

/-- A register access that acts on nothing else changes the one field it names. Rests on 00_scope.md. -/
def Obligations.RegisterAccessesChangeOneField : Prop :=
  -- registerWrite
  (∀ (r : Fld) (i : Nat) (v : Word) (s u : State), s.fieldExists r i = true → (r.info.unit = .site → s.coreOff (i / r.info.per) = false) →
    s.blockLive r i = true → u = (if r.info.unit = .site then run (settle (i / r.info.per)) s else s) → r.info.acc = .rw →
    (trigger r i).isNone = true → r ∉ [.CT_value, .MC_CFG_cache_en, .MC_CFG_refresh, .KV_FL_CTL_low, .CRS_CLK_core0_mhz,
      .CRS_CLK_core1_mhz, .REG_FAR_rate, .REG_FAR_burst, .REG_FAR_en, .REG_HOST_rate, .REG_HOST_burst, .REG_HOST_en, .REG_D2D_rate,
      .REG_D2D_burst, .REG_D2D_en, .REG_FAB_rate, .REG_FAB_burst, .REG_FAB_en, .WIN_CTL_flask, .EG_SRC_target, .EG_SRC_prio,
      .EG_HCTL_poll, .EG_HCTL_thresh, .EG_HVEC_prio, .EG_HVEC_vector, .MSIX_mask, .TH_CTL_fast_en, .FP_CFG_en, .FAB_CFG_en,
      .LDL_CH_head] → ¬(r.info.width = 13 ∧ blockOf r i = some 10) → (u.fieldBusy r i = false ∨ r.info.cls = .d) →
    ∃ t, exec (.registerWrite r i v) s = .next t ∧ t.reg r i = v.toNat % 2 ^ r.info.width ∧ (∀ j, j ≠ i → t.reg r j = u.reg r j) ∧
      OnlyChanges [] [r] u t) ∧
  -- registerWriteShadowed
  (∀ (r : Fld) (i : Nat) (v : Word) (s u : State), s.fieldExists r i = true → (r.info.unit = .site → s.coreOff (i / r.info.per) = false) →
    s.blockLive r i = true → u = (if r.info.unit = .site then run (settle (i / r.info.per)) s else s) → r.info.acc = .rw →
    (trigger r i).isNone = true → r.info.cls = .s → u.fieldBusy r i = true →
    ∃ t, exec (.registerWrite r i v) s = .next t ∧ t.shadow r i = some (v.toNat % 2 ^ r.info.width) ∧ OnlyChanges [.shad] [] u t) ∧
  -- registerWriteLocked
  (∀ (r : Fld) (i : Nat) (v : Word) (s u : State), s.fieldExists r i = true → (r.info.unit = .site → s.coreOff (i / r.info.per) = false) →
    s.blockLive r i = true → u = (if r.info.unit = .site then run (settle (i / r.info.per)) s else s) → r.info.acc = .rw →
    (trigger r i).isNone = true → r.info.cls = .l → u.fieldBusy r i = true →
    ∃ t, exec (.registerWrite r i v) s = .next t ∧
      OnlyChanges [] [.ARR_ERR_wlocked, .SEQ_STATUS_wlocked, .FP_STAT_wlocked, .FAB_STAT_wlocked] u t) ∧
  -- readClearCounter
  (∀ (r : Fld) (i : Nat) (s : State), s.fieldExists r i = true → s.blockLive r i = true → r.info.acc = .rc →
    r ∉ [.KV_FL_POP_valid, .KV_FL_POP_bank, .KV_FL_POP_frame, .KV_FL_POPB_valid, .KV_FL_POPB_bank, .KV_FL_POPB_frame, .EG_CLAIM_valid,
      .EG_CLAIM_prio, .EG_CLAIM_src] →
    ∃ t, exec (.readClearCounter r i) s = .next t ∧ t.reg r i = 0 ∧ (∀ j, j ≠ i → t.reg r j = s.reg r j) ∧ OnlyChanges [.rsp] [r] s t) ∧
  -- registerWriteIgnored
  (∀ (r : Fld) (i : Nat) (v : Word) (s : State), s.fieldExists r i = false → exec (.registerWrite r i v) s = .next s)

/-- A module reset keeps DRAM contents, fuses and flash with their records (R371); a loss of power keeps fuses and flash
(R638). Rests on 14_clocks_crossings_resets.md, 27_module_interface.md. -/
def Obligations.ResetsKeepWhatTheyDoNotReach : Prop :=
  -- coldBoot
  (∀ s, ∃ t, exec .coldBoot s = .next t ∧ (∀ p ∈ ([.pending, .rsp, .out, .fuse, .mem, .marks, .cfgSlots, .hmem, .retirements, .excl, .shut, .flashLog] : List Part), p.same s t) ∧ ∀ r i, r.info.dom = .dram → t.reg r i = s.reg r i) ∧
  -- resetN
  (∀ us s, ∃ t, exec (.resetN us) s = .next t ∧ (∀ p ∈ ([.pending, .rsp, .out, .fuse, .mem, .marks, .cfgSlots, .hmem, .retirements, .excl, .shut, .flashLog] : List Part), p.same s t) ∧ ∀ r i, r.info.dom = .dram → t.reg r i = s.reg r i) ∧
  -- powerUp
  (∀ mv s, ∃ t, exec (.powerUp mv) s = .next t ∧ (∀ p ∈ ([.pending, .rsp, .out, .fuse, .mem, .marks, .cfgSlots, .hmem, .retirements, .excl, .shut, .flashLog] : List Part), p.same s t) ∧ ∀ r i, r.info.dom = .dram → t.reg r i = s.reg r i) ∧
  -- iodTrip
  (∀ cause s, ∃ t, exec (.iodTrip cause) s = .next t ∧ (∀ p ∈ ([.pending, .rsp, .out, .fuse, .mem, .marks, .cfgSlots, .hmem, .retirements, .excl, .shut, .flashLog] : List Part), p.same s t) ∧ ∀ r i, r.info.dom = .dram → t.reg r i = s.reg r i) ∧
  -- powerLoss
  (∀ mv s, ∃ t, exec (.powerLoss mv) s = .next t ∧
    ∀ p ∈ ([.pending, .tick, .rsp, .out, .fuse, .cfgSlots, .hmem, .retirements, .excl, .shut, .flashLog] : List Part), p.same s t) ∧
  -- thCtlTrip
  (∀ st s, ∃ t, exec (.thCtlTrip st) s = .next t ∧
    ∀ p ∈ ([.pending, .rsp, .fuse, .cfgSlots, .hmem, .retirements, .excl, .shut, .flashLog] : List Part), p.same s t) ∧
  -- diodeDone
  (∀ th valid temp watts s, ∃ t, exec (.diodeDone th valid temp watts) s = .next t ∧
    ∀ p ∈ ([.pending, .rsp, .fuse, .cfgSlots, .hmem, .retirements, .excl, .shut, .flashLog] : List Part), p.same s t) ∧
  -- conversionWatchdog
  (∀ th s, ∃ t, exec (.conversionWatchdog th) s = .next t ∧
    ∀ p ∈ ([.pending, .rsp, .fuse, .cfgSlots, .hmem, .retirements, .excl, .shut, .flashLog] : List Part), p.same s t)

/-- A checked write changes no byte of memory that its issuer's flask does not own (R37-R39). Rests on
01_module_hierarchy.md. -/
def Obligations.WritesStayWithinTheFlask : Prop :=
  -- main
  (∀ iss addr hint data ups s, issChecked iss = true → ∃ t, exec (.memoryWrite iss addr hint data ups) s = .next t ∧
    ∀ b, (∀ fl, s.issFlask iss = some fl → s.memOwner (b / 64 * 64) ≠ some fl) → t.byteAt b = s.byteAt b)

/-- What a checked read returns depends on no byte of memory that its issuer's flask does not own (R37-R39). Rests on
01_module_hierarchy.md. -/
def Obligations.ReadsShowOnlyTheFlasksMemory : Prop :=
  -- main
  (∀ iss addr len hint ups (s : State) (m : Store Byte), issChecked iss = true →
    (∀ fl b, s.issFlask iss = some fl → s.memOwner (b / 64 * 64) = some fl → Store.get 0 m b = s.byteAt b) →
    ∃ t u, exec (.memoryRead iss addr len hint ups) s = .next t ∧ exec (.memoryRead iss addr len hint ups) { s with mem := m } = .next u ∧
      u.rsp = t.rsp)

/-- A word written to stacked memory is read back, whatever two or fewer of its stored bits fail in between (R214, R216,
R220). Rests on 08_error_correction.md, 07_stacked_memory.md. -/
def Obligations.ReadAfterWriteReturnsTheWord : Prop :=
  -- main
  (∀ iss iss' (addr : Nat) hint hint' (data : List Byte) (flips : BitVec 80) (s : State), addr % 8 = 0 → addr < stackedEnd → data.length = 8 →
    s.judge (srcOf iss) (issChecked iss) (s.issFlask iss) (addr / 64) = .ok →
    s.judge (srcOf iss') (issChecked iss') (s.issFlask iss') (addr / 64) = .ok →
    bit (s.sliceAt (addr / 2 ^ 30)).deadCh (chanOf (addr % 2 ^ 30)) = false →
    (∀ b, s.staleBytes (addr / 64) = some b → b.length = 64) → popcount flips.toNat 80 ≤ 2 →
    ∃ t u, exec (.memoryWrite iss addr hint data []) s = .next t ∧
      exec (.memoryRead iss' addr 8 hint' [⟨addr / 8, flips⟩]) t = .next u ∧ u.rsp = leBytes 0 4 ++ data)

/-- A programmed comparator is true while its relation holds on the signed 32-bit difference of its counter and its value
(R120). Formalises R120. -/
def Obligations.ComparatorsHoldByTheirRelation : Prop :=
  -- main
  (∀ (s : State) (n m : Nat) (d : Int), d = signed 32 (wrap 32 ((s.reg .CT_value (n * 8 + s.reg .CM_ct (n * 4 + m)) : Int) - s.reg .CM_value (n * 4 + m))) →
    (s.reg .CM_rel (n * 4 + m) = 0 → (s.cmTrue n m = true ↔ 0 ≤ d)) ∧ (s.reg .CM_rel (n * 4 + m) = 1 → (s.cmTrue n m = true ↔ d = 0)) ∧
      (s.reg .CM_rel (n * 4 + m) = 2 → (s.cmTrue n m = true ↔ d < 0)) ∧ (s.reg .CM_rel (n * 4 + m) = 3 → (s.cmTrue n m = true ↔ d ≠ 0)))

/-- A frame is the 32 KiB that shares offset bits [29:15], lies in one bank, and starts where R188 says. Formalises R188. -/
def Obligations.FramesAreTheirOffsetBits : Prop :=
  -- start
  (∀ n b f, n < 1152 → b < 128 → f < 256 → frameAddr n b f = n * 2 ^ 30 + f * 2 ^ 22 + (b % 16) * 2 ^ 18 + (b / 16) * 2 ^ 15 ∧
      frameAddr n b f / 2 ^ 30 = n ∧ bankOf (frameAddr n b f % 2 ^ 30) = b ∧ frameOf (frameAddr n b f % 2 ^ 30) = f ∧
      frameAddr n b f % 2 ^ 15 = 0) ∧
  -- shared
  (∀ a c, a < stackedEnd → a / 2 ^ 15 = c / 2 ^ 15 → keyOfAddr a = keyOfAddr c ∧ addrOfKey (keyOfAddr a) = a / 2 ^ 15 * 2 ^ 15)

/-- Negative zero is kept between floating-point formats and gives integer 0 (R54); a NaN gives +0 in a format without one
(R59); a block scale of 0xFF reads as NaN (R66). Formalises R54, R59, R66. -/
def Obligations.SpecialValuesConvert : Prop :=
  -- negativeZero
  (∀ a b sat, a < 8 → b < 8 → toFmt b sat (ofFmt a (2 ^ (fmtWidth a - 1))) = (2 ^ (fmtWidth b - 1), 0)) ∧
  -- negativeZeroInteger
  (∀ a b sat, a < 8 → fmtIsInt b = true → toFmt b sat (ofFmt a (2 ^ (fmtWidth a - 1))) = (0, 0)) ∧
  -- nan
  (∀ b sat, 5 ≤ b → b ≤ 10 → (toFmt b sat .nan).1 = 0) ∧
  -- scale
  (∀ fmt c, scaledFV (ofFmt fmt c) 0xFF = .nan)

/-- EG_CLAIM returns the eligible source of highest priority, ties broken in favour of the lower number, and makes it
active; EG_COMPLETE ends that (R535). Formalises R535. -/
def Obligations.ClaimsTakeTheHighestSource : Prop :=
  -- claim
  (∀ (g : GathIx) (tg : Fin 3) (s : State), s.gathUp g = true → targetExists g tg = true → s.eligible g tg ≠ [] →
    ∃ n ∈ s.eligible g tg, (∀ k ∈ s.eligible g tg, s.srcPrio g k ≤ s.srcPrio g n ∧ (s.srcPrio g k = s.srcPrio g n → n ≤ k)) ∧
      ∃ t, exec (.egClaim g tg) s = .next t ∧ t.rsp = leBytes (2 ^ 31 + s.srcPrio g n * 2 ^ 16 + n) 4 ∧
        (t.gathAt g).pend = (s.gathAt g).pend.filter (· != n) ∧ n ∈ (t.gathAt g).act) ∧
  -- claimNone
  (∀ (g : GathIx) (tg : Fin 3) (s : State), s.gathUp g = true → targetExists g tg = true → s.eligible g tg = [] →
    exec (.egClaim g tg) s = .next { s with rsp := leBytes 0 4 }) ∧
  -- complete
  (∀ (g : GathIx) (tg : Fin 3) (src : BitVec 10) (s : State), s.gathUp g = true → targetExists g tg = true →
    s.flag .EG_TGT_mode (g * 4 + tg) = false → src.toNat ∈ (s.gathAt g).act → hostOfSource g src.toNat = none →
    ∃ t, exec (.egComplete g tg src) s = .next t ∧ t.gathAt g = { s.gathAt g with act := (s.gathAt g).act.filter (· != src.toNat) }) ∧
  -- completeHost
  (∀ (tg : Fin 3) (src : BitVec 10) (s : State) (h : Nat × Nat), s.gathUp 96 = true → targetExists 96 tg = true →
    s.flag .EG_TGT_mode (96 * 4 + tg) = false → src.toNat ∈ (s.gathAt 96).act → hostOfSource 96 src.toNat = some h →
    ∃ t, exec (.egComplete 96 tg src) s = .next t ∧
      (src.toNat ∈ (t.gathAt 96).act → src.toNat ∈ (s.gathAt 96).pend ∧ src.toNat ∉ (t.gathAt 96).pend)) ∧
  -- completeBad
  (∀ (g : GathIx) (tg : Fin 3) (src : BitVec 10) (s : State), s.gathUp g = true → targetExists g tg = true →
    s.flag .EG_TGT_mode (g * 4 + tg) = false → src.toNat ∉ (s.gathAt g).act →
    ∃ t, exec (.egComplete g tg src) s = .next t ∧ t.gath = s.gath ∧ t.reg .EG_STAT_bad_complete g = 1)

/-- A source is eligible in CLAIM mode when it is pending, above the threshold and above the running level (R534). Rests on
22_event_gatherer.md. -/
def Obligations.SourcesAreEligible : Prop :=
  -- main
  (∀ (s : State) (g t n : Nat), s.flag .EG_TGT_mode (g * 4 + t) = false →
    (n ∈ s.eligible g t ↔ n ∈ (s.gathAt g).pend ∧ s.srcTarget g n = t ∧ s.reg .EG_TGT_thresh (g * 4 + t) < s.srcPrio g n ∧
      ∀ k ∈ (s.gathAt g).act, s.srcTarget g k = t → s.srcPrio g k < s.srcPrio g n))

/-- Every conversion of a finite value that overflows nothing gives the nearest code of the target, ties to even (R56).
Formalises R56. -/
def Obligations.ConversionsRoundToNearest : Prop :=
  -- main
  (∀ fmt sat neg m e, fmt ≤ 10 → (toFmt fmt sat (.fin neg m e)).2 = 0 → Nearest fmt (FV.rat (.fin neg m e)) (toFmt fmt sat (.fin neg m e)).1)

/-- Every code that is no NaN returns from FP32 as it was, subnormals with the rest: widening is exact (R53, R57). Rests on
02_number_formats.md. -/
def Obligations.CodesSurviveFP32 : Prop :=
  -- main
  (∀ fmt sat c, fmt ≤ 10 → c < 2 ^ fmtWidth fmt → ofFmt fmt c ≠ .nan →
    (toF32 (ofFmt fmt c)).2 = 0 ∧ toFmt fmt sat (ofFmt 0 (toF32 (ofFmt fmt c)).1) = (c, 0))

/-- FP32 sums, products and fused multiply-adds of finite codes that overflow nothing are the exact result rounded once
(R75). Rests on 02_number_formats.md, 06_vector_unit.md. -/
def Obligations.ArithmeticRoundsOnce : Prop :=
  -- add
  (∀ a b, (ofFmt 0 a).finite = true → (ofFmt 0 b).finite = true → (add32 a b).2 = 0 → Nearest 0 ((ofFmt 0 a).rat + (ofFmt 0 b).rat) (add32 a b).1) ∧
  -- sub
  (∀ a b, (ofFmt 0 a).finite = true → (ofFmt 0 b).finite = true → (sub32 a b).2 = 0 → Nearest 0 ((ofFmt 0 a).rat - (ofFmt 0 b).rat) (sub32 a b).1) ∧
  -- mul
  (∀ a b, (ofFmt 0 a).finite = true → (ofFmt 0 b).finite = true → (mul32 a b).2 = 0 → Nearest 0 ((ofFmt 0 a).rat * (ofFmt 0 b).rat) (mul32 a b).1) ∧
  -- fma
  (∀ a b c, (ofFmt 0 a).finite = true → (ofFmt 0 b).finite = true → (ofFmt 0 c).finite = true → (fma32 a b c).2 = 0 →
    Nearest 0 ((ofFmt 0 a).rat * (ofFmt 0 b).rat + (ofFmt 0 c).rat) (fma32 a b c).1)

/-- No command lowers the fused security-version floor, a checkpoint thermometer or the LIC counter, or changes a fuse
(R614, R617). Rests on 26_security_and_licences.md. -/
def Obligations.FusedCountsNeverFall : Prop :=
  -- main
  (∀ (c : Instr) (s : State), ∃ t, exec c s = .next t ∧ t.fuse = s.fuse ∧ s.sec.floor ≤ t.sec.floor ∧ s.sec.bootBurnt ≤ t.sec.bootBurnt ∧
    s.sec.licBurnt ≤ t.sec.licBurnt ∧ s.sec.lic ≤ t.sec.lic)

/-- A region that a deferred request takes from its flask holds zeros everywhere once it is unowned (R41, R505). Rests on
01_module_hierarchy.md, 21_contexts_and_flasks.md. -/
def Obligations.ReleasedRegionsAreZero : Prop :=
  -- main
  (∀ (f : FnIx) (s : State) (r : Nat), r < 18432 + 65536 → ∃ t, exec (.deferredCompletion f) s = .next t ∧ (s.ownerAt r ≠ none → t.ownerAt r = none →
    ∀ b, regionAddr r ≤ b → b < regionAddr r + 2 ^ 26 → t.byteAt b = 0))

/-- After a fabric-plane reset, and after a module reset, the entries hold the default routes (R350). Formalises R350. -/
def Obligations.FabricPlaneResetGivesDefaultRoutes : Prop :=
  -- reset
  (∀ (st d : Fin 12), State.reset.reg .NOC_ROUTE_iod st = 0 ∧ State.reset.routeOf st d = if (d.val + 12 - st.val) % 12 = 0 then 0
    else if (d.val + 12 - st.val) % 12 ≤ 2 then 1 else if 10 ≤ (d.val + 12 - st.val) % 12 then 2 else 3) ∧
  -- fabricPlane
  (∀ (st : StackIx) (s : State), s.misc.phase ≠ 0 → (s.stackAt st).out = false → (s.stackAt st).causes = 0 →
    ∃ t, exec (.crsRstFp st) s = .next t ∧ t.reg .NOC_ROUTE_iod st = 0 ∧ ∀ d : Fin 12, t.routeOf st d =
      if (d.val + 12 - st.val) % 12 = 0 then 0 else if (d.val + 12 - st.val) % 12 ≤ 2 then 1
      else if 10 ≤ (d.val + 12 - st.val) % 12 then 2 else 3)

/-- Firmware accepts a tail only within the checks of R501, raises WQ_FAULT for another, ignores a slot that holds no
queue, and starts a new queue at 0. Rests on 20_mailbox_protocol.md. -/
def Obligations.WorkQueueTailsAreChecked : Prop :=
  -- accepted
  (∀ (f : FnIx) (slot : Fin 256) (tail : BitVec 32) (s : State) (q : WqSt), q = s.wqAt (wqKey f slot) → s.misc.linkUp = true →
    s.fnOn f = true → q.on = true → q.dying = false → 0 ≤ signed 32 (wrap 32 ((tail.toNat : Int) - q.tail)) →
    wrap 32 ((tail.toNat : Int) - q.completed) ≤ 2 ^ q.log2 →
    ∃ t, exec (.wqDbTailWrite f slot tail) s = .next t ∧ t.wqAt (wqKey f slot) = { q with tail := tail.toNat } ∧ t.note = s.note) ∧
  -- refused
  (∀ (f : FnIx) (slot : Fin 256) (tail : BitVec 32) (s : State) (q : WqSt), q = s.wqAt (wqKey f slot) → s.misc.linkUp = true →
    s.fnOn f = true → q.on = true → q.dying = false → (signed 32 (wrap 32 ((tail.toNat : Int) - q.tail)) < 0 ∨
      2 ^ q.log2 < wrap 32 ((tail.toNat : Int) - q.completed)) →
    ∃ t, exec (.wqDbTailWrite f slot tail) s = .next t ∧ t.wq = s.wq ∧
      t.reg .EG_HNOTE_wr_seq f = (s.reg .EG_HNOTE_wr_seq f + 1) % 2 ^ Fld.EG_HNOTE_wr_seq.info.width ∧
      Store.get 0 t.note (f * 128 + s.reg .EG_HNOTE_wr_seq f % 128) =
        q.num % 2 ^ 32 + 3 * 2 ^ 32 + s.reg .EG_HNOTE_wr_seq f * 2 ^ 64) ∧
  -- noQueue
  (∀ (f : FnIx) (slot : Fin 256) (tail : BitVec 32) (s : State), (s.wqAt (wqKey f slot)).on = false →
    exec (.wqDbTailWrite f slot tail) s = .next s) ∧
  -- created
  (∀ (f : FnIx) (s : State) (r : Req) (q k : Nat), RequestDue s f 0x0112 r → field r.body 0 8 % 4096 = 0 →
    4 ≤ field r.body 8 1 → field r.body 8 1 ≤ 16 → r.ctx ≠ 0xFFFF → findNat (fun q => !(s.wqAt (wqKey f q)).on) 256 0 = some q →
    findNat (fun k => !(s.wq.any (fun p => p.2.on && p.2.num == k))) 4096 0 = some k →
    ∃ t, exec (.queueCreate f) s = .next t ∧ (t.wqAt (wqKey f q)).tail = 0)

/-- A core reset empties every queue and disables it; a flush empties the queues it names, and is ignored while the
sequencer runs (R151). Formalises R151. -/
def Obligations.CoreResetsEmptyQueues : Prop :=
  -- coreReset
  (∀ (n : SiteIx) (s : State), s.coreOff n = false → s.clusterHeld (n / 12) = false → ∃ t, exec (.crsCoreGo n) s = .next t ∧
    ∀ q, q < 16 → t.queueAt n q = {} ∧ t.ring n q = none) ∧
  -- flush
  (∀ (n : SiteIx) (m : BitVec 16) (s : State), s.coreLive n = true → (s.seqState n = 0 ∨ s.seqState n = 6 ∨ s.seqState n = 7) →
    ∃ t, exec (.qCtlFlush n m) s = .next t ∧ ∀ q, q < 16 → t.queueAt n q = if bit m.toNat q then {} else s.queueAt n q) ∧
  -- ignored
  (∀ (n : SiteIx) (m : BitVec 16) (s : State), s.seqState n ≠ 0 → s.seqState n ≠ 6 → s.seqState n ≠ 7 →
    exec (.qCtlFlush n m) s = .next s)

/-- A step takes the command at the front of the queue and runs it on the state with the rest of the queue. Rests on
INDEX.md. -/
def Obligations.StepRunsTheFrontCommand : Prop :=
  -- main
  (∀ (s : State) (c : Instr) (rest : List Instr), s.pending = c :: rest → step s = exec c { s with pending := rest })

/-- With no command waiting the block idles (the model's choice: log entry 1). Rests on INDEX.md. -/
def Obligations.StepIdlesOnAnEmptyQueue : Prop :=
  -- main
  (∀ s : State, s.pending = [] → step s = .next s)

/-- Every command, in every state, answers a next state; it leaves the queue and the fuses alone, and takes back no message
sent and no free value taken. Rests on 00_scope.md, 95_what_each_step_holds.md. -/
def Obligations.EveryCommandCompletes : Prop :=
  -- main
  (∀ (c : Instr) (s : State), ∃ t, exec c s = .next t ∧ t.pending = s.pending ∧ t.fuse = s.fuse ∧ s.out <+: t.out ∧ s.tick ≤ t.tick)

/-- A step from a canonical state gives a canonical state: memory and every table list rising keys and nothing at its reset
value. Rests on 07_stacked_memory.md, 00_scope.md. -/
def Obligations.StepKeepsCanonicalForm : Prop :=
  -- main
  (∀ s t : State, s.Canonical → step s = .next t → t.Canonical)

/-- The state after reset is canonical. Rests on 07_stacked_memory.md, 00_scope.md. -/
def Obligations.ResetIsCanonical : Prop :=
  -- main
  (State.reset.Canonical)

/-- From a state whose register fields, live and shadow, fit the widths of their tables, a step gives such a state (R20).
Rests on 00_scope.md. -/
def Obligations.StepKeepsRegistersWithinTheirFields : Prop :=
  -- main
  (∀ s t : State, s.Fit → step s = .next t → t.Fit)

/-- After reset every register field holds the value of its table (the fields the spec gives a value), and every table of
units is empty. Rests on 00_scope.md, 07_stacked_memory.md, 13_on_package_network.md, 14_clocks_crossings_resets.md,
15_io_die.md, 17_fabric_ports.md, 18_fabric_transport.md, 22_event_gatherer.md, 25_thermal_and_cooling.md. -/
def Obligations.RegistersResetToTheirTables : Prop :=
  -- values
  (∀ i : Nat,
      State.reset.reg .MC_CFG_keep_max i = 3 ∧ State.reset.reg .MC_CFG_cache_en i = 1 ∧ State.reset.reg .MC_CFG_refresh i = 1 ∧
      State.reset.reg .MC_STAT_refresh i = 1 ∧ State.reset.reg .ECC_SCRUB_period i = 8 ∧ State.reset.reg .ECC_SCRUB_en i = 1 ∧
      State.reset.reg .BSU_CAP_streams i = 32 ∧ State.reset.reg .NOC_CTL_retry_thresh i = 64 ∧ State.reset.reg .NOC_CTL_auto_en i =
      1 ∧ State.reset.reg .CRS_CLK_core1_mhz i = 1100 ∧ State.reset.reg .CRS_CLK_core0_mhz i = 1100 ∧ State.reset.reg
      .REG_FAR_burst i = 64 ∧ State.reset.reg .REG_HOST_burst i = 64 ∧ State.reset.reg .FP_CFG_an_en i = 1 ∧ State.reset.reg
      .FP_QUAL_uc_max i = 16 ∧ State.reset.reg .FP_QUAL_win_full i = 37 ∧ State.reset.reg .FP_QUAL_win_short i = 33 ∧
      State.reset.reg .FP_QUAL_deg_mant i = 1 ∧ State.reset.reg .FP_QUAL_deg_exp i = 4 ∧ State.reset.reg .FP_QUAL_qual_mant i = 1 ∧
      State.reset.reg .FP_QUAL_qual_exp i = 5 ∧ State.reset.reg .FP_CTL_recal_en i = 1 ∧ State.reset.reg .FAB_CFG_udp_port i =
      47530 ∧ State.reset.reg .FAB_CFG_retry_max i = 15 ∧ State.reset.reg .FAB_CFG_paths i = 4 ∧ State.reset.reg .FAB_CFG_mtu i = 3
      ∧ State.reset.reg .FAB_TIME_setup_ms i = 200 ∧ State.reset.reg .FAB_TIME_drain_ms i = 50 ∧ State.reset.reg .FAB_TIME_idle_s i
      = 10 ∧ State.reset.reg .FAB_TIME_ack_us i = 2 ∧ State.reset.reg .FAB_TIME_rto_min_us i = 20 ∧ State.reset.reg .FAB_CC_r_init
      i = 250 ∧ State.reset.reg .FAB_CC_r_ai i = 5 ∧ State.reset.reg .FAB_CC_r_min i = 1 ∧ State.reset.reg .FAB_CC_g_shift i = 4 ∧
      State.reset.reg .REG_D2D_burst i = 64 ∧ State.reset.reg .REG_FAB_burst i = 64 ∧ State.reset.reg .EG_TGT_mode i = 1 ∧
      State.reset.reg .EG_HCTL_poll i = 1 ∧ State.reset.reg .EG_HVEC_prio i = 1 ∧ State.reset.reg .TH_LIM_hw_trip i = 896 ∧
      State.reset.reg .TH_CTL_fast_en i = 1 ∧ State.reset.reg .TH_FAST_limit_w i = 400 ∧ State.reset.reg .MSIX_mask i = 1) ∧
  -- zero
  (∀ (r : Fld) (i : Nat), r ∉ [.CM_true, .NOC_ROUTE_stack, .NOC_ROUTE_NEXT_stack,
        .MC_CFG_keep_max, .MC_CFG_cache_en, .MC_CFG_refresh, .MC_STAT_refresh, .ECC_SCRUB_period, .ECC_SCRUB_en,
        .BSU_CAP_streams, .NOC_CTL_retry_thresh, .NOC_CTL_auto_en, .CRS_CLK_core1_mhz, .CRS_CLK_core0_mhz, .REG_FAR_burst,
        .REG_HOST_burst, .FP_CFG_an_en, .FP_QUAL_uc_max, .FP_QUAL_win_full, .FP_QUAL_win_short, .FP_QUAL_deg_mant,
        .FP_QUAL_deg_exp, .FP_QUAL_qual_mant, .FP_QUAL_qual_exp, .FP_CTL_recal_en, .FAB_CFG_udp_port, .FAB_CFG_retry_max,
        .FAB_CFG_paths, .FAB_CFG_mtu, .FAB_TIME_setup_ms, .FAB_TIME_drain_ms, .FAB_TIME_idle_s, .FAB_TIME_ack_us,
        .FAB_TIME_rto_min_us, .FAB_CC_r_init, .FAB_CC_r_ai, .FAB_CC_r_min, .FAB_CC_g_shift, .REG_D2D_burst, .REG_FAB_burst,
        .EG_TGT_mode, .EG_HCTL_poll, .EG_HVEC_prio, .TH_LIM_hw_trip, .TH_CTL_fast_en, .TH_FAST_limit_w, .MSIX_mask] →
      State.reset.reg r i = 0) ∧
  -- empty
  (State.reset.pending = [] ∧ State.reset.mem = [] ∧ State.reset.fifo = [] ∧ State.reset.lasting = [])

/-- The opcode table gives no row bits, so no word spells a command and nothing is put at the front of the queue (log entry
2). Rests on INDEX.md. -/
def Obligations.TheTableSpellsNoWord : Prop :=
  -- main
  (∀ (n w : Nat) (s : State), decodeTableWord n w = none ∧ s.withFetchWord n w = s)

/-- An access whose lines are all unmapped, or all fail the check of R39, is suppressed: a read returns zeros, a write
changes nothing, the status is DENIED (R34, R39). Rests on 01_module_hierarchy.md. -/
def Obligations.SuppressedAccessesReadZeros : Prop :=
  -- read
  (∀ iss (addr len : Nat) hint (s : State), 0 < len →
    (∀ l ∈ linesOf addr len, s.judge (srcOf iss) (issChecked iss) (s.issFlask iss) l = .unmapped ∨
      s.judge (srcOf iss) (issChecked iss) (s.issFlask iss) l = .protection) →
    ∃ t, exec (.memoryRead iss addr len hint []) s = .next t ∧ t.rsp = leBytes stDenied 4 ++ List.replicate len 0 ∧ t.mem = s.mem) ∧
  -- write
  (∀ iss (addr : Nat) hint (data : List Byte) (s : State), data ≠ [] →
    (∀ l ∈ linesOf addr data.length, s.judge (srcOf iss) (issChecked iss) (s.issFlask iss) l = .unmapped ∨
      s.judge (srcOf iss) (issChecked iss) (s.issFlask iss) l = .protection) →
    ∃ t, exec (.memoryWrite iss addr hint data []) s = .next t ∧ t.rsp = leBytes stDenied 4 ∧ t.mem = s.mem) ∧
  -- unmapped
  (∀ (s : State) src chk fl l, s.target (l * 64) = .none → s.judge src chk fl l = .unmapped) ∧
  -- foreign
  (∀ (s : State) src fl l, s.target (l * 64) ≠ .none → s.unreachable (l * 64) = false → s.pathUp src (s.homeOf (l * 64)) = true →
    (s.judge src true fl l = .ok ↔ fl ≠ none ∧ s.memOwner (l * 64) = fl))
end

