-- ==== Sys2Proof/Laws/Store.lean ====
section
/-! SUPPORT. Sparse tables: what a read gives after a write, and that every operation keeps the canonical form. -/
namespace Sys2Proof.Machine

variable {α : Type}

/-- Keys rise strictly, as a pairwise relation. -/
theorem Store.sorted_iff (m : Store α) :
    Store.sorted m = true ↔ m.Pairwise (fun p q => p.1 < q.1) := by
  induction m with
  | nil => simp [Store.sorted]
  | cons p m ih =>
    match m with
    | [] => simp [Store.sorted]
    | q :: m =>
      obtain ⟨a, v⟩ := p
      obtain ⟨b, w⟩ := q
      rw [Store.sorted, Bool.and_eq_true, ih, List.pairwise_cons (a := (a, v))]
      refine ⟨fun ⟨h, h1⟩ => ⟨fun x hx => ?_, h1⟩, fun ⟨h, h1⟩ => ⟨?_, h1⟩⟩
      · have hab : a < b := by simpa using h
        rcases List.mem_cons.mp hx with rfl | hx
        · exact hab
        · exact Nat.lt_trans hab ((List.pairwise_cons.mp h1).1 x hx)
      · simpa using h (b, w) (by simp)

/-- Keys of an inserted table are the old ones and the new one. -/
theorem Store.mem_put {a : Nat} {v : α} {m : Store α} {p : Nat × α} (h : p ∈ Store.put a v m) :
    p = (a, v) ∨ p ∈ m := by
  induction m with
  | nil => simpa [Store.put] using h
  | cons q m ih =>
    obtain ⟨k, w⟩ := q
    unfold Store.put at h
    split at h
    · simpa using h
    · split at h
      · rcases List.mem_cons.mp h with h | h
        · exact .inl h
        · exact .inr (List.mem_cons_of_mem _ h)
      · rcases List.mem_cons.mp h with h | h
        · exact .inr (by simp [h])
        · rcases ih h with h | h
          · exact .inl h
          · exact .inr (List.mem_cons_of_mem _ h)

theorem Store.sorted_put {a : Nat} {v : α} {m : Store α} (h : Store.sorted m = true) :
    Store.sorted (Store.put a v m) = true := by
  rw [Store.sorted_iff] at *
  induction m with
  | nil => simp [Store.put]
  | cons q m ih =>
    obtain ⟨k, w⟩ := q
    rw [List.pairwise_cons] at h
    unfold Store.put
    split
    · rename_i hlt
      refine List.pairwise_cons.mpr ⟨fun x hx => ?_, List.pairwise_cons.mpr h⟩
      rcases List.mem_cons.mp hx with rfl | hx
      · exact hlt
      · exact Nat.lt_trans hlt (h.1 x hx)
    · split
      · rename_i hak
        subst hak
        exact List.pairwise_cons.mpr h
      · refine List.pairwise_cons.mpr ⟨fun x hx => ?_, ih h.2⟩
        rcases Store.mem_put hx with rfl | hx
        · simp only; omega
        · exact h.1 x hx

theorem Store.sorted_filter {m : Store α} (p : Nat × α → Bool) (h : Store.sorted m = true) :
    Store.sorted (m.filter p) = true := by
  rw [Store.sorted_iff] at *
  exact h.filter p

/-- The canonical form, spelt out: keys rise, and no entry holds what an unlisted key reads as. -/
theorem Store.wfBy_iff [DecidableEq α] {d : Nat → α} {m : Store α} :
    Store.wfBy d m = true ↔ Store.sorted m = true ∧ ∀ p ∈ m, p.2 ≠ d p.1 := by
  simp [Store.wfBy]

theorem Store.wf_iff [DecidableEq α] {d : α} {m : Store α} :
    Store.wf d m = true ↔ Store.sorted m = true ∧ ∀ p ∈ m, p.2 ≠ d := Store.wfBy_iff

theorem Store.sorted_set [DecidableEq α] {d : α} {a : Nat} {v : α} {m : Store α} (h : Store.sorted m = true) :
    Store.sorted (Store.set d a v m) = true := by
  unfold Store.set
  split
  · exact Store.sorted_filter _ h
  · exact Store.sorted_put h

theorem Store.mem_set [DecidableEq α] {d : α} {a : Nat} {v : α} {m : Store α} {p : Nat × α}
    (h : p ∈ Store.set d a v m) : (p = (a, v) ∧ v ≠ d) ∨ (p ∈ m ∧ (v = d → p.1 ≠ a)) := by
  unfold Store.set at h
  split at h
  · rename_i hv
    rw [Store.del, List.mem_filter] at h
    exact .inr ⟨h.1, fun _ => by simpa using h.2⟩
  · rename_i hv
    rcases Store.mem_put h with h | h
    · exact .inl ⟨h, hv⟩
    · exact .inr ⟨h, fun he => absurd he hv⟩

/-- Writing keeps the canonical form. -/
theorem Store.wf_set [DecidableEq α] {d : α} {a : Nat} {v : α} {m : Store α} (h : Store.wf d m = true) :
    Store.wf d (Store.set d a v m) = true := by
  rw [Store.wf_iff] at *
  refine ⟨Store.sorted_set h.1, fun p hp => ?_⟩
  rcases Store.mem_set hp with ⟨rfl, hv⟩ | ⟨hp, -⟩
  · exact hv
  · exact h.2 p hp

/-- Clearing keeps the canonical form. -/
theorem Store.wf_clear [DecidableEq α] {d : α} {p : Nat → Bool} {m : Store α} (h : Store.wf d m = true) :
    Store.wf d (Store.clear p m) = true := by
  rw [Store.wf_iff] at *
  exact ⟨Store.sorted_filter _ h.1, fun q hq => h.2 q (List.mem_filter.mp hq).1⟩

/-- Writing bytes keeps the canonical form of a byte memory. -/
theorem putBytes_wf {m : Store Byte} (a : Nat) (d : List Byte) (h : Store.wf 0 m = true) :
    Store.wf 0 (putBytes m a d) = true := by
  induction d generalizing m a with
  | nil => exact h
  | cons b bs ih => exact ih (a + 1) (Store.wf_set h)

theorem Store.get_put (d : α) (a : Nat) (v : α) (m : Store α) (b : Nat) (h : Store.sorted m = true) :
    Store.get d (Store.put a v m) b = if a = b then v else Store.get d m b := by
  rw [Store.sorted_iff] at h
  induction m with
  | nil => simp [Store.put, Store.get]
  | cons q m ih =>
    obtain ⟨k, w⟩ := q
    rw [List.pairwise_cons] at h
    unfold Store.put
    split
    · simp [Store.get]
    · split
      · rename_i hak; subst hak
        simp only [Store.get]; split <;> rfl
      · rename_i hn hk
        simp only [Store.get, ih h.2]
        split
        · rename_i hkb; subst hkb; simp [hk]
        · rfl

/-- An unlisted key reads as the default. -/
theorem Store.get_not_mem {d : α} {m : Store α} {b : Nat} (h : ∀ p ∈ m, p.1 ≠ b) : Store.get d m b = d := by
  induction m with
  | nil => rfl
  | cons q m ih =>
    obtain ⟨k, w⟩ := q
    have hk : k ≠ b := h (k, w) (by simp)
    simp only [Store.get, hk, if_false]
    exact ih fun p hp => h p (List.mem_cons_of_mem _ hp)

theorem Store.get_filter (d : α) (p : Nat → Bool) (m : Store α) (b : Nat) :
    Store.get d (m.filter fun x => p x.1) b = if p b then Store.get d m b else d := by
  induction m with
  | nil => simp [Store.get]
  | cons q m ih =>
    obtain ⟨k, w⟩ := q
    by_cases hk : p k = true
    · rw [List.filter_cons_of_pos (by simpa using hk)]
      simp only [Store.get, ih]
      by_cases hb : k = b
      · subst hb; simp [hk]
      · simp [hb]
    · rw [List.filter_cons_of_neg (by simpa using hk), ih]
      by_cases hb : k = b
      · subst hb; simp [hk]
      · simp [Store.get, hb]

theorem Store.get_clear (d : α) (p : Nat → Bool) (m : Store α) (b : Nat) :
    Store.get d (Store.clear p m) b = if p b then d else Store.get d m b := by
  unfold Store.clear
  rw [Store.get_filter d (fun k => !p k)]
  cases p b <;> rfl

/-- A read after a write: the value at the key written, what was there elsewhere. -/
theorem Store.get_set [DecidableEq α] (d : α) (a : Nat) (v : α) (m : Store α) (b : Nat) (h : Store.sorted m = true) :
    Store.get d (Store.set d a v m) b = if a = b then v else Store.get d m b := by
  unfold Store.set
  split
  · rename_i hv
    subst hv
    unfold Store.del
    rw [Store.get_filter v (fun k => k != a)]
    by_cases hb : b = a
    · simp [hb]
    · have : ¬a = b := fun h => hb h.symm
      simp [hb, this]
  · exact Store.get_put d a v m b h

/-- A read at the key just written, whatever form the table has. -/
theorem Store.get_put_same (d : α) (a : Nat) (v : α) (m : Store α) : Store.get d (Store.put a v m) a = v := by
  induction m with
  | nil => simp [Store.put, Store.get]
  | cons q m ih =>
    obtain ⟨k, w⟩ := q
    unfold Store.put
    split
    · simp [Store.get]
    · split
      · simp [Store.get]
      · rename_i h
        have : ¬k = a := fun e => h e.symm
        simp [Store.get, this, ih]

/-- A write leaves every other key alone, whatever form the table has. -/
theorem Store.get_put_other (d : α) {a b : Nat} (v : α) (m : Store α) (h : a ≠ b) :
    Store.get d (Store.put a v m) b = Store.get d m b := by
  induction m with
  | nil => simp [Store.put, Store.get, h]
  | cons q m ih =>
    obtain ⟨k, w⟩ := q
    unfold Store.put
    split
    · simp [Store.get, h]
    · split
      · rename_i hk; subst hk; simp [Store.get, h]
      · simp only [Store.get, ih]

@[simp] theorem Store.get_set_same [DecidableEq α] (d : α) (a : Nat) (v : α) (m : Store α) :
    Store.get d (Store.set d a v m) a = v := by
  unfold Store.set
  split
  · rename_i hv
    unfold Store.del
    rw [Store.get_filter d (fun k => k != a)]
    simp [hv]
  · exact Store.get_put_same d a v m

theorem Store.get_set_other [DecidableEq α] (d : α) {d' : α} {a b : Nat} (v : α) (m : Store α) (h : a ≠ b) :
    Store.get d (Store.set d' a v m) b = Store.get d m b := by
  unfold Store.set
  split
  · unfold Store.del
    rw [Store.get_filter d (fun k => k != a)]
    have : b ≠ a := fun e => h e.symm
    simp [this]
  · exact Store.get_put_other d v m h

/-- Bytes outside a block that is written read as before. -/
theorem putBytes_get_other (m : Store Byte) (a : Nat) (d : List Byte) (b : Nat) (h : b < a ∨ a + d.length ≤ b) :
    Store.get 0 (putBytes m a d) b = Store.get 0 m b := by
  induction d generalizing m a with
  | nil => rfl
  | cons x xs ih =>
    rw [List.length_cons] at h
    rw [putBytes, ih _ _ (by omega), Store.get_set_other _ _ _ (by omega)]

/-- Each byte of a block that is written reads as written. -/
theorem putBytes_get (m : Store Byte) (a : Nat) (d : List Byte) (k : Nat) (h : k < d.length) :
    Store.get 0 (putBytes m a d) (a + k) = d[k] := by
  induction d generalizing m a k with
  | nil => simp at h
  | cons x xs ih =>
    rw [putBytes]
    match k with
    | 0 => rw [putBytes_get_other _ _ _ _ (by omega)]; simp
    | k + 1 =>
      have := ih (Store.set 0 a x m) (a + 1) k (by simpa using h)
      rw [show a + 1 + k = a + (k + 1) by omega] at this
      simpa using this

end Sys2Proof.Machine
end

