-- ==== Sys2Proof/Laws/State.lean ====
section
/-! SUPPORT. State's own small lemmas: which part a primitive update changes, that it leaves every other part alone (one
lemma a part), and what the part it changes becomes (one lemma an update). -/
namespace Sys2Proof.Machine

/-- Does a primitive update change a part of State? -/
def Upd.touches : Upd → Part → Bool
  | .tick, p => p == .tick
  | .rsp _, p => p == .rsp
  | .emit _, p => p == .out
  | .misc _, p => p == .misc
  | .reg _ _ _, p => p == .regs
  | .shad _ _ _, p => p == .shad
  | .unshad _ _, p => p == .shad
  | .clearRegs _, p => p == .regs || p == .shad
  | .bytes _ _, p => p == .mem
  | .zero _ _, p => p == .mem
  | .mark _ _, p => p == .marks
  | .clearMarks _ _, p => p == .marks
  | .clearWb _ _, p => p == .wb
  | .wb _ _, p => p == .wb
  | .cache _ _, p => p == .cache
  | .clearCache _, p => p == .cache
  | .openRow _ _, p => p == .openRow
  | .slice _ _, p => p == .slice
  | .owner _ _, p => p == .owner
  | .cluster _ _, p => p == .cluster
  | .stack _ _, p => p == .stack
  | .members _, p => p == .members
  | .hwAdds _, p => p == .hwAdds
  | .core _ _, p => p == .core
  | .queue _ _, p => p == .queue
  | .acc _ _, p => p == .acc
  | .clearAcc _, p => p == .acc
  | .ag _ _, p => p == .ag
  | .bank _ _, p => p == .bank
  | .path _ _, p => p == .path
  | .page _ _, p => p == .page
  | .pte _ _, p => p == .pte
  | .seq _ _, p => p == .seq
  | .slag _ _, p => p == .slag
  | .slot _ _, p => p == .slot
  | .kv _ _, p => p == .kv
  | .account _ _, p => p == .account
  | .attend _ _, p => p == .attend
  | .gath _ _, p => p == .gath
  | .note _ _, p => p == .note
  | .clearNotes _, p => p == .note
  | .assayer _ _, p => p == .assayer
  | .lasting _, p => p == .lasting
  | .fifo _, p => p == .fifo
  | .dropped _, p => p == .dropped
  | .fn _ _, p => p == .fn
  | .wq _ _, p => p == .wq
  | .ctx _ _, p => p == .ctx
  | .image _ _, p => p == .image
  | .flaskSt _ _, p => p == .flaskSt
  | .mbox _ _, p => p == .mbox
  | .hbytes _ _, p => p == .hmem
  | .clearMbox _, p => p == .mbox
  | .clearImages _, p => p == .image
  | .ladle _ _, p => p == .ladle
  | .bucket _ _, p => p == .bucket
  | .port _ _, p => p == .port
  | .sub _ _, p => p == .sub
  | .job _ _, p => p == .job
  | .conn _ _, p => p == .conn
  | .fabOp _ _, p => p == .fabOp
  | .fab _ _, p => p == .fab
  | .cring _ _, p => p == .cring
  | .cfg _, p => p == .cfg
  | .cfgSlots _, p => p == .cfgSlots
  | .retirements _, p => p == .retirements
  | .excl _, p => p == .excl
  | .excluded _, p => p == .excluded
  | .fw _, p => p == .fw
  | .sec _, p => p == .sec
  | .therm _, p => p == .therm
  | .th _ _, p => p == .th
  | .shut _, p => p == .shut
  | .held _, p => p == .held
  | .flashLog _, p => p == .flashLog
  | .wipe _, p => !decide (p ∈ [Part.pending, .tick, .rsp, .out, .fuse, .mem, .marks, .cfgSlots, .hmem, .retirements, .excl, .shut, .flashLog])

@[simp] theorem touches_tick (z : Part) : (Upd.tick).touches z = (z == .tick) := id rfl
@[simp] theorem touches_rsp (d : List Byte) (z : Part) : (Upd.rsp d).touches z = (z == .rsp) := id rfl
@[simp] theorem touches_emit (m : Msg) (z : Part) : (Upd.emit m).touches z = (z == .out) := id rfl
@[simp] theorem touches_misc (m : Misc) (z : Part) : (Upd.misc m).touches z = (z == .misc) := id rfl
@[simp] theorem touches_reg (r : Fld) (i v : Nat) (z : Part) : (Upd.reg r i v).touches z = (z == .regs) := id rfl
@[simp] theorem touches_shad (r : Fld) (i v : Nat) (z : Part) : (Upd.shad r i v).touches z = (z == .shad) := id rfl
@[simp] theorem touches_unshad (r : Fld) (i : Nat) (z : Part) : (Upd.unshad r i).touches z = (z == .shad) := id rfl
@[simp] theorem touches_clearRegs (p : Nat → Bool) (z : Part) : (Upd.clearRegs p).touches z = (z == .regs || z == .shad) := id rfl
@[simp] theorem touches_bytes (a : Nat) (d : List Byte) (z : Part) : (Upd.bytes a d).touches z = (z == .mem) := id rfl
@[simp] theorem touches_zero (a len : Nat) (z : Part) : (Upd.zero a len).touches z = (z == .mem) := id rfl
@[simp] theorem touches_mark (w : Nat) (m : Mark) (z : Part) : (Upd.mark w m).touches z = (z == .marks) := id rfl
@[simp] theorem touches_clearMarks (a len : Nat) (z : Part) : (Upd.clearMarks a len).touches z = (z == .marks) := id rfl
@[simp] theorem touches_clearWb (a len : Nat) (z : Part) : (Upd.clearWb a len).touches z = (z == .wb) := id rfl
@[simp] theorem touches_wb (line mask : Nat) (z : Part) : (Upd.wb line mask).touches z = (z == .wb) := id rfl
@[simp] theorem touches_cache (k : Nat) (l : List CLine) (z : Part) : (Upd.cache k l).touches z = (z == .cache) := id rfl
@[simp] theorem touches_clearCache (p : Nat → Bool) (z : Part) : (Upd.clearCache p).touches z = (z == .cache) := id rfl
@[simp] theorem touches_openRow (n v : Nat) (z : Part) : (Upd.openRow n v).touches z = (z == .openRow) := id rfl
@[simp] theorem touches_slice (n : Nat) (v : SliceSt) (z : Part) : (Upd.slice n v).touches z = (z == .slice) := id rfl
@[simp] theorem touches_owner (r : Nat) (f : Option Nat) (z : Part) : (Upd.owner r f).touches z = (z == .owner) := id rfl
@[simp] theorem touches_cluster (n : Nat) (v : ClusterSt) (z : Part) : (Upd.cluster n v).touches z = (z == .cluster) := id rfl
@[simp] theorem touches_stack (n : Nat) (v : StackSt) (z : Part) : (Upd.stack n v).touches z = (z == .stack) := id rfl
@[simp] theorem touches_members (l : List (Nat × Nat)) (z : Part) : (Upd.members l).touches z = (z == .members) := id rfl
@[simp] theorem touches_hwAdds (l : List HwAdd) (z : Part) : (Upd.hwAdds l).touches z = (z == .hwAdds) := id rfl
@[simp] theorem touches_core (n : Nat) (v : CoreSt) (z : Part) : (Upd.core n v).touches z = (z == .core) := id rfl
@[simp] theorem touches_queue (n : Nat) (v : QueueSt) (z : Part) : (Upd.queue n v).touches z = (z == .queue) := id rfl
@[simp] theorem touches_acc (n : Nat) (v : AccEnt) (z : Part) : (Upd.acc n v).touches z = (z == .acc) := id rfl
@[simp] theorem touches_clearAcc (p : Nat → Bool) (z : Part) : (Upd.clearAcc p).touches z = (z == .acc) := id rfl
@[simp] theorem touches_ag (n : Nat) (v : AgSt) (z : Part) : (Upd.ag n v).touches z = (z == .ag) := id rfl
@[simp] theorem touches_bank (n : Nat) (v : BankSt) (z : Part) : (Upd.bank n v).touches z = (z == .bank) := id rfl
@[simp] theorem touches_path (n : Nat) (v : PathSt) (z : Part) : (Upd.path n v).touches z = (z == .path) := id rfl
@[simp] theorem touches_page (n : Nat) (v : PageDesc) (z : Part) : (Upd.page n v).touches z = (z == .page) := id rfl
@[simp] theorem touches_pte (n : Nat) (v : Pte) (z : Part) : (Upd.pte n v).touches z = (z == .pte) := id rfl
@[simp] theorem touches_seq (n : Nat) (v : SeqSt) (z : Part) : (Upd.seq n v).touches z = (z == .seq) := id rfl
@[simp] theorem touches_slag (n : Nat) (v : Slag) (z : Part) : (Upd.slag n v).touches z = (z == .slag) := id rfl
@[simp] theorem touches_slot (n : Nat) (v : Slot) (z : Part) : (Upd.slot n v).touches z = (z == .slot) := id rfl
@[simp] theorem touches_kv (n : Nat) (v : KvCfg) (z : Part) : (Upd.kv n v).touches z = (z == .kv) := id rfl
@[simp] theorem touches_account (n : Nat) (v : Account) (z : Part) : (Upd.account n v).touches z = (z == .account) := id rfl
@[simp] theorem touches_attend (n : Nat) (v : List Attend) (z : Part) : (Upd.attend n v).touches z = (z == .attend) := id rfl
@[simp] theorem touches_gath (n : Nat) (v : Gath) (z : Part) : (Upd.gath n v).touches z = (z == .gath) := id rfl
@[simp] theorem touches_note (n v : Nat) (z : Part) : (Upd.note n v).touches z = (z == .note) := id rfl
@[simp] theorem touches_clearNotes (p : Nat → Bool) (z : Part) : (Upd.clearNotes p).touches z = (z == .note) := id rfl
@[simp] theorem touches_assayer (n : Nat) (v : Assayer) (z : Part) : (Upd.assayer n v).touches z = (z == .assayer) := id rfl
@[simp] theorem touches_lasting (u : UnitId) (z : Part) : (Upd.lasting u).touches z = (z == .lasting) := id rfl
@[simp] theorem touches_fifo (l : List LogItem) (z : Part) : (Upd.fifo l).touches z = (z == .fifo) := id rfl
@[simp] theorem touches_dropped (n : Nat) (z : Part) : (Upd.dropped n).touches z = (z == .dropped) := id rfl
@[simp] theorem touches_fn (n : Nat) (v : FnSt) (z : Part) : (Upd.fn n v).touches z = (z == .fn) := id rfl
@[simp] theorem touches_wq (n : Nat) (v : WqSt) (z : Part) : (Upd.wq n v).touches z = (z == .wq) := id rfl
@[simp] theorem touches_ctx (n : Nat) (v : CtxSt) (z : Part) : (Upd.ctx n v).touches z = (z == .ctx) := id rfl
@[simp] theorem touches_image (n : Nat) (v : List Nat) (z : Part) : (Upd.image n v).touches z = (z == .image) := id rfl
@[simp] theorem touches_flaskSt (n : Nat) (v : FlaskSt) (z : Part) : (Upd.flaskSt n v).touches z = (z == .flaskSt) := id rfl
@[simp] theorem touches_mbox (a : Nat) (d : List Byte) (z : Part) : (Upd.mbox a d).touches z = (z == .mbox) := id rfl
@[simp] theorem touches_hbytes (a : Nat) (d : List Byte) (z : Part) : (Upd.hbytes a d).touches z = (z == .hmem) := id rfl
@[simp] theorem touches_clearMbox (p : Nat → Bool) (z : Part) : (Upd.clearMbox p).touches z = (z == .mbox) := id rfl
@[simp] theorem touches_clearImages (p : Nat → Bool) (z : Part) : (Upd.clearImages p).touches z = (z == .image) := id rfl
@[simp] theorem touches_ladle (n : Nat) (v : LadleSt) (z : Part) : (Upd.ladle n v).touches z = (z == .ladle) := id rfl
@[simp] theorem touches_bucket (n : Nat) (v : Int) (z : Part) : (Upd.bucket n v).touches z = (z == .bucket) := id rfl
@[simp] theorem touches_port (n : Nat) (v : PortSt) (z : Part) : (Upd.port n v).touches z = (z == .port) := id rfl
@[simp] theorem touches_sub (n : Nat) (v : SubSt) (z : Part) : (Upd.sub n v).touches z = (z == .sub) := id rfl
@[simp] theorem touches_job (n : Nat) (v : JobSt) (z : Part) : (Upd.job n v).touches z = (z == .job) := id rfl
@[simp] theorem touches_conn (n : Nat) (v : Conn) (z : Part) : (Upd.conn n v).touches z = (z == .conn) := id rfl
@[simp] theorem touches_fabOp (n : Nat) (v : FabOp) (z : Part) : (Upd.fabOp n v).touches z = (z == .fabOp) := id rfl
@[simp] theorem touches_fab (n : Nat) (v : FabSt) (z : Part) : (Upd.fab n v).touches z = (z == .fab) := id rfl
@[simp] theorem touches_cring (n : Nat) (v : Nat) (z : Part) : (Upd.cring n v).touches z = (z == .cring) := id rfl
@[simp] theorem touches_cfg (v : List Byte) (z : Part) : (Upd.cfg v).touches z = (z == .cfg) := id rfl
@[simp] theorem touches_cfgSlots (v : List (List Byte)) (z : Part) : (Upd.cfgSlots v).touches z = (z == .cfgSlots) := id rfl
@[simp] theorem touches_retirements (v : List Nat) (z : Part) : (Upd.retirements v).touches z = (z == .retirements) := id rfl
@[simp] theorem touches_excl (v : List UnitId) (z : Part) : (Upd.excl v).touches z = (z == .excl) := id rfl
@[simp] theorem touches_excluded (v : List UnitId) (z : Part) : (Upd.excluded v).touches z = (z == .excluded) := id rfl
@[simp] theorem touches_fw (v : FwSt) (z : Part) : (Upd.fw v).touches z = (z == .fw) := id rfl
@[simp] theorem touches_sec (v : SecSt) (z : Part) : (Upd.sec v).touches z = (z == .sec) := id rfl
@[simp] theorem touches_therm (v : ThermSt) (z : Part) : (Upd.therm v).touches z = (z == .therm) := id rfl
@[simp] theorem touches_th (n : Nat) (v : ThSt) (z : Part) : (Upd.th n v).touches z = (z == .th) := id rfl
@[simp] theorem touches_shut (v : List Shut) (z : Part) : (Upd.shut v).touches z = (z == .shut) := id rfl
@[simp] theorem touches_held (v : List (Nat × Nat)) (z : Part) : (Upd.held v).touches z = (z == .held) := id rfl
@[simp] theorem touches_flashLog (l : List (List Nat)) (z : Part) : (Upd.flashLog l).touches z = (z == .flashLog) := id rfl

/-! A part that an update does not touch keeps its value. -/

@[simp] theorem applyUpd_pending (u : Upd) (s : State) : (applyUpd u s).pending = s.pending := by
  cases u <;> rfl

@[simp] theorem applyUpd_tick (u : Upd) (s : State) (h : u.touches .tick = false) : (applyUpd u s).tick = s.tick := by
  cases u <;> first | rfl | exact absurd (show true = false from h) (by decide)

@[simp] theorem applyUpd_rsp (u : Upd) (s : State) (h : u.touches .rsp = false) : (applyUpd u s).rsp = s.rsp := by
  cases u <;> first | rfl | exact absurd (show true = false from h) (by decide)

@[simp] theorem applyUpd_out (u : Upd) (s : State) (h : u.touches .out = false) : (applyUpd u s).out = s.out := by
  cases u <;> first | rfl | exact absurd (show true = false from h) (by decide)

@[simp] theorem applyUpd_fuse (u : Upd) (s : State) : (applyUpd u s).fuse = s.fuse := by
  cases u <;> rfl

@[simp] theorem applyUpd_misc (u : Upd) (s : State) (h : u.touches .misc = false) : (applyUpd u s).misc = s.misc := by
  cases u <;> first | rfl | exact absurd (show true = false from h) (by decide)

@[simp] theorem applyUpd_regs (u : Upd) (s : State) (h : u.touches .regs = false) : (applyUpd u s).regs = s.regs := by
  cases u <;> first | rfl | exact absurd (show true = false from h) (by decide)

@[simp] theorem applyUpd_shad (u : Upd) (s : State) (h : u.touches .shad = false) : (applyUpd u s).shad = s.shad := by
  cases u <;> first | rfl | exact absurd (show true = false from h) (by decide)

@[simp] theorem applyUpd_mem (u : Upd) (s : State) (h : u.touches .mem = false) : (applyUpd u s).mem = s.mem := by
  cases u <;> first | rfl | exact absurd (show true = false from h) (by decide)

@[simp] theorem applyUpd_marks (u : Upd) (s : State) (h : u.touches .marks = false) : (applyUpd u s).marks = s.marks := by
  cases u <;> first | rfl | exact absurd (show true = false from h) (by decide)

@[simp] theorem applyUpd_wb (u : Upd) (s : State) (h : u.touches .wb = false) : (applyUpd u s).wb = s.wb := by
  cases u <;> first | rfl | exact absurd (show true = false from h) (by decide)

@[simp] theorem applyUpd_cache (u : Upd) (s : State) (h : u.touches .cache = false) : (applyUpd u s).cache = s.cache := by
  cases u <;> first | rfl | exact absurd (show true = false from h) (by decide)

@[simp] theorem applyUpd_openRow (u : Upd) (s : State) (h : u.touches .openRow = false) : (applyUpd u s).openRow = s.openRow := by
  cases u <;> first | rfl | exact absurd (show true = false from h) (by decide)

@[simp] theorem applyUpd_slice (u : Upd) (s : State) (h : u.touches .slice = false) : (applyUpd u s).slice = s.slice := by
  cases u <;> first | rfl | exact absurd (show true = false from h) (by decide)

@[simp] theorem applyUpd_owner (u : Upd) (s : State) (h : u.touches .owner = false) : (applyUpd u s).owner = s.owner := by
  cases u <;> first | rfl | exact absurd (show true = false from h) (by decide)

@[simp] theorem applyUpd_cluster (u : Upd) (s : State) (h : u.touches .cluster = false) : (applyUpd u s).cluster = s.cluster := by
  cases u <;> first | rfl | exact absurd (show true = false from h) (by decide)

@[simp] theorem applyUpd_stack (u : Upd) (s : State) (h : u.touches .stack = false) : (applyUpd u s).stack = s.stack := by
  cases u <;> first | rfl | exact absurd (show true = false from h) (by decide)

@[simp] theorem applyUpd_members (u : Upd) (s : State) (h : u.touches .members = false) : (applyUpd u s).members = s.members := by
  cases u <;> first | rfl | exact absurd (show true = false from h) (by decide)

@[simp] theorem applyUpd_hwAdds (u : Upd) (s : State) (h : u.touches .hwAdds = false) : (applyUpd u s).hwAdds = s.hwAdds := by
  cases u <;> first | rfl | exact absurd (show true = false from h) (by decide)

@[simp] theorem applyUpd_port (u : Upd) (s : State) (h : u.touches .port = false) : (applyUpd u s).port = s.port := by
  cases u <;> first | rfl | exact absurd (show true = false from h) (by decide)

@[simp] theorem applyUpd_sub (u : Upd) (s : State) (h : u.touches .sub = false) : (applyUpd u s).sub = s.sub := by
  cases u <;> first | rfl | exact absurd (show true = false from h) (by decide)

@[simp] theorem applyUpd_job (u : Upd) (s : State) (h : u.touches .job = false) : (applyUpd u s).job = s.job := by
  cases u <;> first | rfl | exact absurd (show true = false from h) (by decide)

@[simp] theorem applyUpd_conn (u : Upd) (s : State) (h : u.touches .conn = false) : (applyUpd u s).conn = s.conn := by
  cases u <;> first | rfl | exact absurd (show true = false from h) (by decide)

@[simp] theorem applyUpd_fabOp (u : Upd) (s : State) (h : u.touches .fabOp = false) : (applyUpd u s).fabOp = s.fabOp := by
  cases u <;> first | rfl | exact absurd (show true = false from h) (by decide)

@[simp] theorem applyUpd_cring (u : Upd) (s : State) (h : u.touches .cring = false) : (applyUpd u s).cring = s.cring := by
  cases u <;> first | rfl | exact absurd (show true = false from h) (by decide)

@[simp] theorem applyUpd_fab (u : Upd) (s : State) (h : u.touches .fab = false) : (applyUpd u s).fab = s.fab := by
  cases u <;> first | rfl | exact absurd (show true = false from h) (by decide)

@[simp] theorem applyUpd_cfg (u : Upd) (s : State) (h : u.touches .cfg = false) : (applyUpd u s).cfg = s.cfg := by
  cases u <;> first | rfl | exact absurd (show true = false from h) (by decide)

@[simp] theorem applyUpd_cfgSlots (u : Upd) (s : State) (h : u.touches .cfgSlots = false) : (applyUpd u s).cfgSlots = s.cfgSlots := by
  cases u <;> first | rfl | exact absurd (show true = false from h) (by decide)

@[simp] theorem applyUpd_ladle (u : Upd) (s : State) (h : u.touches .ladle = false) : (applyUpd u s).ladle = s.ladle := by
  cases u <;> first | rfl | exact absurd (show true = false from h) (by decide)

@[simp] theorem applyUpd_bucket (u : Upd) (s : State) (h : u.touches .bucket = false) : (applyUpd u s).bucket = s.bucket := by
  cases u <;> first | rfl | exact absurd (show true = false from h) (by decide)

@[simp] theorem applyUpd_core (u : Upd) (s : State) (h : u.touches .core = false) : (applyUpd u s).core = s.core := by
  cases u <;> first | rfl | exact absurd (show true = false from h) (by decide)

@[simp] theorem applyUpd_queue (u : Upd) (s : State) (h : u.touches .queue = false) : (applyUpd u s).queue = s.queue := by
  cases u <;> first | rfl | exact absurd (show true = false from h) (by decide)

@[simp] theorem applyUpd_acc (u : Upd) (s : State) (h : u.touches .acc = false) : (applyUpd u s).acc = s.acc := by
  cases u <;> first | rfl | exact absurd (show true = false from h) (by decide)

@[simp] theorem applyUpd_ag (u : Upd) (s : State) (h : u.touches .ag = false) : (applyUpd u s).ag = s.ag := by
  cases u <;> first | rfl | exact absurd (show true = false from h) (by decide)

@[simp] theorem applyUpd_bank (u : Upd) (s : State) (h : u.touches .bank = false) : (applyUpd u s).bank = s.bank := by
  cases u <;> first | rfl | exact absurd (show true = false from h) (by decide)

@[simp] theorem applyUpd_path (u : Upd) (s : State) (h : u.touches .path = false) : (applyUpd u s).path = s.path := by
  cases u <;> first | rfl | exact absurd (show true = false from h) (by decide)

@[simp] theorem applyUpd_page (u : Upd) (s : State) (h : u.touches .page = false) : (applyUpd u s).page = s.page := by
  cases u <;> first | rfl | exact absurd (show true = false from h) (by decide)

@[simp] theorem applyUpd_pte (u : Upd) (s : State) (h : u.touches .pte = false) : (applyUpd u s).pte = s.pte := by
  cases u <;> first | rfl | exact absurd (show true = false from h) (by decide)

@[simp] theorem applyUpd_seq (u : Upd) (s : State) (h : u.touches .seq = false) : (applyUpd u s).seq = s.seq := by
  cases u <;> first | rfl | exact absurd (show true = false from h) (by decide)

@[simp] theorem applyUpd_slag (u : Upd) (s : State) (h : u.touches .slag = false) : (applyUpd u s).slag = s.slag := by
  cases u <;> first | rfl | exact absurd (show true = false from h) (by decide)

@[simp] theorem applyUpd_slot (u : Upd) (s : State) (h : u.touches .slot = false) : (applyUpd u s).slot = s.slot := by
  cases u <;> first | rfl | exact absurd (show true = false from h) (by decide)

@[simp] theorem applyUpd_kv (u : Upd) (s : State) (h : u.touches .kv = false) : (applyUpd u s).kv = s.kv := by
  cases u <;> first | rfl | exact absurd (show true = false from h) (by decide)

@[simp] theorem applyUpd_mbox (u : Upd) (s : State) (h : u.touches .mbox = false) : (applyUpd u s).mbox = s.mbox := by
  cases u <;> first | rfl | exact absurd (show true = false from h) (by decide)

@[simp] theorem applyUpd_fn (u : Upd) (s : State) (h : u.touches .fn = false) : (applyUpd u s).fn = s.fn := by
  cases u <;> first | rfl | exact absurd (show true = false from h) (by decide)

@[simp] theorem applyUpd_wq (u : Upd) (s : State) (h : u.touches .wq = false) : (applyUpd u s).wq = s.wq := by
  cases u <;> first | rfl | exact absurd (show true = false from h) (by decide)

@[simp] theorem applyUpd_ctx (u : Upd) (s : State) (h : u.touches .ctx = false) : (applyUpd u s).ctx = s.ctx := by
  cases u <;> first | rfl | exact absurd (show true = false from h) (by decide)

@[simp] theorem applyUpd_image (u : Upd) (s : State) (h : u.touches .image = false) : (applyUpd u s).image = s.image := by
  cases u <;> first | rfl | exact absurd (show true = false from h) (by decide)

@[simp] theorem applyUpd_flaskSt (u : Upd) (s : State) (h : u.touches .flaskSt = false) : (applyUpd u s).flaskSt = s.flaskSt := by
  cases u <;> first | rfl | exact absurd (show true = false from h) (by decide)

@[simp] theorem applyUpd_hmem (u : Upd) (s : State) (h : u.touches .hmem = false) : (applyUpd u s).hmem = s.hmem := by
  cases u <;> first | rfl | exact absurd (show true = false from h) (by decide)

@[simp] theorem applyUpd_account (u : Upd) (s : State) (h : u.touches .account = false) : (applyUpd u s).account = s.account := by
  cases u <;> first | rfl | exact absurd (show true = false from h) (by decide)

@[simp] theorem applyUpd_attend (u : Upd) (s : State) (h : u.touches .attend = false) : (applyUpd u s).attend = s.attend := by
  cases u <;> first | rfl | exact absurd (show true = false from h) (by decide)

@[simp] theorem applyUpd_gath (u : Upd) (s : State) (h : u.touches .gath = false) : (applyUpd u s).gath = s.gath := by
  cases u <;> first | rfl | exact absurd (show true = false from h) (by decide)

@[simp] theorem applyUpd_note (u : Upd) (s : State) (h : u.touches .note = false) : (applyUpd u s).note = s.note := by
  cases u <;> first | rfl | exact absurd (show true = false from h) (by decide)

@[simp] theorem applyUpd_assayer (u : Upd) (s : State) (h : u.touches .assayer = false) : (applyUpd u s).assayer = s.assayer := by
  cases u <;> first | rfl | exact absurd (show true = false from h) (by decide)

@[simp] theorem applyUpd_lasting (u : Upd) (s : State) (h : u.touches .lasting = false) : (applyUpd u s).lasting = s.lasting := by
  cases u <;> first | rfl | exact absurd (show true = false from h) (by decide)

@[simp] theorem applyUpd_fifo (u : Upd) (s : State) (h : u.touches .fifo = false) : (applyUpd u s).fifo = s.fifo := by
  cases u <;> first | rfl | exact absurd (show true = false from h) (by decide)

@[simp] theorem applyUpd_dropped (u : Upd) (s : State) (h : u.touches .dropped = false) : (applyUpd u s).dropped = s.dropped := by
  cases u <;> first | rfl | exact absurd (show true = false from h) (by decide)

@[simp] theorem applyUpd_retirements (u : Upd) (s : State) (h : u.touches .retirements = false) : (applyUpd u s).retirements = s.retirements := by
  cases u <;> first | rfl | exact absurd (show true = false from h) (by decide)

@[simp] theorem applyUpd_excl (u : Upd) (s : State) (h : u.touches .excl = false) : (applyUpd u s).excl = s.excl := by
  cases u <;> first | rfl | exact absurd (show true = false from h) (by decide)

@[simp] theorem applyUpd_excluded (u : Upd) (s : State) (h : u.touches .excluded = false) : (applyUpd u s).excluded = s.excluded := by
  cases u <;> first | rfl | exact absurd (show true = false from h) (by decide)

@[simp] theorem applyUpd_fw (u : Upd) (s : State) (h : u.touches .fw = false) : (applyUpd u s).fw = s.fw := by
  cases u <;> first | rfl | exact absurd (show true = false from h) (by decide)

@[simp] theorem applyUpd_sec (u : Upd) (s : State) (h : u.touches .sec = false) : (applyUpd u s).sec = s.sec := by
  cases u <;> first | rfl | exact absurd (show true = false from h) (by decide)

@[simp] theorem applyUpd_therm (u : Upd) (s : State) (h : u.touches .therm = false) : (applyUpd u s).therm = s.therm := by
  cases u <;> first | rfl | exact absurd (show true = false from h) (by decide)

@[simp] theorem applyUpd_th (u : Upd) (s : State) (h : u.touches .th = false) : (applyUpd u s).th = s.th := by
  cases u <;> first | rfl | exact absurd (show true = false from h) (by decide)

@[simp] theorem applyUpd_shut (u : Upd) (s : State) (h : u.touches .shut = false) : (applyUpd u s).shut = s.shut := by
  cases u <;> first | rfl | exact absurd (show true = false from h) (by decide)

@[simp] theorem applyUpd_held (u : Upd) (s : State) (h : u.touches .held = false) : (applyUpd u s).held = s.held := by
  cases u <;> first | rfl | exact absurd (show true = false from h) (by decide)

@[simp] theorem applyUpd_flashLog (u : Upd) (s : State) (h : u.touches .flashLog = false) : (applyUpd u s).flashLog = s.flashLog := by
  cases u <;> first | rfl | exact absurd (show true = false from h) (by decide)

/-! What each update makes of the part it changes. -/

@[simp] theorem applyUpd_tick_self (s : State) :
    (applyUpd (.tick) s).tick = s.tick + 1 := rfl

@[simp] theorem applyUpd_rsp_self (d : List Byte) (s : State) :
    (applyUpd (.rsp d) s).rsp = d := rfl

@[simp] theorem applyUpd_emit_out (m : Msg) (s : State) :
    (applyUpd (.emit m) s).out = s.out ++ [m] := rfl

@[simp] theorem applyUpd_misc_self (m : Misc) (s : State) :
    (applyUpd (.misc m) s).misc = m := rfl

@[simp] theorem applyUpd_reg_regs (r : Fld) (i v : Nat) (s : State) :
    (applyUpd (.reg r i v) s).regs = Store.set (regDflt r i) (regKey r i) (v % 2 ^ r.info.width) s.regs := rfl

@[simp] theorem applyUpd_shad_self (r : Fld) (i v : Nat) (s : State) :
    (applyUpd (.shad r i v) s).shad = Store.put (regKey r i) (v % 2 ^ r.info.width) s.shad := rfl

@[simp] theorem applyUpd_unshad_shad (r : Fld) (i : Nat) (s : State) :
    (applyUpd (.unshad r i) s).shad = Store.del (regKey r i) s.shad := rfl

@[simp] theorem applyUpd_clearRegs_regs (p : Nat → Bool) (s : State) :
    (applyUpd (.clearRegs p) s).regs = Store.clear p s.regs := rfl

@[simp] theorem applyUpd_clearRegs_shad (p : Nat → Bool) (s : State) :
    (applyUpd (.clearRegs p) s).shad = Store.clear p s.shad := rfl

@[simp] theorem applyUpd_bytes_mem (a : Nat) (d : List Byte) (s : State) :
    (applyUpd (.bytes a d) s).mem = putBytes s.mem a d := rfl

@[simp] theorem applyUpd_zero_mem (a len : Nat) (s : State) :
    (applyUpd (.zero a len) s).mem = Store.clear (fun k => decide (a ≤ k) && decide (k < a + len)) s.mem := rfl

@[simp] theorem applyUpd_mark_marks (w : Nat) (m : Mark) (s : State) :
    (applyUpd (.mark w m) s).marks = Store.set {} w m s.marks := rfl

@[simp] theorem applyUpd_clearMarks_marks (a len : Nat) (s : State) :
    (applyUpd (.clearMarks a len) s).marks = Store.clear (fun k => decide (a ≤ k) && decide (k < a + len)) s.marks := rfl

@[simp] theorem applyUpd_clearWb_wb (a len : Nat) (s : State) :
    (applyUpd (.clearWb a len) s).wb = Store.clear (fun k => decide (a ≤ k) && decide (k < a + len)) s.wb := rfl

@[simp] theorem applyUpd_wb_self (line mask : Nat) (s : State) :
    (applyUpd (.wb line mask) s).wb = Store.set 0 line mask s.wb := rfl

@[simp] theorem applyUpd_cache_self (k : Nat) (l : List CLine) (s : State) :
    (applyUpd (.cache k l) s).cache = Store.set [] k l s.cache := rfl

@[simp] theorem applyUpd_clearCache_cache (p : Nat → Bool) (s : State) :
    (applyUpd (.clearCache p) s).cache = Store.clear p s.cache := rfl

@[simp] theorem applyUpd_openRow_self (n v : Nat) (s : State) :
    (applyUpd (.openRow n v) s).openRow = Store.set 0 n v s.openRow := rfl

@[simp] theorem applyUpd_slice_self (n : Nat) (v : SliceSt) (s : State) :
    (applyUpd (.slice n v) s).slice = Store.set {} n v s.slice := rfl

@[simp] theorem applyUpd_owner_self (r : Nat) (f : Option Nat) (s : State) :
    (applyUpd (.owner r f) s).owner = Store.set none r f s.owner := rfl

@[simp] theorem applyUpd_cluster_self (n : Nat) (v : ClusterSt) (s : State) :
    (applyUpd (.cluster n v) s).cluster = Store.set {} n v s.cluster := rfl

@[simp] theorem applyUpd_stack_self (n : Nat) (v : StackSt) (s : State) :
    (applyUpd (.stack n v) s).stack = Store.set {} n v s.stack := rfl

@[simp] theorem applyUpd_members_self (l : List (Nat × Nat)) (s : State) :
    (applyUpd (.members l) s).members = l := rfl

@[simp] theorem applyUpd_hwAdds_self (l : List HwAdd) (s : State) :
    (applyUpd (.hwAdds l) s).hwAdds = l := rfl

@[simp] theorem applyUpd_core_self (n : Nat) (v : CoreSt) (s : State) :
    (applyUpd (.core n v) s).core = Store.set {} n v s.core := rfl

@[simp] theorem applyUpd_queue_self (n : Nat) (v : QueueSt) (s : State) :
    (applyUpd (.queue n v) s).queue = Store.set {} n v s.queue := rfl

@[simp] theorem applyUpd_acc_self (n : Nat) (v : AccEnt) (s : State) :
    (applyUpd (.acc n v) s).acc = Store.set {} n v s.acc := rfl

@[simp] theorem applyUpd_clearAcc_acc (p : Nat → Bool) (s : State) :
    (applyUpd (.clearAcc p) s).acc = Store.clear p s.acc := rfl

@[simp] theorem applyUpd_ag_self (n : Nat) (v : AgSt) (s : State) :
    (applyUpd (.ag n v) s).ag = Store.set {} n v s.ag := rfl

@[simp] theorem applyUpd_bank_self (n : Nat) (v : BankSt) (s : State) :
    (applyUpd (.bank n v) s).bank = Store.set {} n v s.bank := rfl

@[simp] theorem applyUpd_path_self (n : Nat) (v : PathSt) (s : State) :
    (applyUpd (.path n v) s).path = Store.set {} n v s.path := rfl

@[simp] theorem applyUpd_page_self (n : Nat) (v : PageDesc) (s : State) :
    (applyUpd (.page n v) s).page = Store.set {} n v s.page := rfl

@[simp] theorem applyUpd_pte_self (n : Nat) (v : Pte) (s : State) :
    (applyUpd (.pte n v) s).pte = Store.set {} n v s.pte := rfl

@[simp] theorem applyUpd_seq_self (n : Nat) (v : SeqSt) (s : State) :
    (applyUpd (.seq n v) s).seq = Store.set {} n v s.seq := rfl

@[simp] theorem applyUpd_slag_self (n : Nat) (v : Slag) (s : State) :
    (applyUpd (.slag n v) s).slag = Store.set {} n v s.slag := rfl

@[simp] theorem applyUpd_slot_self (n : Nat) (v : Slot) (s : State) :
    (applyUpd (.slot n v) s).slot = Store.set {} n v s.slot := rfl

@[simp] theorem applyUpd_kv_self (n : Nat) (v : KvCfg) (s : State) :
    (applyUpd (.kv n v) s).kv = Store.set {} n v s.kv := rfl

@[simp] theorem applyUpd_account_self (n : Nat) (v : Account) (s : State) :
    (applyUpd (.account n v) s).account = Store.set {} n v s.account := rfl

@[simp] theorem applyUpd_attend_self (n : Nat) (v : List Attend) (s : State) :
    (applyUpd (.attend n v) s).attend = Store.set [] n v s.attend := rfl

@[simp] theorem applyUpd_gath_self (n : Nat) (v : Gath) (s : State) :
    (applyUpd (.gath n v) s).gath = Store.set {} n v s.gath := rfl

@[simp] theorem applyUpd_note_self (n v : Nat) (s : State) :
    (applyUpd (.note n v) s).note = Store.set 0 n v s.note := rfl

@[simp] theorem applyUpd_clearNotes_note (p : Nat → Bool) (s : State) :
    (applyUpd (.clearNotes p) s).note = Store.clear p s.note := rfl

@[simp] theorem applyUpd_assayer_self (n : Nat) (v : Assayer) (s : State) :
    (applyUpd (.assayer n v) s).assayer = Store.set {} n v s.assayer := rfl

@[simp] theorem applyUpd_lasting_self (u : UnitId) (s : State) :
    (applyUpd (.lasting u) s).lasting = if u ∈ s.lasting then s.lasting else s.lasting ++ [u] := rfl

@[simp] theorem applyUpd_fifo_self (l : List LogItem) (s : State) :
    (applyUpd (.fifo l) s).fifo = l := rfl

@[simp] theorem applyUpd_dropped_self (n : Nat) (s : State) :
    (applyUpd (.dropped n) s).dropped = n := rfl

@[simp] theorem applyUpd_fn_self (n : Nat) (v : FnSt) (s : State) :
    (applyUpd (.fn n v) s).fn = Store.set {} n v s.fn := rfl

@[simp] theorem applyUpd_wq_self (n : Nat) (v : WqSt) (s : State) :
    (applyUpd (.wq n v) s).wq = Store.set {} n v s.wq := rfl

@[simp] theorem applyUpd_ctx_self (n : Nat) (v : CtxSt) (s : State) :
    (applyUpd (.ctx n v) s).ctx = Store.set {} n v s.ctx := rfl

@[simp] theorem applyUpd_image_self (n : Nat) (v : List Nat) (s : State) :
    (applyUpd (.image n v) s).image = Store.set [] n v s.image := rfl

@[simp] theorem applyUpd_flaskSt_self (n : Nat) (v : FlaskSt) (s : State) :
    (applyUpd (.flaskSt n v) s).flaskSt = Store.set {} n v s.flaskSt := rfl

@[simp] theorem applyUpd_mbox_self (a : Nat) (d : List Byte) (s : State) :
    (applyUpd (.mbox a d) s).mbox = putBytes s.mbox a d := rfl

@[simp] theorem applyUpd_hbytes_hmem (a : Nat) (d : List Byte) (s : State) :
    (applyUpd (.hbytes a d) s).hmem = putBytes s.hmem a d := rfl

@[simp] theorem applyUpd_clearMbox_mbox (p : Nat → Bool) (s : State) :
    (applyUpd (.clearMbox p) s).mbox = Store.clear p s.mbox := rfl

@[simp] theorem applyUpd_clearImages_image (p : Nat → Bool) (s : State) :
    (applyUpd (.clearImages p) s).image = Store.clear p s.image := rfl

@[simp] theorem applyUpd_ladle_self (n : Nat) (v : LadleSt) (s : State) :
    (applyUpd (.ladle n v) s).ladle = Store.set {} n v s.ladle := rfl

@[simp] theorem applyUpd_bucket_self (n : Nat) (v : Int) (s : State) :
    (applyUpd (.bucket n v) s).bucket = Store.set 0 n v s.bucket := rfl

@[simp] theorem applyUpd_port_self (n : Nat) (v : PortSt) (s : State) :
    (applyUpd (.port n v) s).port = Store.set {} n v s.port := rfl

@[simp] theorem applyUpd_sub_self (n : Nat) (v : SubSt) (s : State) :
    (applyUpd (.sub n v) s).sub = Store.set {} n v s.sub := rfl

@[simp] theorem applyUpd_job_self (n : Nat) (v : JobSt) (s : State) :
    (applyUpd (.job n v) s).job = Store.set {} n v s.job := rfl

@[simp] theorem applyUpd_conn_self (n : Nat) (v : Conn) (s : State) :
    (applyUpd (.conn n v) s).conn = Store.set {} n v s.conn := rfl

@[simp] theorem applyUpd_fabOp_self (n : Nat) (v : FabOp) (s : State) :
    (applyUpd (.fabOp n v) s).fabOp = Store.set {} n v s.fabOp := rfl

@[simp] theorem applyUpd_fab_self (n : Nat) (v : FabSt) (s : State) :
    (applyUpd (.fab n v) s).fab = Store.set {} n v s.fab := rfl

@[simp] theorem applyUpd_cring_self (n : Nat) (v : Nat) (s : State) :
    (applyUpd (.cring n v) s).cring = Store.set 0 n v s.cring := rfl

@[simp] theorem applyUpd_cfg_self (v : List Byte) (s : State) :
    (applyUpd (.cfg v) s).cfg = v := rfl

@[simp] theorem applyUpd_cfgSlots_self (v : List (List Byte)) (s : State) :
    (applyUpd (.cfgSlots v) s).cfgSlots = v := rfl

@[simp] theorem applyUpd_retirements_self (v : List Nat) (s : State) :
    (applyUpd (.retirements v) s).retirements = v := rfl

@[simp] theorem applyUpd_excl_self (v : List UnitId) (s : State) :
    (applyUpd (.excl v) s).excl = v := rfl

@[simp] theorem applyUpd_excluded_self (v : List UnitId) (s : State) :
    (applyUpd (.excluded v) s).excluded = v := rfl

@[simp] theorem applyUpd_fw_self (v : FwSt) (s : State) :
    (applyUpd (.fw v) s).fw = v := rfl

@[simp] theorem applyUpd_sec_self (v : SecSt) (s : State) :
    (applyUpd (.sec v) s).sec = v := rfl

@[simp] theorem applyUpd_therm_self (v : ThermSt) (s : State) :
    (applyUpd (.therm v) s).therm = v := rfl

@[simp] theorem applyUpd_th_self (n : Nat) (v : ThSt) (s : State) :
    (applyUpd (.th n v) s).th = Store.set {} n v s.th := rfl

@[simp] theorem applyUpd_shut_self (v : List Shut) (s : State) :
    (applyUpd (.shut v) s).shut = v := rfl

@[simp] theorem applyUpd_held_self (v : List (Nat × Nat)) (s : State) :
    (applyUpd (.held v) s).held = v := rfl

@[simp] theorem applyUpd_flashLog_self (l : List (List Nat)) (s : State) :
    (applyUpd (.flashLog l) s).flashLog = l := rfl

end Sys2Proof.Machine
end

