-- ==== Sys2Proof/Laws/Run.lean ====
section
/-! SUPPORT. What running an effect does, one lemma a constructor, and how a property of every primitive update becomes a
property of every effect. -/
namespace Sys2Proof.Machine

@[simp] theorem run_skip (s : State) : run .skip s = s := rfl
@[simp] theorem run_upd (u : Upd) (s : State) : run (.upd u) s = applyUpd u s := rfl
@[simp] theorem run_seq (a b : Eff) (s : State) : run (.seq a b) s = run b (run a s) := rfl
@[simp] theorem run_get (f : State → Eff) (s : State) : run (.get f) s = run (f s) s := rfl
@[simp] theorem run_all_nil (s : State) : run (Eff.all []) s = s := rfl
@[simp] theorem run_all_cons (e : Eff) (es : List Eff) (s : State) : run (Eff.all (e :: es)) s = run (Eff.all es) (run e s) := rfl
@[simp] theorem run_when (b : Bool) (e : Eff) (s : State) : run (Eff.when b e) s = if b then run e s else s := by
  cases b <;> rfl
@[simp] theorem run_opt_none {α : Type} (f : α → Eff) (s : State) : run (Eff.opt none f) s = s := rfl
@[simp] theorem run_opt_some {α : Type} (a : α) (f : α → Eff) (s : State) : run (Eff.opt (some a) f) s = run (f a) s := rfl
@[simp] theorem run_fresh (k : Nat → Eff) (s : State) :
    run (fresh k) s = run (k (Config.free s.tick)) (applyUpd .tick s) := rfl
@[simp] theorem run_setReg (r : Fld) (i v : Nat) (s : State) : run (setReg r i v) s = applyUpd (.reg r i v) s := rfl
@[simp] theorem finish_next (e : Eff) (s : State) : finish e s = .next (run e s) := rfl

/-- Running a list of effects is running them one after another. -/
theorem run_all (es : List Eff) (s : State) : run (Eff.all es) s = es.foldl (fun t e => run e t) s := by
  induction es generalizing s with
  | nil => rfl
  | cons e es ih => exact ih (run e s)

theorem run_each {α : Type} (l : List α) (f : α → Eff) (s : State) :
    run (Eff.each l f) s = l.foldl (fun t a => run (f a) t) s := by
  rw [Eff.each, run_all, List.foldl_map]

/-- What every primitive update keeps, every effect keeps. -/
theorem run_keeps {P : State → Prop} (hu : ∀ u s, P s → P (applyUpd u s)) (e : Eff) (s : State) (h : P s) : P (run e s) := by
  induction e generalizing s with
  | skip => exact h
  | upd u => exact hu u s h
  | seq a b iha ihb => exact ihb _ (iha _ h)
  | get f ih => exact ih s s h

/-- What every primitive update relates, every effect relates. -/
theorem run_relates {R : State → State → Prop} (hr : ∀ s, R s s) (ht : ∀ a b c, R a b → R b c → R a c)
    (hu : ∀ u s, R s (applyUpd u s)) (e : Eff) (s : State) : R s (run e s) :=
  run_keeps (P := R s) (fun u t h => ht _ _ _ h (hu u t)) e s (hr s)

/-! The register file. -/

theorem fld_ctorIdx_lt (r : Fld) : r.ctorIdx < 512 := by
  cases r <;> exact of_decide_eq_true rfl

/-- Two register fields share a key only if they are the same field of the same instance. -/
theorem regKey_inj {r r' : Fld} {i i' : Nat} (h : regKey r i = regKey r' i') : r = r' ∧ i = i' := by
  have h1 := fld_ctorIdx_lt r
  have h2 := fld_ctorIdx_lt r'
  unfold regKey at h
  have hi : i = i' := by omega
  have hr : r.ctorIdx = r'.ctorIdx := by omega
  exact ⟨by rw [← Fld.ofNat_ctorIdx r, ← Fld.ofNat_ctorIdx r', hr], hi⟩

/-- A register field just written reads as its width keeps of the value. -/
@[simp] theorem reg_applyUpd_same (r : Fld) (i v : Nat) (s : State) :
    (applyUpd (.reg r i v) s).reg r i = v % 2 ^ r.info.width := by
  simp [State.reg]

/-- A write of one register field leaves every other field, and every other instance of it, alone. -/
theorem reg_applyUpd_other {r r' : Fld} {i i' : Nat} (v : Nat) (s : State) (h : ¬(r = r' ∧ i = i')) :
    (applyUpd (.reg r i v) s).reg r' i' = s.reg r' i' := by
  simp only [State.reg, applyUpd_reg_regs]
  exact Store.get_set_other (regDflt r' i') _ _ (fun e => h (regKey_inj e))

/-- An update that touches no register leaves every field alone. -/
@[simp] theorem reg_applyUpd_frame (u : Upd) (r : Fld) (i : Nat) (s : State) (h : u.touches .regs = false) :
    (applyUpd u s).reg r i = s.reg r i := by
  simp only [State.reg, applyUpd_regs u s h]

/-- Every primitive update that an effect can make, from whatever state, is of a kind P. -/
@[simp] def Eff.Only (P : Upd → Prop) : Eff → Prop
  | .skip => True
  | .upd u => P u
  | .seq a b => Eff.Only P a ∧ Eff.Only P b
  | .get f => ∀ s, Eff.Only P (f s)

@[simp] theorem only_when (P : Upd → Prop) (b : Bool) (e : Eff) : Eff.Only P (Eff.when b e) ↔ (b = true → Eff.Only P e) := by
  cases b <;> simp [Eff.when]

@[simp] theorem only_all (P : Upd → Prop) (es : List Eff) : Eff.Only P (Eff.all es) ↔ ∀ e ∈ es, Eff.Only P e := by
  induction es with
  | nil => simp [Eff.all]
  | cons e es ih => simp [Eff.all, ih]

@[simp] theorem only_each {α : Type} (P : Upd → Prop) (l : List α) (f : α → Eff) :
    Eff.Only P (Eff.each l f) ↔ ∀ a ∈ l, Eff.Only P (f a) := by
  simp [Eff.each]

@[simp] theorem only_opt {α : Type} (P : Upd → Prop) (o : Option α) (f : α → Eff) :
    Eff.Only P (Eff.opt o f) ↔ ∀ a, o = some a → Eff.Only P (f a) := by
  cases o <;> simp [Eff.opt]

@[simp] theorem only_ite (P : Upd → Prop) (c : Prop) [Decidable c] (a b : Eff) :
    Eff.Only P (if c then a else b) ↔ (c → Eff.Only P a) ∧ (¬c → Eff.Only P b) := by
  split <;> simp [*]

@[simp] theorem only_fresh (P : Upd → Prop) (k : Nat → Eff) :
    Eff.Only P (fresh k) ↔ P .tick ∧ ∀ s : State, Eff.Only P (k (Config.free s.tick)) := by
  constructor
  · exact fun h => ⟨(h State.reset).1, fun s => (h s).2⟩
  · exact fun h s => ⟨h.1, h.2 s⟩

/-- The frame of an effect: what each of its updates keeps, it keeps. -/
theorem run_frame {α : Type} {P : Upd → Prop} (g : State → α) (hu : ∀ u s, P u → g (applyUpd u s) = g s)
    {e : Eff} (he : Eff.Only P e) (s : State) : g (run e s) = g s := by
  induction e generalizing s with
  | skip => rfl
  | upd u => exact hu u s he
  | seq a b iha ihb => exact (ihb he.2 _).trans (iha he.1 s)
  | get f ih => exact ih s (he s) s

end Sys2Proof.Machine
end

