-- ==== Sys2Proof/Laws/Units.lean ====
section
/-! SUPPORT. Reading a unit after an update: what was written at the unit written, what was there at every other one. -/
namespace Sys2Proof.Machine

@[simp] theorem coreAt_frame (u : Upd) (s : State) (n : Nat) (h : u.touches .core = false) :
    (applyUpd u s).coreAt n = s.coreAt n := by
  simp only [State.coreAt, applyUpd_core u s h]

@[simp] theorem coreAt_run (e : Eff) (s : State) (n : Nat) (h : Eff.Only (fun u => u.touches .core = false) e) :
    (run e s).coreAt n = s.coreAt n := run_frame (fun t => t.coreAt n) (fun u t hu => coreAt_frame u t n hu) h s

@[simp] theorem coreAt_same (s : State) (n : Nat) (v) : (applyUpd (.core n v) s).coreAt n = v := by
  simp [State.coreAt]

theorem coreAt_other (s : State) (n j : Nat) (v) (h : j ≠ n) :
    (applyUpd (.core j v) s).coreAt n = s.coreAt n := by
  simp only [State.coreAt, applyUpd_core_self]
  exact Store.get_set_other _ _ _ h

@[simp] theorem clusterAt_frame (u : Upd) (s : State) (c : Nat) (h : u.touches .cluster = false) :
    (applyUpd u s).clusterAt c = s.clusterAt c := by
  simp only [State.clusterAt, applyUpd_cluster u s h]

@[simp] theorem clusterAt_run (e : Eff) (s : State) (c : Nat) (h : Eff.Only (fun u => u.touches .cluster = false) e) :
    (run e s).clusterAt c = s.clusterAt c := run_frame (fun t => t.clusterAt c) (fun u t hu => clusterAt_frame u t c hu) h s

@[simp] theorem clusterAt_same (s : State) (c : Nat) (v) : (applyUpd (.cluster c v) s).clusterAt c = v := by
  simp [State.clusterAt]

theorem clusterAt_other (s : State) (c j : Nat) (v) (h : j ≠ c) :
    (applyUpd (.cluster j v) s).clusterAt c = s.clusterAt c := by
  simp only [State.clusterAt, applyUpd_cluster_self]
  exact Store.get_set_other _ _ _ h

@[simp] theorem stackAt_frame (u : Upd) (s : State) (n : Nat) (h : u.touches .stack = false) :
    (applyUpd u s).stackAt n = s.stackAt n := by
  simp only [State.stackAt, applyUpd_stack u s h]

@[simp] theorem stackAt_run (e : Eff) (s : State) (n : Nat) (h : Eff.Only (fun u => u.touches .stack = false) e) :
    (run e s).stackAt n = s.stackAt n := run_frame (fun t => t.stackAt n) (fun u t hu => stackAt_frame u t n hu) h s

@[simp] theorem stackAt_same (s : State) (n : Nat) (v) : (applyUpd (.stack n v) s).stackAt n = v := by
  simp [State.stackAt]

theorem stackAt_other (s : State) (n j : Nat) (v) (h : j ≠ n) :
    (applyUpd (.stack j v) s).stackAt n = s.stackAt n := by
  simp only [State.stackAt, applyUpd_stack_self]
  exact Store.get_set_other _ _ _ h

@[simp] theorem queueAt_frame (u : Upd) (s : State) (n q : Nat) (h : u.touches .queue = false) :
    (applyUpd u s).queueAt n q = s.queueAt n q := by
  simp only [State.queueAt, applyUpd_queue u s h]

@[simp] theorem queueAt_run (e : Eff) (s : State) (n q : Nat) (h : Eff.Only (fun u => u.touches .queue = false) e) :
    (run e s).queueAt n q = s.queueAt n q := run_frame (fun t => t.queueAt n q) (fun u t hu => queueAt_frame u t n q hu) h s

@[simp] theorem queueAt_same (s : State) (n q : Nat) (v) : (applyUpd (.queue (n * 16 + q) v) s).queueAt n q = v := by
  simp [State.queueAt]

@[simp] theorem agAt_frame (u : Upd) (s : State) (n g : Nat) (h : u.touches .ag = false) :
    (applyUpd u s).agAt n g = s.agAt n g := by
  simp only [State.agAt, applyUpd_ag u s h]

@[simp] theorem agAt_run (e : Eff) (s : State) (n g : Nat) (h : Eff.Only (fun u => u.touches .ag = false) e) :
    (run e s).agAt n g = s.agAt n g := run_frame (fun t => t.agAt n g) (fun u t hu => agAt_frame u t n g hu) h s

@[simp] theorem agAt_same (s : State) (n g : Nat) (v) : (applyUpd (.ag (n * 8 + g) v) s).agAt n g = v := by
  simp [State.agAt]

@[simp] theorem sliceAt_frame (u : Upd) (s : State) (n : Nat) (h : u.touches .slice = false) :
    (applyUpd u s).sliceAt n = s.sliceAt n := by
  simp only [State.sliceAt, applyUpd_slice u s h]

@[simp] theorem sliceAt_run (e : Eff) (s : State) (n : Nat) (h : Eff.Only (fun u => u.touches .slice = false) e) :
    (run e s).sliceAt n = s.sliceAt n := run_frame (fun t => t.sliceAt n) (fun u t hu => sliceAt_frame u t n hu) h s

@[simp] theorem sliceAt_same (s : State) (n : Nat) (v) : (applyUpd (.slice n v) s).sliceAt n = v := by
  simp [State.sliceAt]

theorem sliceAt_other (s : State) (n j : Nat) (v) (h : j ≠ n) :
    (applyUpd (.slice j v) s).sliceAt n = s.sliceAt n := by
  simp only [State.sliceAt, applyUpd_slice_self]
  exact Store.get_set_other _ _ _ h

@[simp] theorem bankAt_frame (u : Upd) (s : State) (sl b : Nat) (h : u.touches .bank = false) :
    (applyUpd u s).bankAt sl b = s.bankAt sl b := by
  simp only [State.bankAt, applyUpd_bank u s h]

@[simp] theorem bankAt_run (e : Eff) (s : State) (sl b : Nat) (h : Eff.Only (fun u => u.touches .bank = false) e) :
    (run e s).bankAt sl b = s.bankAt sl b := run_frame (fun t => t.bankAt sl b) (fun u t hu => bankAt_frame u t sl b hu) h s

@[simp] theorem bankAt_same (s : State) (sl b : Nat) (v) : (applyUpd (.bank (sl * 128 + b) v) s).bankAt sl b = v := by
  simp [State.bankAt]

@[simp] theorem pathAt_frame (u : Upd) (s : State) (p : Nat) (h : u.touches .path = false) :
    (applyUpd u s).pathAt p = s.pathAt p := by
  simp only [State.pathAt, applyUpd_path u s h]

@[simp] theorem pathAt_run (e : Eff) (s : State) (p : Nat) (h : Eff.Only (fun u => u.touches .path = false) e) :
    (run e s).pathAt p = s.pathAt p := run_frame (fun t => t.pathAt p) (fun u t hu => pathAt_frame u t p hu) h s

@[simp] theorem pathAt_same (s : State) (p : Nat) (v) : (applyUpd (.path p v) s).pathAt p = v := by
  simp [State.pathAt]

theorem pathAt_other (s : State) (p j : Nat) (v) (h : j ≠ p) :
    (applyUpd (.path j v) s).pathAt p = s.pathAt p := by
  simp only [State.pathAt, applyUpd_path_self]
  exact Store.get_set_other _ _ _ h

@[simp] theorem seqAt_frame (u : Upd) (s : State) (q : Nat) (h : u.touches .seq = false) :
    (applyUpd u s).seqAt q = s.seqAt q := by
  simp only [State.seqAt, applyUpd_seq u s h]

@[simp] theorem seqAt_run (e : Eff) (s : State) (q : Nat) (h : Eff.Only (fun u => u.touches .seq = false) e) :
    (run e s).seqAt q = s.seqAt q := run_frame (fun t => t.seqAt q) (fun u t hu => seqAt_frame u t q hu) h s

@[simp] theorem seqAt_same (s : State) (q : Nat) (v) : (applyUpd (.seq q v) s).seqAt q = v := by
  simp [State.seqAt]

theorem seqAt_other (s : State) (q j : Nat) (v) (h : j ≠ q) :
    (applyUpd (.seq j v) s).seqAt q = s.seqAt q := by
  simp only [State.seqAt, applyUpd_seq_self]
  exact Store.get_set_other _ _ _ h

@[simp] theorem kvAt_frame (u : Upd) (s : State) (f : Nat) (h : u.touches .kv = false) :
    (applyUpd u s).kvAt f = s.kvAt f := by
  simp only [State.kvAt, applyUpd_kv u s h]

@[simp] theorem kvAt_run (e : Eff) (s : State) (f : Nat) (h : Eff.Only (fun u => u.touches .kv = false) e) :
    (run e s).kvAt f = s.kvAt f := run_frame (fun t => t.kvAt f) (fun u t hu => kvAt_frame u t f hu) h s

@[simp] theorem kvAt_same (s : State) (f : Nat) (v) : (applyUpd (.kv f v) s).kvAt f = v := by
  simp [State.kvAt]

theorem kvAt_other (s : State) (f j : Nat) (v) (h : j ≠ f) :
    (applyUpd (.kv j v) s).kvAt f = s.kvAt f := by
  simp only [State.kvAt, applyUpd_kv_self]
  exact Store.get_set_other _ _ _ h

@[simp] theorem pageAt_frame (u : Upd) (s : State) (k : Nat) (h : u.touches .page = false) :
    (applyUpd u s).pageAt k = s.pageAt k := by
  simp only [State.pageAt, applyUpd_page u s h]

@[simp] theorem pageAt_run (e : Eff) (s : State) (k : Nat) (h : Eff.Only (fun u => u.touches .page = false) e) :
    (run e s).pageAt k = s.pageAt k := run_frame (fun t => t.pageAt k) (fun u t hu => pageAt_frame u t k hu) h s

@[simp] theorem pageAt_same (s : State) (k : Nat) (v) : (applyUpd (.page k v) s).pageAt k = v := by
  simp [State.pageAt]

theorem pageAt_other (s : State) (k j : Nat) (v) (h : j ≠ k) :
    (applyUpd (.page j v) s).pageAt k = s.pageAt k := by
  simp only [State.pageAt, applyUpd_page_self]
  exact Store.get_set_other _ _ _ h

@[simp] theorem gathAt_frame (u : Upd) (s : State) (g : Nat) (h : u.touches .gath = false) :
    (applyUpd u s).gathAt g = s.gathAt g := by
  simp only [State.gathAt, applyUpd_gath u s h]

@[simp] theorem gathAt_run (e : Eff) (s : State) (g : Nat) (h : Eff.Only (fun u => u.touches .gath = false) e) :
    (run e s).gathAt g = s.gathAt g := run_frame (fun t => t.gathAt g) (fun u t hu => gathAt_frame u t g hu) h s

@[simp] theorem gathAt_same (s : State) (g : Nat) (v) : (applyUpd (.gath g v) s).gathAt g = v := by
  simp [State.gathAt]

theorem gathAt_other (s : State) (g j : Nat) (v) (h : j ≠ g) :
    (applyUpd (.gath j v) s).gathAt g = s.gathAt g := by
  simp only [State.gathAt, applyUpd_gath_self]
  exact Store.get_set_other _ _ _ h

@[simp] theorem assayerAt_frame (u : Upd) (s : State) (a : Nat) (h : u.touches .assayer = false) :
    (applyUpd u s).assayerAt a = s.assayerAt a := by
  simp only [State.assayerAt, applyUpd_assayer u s h]

@[simp] theorem assayerAt_run (e : Eff) (s : State) (a : Nat) (h : Eff.Only (fun u => u.touches .assayer = false) e) :
    (run e s).assayerAt a = s.assayerAt a := run_frame (fun t => t.assayerAt a) (fun u t hu => assayerAt_frame u t a hu) h s

@[simp] theorem assayerAt_same (s : State) (a : Nat) (v) : (applyUpd (.assayer a v) s).assayerAt a = v := by
  simp [State.assayerAt]

theorem assayerAt_other (s : State) (a j : Nat) (v) (h : j ≠ a) :
    (applyUpd (.assayer j v) s).assayerAt a = s.assayerAt a := by
  simp only [State.assayerAt, applyUpd_assayer_self]
  exact Store.get_set_other _ _ _ h

@[simp] theorem fnAt_frame (u : Upd) (s : State) (f : Nat) (h : u.touches .fn = false) :
    (applyUpd u s).fnAt f = s.fnAt f := by
  simp only [State.fnAt, applyUpd_fn u s h]

@[simp] theorem fnAt_run (e : Eff) (s : State) (f : Nat) (h : Eff.Only (fun u => u.touches .fn = false) e) :
    (run e s).fnAt f = s.fnAt f := run_frame (fun t => t.fnAt f) (fun u t hu => fnAt_frame u t f hu) h s

@[simp] theorem fnAt_same (s : State) (f : Nat) (v) : (applyUpd (.fn f v) s).fnAt f = v := by
  simp [State.fnAt]

theorem fnAt_other (s : State) (f j : Nat) (v) (h : j ≠ f) :
    (applyUpd (.fn j v) s).fnAt f = s.fnAt f := by
  simp only [State.fnAt, applyUpd_fn_self]
  exact Store.get_set_other _ _ _ h

@[simp] theorem wqAt_frame (u : Upd) (s : State) (k : Nat) (h : u.touches .wq = false) :
    (applyUpd u s).wqAt k = s.wqAt k := by
  simp only [State.wqAt, applyUpd_wq u s h]

@[simp] theorem wqAt_run (e : Eff) (s : State) (k : Nat) (h : Eff.Only (fun u => u.touches .wq = false) e) :
    (run e s).wqAt k = s.wqAt k := run_frame (fun t => t.wqAt k) (fun u t hu => wqAt_frame u t k hu) h s

@[simp] theorem wqAt_same (s : State) (k : Nat) (v) : (applyUpd (.wq k v) s).wqAt k = v := by
  simp [State.wqAt]

theorem wqAt_other (s : State) (k j : Nat) (v) (h : j ≠ k) :
    (applyUpd (.wq j v) s).wqAt k = s.wqAt k := by
  simp only [State.wqAt, applyUpd_wq_self]
  exact Store.get_set_other _ _ _ h

@[simp] theorem ctxAt_frame (u : Upd) (s : State) (x : Nat) (h : u.touches .ctx = false) :
    (applyUpd u s).ctxAt x = s.ctxAt x := by
  simp only [State.ctxAt, applyUpd_ctx u s h]

@[simp] theorem ctxAt_run (e : Eff) (s : State) (x : Nat) (h : Eff.Only (fun u => u.touches .ctx = false) e) :
    (run e s).ctxAt x = s.ctxAt x := run_frame (fun t => t.ctxAt x) (fun u t hu => ctxAt_frame u t x hu) h s

@[simp] theorem ctxAt_same (s : State) (x : Nat) (v) : (applyUpd (.ctx x v) s).ctxAt x = v := by
  simp [State.ctxAt]

theorem ctxAt_other (s : State) (x j : Nat) (v) (h : j ≠ x) :
    (applyUpd (.ctx j v) s).ctxAt x = s.ctxAt x := by
  simp only [State.ctxAt, applyUpd_ctx_self]
  exact Store.get_set_other _ _ _ h

@[simp] theorem ladleAt_frame (u : Upd) (s : State) (g : Nat) (h : u.touches .ladle = false) :
    (applyUpd u s).ladleAt g = s.ladleAt g := by
  simp only [State.ladleAt, applyUpd_ladle u s h]

@[simp] theorem ladleAt_run (e : Eff) (s : State) (g : Nat) (h : Eff.Only (fun u => u.touches .ladle = false) e) :
    (run e s).ladleAt g = s.ladleAt g := run_frame (fun t => t.ladleAt g) (fun u t hu => ladleAt_frame u t g hu) h s

@[simp] theorem ladleAt_same (s : State) (g : Nat) (v) : (applyUpd (.ladle g v) s).ladleAt g = v := by
  simp [State.ladleAt]

theorem ladleAt_other (s : State) (g j : Nat) (v) (h : j ≠ g) :
    (applyUpd (.ladle j v) s).ladleAt g = s.ladleAt g := by
  simp only [State.ladleAt, applyUpd_ladle_self]
  exact Store.get_set_other _ _ _ h

@[simp] theorem accountAt_frame (u : Upd) (s : State) (f : Nat) (h : u.touches .account = false) :
    (applyUpd u s).accountAt f = s.accountAt f := by
  simp only [State.accountAt, applyUpd_account u s h]

@[simp] theorem accountAt_run (e : Eff) (s : State) (f : Nat) (h : Eff.Only (fun u => u.touches .account = false) e) :
    (run e s).accountAt f = s.accountAt f := run_frame (fun t => t.accountAt f) (fun u t hu => accountAt_frame u t f hu) h s

@[simp] theorem accountAt_same (s : State) (f : Nat) (v) : (applyUpd (.account f v) s).accountAt f = v := by
  simp [State.accountAt]

theorem accountAt_other (s : State) (f j : Nat) (v) (h : j ≠ f) :
    (applyUpd (.account j v) s).accountAt f = s.accountAt f := by
  simp only [State.accountAt, applyUpd_account_self]
  exact Store.get_set_other _ _ _ h

@[simp] theorem portAt_frame (u : Upd) (s : State) (g : Nat) (h : u.touches .port = false) :
    (applyUpd u s).portAt g = s.portAt g := by
  simp only [State.portAt, applyUpd_port u s h]

@[simp] theorem portAt_run (e : Eff) (s : State) (g : Nat) (h : Eff.Only (fun u => u.touches .port = false) e) :
    (run e s).portAt g = s.portAt g := run_frame (fun t => t.portAt g) (fun u t hu => portAt_frame u t g hu) h s

@[simp] theorem portAt_same (s : State) (g : Nat) (v) : (applyUpd (.port g v) s).portAt g = v := by
  simp [State.portAt]

theorem portAt_other (s : State) (g j : Nat) (v) (h : j ≠ g) :
    (applyUpd (.port j v) s).portAt g = s.portAt g := by
  simp only [State.portAt, applyUpd_port_self]
  exact Store.get_set_other _ _ _ h

@[simp] theorem subAt_frame (u : Upd) (s : State) (i : Nat) (h : u.touches .sub = false) :
    (applyUpd u s).subAt i = s.subAt i := by
  simp only [State.subAt, applyUpd_sub u s h]

@[simp] theorem subAt_run (e : Eff) (s : State) (i : Nat) (h : Eff.Only (fun u => u.touches .sub = false) e) :
    (run e s).subAt i = s.subAt i := run_frame (fun t => t.subAt i) (fun u t hu => subAt_frame u t i hu) h s

@[simp] theorem subAt_same (s : State) (i : Nat) (v) : (applyUpd (.sub i v) s).subAt i = v := by
  simp [State.subAt]

theorem subAt_other (s : State) (i j : Nat) (v) (h : j ≠ i) :
    (applyUpd (.sub j v) s).subAt i = s.subAt i := by
  simp only [State.subAt, applyUpd_sub_self]
  exact Store.get_set_other _ _ _ h

@[simp] theorem jobAt_frame (u : Upd) (s : State) (f : Nat) (h : u.touches .job = false) :
    (applyUpd u s).jobAt f = s.jobAt f := by
  simp only [State.jobAt, applyUpd_job u s h]

@[simp] theorem jobAt_run (e : Eff) (s : State) (f : Nat) (h : Eff.Only (fun u => u.touches .job = false) e) :
    (run e s).jobAt f = s.jobAt f := run_frame (fun t => t.jobAt f) (fun u t hu => jobAt_frame u t f hu) h s

@[simp] theorem jobAt_same (s : State) (f : Nat) (v) : (applyUpd (.job f v) s).jobAt f = v := by
  simp [State.jobAt]

theorem jobAt_other (s : State) (f j : Nat) (v) (h : j ≠ f) :
    (applyUpd (.job j v) s).jobAt f = s.jobAt f := by
  simp only [State.jobAt, applyUpd_job_self]
  exact Store.get_set_other _ _ _ h

@[simp] theorem connAt_frame (u : Upd) (s : State) (i : Nat) (h : u.touches .conn = false) :
    (applyUpd u s).connAt i = s.connAt i := by
  simp only [State.connAt, applyUpd_conn u s h]

@[simp] theorem connAt_run (e : Eff) (s : State) (i : Nat) (h : Eff.Only (fun u => u.touches .conn = false) e) :
    (run e s).connAt i = s.connAt i := run_frame (fun t => t.connAt i) (fun u t hu => connAt_frame u t i hu) h s

@[simp] theorem connAt_same (s : State) (i : Nat) (v) : (applyUpd (.conn i v) s).connAt i = v := by
  simp [State.connAt]

theorem connAt_other (s : State) (i j : Nat) (v) (h : j ≠ i) :
    (applyUpd (.conn j v) s).connAt i = s.connAt i := by
  simp only [State.connAt, applyUpd_conn_self]
  exact Store.get_set_other _ _ _ h

@[simp] theorem opAt_frame (u : Upd) (s : State) (i : Nat) (h : u.touches .fabOp = false) :
    (applyUpd u s).opAt i = s.opAt i := by
  simp only [State.opAt, applyUpd_fabOp u s h]

@[simp] theorem opAt_run (e : Eff) (s : State) (i : Nat) (h : Eff.Only (fun u => u.touches .fabOp = false) e) :
    (run e s).opAt i = s.opAt i := run_frame (fun t => t.opAt i) (fun u t hu => opAt_frame u t i hu) h s

@[simp] theorem opAt_same (s : State) (i : Nat) (v) : (applyUpd (.fabOp i v) s).opAt i = v := by
  simp [State.opAt]

theorem opAt_other (s : State) (i j : Nat) (v) (h : j ≠ i) :
    (applyUpd (.fabOp j v) s).opAt i = s.opAt i := by
  simp only [State.opAt, applyUpd_fabOp_self]
  exact Store.get_set_other _ _ _ h

@[simp] theorem fabAt_frame (u : Upd) (s : State) (n : Nat) (h : u.touches .fab = false) :
    (applyUpd u s).fabAt n = s.fabAt n := by
  simp only [State.fabAt, applyUpd_fab u s h]

@[simp] theorem fabAt_run (e : Eff) (s : State) (n : Nat) (h : Eff.Only (fun u => u.touches .fab = false) e) :
    (run e s).fabAt n = s.fabAt n := run_frame (fun t => t.fabAt n) (fun u t hu => fabAt_frame u t n hu) h s

@[simp] theorem fabAt_same (s : State) (n : Nat) (v) : (applyUpd (.fab n v) s).fabAt n = v := by
  simp [State.fabAt]

theorem fabAt_other (s : State) (n j : Nat) (v) (h : j ≠ n) :
    (applyUpd (.fab j v) s).fabAt n = s.fabAt n := by
  simp only [State.fabAt, applyUpd_fab_self]
  exact Store.get_set_other _ _ _ h

@[simp] theorem thAt_frame (u : Upd) (s : State) (n : Nat) (h : u.touches .th = false) :
    (applyUpd u s).thAt n = s.thAt n := by
  simp only [State.thAt, applyUpd_th u s h]

@[simp] theorem thAt_run (e : Eff) (s : State) (n : Nat) (h : Eff.Only (fun u => u.touches .th = false) e) :
    (run e s).thAt n = s.thAt n := run_frame (fun t => t.thAt n) (fun u t hu => thAt_frame u t n hu) h s

@[simp] theorem thAt_same (s : State) (n : Nat) (v) : (applyUpd (.th n v) s).thAt n = v := by
  simp [State.thAt]

theorem thAt_other (s : State) (n j : Nat) (v) (h : j ≠ n) :
    (applyUpd (.th j v) s).thAt n = s.thAt n := by
  simp only [State.thAt, applyUpd_th_self]
  exact Store.get_set_other _ _ _ h

@[simp] theorem flaskStAt_frame (u : Upd) (s : State) (f : Nat) (h : u.touches .flaskSt = false) :
    (applyUpd u s).flaskStAt f = s.flaskStAt f := by
  simp only [State.flaskStAt, applyUpd_flaskSt u s h]

@[simp] theorem flaskStAt_run (e : Eff) (s : State) (f : Nat) (h : Eff.Only (fun u => u.touches .flaskSt = false) e) :
    (run e s).flaskStAt f = s.flaskStAt f := run_frame (fun t => t.flaskStAt f) (fun u t hu => flaskStAt_frame u t f hu) h s

@[simp] theorem flaskStAt_same (s : State) (f : Nat) (v) : (applyUpd (.flaskSt f v) s).flaskStAt f = v := by
  simp [State.flaskStAt]

theorem flaskStAt_other (s : State) (f j : Nat) (v) (h : j ≠ f) :
    (applyUpd (.flaskSt j v) s).flaskStAt f = s.flaskStAt f := by
  simp only [State.flaskStAt, applyUpd_flaskSt_self]
  exact Store.get_set_other _ _ _ h

@[simp] theorem ownerAt_frame (u : Upd) (s : State) (r : Nat) (h : u.touches .owner = false) :
    (applyUpd u s).ownerAt r = s.ownerAt r := by
  simp only [State.ownerAt, applyUpd_owner u s h]

@[simp] theorem ownerAt_run (e : Eff) (s : State) (r : Nat) (h : Eff.Only (fun u => u.touches .owner = false) e) :
    (run e s).ownerAt r = s.ownerAt r := run_frame (fun t => t.ownerAt r) (fun u t hu => ownerAt_frame u t r hu) h s

@[simp] theorem ownerAt_same (s : State) (r : Nat) (v) : (applyUpd (.owner r v) s).ownerAt r = v := by
  simp [State.ownerAt]

theorem ownerAt_other (s : State) (r j : Nat) (v) (h : j ≠ r) :
    (applyUpd (.owner j v) s).ownerAt r = s.ownerAt r := by
  simp only [State.ownerAt, applyUpd_owner_self]
  exact Store.get_set_other _ _ _ h

@[simp] theorem accAt_frame (u : Upd) (s : State) (n k : Nat) (h : u.touches .acc = false) :
    (applyUpd u s).accAt n k = s.accAt n k := by
  simp only [State.accAt, applyUpd_acc u s h]

@[simp] theorem accAt_run (e : Eff) (s : State) (n k : Nat) (h : Eff.Only (fun u => u.touches .acc = false) e) :
    (run e s).accAt n k = s.accAt n k := run_frame (fun t => t.accAt n k) (fun u t hu => accAt_frame u t n k hu) h s

@[simp] theorem accAt_same (s : State) (n k : Nat) (v) : (applyUpd (.acc (n * 2048 + k % 2048) v) s).accAt n k = v := by
  simp [State.accAt]

@[simp] theorem slotAt_frame (u : Upd) (s : State) (fl i : Nat) (h : u.touches .slot = false) :
    (applyUpd u s).slotAt fl i = s.slotAt fl i := by
  simp only [State.slotAt, applyUpd_slot u s h]

@[simp] theorem slotAt_run (e : Eff) (s : State) (fl i : Nat) (h : Eff.Only (fun u => u.touches .slot = false) e) :
    (run e s).slotAt fl i = s.slotAt fl i := run_frame (fun t => t.slotAt fl i) (fun u t hu => slotAt_frame u t fl i hu) h s

@[simp] theorem slotAt_same (s : State) (fl i : Nat) (v) : (applyUpd (.slot (fl * 2 ^ 30 + i) v) s).slotAt fl i = v := by
  simp [State.slotAt]

@[simp] theorem pteAt_frame (u : Upd) (s : State) (q st p : Nat) (h : u.touches .pte = false) :
    (applyUpd u s).pteAt q st p = s.pteAt q st p := by
  simp only [State.pteAt, applyUpd_pte u s h]

@[simp] theorem pteAt_run (e : Eff) (s : State) (q st p : Nat) (h : Eff.Only (fun u => u.touches .pte = false) e) :
    (run e s).pteAt q st p = s.pteAt q st p := run_frame (fun t => t.pteAt q st p) (fun u t hu => pteAt_frame u t q st p hu) h s

@[simp] theorem pteAt_same (s : State) (q st p : Nat) (v) : (applyUpd (.pte ((q * 65536 + st) * 65536 + p) v) s).pteAt q st p = v := by
  simp [State.pteAt]

@[simp] theorem slagAt_frame (u : Upd) (s : State) (q : Nat) (h : u.touches .slag = false) :
    (applyUpd u s).slagAt q = s.slagAt q := by
  simp only [State.slagAt, applyUpd_slag u s h]

@[simp] theorem slagAt_run (e : Eff) (s : State) (q : Nat) (h : Eff.Only (fun u => u.touches .slag = false) e) :
    (run e s).slagAt q = s.slagAt q := run_frame (fun t => t.slagAt q) (fun u t hu => slagAt_frame u t q hu) h s

@[simp] theorem slagAt_same (s : State) (q : Nat) (v) : (applyUpd (.slag q v) s).slagAt q = v := by
  simp [State.slagAt]

theorem slagAt_other (s : State) (q j : Nat) (v) (h : j ≠ q) :
    (applyUpd (.slag j v) s).slagAt q = s.slagAt q := by
  simp only [State.slagAt, applyUpd_slag_self]
  exact Store.get_set_other _ _ _ h

@[simp] theorem markAt_frame (u : Upd) (s : State) (w : Nat) (h : u.touches .marks = false) :
    (applyUpd u s).markAt w = s.markAt w := by
  simp only [State.markAt, applyUpd_marks u s h]

@[simp] theorem markAt_run (e : Eff) (s : State) (w : Nat) (h : Eff.Only (fun u => u.touches .marks = false) e) :
    (run e s).markAt w = s.markAt w := run_frame (fun t => t.markAt w) (fun u t hu => markAt_frame u t w hu) h s

@[simp] theorem markAt_same (s : State) (w : Nat) (v) : (applyUpd (.mark w v) s).markAt w = v := by
  simp [State.markAt]

@[simp] theorem attendsAt_frame (u : Upd) (s : State) (c : Nat) (h : u.touches .attend = false) :
    (applyUpd u s).attendsAt c = s.attendsAt c := by
  simp only [State.attendsAt, applyUpd_attend u s h]

@[simp] theorem attendsAt_run (e : Eff) (s : State) (c : Nat) (h : Eff.Only (fun u => u.touches .attend = false) e) :
    (run e s).attendsAt c = s.attendsAt c := run_frame (fun t => t.attendsAt c) (fun u t hu => attendsAt_frame u t c hu) h s

@[simp] theorem attendsAt_same (s : State) (c : Nat) (v) : (applyUpd (.attend c v) s).attendsAt c = v := by
  simp [State.attendsAt]

theorem attendsAt_other (s : State) (c j : Nat) (v) (h : j ≠ c) :
    (applyUpd (.attend j v) s).attendsAt c = s.attendsAt c := by
  simp only [State.attendsAt, applyUpd_attend_self]
  exact Store.get_set_other _ _ _ h

/-! The set operations are one update each. -/

@[simp] theorem run_setCore (n : Nat) (f) (s : State) :
    run (setCore n f) s = applyUpd (.core n (f (s.coreAt n))) s := rfl

@[simp] theorem run_setCluster (c : Nat) (f) (s : State) :
    run (setCluster c f) s = applyUpd (.cluster c (f (s.clusterAt c))) s := rfl

@[simp] theorem run_setStack (n : Nat) (f) (s : State) :
    run (setStack n f) s = applyUpd (.stack n (f (s.stackAt n))) s := rfl

@[simp] theorem run_setQueue (n q : Nat) (f) (s : State) :
    run (setQueue n q f) s = applyUpd (.queue (n * 16 + q) (f (s.queueAt n q))) s := rfl

@[simp] theorem run_setAg (n g : Nat) (f) (s : State) :
    run (setAg n g f) s = applyUpd (.ag (n * 8 + g) (f (s.agAt n g))) s := rfl

@[simp] theorem run_setSlice (n : Nat) (f) (s : State) :
    run (setSlice n f) s = applyUpd (.slice n (f (s.sliceAt n))) s := rfl

@[simp] theorem run_setBank (sl b : Nat) (f) (s : State) :
    run (setBank sl b f) s = applyUpd (.bank (sl * 128 + b) (f (s.bankAt sl b))) s := rfl

@[simp] theorem run_setPath (p : Nat) (f) (s : State) :
    run (setPath p f) s = applyUpd (.path p (f (s.pathAt p))) s := rfl

@[simp] theorem run_setSeq (q : Nat) (f) (s : State) :
    run (setSeq q f) s = applyUpd (.seq q (f (s.seqAt q))) s := rfl

@[simp] theorem run_setPage (k : Nat) (f) (s : State) :
    run (setPage k f) s = applyUpd (.page k (f (s.pageAt k))) s := rfl

@[simp] theorem run_setGath (g : Nat) (f) (s : State) :
    run (setGath g f) s = applyUpd (.gath g (f (s.gathAt g))) s := rfl

@[simp] theorem run_setAccount (a : Nat) (f) (s : State) :
    run (setAccount a f) s = applyUpd (.account a (f (s.accountAt a))) s := rfl

@[simp] theorem run_setFn (a : Nat) (f) (s : State) :
    run (setFn a f) s = applyUpd (.fn a (f (s.fnAt a))) s := rfl

@[simp] theorem run_setWq (a : Nat) (f) (s : State) :
    run (setWq a f) s = applyUpd (.wq a (f (s.wqAt a))) s := rfl

@[simp] theorem run_setCtx (a : Nat) (f) (s : State) :
    run (setCtx a f) s = applyUpd (.ctx a (f (s.ctxAt a))) s := rfl

@[simp] theorem run_setLadle (a : Nat) (f) (s : State) :
    run (setLadle a f) s = applyUpd (.ladle a (f (s.ladleAt a))) s := rfl

@[simp] theorem run_setPort (a : Nat) (f) (s : State) :
    run (setPort a f) s = applyUpd (.port a (f (s.portAt a))) s := rfl

@[simp] theorem run_setSub (a : Nat) (f) (s : State) :
    run (setSub a f) s = applyUpd (.sub a (f (s.subAt a))) s := rfl

@[simp] theorem run_setJob (a : Nat) (f) (s : State) :
    run (setJob a f) s = applyUpd (.job a (f (s.jobAt a))) s := rfl

@[simp] theorem run_setConn (a : Nat) (f) (s : State) :
    run (setConn a f) s = applyUpd (.conn a (f (s.connAt a))) s := rfl

@[simp] theorem run_setOp (a : Nat) (f) (s : State) :
    run (setOp a f) s = applyUpd (.fabOp a (f (s.opAt a))) s := rfl

@[simp] theorem run_setFab (a : Nat) (f) (s : State) :
    run (setFab a f) s = applyUpd (.fab a (f (s.fabAt a))) s := rfl

@[simp] theorem run_setTh (a : Nat) (f) (s : State) :
    run (setTh a f) s = applyUpd (.th a (f (s.thAt a))) s := rfl

@[simp] theorem run_setFw (f) (s : State) : run (setFw f) s = applyUpd (.fw (f s.fw)) s := rfl

@[simp] theorem run_setSec (f) (s : State) : run (setSec f) s = applyUpd (.sec (f s.sec)) s := rfl

@[simp] theorem run_setTherm (f) (s : State) : run (setTherm f) s = applyUpd (.therm (f s.therm)) s := rfl

@[simp] theorem run_setMisc (f) (s : State) : run (setMisc f) s = applyUpd (.misc (f s.misc)) s := rfl

@[simp] theorem run_addReg (r : Fld) (i k : Nat) (s : State) : run (addReg r i k) s = applyUpd (.reg r i (s.reg r i + k)) s := rfl

@[simp] theorem run_satReg (r : Fld) (i k : Nat) (s : State) :
    run (satReg r i k) s = applyUpd (.reg r i (min (s.reg r i + k) (2 ^ r.info.width - 1))) s := rfl


/-- A register field after a write of one: by field and instance. -/
theorem reg_applyUpd (r r' : Fld) (i i' v : Nat) (s : State) :
    (applyUpd (.reg r i v) s).reg r' i' = if r = r' ∧ i = i' then v % 2 ^ r'.info.width else s.reg r' i' := by
  split
  · rename_i h; obtain ⟨rfl, rfl⟩ := h; exact reg_applyUpd_same r i v s
  · rename_i h; exact reg_applyUpd_other v s h

/-- A shadow copy just written is pending with the value its width keeps (R22). -/
@[simp] theorem shadow_applyUpd_same (r : Fld) (i v : Nat) (s : State) :
    (applyUpd (.shad r i v) s).shadow r i = some (v % 2 ^ r.info.width) := by
  simp only [State.shadow, applyUpd_shad_self]
  induction s.shad with
  | nil => simp [Store.put, Store.get]
  | cons p m ih =>
    obtain ⟨k, w⟩ := p
    unfold Store.put
    split
    · simp [Store.get]
    · split
      · simp [Store.get]
      · rename_i h
        have : ¬k = regKey r i := fun e => h e.symm
        simpa [Store.get, this] using ih

/-! A part that none of an effect's updates touches keeps its value. -/

@[simp] theorem pending_run (e : Eff) (s : State) : (run e s).pending = s.pending :=
  run_keeps (P := fun t => t.pending = s.pending) (fun u t h => (applyUpd_pending u t).trans h) e s rfl

@[simp] theorem tick_run (e : Eff) (s : State) (h : Eff.Only (fun u => u.touches .tick = false) e) : (run e s).tick = s.tick :=
  run_frame (fun t => t.tick) (fun u t hu => applyUpd_tick u t hu) h s

@[simp] theorem rsp_run (e : Eff) (s : State) (h : Eff.Only (fun u => u.touches .rsp = false) e) : (run e s).rsp = s.rsp :=
  run_frame (fun t => t.rsp) (fun u t hu => applyUpd_rsp u t hu) h s

@[simp] theorem out_run (e : Eff) (s : State) (h : Eff.Only (fun u => u.touches .out = false) e) : (run e s).out = s.out :=
  run_frame (fun t => t.out) (fun u t hu => applyUpd_out u t hu) h s

@[simp] theorem fuse_run (e : Eff) (s : State) : (run e s).fuse = s.fuse :=
  run_keeps (P := fun t => t.fuse = s.fuse) (fun u t h => (applyUpd_fuse u t).trans h) e s rfl

@[simp] theorem misc_run (e : Eff) (s : State) (h : Eff.Only (fun u => u.touches .misc = false) e) : (run e s).misc = s.misc :=
  run_frame (fun t => t.misc) (fun u t hu => applyUpd_misc u t hu) h s

@[simp] theorem regs_run (e : Eff) (s : State) (h : Eff.Only (fun u => u.touches .regs = false) e) : (run e s).regs = s.regs :=
  run_frame (fun t => t.regs) (fun u t hu => applyUpd_regs u t hu) h s

@[simp] theorem shad_run (e : Eff) (s : State) (h : Eff.Only (fun u => u.touches .shad = false) e) : (run e s).shad = s.shad :=
  run_frame (fun t => t.shad) (fun u t hu => applyUpd_shad u t hu) h s

@[simp] theorem mem_run (e : Eff) (s : State) (h : Eff.Only (fun u => u.touches .mem = false) e) : (run e s).mem = s.mem :=
  run_frame (fun t => t.mem) (fun u t hu => applyUpd_mem u t hu) h s

@[simp] theorem marks_run (e : Eff) (s : State) (h : Eff.Only (fun u => u.touches .marks = false) e) : (run e s).marks = s.marks :=
  run_frame (fun t => t.marks) (fun u t hu => applyUpd_marks u t hu) h s

@[simp] theorem wb_run (e : Eff) (s : State) (h : Eff.Only (fun u => u.touches .wb = false) e) : (run e s).wb = s.wb :=
  run_frame (fun t => t.wb) (fun u t hu => applyUpd_wb u t hu) h s

@[simp] theorem cache_run (e : Eff) (s : State) (h : Eff.Only (fun u => u.touches .cache = false) e) : (run e s).cache = s.cache :=
  run_frame (fun t => t.cache) (fun u t hu => applyUpd_cache u t hu) h s

@[simp] theorem openRow_run (e : Eff) (s : State) (h : Eff.Only (fun u => u.touches .openRow = false) e) : (run e s).openRow = s.openRow :=
  run_frame (fun t => t.openRow) (fun u t hu => applyUpd_openRow u t hu) h s

@[simp] theorem slice_run (e : Eff) (s : State) (h : Eff.Only (fun u => u.touches .slice = false) e) : (run e s).slice = s.slice :=
  run_frame (fun t => t.slice) (fun u t hu => applyUpd_slice u t hu) h s

@[simp] theorem owner_run (e : Eff) (s : State) (h : Eff.Only (fun u => u.touches .owner = false) e) : (run e s).owner = s.owner :=
  run_frame (fun t => t.owner) (fun u t hu => applyUpd_owner u t hu) h s

@[simp] theorem cluster_run (e : Eff) (s : State) (h : Eff.Only (fun u => u.touches .cluster = false) e) : (run e s).cluster = s.cluster :=
  run_frame (fun t => t.cluster) (fun u t hu => applyUpd_cluster u t hu) h s

@[simp] theorem stack_run (e : Eff) (s : State) (h : Eff.Only (fun u => u.touches .stack = false) e) : (run e s).stack = s.stack :=
  run_frame (fun t => t.stack) (fun u t hu => applyUpd_stack u t hu) h s

@[simp] theorem members_run (e : Eff) (s : State) (h : Eff.Only (fun u => u.touches .members = false) e) : (run e s).members = s.members :=
  run_frame (fun t => t.members) (fun u t hu => applyUpd_members u t hu) h s

@[simp] theorem hwAdds_run (e : Eff) (s : State) (h : Eff.Only (fun u => u.touches .hwAdds = false) e) : (run e s).hwAdds = s.hwAdds :=
  run_frame (fun t => t.hwAdds) (fun u t hu => applyUpd_hwAdds u t hu) h s

@[simp] theorem port_run (e : Eff) (s : State) (h : Eff.Only (fun u => u.touches .port = false) e) : (run e s).port = s.port :=
  run_frame (fun t => t.port) (fun u t hu => applyUpd_port u t hu) h s

@[simp] theorem sub_run (e : Eff) (s : State) (h : Eff.Only (fun u => u.touches .sub = false) e) : (run e s).sub = s.sub :=
  run_frame (fun t => t.sub) (fun u t hu => applyUpd_sub u t hu) h s

@[simp] theorem job_run (e : Eff) (s : State) (h : Eff.Only (fun u => u.touches .job = false) e) : (run e s).job = s.job :=
  run_frame (fun t => t.job) (fun u t hu => applyUpd_job u t hu) h s

@[simp] theorem conn_run (e : Eff) (s : State) (h : Eff.Only (fun u => u.touches .conn = false) e) : (run e s).conn = s.conn :=
  run_frame (fun t => t.conn) (fun u t hu => applyUpd_conn u t hu) h s

@[simp] theorem fabOp_run (e : Eff) (s : State) (h : Eff.Only (fun u => u.touches .fabOp = false) e) : (run e s).fabOp = s.fabOp :=
  run_frame (fun t => t.fabOp) (fun u t hu => applyUpd_fabOp u t hu) h s

@[simp] theorem cring_run (e : Eff) (s : State) (h : Eff.Only (fun u => u.touches .cring = false) e) : (run e s).cring = s.cring :=
  run_frame (fun t => t.cring) (fun u t hu => applyUpd_cring u t hu) h s

@[simp] theorem fab_run (e : Eff) (s : State) (h : Eff.Only (fun u => u.touches .fab = false) e) : (run e s).fab = s.fab :=
  run_frame (fun t => t.fab) (fun u t hu => applyUpd_fab u t hu) h s

@[simp] theorem cfg_run (e : Eff) (s : State) (h : Eff.Only (fun u => u.touches .cfg = false) e) : (run e s).cfg = s.cfg :=
  run_frame (fun t => t.cfg) (fun u t hu => applyUpd_cfg u t hu) h s

@[simp] theorem cfgSlots_run (e : Eff) (s : State) (h : Eff.Only (fun u => u.touches .cfgSlots = false) e) : (run e s).cfgSlots = s.cfgSlots :=
  run_frame (fun t => t.cfgSlots) (fun u t hu => applyUpd_cfgSlots u t hu) h s

@[simp] theorem ladle_run (e : Eff) (s : State) (h : Eff.Only (fun u => u.touches .ladle = false) e) : (run e s).ladle = s.ladle :=
  run_frame (fun t => t.ladle) (fun u t hu => applyUpd_ladle u t hu) h s

@[simp] theorem bucket_run (e : Eff) (s : State) (h : Eff.Only (fun u => u.touches .bucket = false) e) : (run e s).bucket = s.bucket :=
  run_frame (fun t => t.bucket) (fun u t hu => applyUpd_bucket u t hu) h s

@[simp] theorem core_run (e : Eff) (s : State) (h : Eff.Only (fun u => u.touches .core = false) e) : (run e s).core = s.core :=
  run_frame (fun t => t.core) (fun u t hu => applyUpd_core u t hu) h s

@[simp] theorem queue_run (e : Eff) (s : State) (h : Eff.Only (fun u => u.touches .queue = false) e) : (run e s).queue = s.queue :=
  run_frame (fun t => t.queue) (fun u t hu => applyUpd_queue u t hu) h s

@[simp] theorem acc_run (e : Eff) (s : State) (h : Eff.Only (fun u => u.touches .acc = false) e) : (run e s).acc = s.acc :=
  run_frame (fun t => t.acc) (fun u t hu => applyUpd_acc u t hu) h s

@[simp] theorem ag_run (e : Eff) (s : State) (h : Eff.Only (fun u => u.touches .ag = false) e) : (run e s).ag = s.ag :=
  run_frame (fun t => t.ag) (fun u t hu => applyUpd_ag u t hu) h s

@[simp] theorem bank_run (e : Eff) (s : State) (h : Eff.Only (fun u => u.touches .bank = false) e) : (run e s).bank = s.bank :=
  run_frame (fun t => t.bank) (fun u t hu => applyUpd_bank u t hu) h s

@[simp] theorem path_run (e : Eff) (s : State) (h : Eff.Only (fun u => u.touches .path = false) e) : (run e s).path = s.path :=
  run_frame (fun t => t.path) (fun u t hu => applyUpd_path u t hu) h s

@[simp] theorem page_run (e : Eff) (s : State) (h : Eff.Only (fun u => u.touches .page = false) e) : (run e s).page = s.page :=
  run_frame (fun t => t.page) (fun u t hu => applyUpd_page u t hu) h s

@[simp] theorem pte_run (e : Eff) (s : State) (h : Eff.Only (fun u => u.touches .pte = false) e) : (run e s).pte = s.pte :=
  run_frame (fun t => t.pte) (fun u t hu => applyUpd_pte u t hu) h s

@[simp] theorem seq_run (e : Eff) (s : State) (h : Eff.Only (fun u => u.touches .seq = false) e) : (run e s).seq = s.seq :=
  run_frame (fun t => t.seq) (fun u t hu => applyUpd_seq u t hu) h s

@[simp] theorem slag_run (e : Eff) (s : State) (h : Eff.Only (fun u => u.touches .slag = false) e) : (run e s).slag = s.slag :=
  run_frame (fun t => t.slag) (fun u t hu => applyUpd_slag u t hu) h s

@[simp] theorem slot_run (e : Eff) (s : State) (h : Eff.Only (fun u => u.touches .slot = false) e) : (run e s).slot = s.slot :=
  run_frame (fun t => t.slot) (fun u t hu => applyUpd_slot u t hu) h s

@[simp] theorem kv_run (e : Eff) (s : State) (h : Eff.Only (fun u => u.touches .kv = false) e) : (run e s).kv = s.kv :=
  run_frame (fun t => t.kv) (fun u t hu => applyUpd_kv u t hu) h s

@[simp] theorem mbox_run (e : Eff) (s : State) (h : Eff.Only (fun u => u.touches .mbox = false) e) : (run e s).mbox = s.mbox :=
  run_frame (fun t => t.mbox) (fun u t hu => applyUpd_mbox u t hu) h s

@[simp] theorem fn_run (e : Eff) (s : State) (h : Eff.Only (fun u => u.touches .fn = false) e) : (run e s).fn = s.fn :=
  run_frame (fun t => t.fn) (fun u t hu => applyUpd_fn u t hu) h s

@[simp] theorem wq_run (e : Eff) (s : State) (h : Eff.Only (fun u => u.touches .wq = false) e) : (run e s).wq = s.wq :=
  run_frame (fun t => t.wq) (fun u t hu => applyUpd_wq u t hu) h s

@[simp] theorem ctx_run (e : Eff) (s : State) (h : Eff.Only (fun u => u.touches .ctx = false) e) : (run e s).ctx = s.ctx :=
  run_frame (fun t => t.ctx) (fun u t hu => applyUpd_ctx u t hu) h s

@[simp] theorem image_run (e : Eff) (s : State) (h : Eff.Only (fun u => u.touches .image = false) e) : (run e s).image = s.image :=
  run_frame (fun t => t.image) (fun u t hu => applyUpd_image u t hu) h s

@[simp] theorem flaskSt_run (e : Eff) (s : State) (h : Eff.Only (fun u => u.touches .flaskSt = false) e) : (run e s).flaskSt = s.flaskSt :=
  run_frame (fun t => t.flaskSt) (fun u t hu => applyUpd_flaskSt u t hu) h s

@[simp] theorem hmem_run (e : Eff) (s : State) (h : Eff.Only (fun u => u.touches .hmem = false) e) : (run e s).hmem = s.hmem :=
  run_frame (fun t => t.hmem) (fun u t hu => applyUpd_hmem u t hu) h s

@[simp] theorem account_run (e : Eff) (s : State) (h : Eff.Only (fun u => u.touches .account = false) e) : (run e s).account = s.account :=
  run_frame (fun t => t.account) (fun u t hu => applyUpd_account u t hu) h s

@[simp] theorem attend_run (e : Eff) (s : State) (h : Eff.Only (fun u => u.touches .attend = false) e) : (run e s).attend = s.attend :=
  run_frame (fun t => t.attend) (fun u t hu => applyUpd_attend u t hu) h s

@[simp] theorem gath_run (e : Eff) (s : State) (h : Eff.Only (fun u => u.touches .gath = false) e) : (run e s).gath = s.gath :=
  run_frame (fun t => t.gath) (fun u t hu => applyUpd_gath u t hu) h s

@[simp] theorem note_run (e : Eff) (s : State) (h : Eff.Only (fun u => u.touches .note = false) e) : (run e s).note = s.note :=
  run_frame (fun t => t.note) (fun u t hu => applyUpd_note u t hu) h s

@[simp] theorem assayer_run (e : Eff) (s : State) (h : Eff.Only (fun u => u.touches .assayer = false) e) : (run e s).assayer = s.assayer :=
  run_frame (fun t => t.assayer) (fun u t hu => applyUpd_assayer u t hu) h s

@[simp] theorem lasting_run (e : Eff) (s : State) (h : Eff.Only (fun u => u.touches .lasting = false) e) : (run e s).lasting = s.lasting :=
  run_frame (fun t => t.lasting) (fun u t hu => applyUpd_lasting u t hu) h s

@[simp] theorem fifo_run (e : Eff) (s : State) (h : Eff.Only (fun u => u.touches .fifo = false) e) : (run e s).fifo = s.fifo :=
  run_frame (fun t => t.fifo) (fun u t hu => applyUpd_fifo u t hu) h s

@[simp] theorem dropped_run (e : Eff) (s : State) (h : Eff.Only (fun u => u.touches .dropped = false) e) : (run e s).dropped = s.dropped :=
  run_frame (fun t => t.dropped) (fun u t hu => applyUpd_dropped u t hu) h s

@[simp] theorem retirements_run (e : Eff) (s : State) (h : Eff.Only (fun u => u.touches .retirements = false) e) : (run e s).retirements = s.retirements :=
  run_frame (fun t => t.retirements) (fun u t hu => applyUpd_retirements u t hu) h s

@[simp] theorem excl_run (e : Eff) (s : State) (h : Eff.Only (fun u => u.touches .excl = false) e) : (run e s).excl = s.excl :=
  run_frame (fun t => t.excl) (fun u t hu => applyUpd_excl u t hu) h s

@[simp] theorem excluded_run (e : Eff) (s : State) (h : Eff.Only (fun u => u.touches .excluded = false) e) : (run e s).excluded = s.excluded :=
  run_frame (fun t => t.excluded) (fun u t hu => applyUpd_excluded u t hu) h s

@[simp] theorem fw_run (e : Eff) (s : State) (h : Eff.Only (fun u => u.touches .fw = false) e) : (run e s).fw = s.fw :=
  run_frame (fun t => t.fw) (fun u t hu => applyUpd_fw u t hu) h s

@[simp] theorem sec_run (e : Eff) (s : State) (h : Eff.Only (fun u => u.touches .sec = false) e) : (run e s).sec = s.sec :=
  run_frame (fun t => t.sec) (fun u t hu => applyUpd_sec u t hu) h s

@[simp] theorem therm_run (e : Eff) (s : State) (h : Eff.Only (fun u => u.touches .therm = false) e) : (run e s).therm = s.therm :=
  run_frame (fun t => t.therm) (fun u t hu => applyUpd_therm u t hu) h s

@[simp] theorem th_run (e : Eff) (s : State) (h : Eff.Only (fun u => u.touches .th = false) e) : (run e s).th = s.th :=
  run_frame (fun t => t.th) (fun u t hu => applyUpd_th u t hu) h s

@[simp] theorem shut_run (e : Eff) (s : State) (h : Eff.Only (fun u => u.touches .shut = false) e) : (run e s).shut = s.shut :=
  run_frame (fun t => t.shut) (fun u t hu => applyUpd_shut u t hu) h s

@[simp] theorem held_run (e : Eff) (s : State) (h : Eff.Only (fun u => u.touches .held = false) e) : (run e s).held = s.held :=
  run_frame (fun t => t.held) (fun u t hu => applyUpd_held u t hu) h s

@[simp] theorem flashLog_run (e : Eff) (s : State) (h : Eff.Only (fun u => u.touches .flashLog = false) e) : (run e s).flashLog = s.flashLog :=
  run_frame (fun t => t.flashLog) (fun u t hu => applyUpd_flashLog u t hu) h s

/-- The update is no write of the register field, and no clearing of registers. -/
@[simp] def Upd.sparesReg (r : Fld) (i : Nat) : Upd → Prop
  | .reg r' i' _ => ¬(r' = r ∧ i' = i)
  | .clearRegs _ => False
  | .wipe _ => False
  | _ => True

theorem reg_sparesReg (r : Fld) (i : Nat) (u : Upd) (s : State) (h : u.sparesReg r i) : (applyUpd u s).reg r i = s.reg r i := by
  cases u <;> first | exact absurd h id | exact reg_applyUpd_other _ s h | rfl

/-- A register field that none of an effect's updates writes keeps its value. -/
@[simp] theorem reg_run (e : Eff) (s : State) (r : Fld) (i : Nat) (h : Eff.Only (Upd.sparesReg r i) e) :
    (run e s).reg r i = s.reg r i :=
  run_frame (fun t => t.reg r i) (fun u t hu => reg_sparesReg r i u t hu) h s

@[simp] theorem only_upd (P : Upd → Prop) (u : Upd) : Eff.Only P (.upd u) ↔ P u := Iff.rfl

/-! Bytes of memory. -/

@[simp] theorem byteAt_frame (u : Upd) (s : State) (a : Nat) (h : u.touches .mem = false) : (applyUpd u s).byteAt a = s.byteAt a := by
  simp only [State.byteAt, applyUpd_mem u s h]

theorem byteAt_bytes (a : Nat) (d : List Byte) (s : State) (k : Nat) (h : k < d.length) :
    (applyUpd (.bytes a d) s).byteAt (a + k) = d[k] := by
  simp only [State.byteAt, applyUpd_bytes_mem, putBytes_get _ _ _ _ h]

theorem byteAt_bytes_other (a : Nat) (d : List Byte) (s : State) (b : Nat) (h : b < a ∨ a + d.length ≤ b) :
    (applyUpd (.bytes a d) s).byteAt b = s.byteAt b := by
  simp only [State.byteAt, applyUpd_bytes_mem, putBytes_get_other _ _ _ _ h]

theorem byteAt_zero (a len : Nat) (s : State) (b : Nat) :
    (applyUpd (.zero a len) s).byteAt b = if a ≤ b ∧ b < a + len then 0 else s.byteAt b := by
  simp only [State.byteAt, applyUpd_zero_mem, Store.get_clear]
  by_cases h1 : a ≤ b <;> by_cases h2 : b < a + len <;> simp [h1, h2]

theorem rawBytes_bytes (a : Nat) (d : List Byte) (s : State) (n : Nat) (h : n ≤ d.length) :
    (applyUpd (.bytes a d) s).rawBytes a n = d.take n := by
  refine List.ext_getElem (by simp [State.rawBytes, h]) fun k h1 h2 => ?_
  simp only [State.rawBytes, List.length_map, List.length_range] at h1
  simp [State.rawBytes, byteAt_bytes a d s k (by omega)]

end Sys2Proof.Machine
end

