-- ==== Sys2Proof/Laws/May.lean ====
section
/-! SUPPORT. What an effect may change: a set of parts of State and of register fields, as the bits of a number. An effect
that stays within a set leaves everything outside it alone. -/
set_option exponentiation.threshold 1000
namespace Sys2Proof.Machine

/-- The bit of what a primitive update changes: a part of State, or one register field. A module reset has a bit of its own. -/
def Upd.bit : Upd → Nat
  | .tick => Part.tick.ctorIdx
  | .rsp _ => Part.rsp.ctorIdx
  | .emit _ => Part.out.ctorIdx
  | .misc _ => Part.misc.ctorIdx
  | .reg r _ _ => 80 + r.ctorIdx
  | .shad _ _ _ => Part.shad.ctorIdx
  | .unshad _ _ => Part.shad.ctorIdx
  | .clearRegs _ => Part.regs.ctorIdx
  | .bytes _ _ => Part.mem.ctorIdx
  | .zero _ _ => Part.mem.ctorIdx
  | .mark _ _ => Part.marks.ctorIdx
  | .clearMarks _ _ => Part.marks.ctorIdx
  | .wb _ _ => Part.wb.ctorIdx
  | .clearWb _ _ => Part.wb.ctorIdx
  | .cache _ _ => Part.cache.ctorIdx
  | .clearCache _ => Part.cache.ctorIdx
  | .openRow _ _ => Part.openRow.ctorIdx
  | .slice _ _ => Part.slice.ctorIdx
  | .owner _ _ => Part.owner.ctorIdx
  | .cluster _ _ => Part.cluster.ctorIdx
  | .stack _ _ => Part.stack.ctorIdx
  | .members _ => Part.members.ctorIdx
  | .hwAdds _ => Part.hwAdds.ctorIdx
  | .core _ _ => Part.core.ctorIdx
  | .queue _ _ => Part.queue.ctorIdx
  | .acc _ _ => Part.acc.ctorIdx
  | .clearAcc _ => Part.acc.ctorIdx
  | .ag _ _ => Part.ag.ctorIdx
  | .bank _ _ => Part.bank.ctorIdx
  | .path _ _ => Part.path.ctorIdx
  | .page _ _ => Part.page.ctorIdx
  | .pte _ _ => Part.pte.ctorIdx
  | .seq _ _ => Part.seq.ctorIdx
  | .slag _ _ => Part.slag.ctorIdx
  | .slot _ _ => Part.slot.ctorIdx
  | .kv _ _ => Part.kv.ctorIdx
  | .account _ _ => Part.account.ctorIdx
  | .attend _ _ => Part.attend.ctorIdx
  | .gath _ _ => Part.gath.ctorIdx
  | .note _ _ => Part.note.ctorIdx
  | .clearNotes _ => Part.note.ctorIdx
  | .assayer _ _ => Part.assayer.ctorIdx
  | .lasting _ => Part.lasting.ctorIdx
  | .fifo _ => Part.fifo.ctorIdx
  | .dropped _ => Part.dropped.ctorIdx
  | .fn _ _ => Part.fn.ctorIdx
  | .wq _ _ => Part.wq.ctorIdx
  | .ctx _ _ => Part.ctx.ctorIdx
  | .image _ _ => Part.image.ctorIdx
  | .flaskSt _ _ => Part.flaskSt.ctorIdx
  | .mbox _ _ => Part.mbox.ctorIdx
  | .hbytes _ _ => Part.hmem.ctorIdx
  | .clearMbox _ => Part.mbox.ctorIdx
  | .clearImages _ => Part.image.ctorIdx
  | .ladle _ _ => Part.ladle.ctorIdx
  | .bucket _ _ => Part.bucket.ctorIdx
  | .port _ _ => Part.port.ctorIdx
  | .sub _ _ => Part.sub.ctorIdx
  | .job _ _ => Part.job.ctorIdx
  | .conn _ _ => Part.conn.ctorIdx
  | .fabOp _ _ => Part.fabOp.ctorIdx
  | .fab _ _ => Part.fab.ctorIdx
  | .cring _ _ => Part.cring.ctorIdx
  | .cfg _ => Part.cfg.ctorIdx
  | .cfgSlots _ => Part.cfgSlots.ctorIdx
  | .retirements _ => Part.retirements.ctorIdx
  | .excl _ => Part.excl.ctorIdx
  | .excluded _ => Part.excluded.ctorIdx
  | .fw _ => Part.fw.ctorIdx
  | .sec _ => Part.sec.ctorIdx
  | .therm _ => Part.therm.ctorIdx
  | .th _ _ => Part.th.ctorIdx
  | .shut _ => Part.shut.ctorIdx
  | .held _ => Part.held.ctorIdx
  | .flashLog _ => Part.flashLog.ctorIdx
  | .wipe _ => 79

/-- The set of one part. -/
def mp (p : Part) : Nat := 2 ^ p.ctorIdx

/-- The set of one register field. -/
def mr (r : Fld) : Nat := 2 ^ (80 + r.ctorIdx)

/-- The set of several register fields. -/
def mrs (l : List Fld) : Nat := l.foldr (fun r a => mr r ||| a) 0

/-- Every update the effect can make, from whatever state, lies in the set. -/
inductive May (m : Nat) : Eff → Prop
  | skip : May m .skip
  | upd {u : Upd} (h : m.testBit u.bit = true) : May m (.upd u)
  | seq {a b : Eff} (ha : May m a) (hb : May m b) : May m (.seq a b)
  | get {f : State → Eff} (h : ∀ s, May m (f s)) : May m (.get f)
  | nil : May m (Eff.all [])
  | cons {e : Eff} {es : List Eff} (h : May m e) (hs : May m (Eff.all es)) : May m (Eff.all (e :: es))
  | when {b : Bool} {e : Eff} (h : May m e) : May m (Eff.when b e)
  | each {α : Type} {l : List α} {f : α → Eff} (h : ∀ a, May m (f a)) : May m (Eff.each l f)
  | opt {α : Type} {o : Option α} {f : α → Eff} (h : ∀ a, May m (f a)) : May m (Eff.opt o f)
  | fresh {k : Nat → Eff} (ht : m.testBit Part.tick.ctorIdx = true) (h : ∀ v, May m (k v)) : May m (Sys2Proof.Machine.fresh k)
  | ite {c : Prop} {d : Decidable c} {a b : Eff} (ha : May m a) (hb : May m b) : May m (if c then a else b)
  | set {r : Fld} {i v : Nat} (h : m.testBit (80 + r.ctorIdx) = true) : May m (setReg r i v)
  | add {r : Fld} {i v : Nat} (h : m.testBit (80 + r.ctorIdx) = true) : May m (addReg r i v)
  | sat {r : Fld} {i v : Nat} (h : m.testBit (80 + r.ctorIdx) = true) : May m (satReg r i v)

variable {m : Nat}

/-! Sets. -/

theorem sub_trans {a b l : Nat} (h1 : a ||| b = b) (h : b ||| l = l) : a ||| l = l := by rw [← h, ← Nat.or_assoc, h1]

theorem bit_sub {b l k : Nat} (h1 : b.testBit k = true) (h : b ||| l = l) : l.testBit k = true := by rw [← h]; simp [h1]

theorem mrs_bit {r : Fld} {l : List Fld} (h : r ∈ l) : (mrs l).testBit (80 + r.ctorIdx) = true := by
  induction l with
  | nil => cases h
  | cons a l ih =>
    rcases List.mem_cons.mp h with rfl | h
    · simp [mrs, mr]
    · have := ih h
      simp only [mrs] at this
      simp [mrs, this]

/-- What lies within a set is made of updates within it. -/
theorem May.only {e : Eff} (h : May m e) : Eff.Only (fun u => m.testBit u.bit = true) e := by
  induction h with
  | skip => trivial
  | nil => trivial
  | upd hu => exact hu
  | seq _ _ ia ib => exact ⟨ia, ib⟩
  | cons _ _ ia ib => exact ⟨ia, ib⟩
  | get _ ih => exact ih
  | when _ ih => exact (only_when _ _ _).mpr fun _ => ih
  | each _ ih => exact (only_each _ _ _).mpr fun a _ => ih a
  | opt _ ih => exact (only_opt _ _ _).mpr fun a _ => ih a
  | fresh ht _ ih => exact (only_fresh _ _).mpr ⟨ht, fun _ => ih _⟩
  | ite _ _ ia ib => split <;> assumption
  | set h => exact h
  | add h => exact fun _ => h
  | sat h => exact fun _ => h

/-- What is made of updates within a set lies within it. -/
theorem May.of_only : {e : Eff} → Eff.Only (fun u => m.testBit u.bit = true) e → May m e
  | .skip, _ => .skip
  | .upd _, h => .upd h
  | .seq _ _, h => .seq (of_only h.1) (of_only h.2)
  | .get _, h => .get fun s => of_only (h s)

/-- An effect for each member of a list. -/
theorem May.eachMem {α : Type} {l : List α} {f : α → Eff} (h : ∀ a ∈ l, May m (f a)) : May m (Eff.each l f) :=
  .of_only ((only_each _ _ _).mpr fun a ha => (h a ha).only)

/-! Frames. -/

/-- An update touches a part only through its bit: its own part's, or the register file's, or a module reset's. -/
theorem bit_touches (u : Upd) (p : Part) (h : u.touches p = true) :
    u.bit = p.ctorIdx ∨ (p = .regs ∧ 80 ≤ u.bit) ∨ (p = .shad ∧ u.bit = Part.regs.ctorIdx) ∨ u.bit = 79 := by
  cases u
  case wipe => exact .inr (.inr (.inr rfl))
  case reg => exact .inr (.inl ⟨by simpa using h, Nat.le_add_right _ _⟩)
  case clearRegs =>
    rcases Bool.or_eq_true _ _ ▸ h with h | h
    · exact .inl (by rw [eq_of_beq h]; rfl)
    · exact .inr (.inr (.inl ⟨eq_of_beq h, rfl⟩))
  all_goals exact .inl (by rw [eq_of_beq (show (p == _) = true from h)]; rfl)

/-- A part outside the set, other than the register file and its shadows, is left alone. -/
theorem May.frame {α : Type} {e : Eff} (he : May m e) (p : Part) (g : State → α)
    (hg : ∀ u s, u.touches p = false → g (applyUpd u s) = g s) (h : m.testBit p.ctorIdx = false) (h79 : m.testBit 79 = false)
    (hr : p ≠ .regs) (hs : p ≠ .shad) (s : State) : g (run e s) = g s := by
  refine run_frame g (P := fun u => m.testBit u.bit = true) (fun u t hu => hg u t ?_) he.only s
  cases ht : u.touches p
  · rfl
  · rcases bit_touches u p ht with hb | ⟨hp, -⟩ | ⟨hp, -⟩ | hb
    · rw [hb, h] at hu; cases hu
    · exact absurd hp hr
    · exact absurd hp hs
    · rw [hb, h79] at hu; cases hu

/-- A register field outside the set is left alone. -/
theorem May.regFrame {e : Eff} (he : May m e) (r : Fld) (i : Nat) (h : m.testBit (80 + r.ctorIdx) = false)
    (h0 : m.testBit Part.regs.ctorIdx = false) (h79 : m.testBit 79 = false) (s : State) : (run e s).reg r i = s.reg r i := by
  refine run_frame (fun s => s.reg r i) (P := fun u => m.testBit u.bit = true) (fun u s hu => ?_) he.only s
  by_cases ht : u.touches .regs = true
  · cases u
    case reg r' i' v =>
      refine reg_applyUpd_other v s fun hh => ?_
      rw [Upd.bit, hh.1, h] at hu
      cases hu
    case clearRegs => rw [Upd.bit, h0] at hu; cases hu
    case wipe => rw [Upd.bit, h79] at hu; cases hu
    all_goals exact absurd ht (by simp)
  · exact reg_applyUpd_frame u r i s (by simpa using ht)

end Sys2Proof.Machine
end

