-- ==== Sys2Proof/Laws/MayCore.lean ====
section
/-! SUPPORT. What each operation may change, one set and one lemma an operation: a core and its memory: units, errors, the log, memory accesses, sequencers, arrays, vector units, queues. -/
set_option exponentiation.threshold 1000
set_option maxRecDepth 20000
set_option linter.unusedTactic false
set_option linter.unreachableTactic false
set_option linter.unusedVariables false
namespace Sys2Proof.Machine
variable {mk : Nat}

def maySetCore : Nat := mp .core
theorem setCore_may (hm : maySetCore ||| mk = mk) (n : Nat) (f : CoreSt → CoreSt) :
    May mk (setCore n f) := by
  unfold setCore
  repeat' first | exact bit_sub rfl hm | (dsimp only [Upd.bit]; exact bit_sub rfl hm) | exact sub_trans rfl hm | with_reducible assumption | with_reducible constructor | with_reducible intro _ | dsimp only | split

def maySetCluster : Nat := mp .cluster
theorem setCluster_may (hm : maySetCluster ||| mk = mk) (c : Nat) (f : ClusterSt → ClusterSt) :
    May mk (setCluster c f) := by
  unfold setCluster
  repeat' first | exact bit_sub rfl hm | (dsimp only [Upd.bit]; exact bit_sub rfl hm) | exact sub_trans rfl hm | with_reducible assumption | with_reducible constructor | with_reducible intro _ | dsimp only | split

def maySetStack : Nat := mp .stack
theorem setStack_may (hm : maySetStack ||| mk = mk) (n : Nat) (f : StackSt → StackSt) :
    May mk (setStack n f) := by
  unfold setStack
  repeat' first | exact bit_sub rfl hm | (dsimp only [Upd.bit]; exact bit_sub rfl hm) | exact sub_trans rfl hm | with_reducible assumption | with_reducible constructor | with_reducible intro _ | dsimp only | split

def maySetQueue : Nat := mp .queue
theorem setQueue_may (hm : maySetQueue ||| mk = mk) (n q : Nat) (f : QueueSt → QueueSt) :
    May mk (setQueue n q f) := by
  unfold setQueue
  repeat' first | exact bit_sub rfl hm | (dsimp only [Upd.bit]; exact bit_sub rfl hm) | exact sub_trans rfl hm | with_reducible assumption | with_reducible constructor | with_reducible intro _ | dsimp only | split

def maySetAcc : Nat := mp .acc
theorem setAcc_may (hm : maySetAcc ||| mk = mk) (n e : Nat) (v : AccEnt) :
    May mk (setAcc n e v) := by
  unfold setAcc
  repeat' first | exact bit_sub rfl hm | (dsimp only [Upd.bit]; exact bit_sub rfl hm) | exact sub_trans rfl hm | with_reducible assumption | with_reducible constructor | with_reducible intro _ | dsimp only | split

def maySetAg : Nat := mp .ag
theorem setAg_may (hm : maySetAg ||| mk = mk) (n g : Nat) (f : AgSt → AgSt) :
    May mk (setAg n g f) := by
  unfold setAg
  repeat' first | exact bit_sub rfl hm | (dsimp only [Upd.bit]; exact bit_sub rfl hm) | exact sub_trans rfl hm | with_reducible assumption | with_reducible constructor | with_reducible intro _ | dsimp only | split

def maySetSlice : Nat := mp .slice
theorem setSlice_may (hm : maySetSlice ||| mk = mk) (n : Nat) (f : SliceSt → SliceSt) :
    May mk (setSlice n f) := by
  unfold setSlice
  repeat' first | exact bit_sub rfl hm | (dsimp only [Upd.bit]; exact bit_sub rfl hm) | exact sub_trans rfl hm | with_reducible assumption | with_reducible constructor | with_reducible intro _ | dsimp only | split

def maySetBank : Nat := mp .bank
theorem setBank_may (hm : maySetBank ||| mk = mk) (sl b : Nat) (f : BankSt → BankSt) :
    May mk (setBank sl b f) := by
  unfold setBank
  repeat' first | exact bit_sub rfl hm | (dsimp only [Upd.bit]; exact bit_sub rfl hm) | exact sub_trans rfl hm | with_reducible assumption | with_reducible constructor | with_reducible intro _ | dsimp only | split

def maySetPath : Nat := mp .path
theorem setPath_may (hm : maySetPath ||| mk = mk) (p : Nat) (f : PathSt → PathSt) :
    May mk (setPath p f) := by
  unfold setPath
  repeat' first | exact bit_sub rfl hm | (dsimp only [Upd.bit]; exact bit_sub rfl hm) | exact sub_trans rfl hm | with_reducible assumption | with_reducible constructor | with_reducible intro _ | dsimp only | split

def maySetSeq : Nat := mp .seq
theorem setSeq_may (hm : maySetSeq ||| mk = mk) (q : Nat) (f : SeqSt → SeqSt) :
    May mk (setSeq q f) := by
  unfold setSeq
  repeat' first | exact bit_sub rfl hm | (dsimp only [Upd.bit]; exact bit_sub rfl hm) | exact sub_trans rfl hm | with_reducible assumption | with_reducible constructor | with_reducible intro _ | dsimp only | split

def maySetPage : Nat := mp .page
theorem setPage_may (hm : maySetPage ||| mk = mk) (k : Nat) (f : PageDesc → PageDesc) :
    May mk (setPage k f) := by
  unfold setPage
  repeat' first | exact bit_sub rfl hm | (dsimp only [Upd.bit]; exact bit_sub rfl hm) | exact sub_trans rfl hm | with_reducible assumption | with_reducible constructor | with_reducible intro _ | dsimp only | split

def maySetGath : Nat := mp .gath
theorem setGath_may (hm : maySetGath ||| mk = mk) (g : Nat) (f : Gath → Gath) :
    May mk (setGath g f) := by
  unfold setGath
  repeat' first | exact bit_sub rfl hm | (dsimp only [Upd.bit]; exact bit_sub rfl hm) | exact sub_trans rfl hm | with_reducible assumption | with_reducible constructor | with_reducible intro _ | dsimp only | split

def maySetAccount : Nat := mp .account
theorem setAccount_may (hm : maySetAccount ||| mk = mk) (fl : Nat) (f : Account → Account) :
    May mk (setAccount fl f) := by
  unfold setAccount
  repeat' first | exact bit_sub rfl hm | (dsimp only [Upd.bit]; exact bit_sub rfl hm) | exact sub_trans rfl hm | with_reducible assumption | with_reducible constructor | with_reducible intro _ | dsimp only | split

def maySetFn : Nat := mp .fn
theorem setFn_may (hm : maySetFn ||| mk = mk) (f : Nat) (g : FnSt → FnSt) :
    May mk (setFn f g) := by
  unfold setFn
  repeat' first | exact bit_sub rfl hm | (dsimp only [Upd.bit]; exact bit_sub rfl hm) | exact sub_trans rfl hm | with_reducible assumption | with_reducible constructor | with_reducible intro _ | dsimp only | split

def maySetWq : Nat := mp .wq
theorem setWq_may (hm : maySetWq ||| mk = mk) (k : Nat) (g : WqSt → WqSt) :
    May mk (setWq k g) := by
  unfold setWq
  repeat' first | exact bit_sub rfl hm | (dsimp only [Upd.bit]; exact bit_sub rfl hm) | exact sub_trans rfl hm | with_reducible assumption | with_reducible constructor | with_reducible intro _ | dsimp only | split

def maySetCtx : Nat := mp .ctx
theorem setCtx_may (hm : maySetCtx ||| mk = mk) (x : Nat) (g : CtxSt → CtxSt) :
    May mk (setCtx x g) := by
  unfold setCtx
  repeat' first | exact bit_sub rfl hm | (dsimp only [Upd.bit]; exact bit_sub rfl hm) | exact sub_trans rfl hm | with_reducible assumption | with_reducible constructor | with_reducible intro _ | dsimp only | split

def maySetLadle : Nat := mp .ladle
theorem setLadle_may (hm : maySetLadle ||| mk = mk) (e : Nat) (g : LadleSt → LadleSt) :
    May mk (setLadle e g) := by
  unfold setLadle
  repeat' first | exact bit_sub rfl hm | (dsimp only [Upd.bit]; exact bit_sub rfl hm) | exact sub_trans rfl hm | with_reducible assumption | with_reducible constructor | with_reducible intro _ | dsimp only | split

def maySetPort : Nat := mp .port
theorem setPort_may (hm : maySetPort ||| mk = mk) (g : Nat) (f : PortSt → PortSt) :
    May mk (setPort g f) := by
  unfold setPort
  repeat' first | exact bit_sub rfl hm | (dsimp only [Upd.bit]; exact bit_sub rfl hm) | exact sub_trans rfl hm | with_reducible assumption | with_reducible constructor | with_reducible intro _ | dsimp only | split

def maySetSub : Nat := mp .sub
theorem setSub_may (hm : maySetSub ||| mk = mk) (i : Nat) (f : SubSt → SubSt) :
    May mk (setSub i f) := by
  unfold setSub
  repeat' first | exact bit_sub rfl hm | (dsimp only [Upd.bit]; exact bit_sub rfl hm) | exact sub_trans rfl hm | with_reducible assumption | with_reducible constructor | with_reducible intro _ | dsimp only | split

def maySetJob : Nat := mp .job
theorem setJob_may (hm : maySetJob ||| mk = mk) (fl : Nat) (f : JobSt → JobSt) :
    May mk (setJob fl f) := by
  unfold setJob
  repeat' first | exact bit_sub rfl hm | (dsimp only [Upd.bit]; exact bit_sub rfl hm) | exact sub_trans rfl hm | with_reducible assumption | with_reducible constructor | with_reducible intro _ | dsimp only | split

def maySetConn : Nat := mp .conn
theorem setConn_may (hm : maySetConn ||| mk = mk) (i : Nat) (f : Conn → Conn) :
    May mk (setConn i f) := by
  unfold setConn
  repeat' first | exact bit_sub rfl hm | (dsimp only [Upd.bit]; exact bit_sub rfl hm) | exact sub_trans rfl hm | with_reducible assumption | with_reducible constructor | with_reducible intro _ | dsimp only | split

def maySetOp : Nat := mp .fabOp
theorem setOp_may (hm : maySetOp ||| mk = mk) (i : Nat) (f : FabOp → FabOp) :
    May mk (setOp i f) := by
  unfold setOp
  repeat' first | exact bit_sub rfl hm | (dsimp only [Upd.bit]; exact bit_sub rfl hm) | exact sub_trans rfl hm | with_reducible assumption | with_reducible constructor | with_reducible intro _ | dsimp only | split

def maySetFab : Nat := mp .fab
theorem setFab_may (hm : maySetFab ||| mk = mk) (n : Nat) (f : FabSt → FabSt) :
    May mk (setFab n f) := by
  unfold setFab
  repeat' first | exact bit_sub rfl hm | (dsimp only [Upd.bit]; exact bit_sub rfl hm) | exact sub_trans rfl hm | with_reducible assumption | with_reducible constructor | with_reducible intro _ | dsimp only | split

def maySetTh : Nat := mp .th
theorem setTh_may (hm : maySetTh ||| mk = mk) (n : Nat) (f : ThSt → ThSt) :
    May mk (setTh n f) := by
  unfold setTh
  repeat' first | exact bit_sub rfl hm | (dsimp only [Upd.bit]; exact bit_sub rfl hm) | exact sub_trans rfl hm | with_reducible assumption | with_reducible constructor | with_reducible intro _ | dsimp only | split

def maySetFw : Nat := mp .fw
theorem setFw_may (hm : maySetFw ||| mk = mk) (f : FwSt → FwSt) :
    May mk (setFw f) := by
  unfold setFw
  repeat' first | exact bit_sub rfl hm | (dsimp only [Upd.bit]; exact bit_sub rfl hm) | exact sub_trans rfl hm | with_reducible assumption | with_reducible constructor | with_reducible intro _ | dsimp only | split

def maySetSec : Nat := mp .sec
theorem setSec_may (hm : maySetSec ||| mk = mk) (f : SecSt → SecSt) :
    May mk (setSec f) := by
  unfold setSec
  repeat' first | exact bit_sub rfl hm | (dsimp only [Upd.bit]; exact bit_sub rfl hm) | exact sub_trans rfl hm | with_reducible assumption | with_reducible constructor | with_reducible intro _ | dsimp only | split

def maySetTherm : Nat := mp .therm
theorem setTherm_may (hm : maySetTherm ||| mk = mk) (f : ThermSt → ThermSt) :
    May mk (setTherm f) := by
  unfold setTherm
  repeat' first | exact bit_sub rfl hm | (dsimp only [Upd.bit]; exact bit_sub rfl hm) | exact sub_trans rfl hm | with_reducible assumption | with_reducible constructor | with_reducible intro _ | dsimp only | split

def maySetMisc : Nat := mp .misc
theorem setMisc_may (hm : maySetMisc ||| mk = mk) (f : Misc → Misc) :
    May mk (setMisc f) := by
  unfold setMisc
  repeat' first | exact bit_sub rfl hm | (dsimp only [Upd.bit]; exact bit_sub rfl hm) | exact sub_trans rfl hm | with_reducible assumption | with_reducible constructor | with_reducible intro _ | dsimp only | split

def mayDoorbell : Nat := maySetGath ||| mr .EG_STAT_bad_src
theorem doorbell_may (hm : mayDoorbell ||| mk = mk) (g src : Nat) :
    May mk (doorbell g src) := by
  unfold doorbell
  repeat' first | exact bit_sub rfl hm | (dsimp only [Upd.bit]; exact bit_sub rfl hm) | exact sub_trans rfl hm | with_reducible assumption | with_reducible constructor | with_reducible intro _ | with_reducible apply setGath_may | dsimp only | split

def mayCoreEvent : Nat := mayDoorbell
theorem coreEvent_may (hm : mayCoreEvent ||| mk = mk) (n e : Nat) :
    May mk (coreEvent n e) := by
  unfold coreEvent
  repeat' first | exact bit_sub rfl hm | (dsimp only [Upd.bit]; exact bit_sub rfl hm) | exact sub_trans rfl hm | with_reducible assumption | with_reducible constructor | with_reducible intro _ | with_reducible apply doorbell_may | dsimp only | split

def maySendMsix : Nat := mp .held ||| mp .out ||| mr .MSIX_pend
theorem sendMsix_may (hm : maySendMsix ||| mk = mk) (f v : Nat) :
    May mk (sendMsix f v) := by
  unfold sendMsix
  repeat' first | exact bit_sub rfl hm | (dsimp only [Upd.bit]; exact bit_sub rfl hm) | exact sub_trans rfl hm | with_reducible assumption | with_reducible constructor | with_reducible intro _ | dsimp only | split

def mayHostSend : Nat := maySetGath ||| maySendMsix
theorem hostSend_may (hm : mayHostSend ||| mk = mk) (f : Nat) :
    May mk (hostSend f) := by
  unfold hostSend
  repeat' first | exact bit_sub rfl hm | (dsimp only [Upd.bit]; exact bit_sub rfl hm) | exact sub_trans rfl hm | with_reducible assumption | with_reducible constructor | with_reducible intro _ | with_reducible apply setGath_may | with_reducible apply sendMsix_may | dsimp only | split

def mayHostRing : Nat := mayDoorbell ||| mayHostSend ||| mp .note ||| mr .EG_HNOTE_wr_seq
theorem hostRing_may (hm : mayHostRing ||| mk = mk) (f kind param : Nat) :
    May mk (hostRing f kind param) := by
  unfold hostRing
  repeat' first | exact bit_sub rfl hm | (dsimp only [Upd.bit]; exact bit_sub rfl hm) | exact sub_trans rfl hm | with_reducible assumption | with_reducible constructor | with_reducible intro _ | with_reducible apply doorbell_may | with_reducible apply hostSend_may | dsimp only | split

def mayFlaskRing : Nat := mayHostRing
theorem flaskRing_may (hm : mayFlaskRing ||| mk = mk) (fl kind param : Nat) :
    May mk (flaskRing fl kind param) := by
  unfold flaskRing
  repeat' first | exact bit_sub rfl hm | (dsimp only [Upd.bit]; exact bit_sub rfl hm) | exact sub_trans rfl hm | with_reducible assumption | with_reducible constructor | with_reducible intro _ | with_reducible apply hostRing_may | dsimp only | split

def maySendLog : Nat := maySetMisc ||| mp .dropped ||| mp .fifo
theorem sendLog_may (hm : maySendLog ||| mk = mk) (x : LogItem) :
    May mk (sendLog x) := by
  unfold sendLog
  repeat' first | exact bit_sub rfl hm | (dsimp only [Upd.bit]; exact bit_sub rfl hm) | exact sub_trans rfl hm | with_reducible assumption | with_reducible constructor | with_reducible intro _ | with_reducible apply setMisc_may | dsimp only | split

def mayLogRec : Nat := maySendLog ||| mp .tick
theorem logRec_may (hm : mayLogRec ||| mk = mk) (type sev tsSrc cls unit point : Nat) (payload : List Nat) :
    May mk (logRec type sev tsSrc cls unit point payload) := by
  unfold logRec
  repeat' first | exact bit_sub rfl hm | (dsimp only [Upd.bit]; exact bit_sub rfl hm) | exact sub_trans rfl hm | with_reducible assumption | with_reducible constructor | with_reducible intro _ | with_reducible apply sendLog_may | dsimp only | split

def mayFreshWords : Nat := mp .tick
theorem freshWords_may (hm : mayFreshWords ||| mk = mk) (n : Nat) (k : List Nat → Eff) (hk : ∀ a, May mk (k a)) :
    May mk (freshWords n k) := by
  induction n generalizing k with
  | zero => exact hk []
  | succ n ih => exact .fresh (bit_sub rfl hm) fun v => ih _ fun l => hk _

def mayLogFree : Nat := mayLogRec ||| mayFreshWords ||| mp .tick
theorem logFree_may (hm : mayLogFree ||| mk = mk) (type cls unit : Nat) (known : List Nat) :
    May mk (logFree type cls unit known) := by
  unfold logFree
  repeat' first | exact bit_sub rfl hm | (dsimp only [Upd.bit]; exact bit_sub rfl hm) | exact sub_trans rfl hm | with_reducible assumption | with_reducible constructor | with_reducible intro _ | with_reducible apply logRec_may | with_reducible apply freshWords_may | dsimp only | split

def mayBootRecord : Nat := mayLogFree
theorem bootRecord_may (hm : mayBootRecord ||| mk = mk) (cls unit code : Nat) :
    May mk (bootRecord cls unit code) := by
  unfold bootRecord
  repeat' first | exact bit_sub rfl hm | (dsimp only [Upd.bit]; exact bit_sub rfl hm) | exact sub_trans rfl hm | with_reducible assumption | with_reducible constructor | with_reducible intro _ | with_reducible apply logFree_may | dsimp only | split

def mayErrRecord : Nat := maySendLog
theorem errRecord_may (hm : mayErrRecord ||| mk = mk) (r : Report) (verdict : Nat) (second : Bool) (us : Nat) :
    May mk (errRecord r verdict second us) := by
  unfold errRecord
  repeat' first | exact bit_sub rfl hm | (dsimp only [Upd.bit]; exact bit_sub rfl hm) | exact sub_trans rfl hm | with_reducible assumption | with_reducible constructor | with_reducible intro _ | with_reducible apply sendLog_may | dsimp only | split

def mayAskAssay : Nat := maySetMisc ||| mp .assayer
theorem askAssay_may (hm : mayAskAssay ||| mk = mk) (r : Report) :
    May mk (askAssay r) := by
  unfold askAssay
  repeat' first | exact bit_sub rfl hm | (dsimp only [Upd.bit]; exact bit_sub rfl hm) | exact sub_trans rfl hm | with_reducible assumption | with_reducible constructor | with_reducible intro _ | with_reducible apply setMisc_may | dsimp only | split

def mayReport : Nat := mayErrRecord ||| mayAskAssay ||| mp .tick
theorem report_may (hm : mayReport ||| mk = mk) (kind cls id addr syn flask : Nat) (detail : List Nat) (tsSrc : Nat) :
    May mk (report kind cls id addr syn flask detail tsSrc) := by
  unfold report
  repeat' first | exact bit_sub rfl hm | (dsimp only [Upd.bit]; exact bit_sub rfl hm) | exact sub_trans rfl hm | with_reducible assumption | with_reducible constructor | with_reducible intro _ | with_reducible apply errRecord_may | with_reducible apply askAssay_may | dsimp only | split

def mayAccessRecords : Nat := mayReport
theorem accessRecords_may (hm : mayAccessRecords ||| mk = mk) (iss : Issuer) (fl : Nat) (unmapped prot : List Nat) :
    May mk (accessRecords iss fl unmapped prot) := by
  unfold accessRecords
  repeat' first | exact bit_sub rfl hm | (dsimp only [Upd.bit]; exact bit_sub rfl hm) | exact sub_trans rfl hm | with_reducible assumption | with_reducible constructor | with_reducible intro _ | with_reducible apply report_may | dsimp only | split

def mayCtAdd : Nat := mr .CT_value ||| mr .Q_WDOG_idle
theorem ctAdd_may (hm : mayCtAdd ||| mk = mk) (n ct v : Nat) :
    May mk (ctAdd n ct v) := by
  unfold ctAdd
  repeat' first | exact bit_sub rfl hm | (dsimp only [Upd.bit]; exact bit_sub rfl hm) | exact sub_trans rfl hm | with_reducible assumption | with_reducible constructor | with_reducible intro _ | dsimp only | split

def mayAddTo : Nat := mayReport ||| mayCtAdd
theorem addTo_may (hm : mayAddTo ||| mk = mk) (iss : Issuer) (fl : Option Nat) (a v : Nat) (bad : Nat → Eff) (hbad : ∀ a, May mk (bad a)) :
    May mk (addTo iss fl a v bad) := by
  unfold addTo
  repeat' first | exact bit_sub rfl hm | (dsimp only [Upd.bit]; exact bit_sub rfl hm) | exact sub_trans rfl hm | with_reducible assumption | with_reducible constructor | with_reducible intro _ | with_reducible apply report_may | with_reducible apply ctAdd_may | with_reducible apply hbad | dsimp only | split

def mayAddGlobal : Nat := mayAddTo ||| mp .hwAdds
theorem addGlobal_may (hm : mayAddGlobal ||| mk = mk) (iss : Issuer) (fl : Option Nat) (addr v : Nat) (bad : Nat → Eff) (hbad : ∀ a, May mk (bad a)) :
    May mk (addGlobal iss fl addr v bad) := by
  unfold addGlobal
  repeat' first | exact bit_sub rfl hm | (dsimp only [Upd.bit]; exact bit_sub rfl hm) | exact sub_trans rfl hm | with_reducible assumption | with_reducible constructor | with_reducible intro _ | with_reducible apply addTo_may | with_reducible apply hbad | dsimp only | split

def mayApplyUpsets : Nat := mp .marks
theorem applyUpsets_may (hm : mayApplyUpsets ||| mk = mk) (ups : List Upset) :
    May mk (applyUpsets ups) := by
  unfold applyUpsets
  repeat' first | exact bit_sub rfl hm | (dsimp only [Upd.bit]; exact bit_sub rfl hm) | exact sub_trans rfl hm | with_reducible assumption | with_reducible constructor | with_reducible intro _ | dsimp only | split

def mayCacheEff : Nat := mp .cache
theorem cacheEff_may (hm : mayCacheEff ||| mk = mk) (hint : Nat) (write full alloc : Bool) (line : Nat) :
    May mk (cacheEff hint write full alloc line) := by
  unfold cacheEff
  repeat' first | exact bit_sub rfl hm | (dsimp only [Upd.bit]; exact bit_sub rfl hm) | exact sub_trans rfl hm | with_reducible assumption | with_reducible constructor | with_reducible intro _ | dsimp only | split

def mayInvalLine : Nat := mp .cache
theorem invalLine_may (hm : mayInvalLine ||| mk = mk) (line : Nat) :
    May mk (invalLine line) := by
  unfold invalLine
  repeat' first | exact bit_sub rfl hm | (dsimp only [Upd.bit]; exact bit_sub rfl hm) | exact sub_trans rfl hm | with_reducible assumption | with_reducible constructor | with_reducible intro _ | dsimp only | split

def mayOpenRow : Nat := mp .openRow ||| mr .MC_PERF_row_miss
theorem openRow_may (hm : mayOpenRow ||| mk = mk) (line : Nat) :
    May mk (openRow line) := by
  unfold openRow
  repeat' first | exact bit_sub rfl hm | (dsimp only [Upd.bit]; exact bit_sub rfl hm) | exact sub_trans rfl hm | with_reducible assumption | with_reducible constructor | with_reducible intro _ | dsimp only | split

def mayLineErrors : Nat := mayReport ||| mp .tick ||| mp .wb ||| mr .ECC_CNT_ce ||| mr .ECC_CNT_poison ||| mr .ECC_CNT_ue
theorem lineErrors_may (hm : mayLineErrors ||| mk = mk) (riser : Bool) (fl : Nat) (line : Nat) (rs : List (Nat × WordRead)) :
    May mk (lineErrors riser fl line rs) := by
  unfold lineErrors
  repeat' first | exact bit_sub rfl hm | (dsimp only [Upd.bit]; exact bit_sub rfl hm) | exact sub_trans rfl hm | with_reducible assumption | with_reducible constructor | with_reducible intro _ | with_reducible apply report_may | dsimp only | split

def mayReadLine : Nat := mayCacheEff ||| mayOpenRow ||| mayLineErrors ||| mr .MC_PERF_hits ||| mr .MC_PERF_rd_lines
theorem readLine_may (hm : mayReadLine ||| mk = mk) (fl hint line : Nat) :
    May mk (readLine fl hint line) := by
  unfold readLine
  repeat' first | exact bit_sub rfl hm | (dsimp only [Upd.bit]; exact bit_sub rfl hm) | exact sub_trans rfl hm | with_reducible assumption | with_reducible constructor | with_reducible intro _ | with_reducible apply cacheEff_may | with_reducible apply openRow_may | with_reducible apply lineErrors_may | dsimp only | split

def mayRefill : Nat := mp .bucket ||| mp .tick
theorem refill_may (hm : mayRefill ||| mk = mk) (k rate burst : Nat) (en : Bool) :
    May mk (refill k rate burst en) := by
  unfold refill
  repeat' first | exact bit_sub rfl hm | (dsimp only [Upd.bit]; exact bit_sub rfl hm) | exact sub_trans rfl hm | with_reducible assumption | with_reducible constructor | with_reducible intro _ | dsimp only | split

def mayD2dCharge : Nat := mayRefill ||| mp .bucket ||| mp .tick ||| mr .REG_EGB_d2d ||| mr .REG_EGW_cycles
theorem d2dCharge_may (hm : mayD2dCharge ||| mk = mk) (src : Nat) (fl : Option Nat) (a len : Nat) :
    May mk (d2dCharge src fl a len) := by
  unfold d2dCharge
  repeat' first | exact bit_sub rfl hm | (dsimp only [Upd.bit]; exact bit_sub rfl hm) | exact sub_trans rfl hm | with_reducible assumption | with_reducible constructor | with_reducible intro _ | with_reducible apply refill_may | dsimp only | split

def mayFarCharge : Nat := mayD2dCharge ||| mp .bucket ||| mr .REG_IOB_far
theorem farCharge_may (hm : mayFarCharge ||| mk = mk) (src : Nat) (fl : Option Nat) (a len : Nat) :
    May mk (farCharge src fl a len) := by
  unfold farCharge
  repeat' first | exact bit_sub rfl hm | (dsimp only [Upd.bit]; exact bit_sub rfl hm) | exact sub_trans rfl hm | with_reducible assumption | with_reducible constructor | with_reducible intro _ | with_reducible apply d2dCharge_may | dsimp only | split

def mayAccessCharge : Nat := mayFarCharge ||| mr .REG_IOB_far ||| mr .REG_IOB_host
theorem accessCharge_may (hm : mayAccessCharge ||| mk = mk) (iss : Issuer) (fl : Option Nat) (a len : Nat) :
    May mk (accessCharge iss fl a len) := by
  unfold accessCharge
  repeat' first | exact bit_sub rfl hm | (dsimp only [Upd.bit]; exact bit_sub rfl hm) | exact sub_trans rfl hm | with_reducible assumption | with_reducible constructor | with_reducible intro _ | with_reducible apply farCharge_may | dsimp only | split

def mayReadMem : Nat := mayAccessRecords ||| mayReadLine ||| mayAccessCharge
theorem readMem_may (hm : mayReadMem ||| mk = mk) (iss : Issuer) (chk : Bool) (fl : Option Nat) (a len hint : Nat) (k : Rd → Eff) (hk : ∀ a, May mk (k a)) :
    May mk (readMem iss chk fl a len hint k) := by
  unfold readMem
  repeat' first | exact bit_sub rfl hm | (dsimp only [Upd.bit]; exact bit_sub rfl hm) | exact sub_trans rfl hm | with_reducible assumption | with_reducible constructor | with_reducible intro _ | with_reducible apply accessRecords_may | with_reducible apply readLine_may | with_reducible apply accessCharge_may | with_reducible apply hk | dsimp only | split

def mayPutWord : Nat := mp .marks ||| mp .mem ||| mp .wb
theorem putWord_may (hm : mayPutWord ||| mk = mk) (w : Nat) (d : List Byte) (poison : Bool) :
    May mk (putWord w d poison) := by
  unfold putWord
  repeat' first | exact bit_sub rfl hm | (dsimp only [Upd.bit]; exact bit_sub rfl hm) | exact sub_trans rfl hm | with_reducible assumption | with_reducible constructor | with_reducible intro _ | dsimp only | split

def mayWriteWord : Nat := mayReport ||| mayPutWord ||| mp .tick
theorem writeWord_may (hm : mayWriteWord ||| mk = mk) (fl : Nat) (w off : Nat) (d : List Byte) :
    May mk (writeWord fl w off d) := by
  unfold writeWord
  repeat' first | exact bit_sub rfl hm | (dsimp only [Upd.bit]; exact bit_sub rfl hm) | exact sub_trans rfl hm | with_reducible assumption | with_reducible constructor | with_reducible intro _ | with_reducible apply report_may | with_reducible apply putWord_may | dsimp only | split

def mayWriteLine : Nat := mayCacheEff ||| mayOpenRow ||| mayPutWord ||| mayWriteWord ||| mp .cache ||| mp .mem ||| mr .MC_PERF_wr_lines
theorem writeLine_may (hm : mayWriteLine ||| mk = mk) (fl hint a : Nat) (d : List Byte) :
    May mk (writeLine fl hint a d) := by
  unfold writeLine
  repeat' first | exact bit_sub rfl hm | (dsimp only [Upd.bit]; exact bit_sub rfl hm) | exact sub_trans rfl hm | with_reducible assumption | with_reducible constructor | with_reducible intro _ | with_reducible apply cacheEff_may | with_reducible apply openRow_may | with_reducible apply putWord_may | with_reducible apply writeWord_may | dsimp only | split

def mayWriteMem : Nat := mayAccessRecords ||| mayAccessCharge ||| mayWriteLine
theorem writeMem_may (hm : mayWriteMem ||| mk = mk) (iss : Issuer) (chk : Bool) (fl : Option Nat) (a hint : Nat) (d : List Byte) (k : Nat → Eff) (hk : ∀ a, May mk (k a)) :
    May mk (writeMem iss chk fl a hint d k) := by
  unfold writeMem
  repeat' first | exact bit_sub rfl hm | (dsimp only [Upd.bit]; exact bit_sub rfl hm) | exact sub_trans rfl hm | with_reducible assumption | with_reducible constructor | with_reducible intro _ | with_reducible apply accessRecords_may | with_reducible apply accessCharge_may | with_reducible apply writeLine_may | with_reducible apply hk | dsimp only | split

def mayZeroRange : Nat := mp .marks ||| mp .mem ||| mp .wb
theorem zeroRange_may (hm : mayZeroRange ||| mk = mk) (a len : Nat) :
    May mk (zeroRange a len) := by
  unfold zeroRange
  repeat' first | exact bit_sub rfl hm | (dsimp only [Upd.bit]; exact bit_sub rfl hm) | exact sub_trans rfl hm | with_reducible assumption | with_reducible constructor | with_reducible intro _ | dsimp only | split

def mayFwWrite : Nat := mayPutWord
theorem fwWrite_may (hm : mayFwWrite ||| mk = mk) (a : Nat) (d : List Byte) :
    May mk (fwWrite a d) := by
  unfold fwWrite
  repeat' first | exact bit_sub rfl hm | (dsimp only [Upd.bit]; exact bit_sub rfl hm) | exact sub_trans rfl hm | with_reducible assumption | with_reducible constructor | with_reducible intro _ | with_reducible apply putWord_may | dsimp only | split

/-- The fields of the charge blocks. -/
def mayCharge : Nat := mrs ((List.range 13).flatMap fun b => (layout b).map (·.1))
theorem charge_bit (hm : mayCharge ||| mk = mk) (b : Nat) (x : Fld × Nat × Nat × Nat) (hx : x ∈ layout b) :
    mk.testBit (80 + x.1.ctorIdx) = true := by
  refine bit_sub (mrs_bit (List.mem_flatMap.mpr ⟨min b 12, List.mem_range.mpr (by omega), List.mem_map.mpr ⟨x, ?_, rfl⟩⟩)) hm
  rcases Nat.le_total b 12 with h | h
  · rwa [Nat.min_eq_left h]
  · have : layout b = layout 12 := by
      rcases Nat.eq_or_lt_of_le h with rfl | h
      · rfl
      · simp only [layout]; repeat' (first | omega | split | rfl)
    rw [Nat.min_eq_right h, ← this]; exact hx

def mayCopyShadow : Nat := mayCharge ||| mp .shad
theorem copyShadow_may (hm : mayCopyShadow ||| mk = mk) (n blk : Nat) : May mk (copyShadow n blk) :=
  .eachMem fun x hx => .get fun _ => .opt fun _ => .seq (.set (charge_bit (sub_trans rfl hm) blk x hx)) (.upd (by dsimp only [Upd.bit]; exact bit_sub rfl hm))

def maySettle : Nat := mayCopyShadow
theorem settle_may (hm : maySettle ||| mk = mk) (n : Nat) :
    May mk (settle n) := by
  unfold settle
  repeat' first | exact bit_sub rfl hm | (dsimp only [Upd.bit]; exact bit_sub rfl hm) | exact sub_trans rfl hm | with_reducible assumption | with_reducible constructor | with_reducible intro _ | with_reducible apply copyShadow_may | dsimp only | split

def mayProgress : Nat := mr .Q_WDOG_idle
theorem progress_may (hm : mayProgress ||| mk = mk) (n : Nat) :
    May mk (progress n) := by
  unfold progress
  repeat' first | exact bit_sub rfl hm | (dsimp only [Upd.bit]; exact bit_sub rfl hm) | exact sub_trans rfl hm | with_reducible assumption | with_reducible constructor | with_reducible intro _ | dsimp only | split

def mayQDrop : Nat := maySetQueue ||| mayProgress
theorem qDrop_may (hm : mayQDrop ||| mk = mk) (n q p len : Nat) :
    May mk (qDrop n q p len) := by
  unfold qDrop
  repeat' first | exact bit_sub rfl hm | (dsimp only [Upd.bit]; exact bit_sub rfl hm) | exact sub_trans rfl hm | with_reducible assumption | with_reducible constructor | with_reducible intro _ | with_reducible apply setQueue_may | with_reducible apply progress_may | dsimp only | split

def mayQSkip : Nat := mayQDrop
theorem qSkip_may (hm : mayQSkip ||| mk = mk) (n q : Nat) :
    May mk (qSkip n q) := by
  unfold qSkip
  repeat' first | exact bit_sub rfl hm | (dsimp only [Upd.bit]; exact bit_sub rfl hm) | exact sub_trans rfl hm | with_reducible assumption | with_reducible constructor | with_reducible intro _ | with_reducible apply qDrop_may | dsimp only | split

def mayRingWrite : Nat := mayFwWrite
theorem ringWrite_may (hm : mayRingWrite ||| mk = mk) (s : State) (n q p k e off : Nat) (d : List Byte) :
    May mk (ringWrite s n q p k e off d) := by
  induction k generalizing e off d with
  | zero => exact .skip
  | succ k ih =>
    unfold ringWrite
    repeat' first | exact bit_sub rfl hm | (dsimp only [Upd.bit]; exact bit_sub rfl hm) | exact sub_trans rfl hm | with_reducible assumption | with_reducible constructor | with_reducible intro _ | with_reducible apply fwWrite_may | with_reducible apply ih | dsimp only | split

def mayQPush : Nat := maySetQueue ||| mayProgress ||| mayRingWrite
theorem qPush_may (hm : mayQPush ||| mk = mk) (n q p : Nat) (d : List Byte) :
    May mk (qPush n q p d) := by
  unfold qPush
  repeat' first | exact bit_sub rfl hm | (dsimp only [Upd.bit]; exact bit_sub rfl hm) | exact sub_trans rfl hm | with_reducible assumption | with_reducible constructor | with_reducible intro _ | with_reducible apply setQueue_may | with_reducible apply progress_may | with_reducible apply ringWrite_may | dsimp only | split

def mayQClose : Nat := mayQPush
theorem qClose_may (hm : mayQClose ||| mk = mk) (n q : Nat) :
    May mk (qClose n q) := by
  unfold qClose
  repeat' first | exact bit_sub rfl hm | (dsimp only [Upd.bit]; exact bit_sub rfl hm) | exact sub_trans rfl hm | with_reducible assumption | with_reducible constructor | with_reducible intro _ | with_reducible apply qPush_may | dsimp only | split

def mayQEmpty : Nat := mp .queue
theorem qEmpty_may (hm : mayQEmpty ||| mk = mk) (n q : Nat) :
    May mk (qEmpty n q) := by
  unfold qEmpty
  repeat' first | exact bit_sub rfl hm | (dsimp only [Upd.bit]; exact bit_sub rfl hm) | exact sub_trans rfl hm | with_reducible assumption | with_reducible constructor | with_reducible intro _ | dsimp only | split

def mayQStall : Nat := maySetQueue
theorem qStall_may (hm : mayQStall ||| mk = mk) (n q : Nat) (push : Bool) :
    May mk (qStall n q push) := by
  unfold qStall
  repeat' first | exact bit_sub rfl hm | (dsimp only [Upd.bit]; exact bit_sub rfl hm) | exact sub_trans rfl hm | with_reducible assumption | with_reducible constructor | with_reducible intro _ | with_reducible apply setQueue_may | dsimp only | split

def maySetSeqState : Nat := mr .SEQ_STATUS_state
theorem setSeqState_may (hm : maySetSeqState ||| mk = mk) (n st : Nat) :
    May mk (setSeqState n st) := by
  unfold setSeqState
  repeat' first | exact bit_sub rfl hm | (dsimp only [Upd.bit]; exact bit_sub rfl hm) | exact sub_trans rfl hm | with_reducible assumption | with_reducible constructor | with_reducible intro _ | dsimp only | split

def maySeqError : Nat := mayCoreEvent ||| maySetSeqState ||| mr .SEQ_ERR_addr ||| mr .SEQ_STATUS_cause ||| mr .SEQ_STATUS_sub
theorem seqError_may (hm : maySeqError ||| mk = mk) (n cause sub addr : Nat) :
    May mk (seqError n cause sub addr) := by
  unfold seqError
  repeat' first | exact bit_sub rfl hm | (dsimp only [Upd.bit]; exact bit_sub rfl hm) | exact sub_trans rfl hm | with_reducible assumption | with_reducible constructor | with_reducible intro _ | with_reducible apply coreEvent_may | with_reducible apply setSeqState_may | dsimp only | split

def mayFetchAt : Nat := maySetSeqState ||| mr .SEQ_PC_addr
theorem fetchAt_may (hm : mayFetchAt ||| mk = mk) (n addr : Nat) :
    May mk (fetchAt n addr) := by
  unfold fetchAt
  repeat' first | exact bit_sub rfl hm | (dsimp only [Upd.bit]; exact bit_sub rfl hm) | exact sub_trans rfl hm | with_reducible assumption | with_reducible constructor | with_reducible intro _ | with_reducible apply setSeqState_may | dsimp only | split

def mayLeaveRecord : Nat := maySetSeqState ||| mayFetchAt
theorem leaveRecord_may (hm : mayLeaveRecord ||| mk = mk) (n : Nat) :
    May mk (leaveRecord n) := by
  unfold leaveRecord
  repeat' first | exact bit_sub rfl hm | (dsimp only [Upd.bit]; exact bit_sub rfl hm) | exact sub_trans rfl hm | with_reducible assumption | with_reducible constructor | with_reducible intro _ | with_reducible apply setSeqState_may | with_reducible apply fetchAt_may | dsimp only | split

def maySeqGo : Nat := maySetCore ||| maySetSeqState ||| mayFetchAt ||| mr .SEQ_STATUS_cause ||| mr .SEQ_STATUS_fx ||| mr .SEQ_STATUS_sub
theorem seqGo_may (hm : maySeqGo ||| mk = mk) (n : Nat) :
    May mk (seqGo n) := by
  unfold seqGo
  repeat' first | exact bit_sub rfl hm | (dsimp only [Upd.bit]; exact bit_sub rfl hm) | exact sub_trans rfl hm | with_reducible assumption | with_reducible constructor | with_reducible intro _ | with_reducible apply setCore_may | with_reducible apply setSeqState_may | with_reducible apply fetchAt_may | dsimp only | split

def mayStopUnits : Nat := maySetCore ||| maySetAg ||| mayQSkip ||| mayQClose
theorem stopUnits_may (hm : mayStopUnits ||| mk = mk) (n : Nat) :
    May mk (stopUnits n) := by
  unfold stopUnits
  repeat' first | exact bit_sub rfl hm | (dsimp only [Upd.bit]; exact bit_sub rfl hm) | exact sub_trans rfl hm | with_reducible assumption | with_reducible constructor | with_reducible intro _ | with_reducible apply setCore_may | with_reducible apply setAg_may | with_reducible apply qSkip_may | with_reducible apply qClose_may | dsimp only | split

def maySeqStop : Nat := maySeqError ||| mayStopUnits
theorem seqStop_may (hm : maySeqStop ||| mk = mk) (n cause : Nat) :
    May mk (seqStop n cause) := by
  unfold seqStop
  repeat' first | exact bit_sub rfl hm | (dsimp only [Upd.bit]; exact bit_sub rfl hm) | exact sub_trans rfl hm | with_reducible assumption | with_reducible constructor | with_reducible intro _ | with_reducible apply seqError_may | with_reducible apply stopUnits_may | dsimp only | split

def maySeqCtlStopEff : Nat := maySetSeqState ||| maySeqError ||| maySeqStop
theorem seqCtlStopEff_may (hm : maySeqCtlStopEff ||| mk = mk) (n : Nat) :
    May mk (seqCtlStopEff n) := by
  unfold seqCtlStopEff
  repeat' first | exact bit_sub rfl hm | (dsimp only [Upd.bit]; exact bit_sub rfl hm) | exact sub_trans rfl hm | with_reducible assumption | with_reducible constructor | with_reducible intro _ | with_reducible apply setSeqState_may | with_reducible apply seqError_may | with_reducible apply seqStop_may | dsimp only | split

def maySeqPause : Nat := maySetCore
theorem seqPause_may (hm : maySeqPause ||| mk = mk) (n : Nat) :
    May mk (seqPause n) := by
  unfold seqPause
  repeat' first | exact bit_sub rfl hm | (dsimp only [Upd.bit]; exact bit_sub rfl hm) | exact sub_trans rfl hm | with_reducible assumption | with_reducible constructor | with_reducible intro _ | with_reducible apply setCore_may | dsimp only | split

def mayFetchFail : Nat := maySetCore ||| maySetSeqState
theorem fetchFail_may (hm : mayFetchFail ||| mk = mk) (n : Nat) (ue : Bool) :
    May mk (fetchFail n ue) := by
  unfold fetchFail
  repeat' first | exact bit_sub rfl hm | (dsimp only [Upd.bit]; exact bit_sub rfl hm) | exact sub_trans rfl hm | with_reducible assumption | with_reducible constructor | with_reducible intro _ | with_reducible apply setCore_may | with_reducible apply setSeqState_may | dsimp only | split

def mayRecordFetchEff : Nat := maySetCore ||| mayApplyUpsets ||| mayReadMem ||| maySetSeqState ||| mayFetchFail
theorem recordFetchEff_may (hm : mayRecordFetchEff ||| mk = mk) (n : Nat) (ups : List Upset) :
    May mk (recordFetchEff n ups) := by
  unfold recordFetchEff
  repeat' first | exact bit_sub rfl hm | (dsimp only [Upd.bit]; exact bit_sub rfl hm) | exact sub_trans rfl hm | with_reducible assumption | with_reducible constructor | with_reducible intro _ | with_reducible apply setCore_may | with_reducible apply applyUpsets_may | with_reducible apply readMem_may | with_reducible apply setSeqState_may | with_reducible apply fetchFail_may | dsimp only | split

def mayWriteField : Nat := mayCharge ||| mayQEmpty ||| mp .shad
theorem writeField_may (hm : mayWriteField ||| mk = mk) (n blk : Nat) (c : CoreSt) (x : Fld × Nat × Nat × Nat)
    (hx : x ∈ layout blk) : May mk (writeField n blk c x) := by
  have hc := charge_bit (sub_trans rfl hm) blk x hx
  unfold writeField
  repeat' first | exact bit_sub rfl hm | (dsimp only [Upd.bit]; exact bit_sub rfl hm) | exact sub_trans rfl hm | with_reducible assumption | with_reducible constructor | with_reducible intro _ | with_reducible apply qEmpty_may | dsimp only | split

def maySyncLoad : Nat := mr .CM_ct ||| mr .CM_rel ||| mr .CM_value ||| mr .CT_value
theorem syncLoad_may (hm : maySyncLoad ||| mk = mk) (n : Nat) (c : CoreSt) :
    May mk (syncLoad n c) := by
  unfold syncLoad
  repeat' first | exact bit_sub rfl hm | (dsimp only [Upd.bit]; exact bit_sub rfl hm) | exact sub_trans rfl hm | with_reducible assumption | with_reducible constructor | with_reducible intro _ | dsimp only | split

def mayRecordLoadEff : Nat := mayWriteField ||| maySeqError ||| maySettle ||| maySyncLoad ||| maySetSeqState ||| mayLeaveRecord
theorem recordLoadEff_may (hm : mayRecordLoadEff ||| mk = mk) (n : Nat) : May mk (recordLoadEff n) := by
  have hw : ∀ c b, May mk (Eff.each (layout b) (writeField n b c)) := fun c b =>
    .eachMem fun x hx => writeField_may (sub_trans rfl hm) n b c x hx
  unfold recordLoadEff
  repeat' first | exact hw _ _ | exact bit_sub rfl hm | (dsimp only [Upd.bit]; exact bit_sub rfl hm) | exact sub_trans rfl hm | with_reducible assumption | with_reducible constructor | with_reducible intro _ | with_reducible apply seqError_may | with_reducible apply settle_may | with_reducible apply syncLoad_may | with_reducible apply setSeqState_may | with_reducible apply leaveRecord_may | dsimp only | split

def mayWaitReleaseEff : Nat := maySetSeqState ||| mayLeaveRecord
theorem waitReleaseEff_may (hm : mayWaitReleaseEff ||| mk = mk) (n : Nat) :
    May mk (waitReleaseEff n) := by
  unfold waitReleaseEff
  repeat' first | exact bit_sub rfl hm | (dsimp only [Upd.bit]; exact bit_sub rfl hm) | exact sub_trans rfl hm | with_reducible assumption | with_reducible constructor | with_reducible intro _ | with_reducible apply setSeqState_may | with_reducible apply leaveRecord_may | dsimp only | split

def mayStartPour : Nat := maySetCore ||| maySetAg ||| mayCtAdd ||| mr .ARR_FX_inf ||| mr .ARR_FX_invalid ||| mr .ARR_FX_nan ||| mr .ARR_FX_sat ||| mr .BNK_ERR_valid ||| mr .VEC_STATUS_fx ||| mr .VEC_STATUS_iter
theorem startPour_may (hm : mayStartPour ||| mk = mk) (n : Nat) :
    May mk (startPour n) := by
  unfold startPour
  repeat' first | exact bit_sub rfl hm | (dsimp only [Upd.bit]; exact bit_sub rfl hm) | exact sub_trans rfl hm | with_reducible assumption | with_reducible constructor | with_reducible intro _ | with_reducible apply setCore_may | with_reducible apply setAg_may | with_reducible apply ctAdd_may | dsimp only | split

def mayPourStartEff : Nat := maySettle ||| maySeqError ||| mayLeaveRecord ||| mayStartPour
theorem pourStartEff_may (hm : mayPourStartEff ||| mk = mk) (n : Nat) :
    May mk (pourStartEff n) := by
  unfold pourStartEff
  repeat' first | exact bit_sub rfl hm | (dsimp only [Upd.bit]; exact bit_sub rfl hm) | exact sub_trans rfl hm | with_reducible assumption | with_reducible constructor | with_reducible intro _ | with_reducible apply settle_may | with_reducible apply seqError_may | with_reducible apply leaveRecord_may | with_reducible apply startPour_may | dsimp only | split

def maySyncLost : Nat := mayReport
theorem syncLost_may (hm : maySyncLost ||| mk = mk) (n addr : Nat) :
    May mk (syncLost n addr) := by
  unfold syncLost
  repeat' first | exact bit_sub rfl hm | (dsimp only [Upd.bit]; exact bit_sub rfl hm) | exact sub_trans rfl hm | with_reducible assumption | with_reducible constructor | with_reducible intro _ | with_reducible apply report_may | dsimp only | split

def mayPourCompleteEff : Nat := maySetCore ||| mayCoreEvent ||| mayCtAdd ||| mayAddGlobal ||| maySyncLost ||| mr .SEQ_DONE_addr ||| mr .SEQ_DONE_count ||| mr .SEQ_DONE_fx ||| mr .SEQ_STATUS_fx
theorem pourCompleteEff_may (hm : mayPourCompleteEff ||| mk = mk) (n : Nat) :
    May mk (pourCompleteEff n) := by
  unfold pourCompleteEff
  repeat' first | exact bit_sub rfl hm | (dsimp only [Upd.bit]; exact bit_sub rfl hm) | exact sub_trans rfl hm | with_reducible assumption | with_reducible constructor | with_reducible intro _ | with_reducible apply setCore_may | with_reducible apply coreEvent_may | with_reducible apply ctAdd_may | with_reducible apply addGlobal_may | with_reducible apply syncLost_may | dsimp only | split

def mayDrainEndEff : Nat := maySetCore ||| mayCoreEvent ||| maySetSeqState ||| maySeqError ||| mayFetchAt ||| mr .SEQ_PC_addr
theorem drainEndEff_may (hm : mayDrainEndEff ||| mk = mk) (n : Nat) :
    May mk (drainEndEff n) := by
  unfold drainEndEff
  repeat' first | exact bit_sub rfl hm | (dsimp only [Upd.bit]; exact bit_sub rfl hm) | exact sub_trans rfl hm | with_reducible assumption | with_reducible constructor | with_reducible intro _ | with_reducible apply setCore_may | with_reducible apply coreEvent_may | with_reducible apply setSeqState_may | with_reducible apply seqError_may | with_reducible apply fetchAt_may | dsimp only | split

def mayCoreLost : Nat := maySetCore ||| maySeqStop
theorem coreLost_may (hm : mayCoreLost ||| mk = mk) (n : Nat) :
    May mk (coreLost n) := by
  unfold coreLost
  repeat' first | exact bit_sub rfl hm | (dsimp only [Upd.bit]; exact bit_sub rfl hm) | exact sub_trans rfl hm | with_reducible assumption | with_reducible constructor | with_reducible intro _ | with_reducible apply setCore_may | with_reducible apply seqStop_may | dsimp only | split

def mayQPop : Nat := mayReport ||| mayQDrop ||| mayCoreLost
theorem qPop_may (hm : mayQPop ||| mk = mk) (n q p len : Nat) (k : List Byte → Eff) (hk : ∀ a, May mk (k a)) :
    May mk (qPop n q p len k) := by
  unfold qPop
  repeat' first | exact bit_sub rfl hm | (dsimp only [Upd.bit]; exact bit_sub rfl hm) | exact sub_trans rfl hm | with_reducible assumption | with_reducible constructor | with_reducible intro _ | with_reducible apply report_may | with_reducible apply qDrop_may | with_reducible apply coreLost_may | with_reducible apply hk | dsimp only | split

def mayAgStep : Nat := maySetAg ||| mayProgress
theorem agStep_may (hm : mayAgStep ||| mk = mk) (n g : Nat) (r : Run) (total : Nat) (f : AgSt → AgSt) :
    May mk (agStep n g r total f) := by
  unfold agStep
  repeat' first | exact bit_sub rfl hm | (dsimp only [Upd.bit]; exact bit_sub rfl hm) | exact sub_trans rfl hm | with_reducible assumption | with_reducible constructor | with_reducible intro _ | with_reducible apply setAg_may | with_reducible apply progress_may | dsimp only | split

def mayPopAcc : Nat := maySetCore ||| maySetAcc
theorem popAcc_may (hm : mayPopAcc ||| mk = mk) (n : Nat) (k : AccEnt → Eff) (hk : ∀ a, May mk (k a)) :
    May mk (popAcc n k) := by
  unfold popAcc
  repeat' first | exact bit_sub rfl hm | (dsimp only [Upd.bit]; exact bit_sub rfl hm) | exact sub_trans rfl hm | with_reducible assumption | with_reducible constructor | with_reducible intro _ | with_reducible apply setCore_may | with_reducible apply setAcc_may | with_reducible apply hk | dsimp only | split

def mayPourFx : Nat := maySetCore
theorem pourFx_may (hm : mayPourFx ||| mk = mk) (n pour f : Nat) :
    May mk (pourFx n pour f) := by
  unfold pourFx
  repeat' first | exact bit_sub rfl hm | (dsimp only [Upd.bit]; exact bit_sub rfl hm) | exact sub_trans rfl hm | with_reducible assumption | with_reducible constructor | with_reducible intro _ | with_reducible apply setCore_may | dsimp only | split

def mayAgLoad : Nat := mayReadMem ||| mayQStall ||| mayCoreLost ||| mayAgStep
theorem agLoad_may (hm : mayAgLoad ||| mk = mk) (n g : Nat) (r : Run) :
    May mk (agLoad n g r) := by
  unfold agLoad
  repeat' first | exact bit_sub rfl hm | (dsimp only [Upd.bit]; exact bit_sub rfl hm) | exact sub_trans rfl hm | with_reducible assumption | with_reducible constructor | with_reducible intro _ | with_reducible apply readMem_may | with_reducible apply qStall_may | with_reducible apply coreLost_may | with_reducible apply agStep_may | dsimp only | split

def mayAgStore : Nat := mayWriteMem ||| mayQSkip ||| mayQStall ||| mayQPop ||| mayAgStep ||| mayPopAcc ||| mayPourFx
theorem agStore_may (hm : mayAgStore ||| mk = mk) (n g : Nat) (r : Run) :
    May mk (agStore n g r) := by
  unfold agStore
  repeat' first | exact bit_sub rfl hm | (dsimp only [Upd.bit]; exact bit_sub rfl hm) | exact sub_trans rfl hm | with_reducible assumption | with_reducible constructor | with_reducible intro _ | with_reducible apply writeMem_may | with_reducible apply qSkip_may | with_reducible apply qStall_may | with_reducible apply qPop_may | with_reducible apply agStep_may | with_reducible apply popAcc_may | with_reducible apply pourFx_may | dsimp only | split

def mayAgAccess : Nat := mayApplyUpsets ||| mayAgLoad ||| mayAgStore
theorem agAccess_may (hm : mayAgAccess ||| mk = mk) (n g : Nat) (ups : List Upset) :
    May mk (agAccess n g ups) := by
  unfold agAccess
  repeat' first | exact bit_sub rfl hm | (dsimp only [Upd.bit]; exact bit_sub rfl hm) | exact sub_trans rfl hm | with_reducible assumption | with_reducible constructor | with_reducible intro _ | with_reducible apply applyUpsets_may | with_reducible apply agLoad_may | with_reducible apply agStore_may | dsimp only | split

def mayLoadPush : Nat := maySetAg ||| mayQPush ||| mayQClose
theorem loadPush_may (hm : mayLoadPush ||| mk = mk) (n g : Nat) :
    May mk (loadPush n g) := by
  unfold loadPush
  repeat' first | exact bit_sub rfl hm | (dsimp only [Upd.bit]; exact bit_sub rfl hm) | exact sub_trans rfl hm | with_reducible assumption | with_reducible constructor | with_reducible intro _ | with_reducible apply setAg_may | with_reducible apply qPush_may | with_reducible apply qClose_may | dsimp only | split

def mayStoreAckEff : Nat := maySetAg ||| mayProgress
theorem storeAckEff_may (hm : mayStoreAckEff ||| mk = mk) (n : SiteIx) (g : Fin 8) :
    May mk (storeAckEff n g) := by
  unfold storeAckEff
  repeat' first | exact bit_sub rfl hm | (dsimp only [Upd.bit]; exact bit_sub rfl hm) | exact sub_trans rfl hm | with_reducible assumption | with_reducible constructor | with_reducible intro _ | with_reducible apply setAg_may | with_reducible apply progress_may | dsimp only | split

def mayQueueStallEnd : Nat := maySetQueue
theorem queueStallEnd_may (hm : mayQueueStallEnd ||| mk = mk) (n q : Nat) :
    May mk (queueStallEnd n q) := by
  unfold queueStallEnd
  repeat' first | exact bit_sub rfl hm | (dsimp only [Upd.bit]; exact bit_sub rfl hm) | exact sub_trans rfl hm | with_reducible assumption | with_reducible constructor | with_reducible intro _ | with_reducible apply setQueue_may | dsimp only | split

def maySnapshot : Nat := mr .Q_SNAP_cons ||| mr .Q_SNAP_count ||| mr .Q_SNAP_head ||| mr .Q_SNAP_head_used ||| mr .Q_SNAP_open_fill ||| mr .Q_SNAP_prod ||| mr .Q_SNAP_stall_pop ||| mr .Q_SNAP_stall_push ||| mr .Q_SNAP_tail
theorem snapshot_may (hm : maySnapshot ||| mk = mk) (n : Nat) :
    May mk (snapshot n) := by
  unfold snapshot
  repeat' first | exact bit_sub rfl hm | (dsimp only [Upd.bit]; exact bit_sub rfl hm) | exact sub_trans rfl hm | with_reducible assumption | with_reducible constructor | with_reducible intro _ | dsimp only | split

def mayQueueStall : Nat := maySetCore ||| mayCoreEvent ||| maySnapshot ||| mr .Q_SNAPPC_addr ||| mr .Q_WDOG_idle ||| mr .Q_WDOG_snap_lost ||| mr .Q_WDOG_snap_valid
theorem queueStall_may (hm : mayQueueStall ||| mk = mk) (n : Nat) :
    May mk (queueStall n) := by
  unfold queueStall
  repeat' first | exact bit_sub rfl hm | (dsimp only [Upd.bit]; exact bit_sub rfl hm) | exact sub_trans rfl hm | with_reducible assumption | with_reducible constructor | with_reducible intro _ | with_reducible apply setCore_may | with_reducible apply coreEvent_may | with_reducible apply snapshot_may | dsimp only | split

def mayQFlush : Nat := mayQEmpty
theorem qFlush_may (hm : mayQFlush ||| mk = mk) (n bitmap : Nat) :
    May mk (qFlush n bitmap) := by
  unfold qFlush
  repeat' first | exact bit_sub rfl hm | (dsimp only [Upd.bit]; exact bit_sub rfl hm) | exact sub_trans rfl hm | with_reducible assumption | with_reducible constructor | with_reducible intro _ | with_reducible apply qEmpty_may | dsimp only | split

def mayCounterAddEff : Nat := mayAddTo ||| mp .rsp
theorem counterAddEff_may (hm : mayCounterAddEff ||| mk = mk) (n : SiteIx) (ct : Fin 8) (v : BitVec 32) (iss : Issuer) (fl : FlaskIx) :
    May mk (counterAddEff n ct v iss fl) := by
  unfold counterAddEff
  repeat' first | exact bit_sub rfl hm | (dsimp only [Upd.bit]; exact bit_sub rfl hm) | exact sub_trans rfl hm | with_reducible assumption | with_reducible constructor | with_reducible intro _ | with_reducible apply addTo_may | dsimp only | split

def mayTileLoad : Nat := maySetCore ||| mayQSkip ||| mayQStall ||| mayQPop ||| mr .ARR_STATUS_stall_meta ||| mr .ARR_STATUS_stall_wgt ||| mr .ARR_STATUS_stall_wsc
theorem tileLoad_may (hm : mayTileLoad ||| mk = mk) (n : Nat) :
    May mk (tileLoad n) := by
  unfold tileLoad
  repeat' first | exact bit_sub rfl hm | (dsimp only [Upd.bit]; exact bit_sub rfl hm) | exact sub_trans rfl hm | with_reducible assumption | with_reducible constructor | with_reducible intro _ | with_reducible apply setCore_may | with_reducible apply qSkip_may | with_reducible apply qStall_may | with_reducible apply qPop_may | dsimp only | split

def mayShadowReleaseEff : Nat := maySetCore
theorem shadowReleaseEff_may (hm : mayShadowReleaseEff ||| mk = mk) (n : SiteIx) :
    May mk (shadowReleaseEff n) := by
  unfold shadowReleaseEff
  repeat' first | exact bit_sub rfl hm | (dsimp only [Upd.bit]; exact bit_sub rfl hm) | exact sub_trans rfl hm | with_reducible assumption | with_reducible constructor | with_reducible intro _ | with_reducible apply setCore_may | dsimp only | split

def mayPassEntry : Nat := maySetCore ||| mayProgress ||| mr .ARR_STATUS_stall_acc ||| mr .CHG_ARR_acc_base
theorem passEntry_may (hm : mayPassEntry ||| mk = mk) (n : Nat) :
    May mk (passEntry n) := by
  unfold passEntry
  repeat' first | exact bit_sub rfl hm | (dsimp only [Upd.bit]; exact bit_sub rfl hm) | exact sub_trans rfl hm | with_reducible assumption | with_reducible constructor | with_reducible intro _ | with_reducible apply setCore_may | with_reducible apply progress_may | dsimp only | split

def mayArrFx : Nat := mayPourFx ||| mr .ARR_FX_inf ||| mr .ARR_FX_invalid ||| mr .ARR_FX_nan ||| mr .ARR_FX_sat
theorem arrFx_may (hm : mayArrFx ||| mk = mk) (n pour f : Nat) :
    May mk (arrFx n pour f) := by
  unfold arrFx
  repeat' first | exact bit_sub rfl hm | (dsimp only [Upd.bit]; exact bit_sub rfl hm) | exact sub_trans rfl hm | with_reducible assumption | with_reducible constructor | with_reducible intro _ | with_reducible apply pourFx_may | dsimp only | split

def mayArrayError : Nat := mayReport ||| maySeqStop
theorem arrayError_may (hm : mayArrayError ||| mk = mk) (n kind : Nat) :
    May mk (arrayError n kind) := by
  unfold arrayError
  repeat' first | exact bit_sub rfl hm | (dsimp only [Upd.bit]; exact bit_sub rfl hm) | exact sub_trans rfl hm | with_reducible assumption | with_reducible constructor | with_reducible intro _ | with_reducible apply report_may | with_reducible apply seqStop_may | dsimp only | split

def mayAccCorrected : Nat := mayReport ||| mr .ARR_ERR_acc_ce ||| mr .ARR_ERR_acc_ce_count
theorem accCorrected_may (hm : mayAccCorrected ||| mk = mk) (n : Nat) :
    May mk (accCorrected n) := by
  unfold accCorrected
  repeat' first | exact bit_sub rfl hm | (dsimp only [Upd.bit]; exact bit_sub rfl hm) | exact sub_trans rfl hm | with_reducible assumption | with_reducible constructor | with_reducible intro _ | with_reducible apply report_may | dsimp only | split

def mayPassStepEff : Nat := maySetCore ||| mayQSkip ||| mayQClose ||| mr .ARR_PERF_passes
theorem passStepEff_may (hm : mayPassStepEff ||| mk = mk) (n : Nat) (p : Pass) (bad : Bool) :
    May mk (passStepEff n p bad) := by
  unfold passStepEff
  repeat' first | exact bit_sub rfl hm | (dsimp only [Upd.bit]; exact bit_sub rfl hm) | exact sub_trans rfl hm | with_reducible assumption | with_reducible constructor | with_reducible intro _ | with_reducible apply setCore_may | with_reducible apply qSkip_may | with_reducible apply qClose_may | dsimp only | split

def mayWriteEntry : Nat := maySetCore ||| maySetAcc ||| mayQPush ||| mayArrFx ||| mayArrayError ||| mayAccCorrected ||| mayPassStepEff ||| mp .tick ||| mr .ARR_ERR_acc_ue ||| mr .ARR_ERR_wpar
theorem writeEntry_may (hm : mayWriteEntry ||| mk = mk) (n : Nat) (p : Pass) (act asc : List Byte) (parityBad : Bool) (accErr : Nat) :
    May mk (writeEntry n p act asc parityBad accErr) := by
  unfold writeEntry
  repeat' first | exact bit_sub rfl hm | (dsimp only [Upd.bit]; exact bit_sub rfl hm) | exact sub_trans rfl hm | with_reducible assumption | with_reducible constructor | with_reducible intro _ | with_reducible apply setCore_may | with_reducible apply setAcc_may | with_reducible apply qPush_may | with_reducible apply arrFx_may | with_reducible apply arrayError_may | with_reducible apply accCorrected_may | with_reducible apply passStepEff_may | dsimp only | split

def mayAccWrite : Nat := mayQStall ||| mayQPop ||| mayWriteEntry ||| mr .ARR_STATUS_stall_act ||| mr .ARR_STATUS_stall_asc ||| mr .ARR_STATUS_stall_out
theorem accWrite_may (hm : mayAccWrite ||| mk = mk) (n : Nat) (parityBad : Bool) (accErr : Nat) :
    May mk (accWrite n parityBad accErr) := by
  unfold accWrite
  repeat' first | exact bit_sub rfl hm | (dsimp only [Upd.bit]; exact bit_sub rfl hm) | exact sub_trans rfl hm | with_reducible assumption | with_reducible constructor | with_reducible intro _ | with_reducible apply qStall_may | with_reducible apply qPop_may | with_reducible apply writeEntry_may | dsimp only | split

def mayArrayStallEnd : Nat := mr .ARR_STATUS_stall_acc ||| mr .ARR_STATUS_stall_act ||| mr .ARR_STATUS_stall_asc ||| mr .ARR_STATUS_stall_meta ||| mr .ARR_STATUS_stall_out ||| mr .ARR_STATUS_stall_wgt ||| mr .ARR_STATUS_stall_wsc ||| mr .CHG_ARR_acc_base ||| mr .CHG_ARR_m_count ||| mr .CHG_QB_act ||| mr .CHG_QB_asc ||| mr .CHG_QB_meta ||| mr .CHG_QB_out ||| mr .CHG_QB_wgt ||| mr .CHG_QB_wsc
theorem arrayStallEnd_may (hm : mayArrayStallEnd ||| mk = mk) (n : Nat) :
    May mk (arrayStallEnd n) := by
  unfold arrayStallEnd
  repeat' first | exact bit_sub rfl hm | (dsimp only [Upd.bit]; exact bit_sub rfl hm) | exact sub_trans rfl hm | with_reducible assumption | with_reducible constructor | with_reducible intro _ | dsimp only | split

def mayArrPerfClear : Nat := mr .ARR_PERF_bubble ||| mr .ARR_PERF_issue ||| mr .ARR_PERF_passes ||| mr .ARR_PERF_stall
theorem arrPerfClear_may (hm : mayArrPerfClear ||| mk = mk) (n : Nat) :
    May mk (arrPerfClear n) := by
  refine .eachMem ?_
  simp only [List.forall_mem_cons]
  repeat' first | exact .set (bit_sub rfl hm) | exact (List.forall_mem_nil _) | constructor

def mayVecFinish : Nat := maySetCore ||| mayProgress ||| mayQSkip ||| mayQPush ||| mayQClose ||| mayPourFx ||| mr .VEC_PERF_iters ||| mr .VEC_STATUS_fx ||| mr .VEC_STATUS_iter
theorem vecFinish_may (hm : mayVecFinish ||| mk = mk) (n : Nat) (r : Run) (a b : List Nat) (fx0 : Nat) :
    May mk (vecFinish n r a b fx0) := by
  unfold vecFinish
  repeat' first | exact bit_sub rfl hm | (dsimp only [Upd.bit]; exact bit_sub rfl hm) | exact sub_trans rfl hm | with_reducible assumption | with_reducible constructor | with_reducible intro _ | with_reducible apply setCore_may | with_reducible apply progress_may | with_reducible apply qSkip_may | with_reducible apply qPush_may | with_reducible apply qClose_may | with_reducible apply pourFx_may | dsimp only | split

def mayVecIteration : Nat := mayQStall ||| mayQPop ||| mayPopAcc ||| mayArrayError ||| mayAccCorrected ||| mayVecFinish ||| mp .tick ||| mr .ARR_ERR_acc_ue ||| mr .VEC_STATUS_stall_a ||| mr .VEC_STATUS_stall_b ||| mr .VEC_STATUS_stall_push
theorem vecIteration_may (hm : mayVecIteration ||| mk = mk) (n accErr : Nat) :
    May mk (vecIteration n accErr) := by
  unfold vecIteration
  repeat' first | exact bit_sub rfl hm | (dsimp only [Upd.bit]; exact bit_sub rfl hm) | exact sub_trans rfl hm | with_reducible assumption | with_reducible constructor | with_reducible intro _ | with_reducible apply qStall_may | with_reducible apply qPop_may | with_reducible apply popAcc_may | with_reducible apply arrayError_may | with_reducible apply accCorrected_may | with_reducible apply vecFinish_may | dsimp only | split

def mayVecPerfClear : Nat := mr .VEC_PERF_iters ||| mr .VEC_PERF_stall
theorem vecPerfClear_may (hm : mayVecPerfClear ||| mk = mk) (n : Nat) :
    May mk (vecPerfClear n) := by
  refine .eachMem ?_
  simp only [List.forall_mem_cons]
  repeat' first | exact .set (bit_sub rfl hm) | exact (List.forall_mem_nil _) | constructor

def mayMemoryReadEff : Nat := mayApplyUpsets ||| mayReadMem ||| mp .rsp
theorem memoryReadEff_may (hm : mayMemoryReadEff ||| mk = mk) (iss : Issuer) (addr len : Nat) (hint : Fin 4) (ups : List Upset) :
    May mk (memoryReadEff iss addr len hint ups) := by
  unfold memoryReadEff
  repeat' first | exact bit_sub rfl hm | (dsimp only [Upd.bit]; exact bit_sub rfl hm) | exact sub_trans rfl hm | with_reducible assumption | with_reducible constructor | with_reducible intro _ | with_reducible apply applyUpsets_may | with_reducible apply readMem_may | dsimp only | split

def mayMemoryWriteEff : Nat := mayApplyUpsets ||| mayWriteMem ||| mp .rsp
theorem memoryWriteEff_may (hm : mayMemoryWriteEff ||| mk = mk) (iss : Issuer) (addr : Nat) (hint : Fin 4) (data : List Byte) (ups : List Upset) :
    May mk (memoryWriteEff iss addr hint data ups) := by
  unfold memoryWriteEff
  repeat' first | exact bit_sub rfl hm | (dsimp only [Upd.bit]; exact bit_sub rfl hm) | exact sub_trans rfl hm | with_reducible assumption | with_reducible constructor | with_reducible intro _ | with_reducible apply applyUpsets_may | with_reducible apply writeMem_may | dsimp only | split

def mayWriteBack : Nat := mayPutWord ||| mp .wb ||| mr .ECC_WB_done ||| mr .ECC_WB_skipped
theorem writeBack_may (hm : mayWriteBack ||| mk = mk) (line : Nat) :
    May mk (writeBack line) := by
  unfold writeBack
  repeat' first | exact bit_sub rfl hm | (dsimp only [Upd.bit]; exact bit_sub rfl hm) | exact sub_trans rfl hm | with_reducible assumption | with_reducible constructor | with_reducible intro _ | with_reducible apply putWord_may | dsimp only | split

def mayRefreshSlot : Nat := maySetSlice ||| mp .openRow ||| mr .MC_PERF_refresh ||| mr .MC_STAT_refresh
theorem refreshSlot_may (hm : mayRefreshSlot ||| mk = mk) (sl b : Nat) :
    May mk (refreshSlot sl b) := by
  unfold refreshSlot
  repeat' first | exact bit_sub rfl hm | (dsimp only [Upd.bit]; exact bit_sub rfl hm) | exact sub_trans rfl hm | with_reducible assumption | with_reducible constructor | with_reducible intro _ | with_reducible apply setSlice_may | dsimp only | split

def maySelfRefreshExitEff : Nat := mr .CRS_STAT_self_refresh ||| mr .MC_STAT_sr
theorem selfRefreshExitEff_may (hm : maySelfRefreshExitEff ||| mk = mk) (st : StackIx) :
    May mk (selfRefreshExitEff st) := by
  unfold selfRefreshExitEff
  repeat' first | exact bit_sub rfl hm | (dsimp only [Upd.bit]; exact bit_sub rfl hm) | exact sub_trans rfl hm | with_reducible assumption | with_reducible constructor | with_reducible intro _ | dsimp only | split

def mayScrub : Nat := mayOpenRow ||| mayLineErrors ||| mr .ECC_SCRUB_passes ||| mr .ECC_SCRUB_pos
theorem scrub_may (hm : mayScrub ||| mk = mk) (sl : Nat) :
    May mk (scrub sl) := by
  unfold scrub
  repeat' first | exact bit_sub rfl hm | (dsimp only [Upd.bit]; exact bit_sub rfl hm) | exact sub_trans rfl hm | with_reducible assumption | with_reducible constructor | with_reducible intro _ | with_reducible apply openRow_may | with_reducible apply lineErrors_may | dsimp only | split

def maySramScrubReadEff : Nat := mayApplyUpsets ||| mayLineErrors
theorem sramScrubReadEff_may (hm : maySramScrubReadEff ||| mk = mk) (addr : Nat) (ups : List Upset) :
    May mk (sramScrubReadEff addr ups) := by
  unfold sramScrubReadEff
  repeat' first | exact bit_sub rfl hm | (dsimp only [Upd.bit]; exact bit_sub rfl hm) | exact sub_trans rfl hm | with_reducible assumption | with_reducible constructor | with_reducible intro _ | with_reducible apply applyUpsets_may | with_reducible apply lineErrors_may | dsimp only | split

def mayFillStart : Nat := maySetSlice ||| mr .ECC_FILL_busy ||| mr .ECC_FILL_regions
theorem fillStart_may (hm : mayFillStart ||| mk = mk) (sl regions : Nat) :
    May mk (fillStart sl regions) := by
  unfold fillStart
  repeat' first | exact bit_sub rfl hm | (dsimp only [Upd.bit]; exact bit_sub rfl hm) | exact sub_trans rfl hm | with_reducible assumption | with_reducible constructor | with_reducible intro _ | with_reducible apply setSlice_may | dsimp only | split

def mayZeroRegion : Nat := maySetSlice ||| mayZeroRange ||| mp .cache ||| mr .ECC_INIT_regions
theorem zeroRegion_may (hm : mayZeroRegion ||| mk = mk) (sl r : Nat) :
    May mk (zeroRegion sl r) := by
  unfold zeroRegion
  repeat' first | exact bit_sub rfl hm | (dsimp only [Upd.bit]; exact bit_sub rfl hm) | exact sub_trans rfl hm | with_reducible assumption | with_reducible constructor | with_reducible intro _ | with_reducible apply setSlice_may | with_reducible apply zeroRange_may | dsimp only | split

def mayFillDone : Nat := maySetSlice ||| mayZeroRegion ||| mr .ECC_FILL_busy
theorem fillDone_may (hm : mayFillDone ||| mk = mk) (sl : Nat) :
    May mk (fillDone sl) := by
  unfold fillDone
  repeat' first | exact bit_sub rfl hm | (dsimp only [Upd.bit]; exact bit_sub rfl hm) | exact sub_trans rfl hm | with_reducible assumption | with_reducible constructor | with_reducible intro _ | with_reducible apply setSlice_may | with_reducible apply zeroRegion_may | dsimp only | split

def mayTwRead : Nat := mp .tick ||| mr .ECC_TW_CHK_check ||| mr .ECC_TW_CHK_syndrome ||| mr .ECC_TW_CHK_verdict ||| mr .ECC_TW_DATA_data
theorem twRead_may (hm : mayTwRead ||| mk = mk) (sl : Nat) :
    May mk (twRead sl) := by
  unfold twRead
  repeat' first | exact bit_sub rfl hm | (dsimp only [Upd.bit]; exact bit_sub rfl hm) | exact sub_trans rfl hm | with_reducible assumption | with_reducible constructor | with_reducible intro _ | dsimp only | split

def mayTwWrite : Nat := mayInvalLine ||| mp .marks ||| mp .mem ||| mp .wb
theorem twWrite_may (hm : mayTwWrite ||| mk = mk) (sl : Nat) :
    May mk (twWrite sl) := by
  unfold twWrite
  repeat' first | exact bit_sub rfl hm | (dsimp only [Upd.bit]; exact bit_sub rfl hm) | exact sub_trans rfl hm | with_reducible assumption | with_reducible constructor | with_reducible intro _ | with_reducible apply invalLine_may | dsimp only | split

def mayInvalSlice : Nat := mp .cache ||| mr .MC_STAT_inval_busy
theorem invalSlice_may (hm : mayInvalSlice ||| mk = mk) (sl : Nat) :
    May mk (invalSlice sl) := by
  unfold invalSlice
  repeat' first | exact bit_sub rfl hm | (dsimp only [Upd.bit]; exact bit_sub rfl hm) | exact sub_trans rfl hm | with_reducible assumption | with_reducible constructor | with_reducible intro _ | dsimp only | split

def mayMcPerfClear : Nat := mr .MC_PERF_hits ||| mr .MC_PERF_rd_lines ||| mr .MC_PERF_refresh ||| mr .MC_PERF_row_miss ||| mr .MC_PERF_wr_lines
theorem mcPerfClear_may (hm : mayMcPerfClear ||| mk = mk) (sl : Nat) :
    May mk (mcPerfClear sl) := by
  refine .eachMem ?_
  simp only [List.forall_mem_cons]
  repeat' first | exact .set (bit_sub rfl hm) | exact (List.forall_mem_nil _) | constructor

end Sys2Proof.Machine
end

