-- ==== Sys2Proof/Laws/MayCache.lean ====
section
/-! SUPPORT. What each operation may change, one set and one lemma an operation: the bank-side units, the KV cache, the ladle engines. -/
set_option exponentiation.threshold 1000
set_option maxRecDepth 20000
set_option linter.unusedTactic false
set_option linter.unreachableTactic false
set_option linter.unusedVariables false
namespace Sys2Proof.Machine
variable {mk : Nat}

def mayBsuTouch : Nat := mayLineErrors
theorem bsuTouch_may (hm : mayBsuTouch ||| mk = mk) (fl a len : Nat) :
    May mk (bsuTouch fl a len) := by
  unfold bsuTouch
  repeat' first | exact bit_sub rfl hm | (dsimp only [Upd.bit]; exact bit_sub rfl hm) | exact sub_trans rfl hm | with_reducible assumption | with_reducible constructor | with_reducible intro _ | with_reducible apply lineErrors_may | dsimp only | split

def mayKeepOld : Nat := mp .cache
theorem keepOld_may (hm : mayKeepOld ||| mk = mk) (line : Nat) :
    May mk (keepOld line) := by
  unfold keepOld
  repeat' first | exact bit_sub rfl hm | (dsimp only [Upd.bit]; exact bit_sub rfl hm) | exact sub_trans rfl hm | with_reducible assumption | with_reducible constructor | with_reducible intro _ | dsimp only | split

def mayBsuWrite : Nat := mayPutWord ||| mayKeepOld
theorem bsuWrite_may (hm : mayBsuWrite ||| mk = mk) (a : Nat) (d : List Byte) :
    May mk (bsuWrite a d) := by
  unfold bsuWrite
  repeat' first | exact bit_sub rfl hm | (dsimp only [Upd.bit]; exact bit_sub rfl hm) | exact sub_trans rfl hm | with_reducible assumption | with_reducible constructor | with_reducible intro _ | with_reducible apply putWord_may | with_reducible apply keepOld_may | dsimp only | split

def mayEndCommand : Nat := maySetPath ||| mayCoreEvent ||| mr .BNK_ERR_addr ||| mr .BNK_ERR_count ||| mr .BNK_ERR_status ||| mr .BNK_ERR_valid
theorem endCommand_may (hm : mayEndCommand ||| mk = mk) (t : Task) (epoch : Nat) (e : Ended) :
    May mk (endCommand t epoch e) := by
  unfold endCommand
  repeat' first | exact bit_sub rfl hm | (dsimp only [Upd.bit]; exact bit_sub rfl hm) | exact sub_trans rfl hm | with_reducible assumption | with_reducible constructor | with_reducible intro _ | with_reducible apply setPath_may | with_reducible apply coreEvent_may | dsimp only | split

def mayIssueCommand : Nat := maySetBank ||| maySetPath ||| mayEndCommand
theorem issueCommand_may (hm : mayIssueCommand ||| mk = mk) (t : Task) :
    May mk (issueCommand t) := by
  unfold issueCommand
  repeat' first | exact bit_sub rfl hm | (dsimp only [Upd.bit]; exact bit_sub rfl hm) | exact sub_trans rfl hm | with_reducible assumption | with_reducible constructor | with_reducible intro _ | with_reducible apply setBank_may | with_reducible apply setPath_may | with_reducible apply endCommand_may | dsimp only | split

def mayBankIssue : Nat := maySetCore ||| maySetAg ||| mayProgress ||| mayQSkip ||| mayQStall ||| mayQPop ||| mayIssueCommand ||| mr .BNK_STATUS_stall_arg ||| mr .BNK_STATUS_stall_ctx
theorem bankIssue_may (hm : mayBankIssue ||| mk = mk) (n : Nat) :
    May mk (bankIssue n) := by
  unfold bankIssue
  repeat' first | exact bit_sub rfl hm | (dsimp only [Upd.bit]; exact bit_sub rfl hm) | exact sub_trans rfl hm | with_reducible assumption | with_reducible constructor | with_reducible intro _ | with_reducible apply setCore_may | with_reducible apply setAg_may | with_reducible apply progress_may | with_reducible apply qSkip_may | with_reducible apply qStall_may | with_reducible apply qPop_may | with_reducible apply issueCommand_may | dsimp only | split

def mayBankAccept : Nat := maySetBank ||| maySetPath ||| mayReport ||| mayAccessRecords ||| mayEndCommand
theorem bankAccept_may (hm : mayBankAccept ||| mk = mk) (sl b : Nat) :
    May mk (bankAccept sl b) := by
  unfold bankAccept
  repeat' first | exact bit_sub rfl hm | (dsimp only [Upd.bit]; exact bit_sub rfl hm) | exact sub_trans rfl hm | with_reducible assumption | with_reducible constructor | with_reducible intro _ | with_reducible apply setBank_may | with_reducible apply setPath_may | with_reducible apply report_may | with_reducible apply accessRecords_may | with_reducible apply endCommand_may | dsimp only | split

def mayTokenGrant : Nat := maySetSlice ||| maySetBank
theorem tokenGrant_may (hm : mayTokenGrant ||| mk = mk) (sl : Nat) :
    May mk (tokenGrant sl) := by
  unfold tokenGrant
  repeat' first | exact bit_sub rfl hm | (dsimp only [Upd.bit]; exact bit_sub rfl hm) | exact sub_trans rfl hm | with_reducible assumption | with_reducible constructor | with_reducible intro _ | with_reducible apply setSlice_may | with_reducible apply setBank_may | dsimp only | split

def mayRowBurst : Nat := maySetBank ||| mayApplyUpsets ||| mp .openRow ||| mr .BSU_PERF_bursts
theorem rowBurst_may (hm : mayRowBurst ||| mk = mk) (sl b : Nat) (ups : List Upset) :
    May mk (rowBurst sl b ups) := by
  unfold rowBurst
  repeat' first | exact bit_sub rfl hm | (dsimp only [Upd.bit]; exact bit_sub rfl hm) | exact sub_trans rfl hm | with_reducible assumption | with_reducible constructor | with_reducible intro _ | with_reducible apply setBank_may | with_reducible apply applyUpsets_may | dsimp only | split

def mayAppendWrite : Nat := mayBsuWrite
theorem appendWrite_may (hm : mayAppendWrite ||| mk = mk) (s : State) (addr idx : Nat) (rec : List Byte) :
    May mk (appendWrite s addr idx rec) := by
  unfold appendWrite
  repeat' first | exact bit_sub rfl hm | (dsimp only [Upd.bit]; exact bit_sub rfl hm) | exact sub_trans rfl hm | with_reducible assumption | with_reducible constructor | with_reducible intro _ | with_reducible apply bsuWrite_may | dsimp only | split

def mayCopyFrame : Nat := mayPutWord ||| mayKeepOld
theorem copyFrame_may (hm : mayCopyFrame ||| mk = mk) (src dst : Nat) :
    May mk (copyFrame src dst) := by
  unfold copyFrame
  repeat' first | exact bit_sub rfl hm | (dsimp only [Upd.bit]; exact bit_sub rfl hm) | exact sub_trans rfl hm | with_reducible assumption | with_reducible constructor | with_reducible intro _ | with_reducible apply putWord_may | with_reducible apply keepOld_may | dsimp only | split

def mayEndTask : Nat := maySetBank ||| mayEndCommand ||| mr .BSU_PERF_commands
theorem endTask_may (hm : mayEndTask ||| mk = mk) (sl b : Nat) (t : Task) (e : Ended) :
    May mk (endTask sl b t e) := by
  unfold endTask
  repeat' first | exact bit_sub rfl hm | (dsimp only [Upd.bit]; exact bit_sub rfl hm) | exact sub_trans rfl hm | with_reducible assumption | with_reducible constructor | with_reducible intro _ | with_reducible apply setBank_may | with_reducible apply endCommand_may | dsimp only | split

def mayRunCommand : Nat := mayBsuTouch ||| mayEndTask
theorem runCommand_may (hm : mayRunCommand ||| mk = mk) (sl b : Nat) (cmd : Nat) (work : State → Task → Eff × Ended) (touch : State → Task → List (Nat × Nat)) (hwork : ∀ s t, May mk (work s t).1) :
    May mk (runCommand sl b cmd work touch) := by
  unfold runCommand
  repeat' first | exact bit_sub rfl hm | (dsimp only [Upd.bit]; exact bit_sub rfl hm) | exact sub_trans rfl hm | with_reducible assumption | with_reducible constructor | with_reducible intro _ | with_reducible apply bsuTouch_may | with_reducible apply endTask_may | with_reducible apply hwork | dsimp only | split

def mayAttendCmdEff : Nat := mayRunCommand
theorem attendCmdEff_may (hm : mayAttendCmdEff ||| mk = mk) (sl : SliceIx) (b : BankIx) :
    May mk (attendCmdEff sl b) := by
  unfold attendCmdEff
  repeat' first | exact bit_sub rfl hm | (dsimp only [Upd.bit]; exact bit_sub rfl hm) | exact sub_trans rfl hm | with_reducible assumption | with_reducible constructor | with_reducible intro _ | with_reducible apply runCommand_may | dsimp only | split

def mayScoreCmdEff : Nat := mayRunCommand
theorem scoreCmdEff_may (hm : mayScoreCmdEff ||| mk = mk) (sl : SliceIx) (b : BankIx) :
    May mk (scoreCmdEff sl b) := by
  unfold scoreCmdEff
  repeat' first | exact bit_sub rfl hm | (dsimp only [Upd.bit]; exact bit_sub rfl hm) | exact sub_trans rfl hm | with_reducible assumption | with_reducible constructor | with_reducible intro _ | with_reducible apply runCommand_may | dsimp only | split

def mayValueCmdEff : Nat := mayRunCommand
theorem valueCmdEff_may (hm : mayValueCmdEff ||| mk = mk) (sl : SliceIx) (b : BankIx) :
    May mk (valueCmdEff sl b) := by
  unfold valueCmdEff
  repeat' first | exact bit_sub rfl hm | (dsimp only [Upd.bit]; exact bit_sub rfl hm) | exact sub_trans rfl hm | with_reducible assumption | with_reducible constructor | with_reducible intro _ | with_reducible apply runCommand_may | dsimp only | split

def mayAppendQCmdEff : Nat := mayAppendWrite ||| mayRunCommand
theorem appendQCmdEff_may (hm : mayAppendQCmdEff ||| mk = mk) (sl : SliceIx) (b : BankIx) :
    May mk (appendQCmdEff sl b) := by
  unfold appendQCmdEff
  repeat' first | exact bit_sub rfl hm | (dsimp only [Upd.bit]; exact bit_sub rfl hm) | exact sub_trans rfl hm | with_reducible assumption | with_reducible constructor | with_reducible intro _ | with_reducible apply appendWrite_may | with_reducible apply runCommand_may | dsimp only | split

def mayFillCmdEff : Nat := mayPutWord ||| mayKeepOld ||| mayRunCommand
theorem fillCmdEff_may (hm : mayFillCmdEff ||| mk = mk) (sl : SliceIx) (b : BankIx) :
    May mk (fillCmdEff sl b) := by
  unfold fillCmdEff
  repeat' first | exact bit_sub rfl hm | (dsimp only [Upd.bit]; exact bit_sub rfl hm) | exact sub_trans rfl hm | with_reducible assumption | with_reducible constructor | with_reducible intro _ | with_reducible apply putWord_may | with_reducible apply keepOld_may | with_reducible apply runCommand_may | dsimp only | split

def mayCopyPageCmdEff : Nat := mayCopyFrame ||| mayRunCommand
theorem copyPageCmdEff_may (hm : mayCopyPageCmdEff ||| mk = mk) (sl : SliceIx) (b : BankIx) :
    May mk (copyPageCmdEff sl b) := by
  unfold copyPageCmdEff
  repeat' first | exact bit_sub rfl hm | (dsimp only [Upd.bit]; exact bit_sub rfl hm) | exact sub_trans rfl hm | with_reducible assumption | with_reducible constructor | with_reducible intro _ | with_reducible apply copyFrame_may | with_reducible apply runCommand_may | dsimp only | split

def mayReduceCmdEff : Nat := mayRunCommand
theorem reduceCmdEff_may (hm : mayReduceCmdEff ||| mk = mk) (sl : SliceIx) (b : BankIx) :
    May mk (reduceCmdEff sl b) := by
  unfold reduceCmdEff
  repeat' first | exact bit_sub rfl hm | (dsimp only [Upd.bit]; exact bit_sub rfl hm) | exact sub_trans rfl hm | with_reducible assumption | with_reducible constructor | with_reducible intro _ | with_reducible apply runCommand_may | dsimp only | split

def mayBankFence : Nat := maySetPath ||| mayInvalLine
theorem bankFence_may (hm : mayBankFence ||| mk = mk) (pa : Nat) :
    May mk (bankFence pa) := by
  unfold bankFence
  repeat' first | exact bit_sub rfl hm | (dsimp only [Upd.bit]; exact bit_sub rfl hm) | exact sub_trans rfl hm | with_reducible assumption | with_reducible constructor | with_reducible intro _ | with_reducible apply setPath_may | with_reducible apply invalLine_may | dsimp only | split

def mayResultPush : Nat := maySetPath ||| mayQPush ||| mayQStall ||| mr .BNK_STATUS_stall_res
theorem resultPush_may (hm : mayResultPush ||| mk = mk) (pa : Nat) :
    May mk (resultPush pa) := by
  unfold resultPush
  repeat' first | exact bit_sub rfl hm | (dsimp only [Upd.bit]; exact bit_sub rfl hm) | exact sub_trans rfl hm | with_reducible assumption | with_reducible constructor | with_reducible intro _ | with_reducible apply setPath_may | with_reducible apply qPush_may | with_reducible apply qStall_may | dsimp only | split

def mayBsuFault : Nat := mayReport ||| mayEndTask
theorem bsuFault_may (hm : mayBsuFault ||| mk = mk) (sl b : Nat) :
    May mk (bsuFault sl b) := by
  unfold bsuFault
  repeat' first | exact bit_sub rfl hm | (dsimp only [Upd.bit]; exact bit_sub rfl hm) | exact sub_trans rfl hm | with_reducible assumption | with_reducible constructor | with_reducible intro _ | with_reducible apply report_may | with_reducible apply endTask_may | dsimp only | split

def mayBsuPerfClear : Nat := mr .BSU_PERF_bursts ||| mr .BSU_PERF_cap_wait ||| mr .BSU_PERF_commands
theorem bsuPerfClear_may (hm : mayBsuPerfClear ||| mk = mk) (sl : Nat) :
    May mk (bsuPerfClear sl) := by
  refine .eachMem ?_
  simp only [List.forall_mem_cons]
  repeat' first | exact .set (bit_sub rfl hm) | exact (List.forall_mem_nil _) | constructor

def maySetDesc : Nat := maySetPage ||| mayFwWrite
theorem setDesc_may (hm : maySetDesc ||| mk = mk) (k : Nat) (f : PageDesc → PageDesc) :
    May mk (setDesc k f) := by
  unfold setDesc
  repeat' first | exact bit_sub rfl hm | (dsimp only [Upd.bit]; exact bit_sub rfl hm) | exact sub_trans rfl hm | with_reducible assumption | with_reducible constructor | with_reducible intro _ | with_reducible apply setPage_may | with_reducible apply fwWrite_may | dsimp only | split

def maySetPte : Nat := mayFwWrite ||| mp .pte
theorem setPte_may (hm : maySetPte ||| mk = mk) (q st p : Nat) (e : Pte) :
    May mk (setPte q st p e) := by
  unfold setPte
  repeat' first | exact bit_sub rfl hm | (dsimp only [Upd.bit]; exact bit_sub rfl hm) | exact sub_trans rfl hm | with_reducible assumption | with_reducible constructor | with_reducible intro _ | with_reducible apply fwWrite_may | dsimp only | split

def maySetSeqD : Nat := maySetSeq ||| mayFwWrite
theorem setSeqD_may (hm : maySetSeqD ||| mk = mk) (q : Nat) (f : SeqSt → SeqSt) :
    May mk (setSeqD q f) := by
  unfold setSeqD
  repeat' first | exact bit_sub rfl hm | (dsimp only [Upd.bit]; exact bit_sub rfl hm) | exact sub_trans rfl hm | with_reducible assumption | with_reducible constructor | with_reducible intro _ | with_reducible apply setSeq_may | with_reducible apply fwWrite_may | dsimp only | split

def maySetSlag : Nat := mayFwWrite ||| mp .slag
theorem setSlag_may (hm : maySetSlag ||| mk = mk) (q : Nat) (g : Slag) :
    May mk (setSlag q g) := by
  unfold setSlag
  repeat' first | exact bit_sub rfl hm | (dsimp only [Upd.bit]; exact bit_sub rfl hm) | exact sub_trans rfl hm | with_reducible assumption | with_reducible constructor | with_reducible intro _ | with_reducible apply fwWrite_may | dsimp only | split

def mayAcctSync : Nat := maySetAccount ||| mayFwWrite
theorem acctSync_may (hm : mayAcctSync ||| mk = mk) (fl : Nat) :
    May mk (acctSync fl) := by
  unfold acctSync
  repeat' first | exact bit_sub rfl hm | (dsimp only [Upd.bit]; exact bit_sub rfl hm) | exact sub_trans rfl hm | with_reducible assumption | with_reducible constructor | with_reducible intro _ | with_reducible apply setAccount_may | with_reducible apply fwWrite_may | dsimp only | split

def mayCountDrops : Nat := maySetAccount
theorem countDrops_may (hm : mayCountDrops ||| mk = mk) (fl k : Nat) :
    May mk (countDrops fl k) := by
  unfold countDrops
  repeat' first | exact bit_sub rfl hm | (dsimp only [Upd.bit]; exact bit_sub rfl hm) | exact sub_trans rfl hm | with_reducible assumption | with_reducible constructor | with_reducible intro _ | with_reducible apply setAccount_may | dsimp only | split

def mayCheckLow : Nat := maySetSlice ||| mayDoorbell
theorem checkLow_may (hm : mayCheckLow ||| mk = mk) (sl before : Nat) :
    May mk (checkLow sl before) := by
  unfold checkLow
  repeat' first | exact bit_sub rfl hm | (dsimp only [Upd.bit]; exact bit_sub rfl hm) | exact sub_trans rfl hm | with_reducible assumption | with_reducible constructor | with_reducible intro _ | with_reducible apply setSlice_may | with_reducible apply doorbell_may | dsimp only | split

def mayTakeFrame : Nat := maySetSlice ||| mayCheckLow
theorem takeFrame_may (hm : mayTakeFrame ||| mk = mk) (sl b f : Nat) :
    May mk (takeFrame sl b f) := by
  unfold takeFrame
  repeat' first | exact bit_sub rfl hm | (dsimp only [Upd.bit]; exact bit_sub rfl hm) | exact sub_trans rfl hm | with_reducible assumption | with_reducible constructor | with_reducible intro _ | with_reducible apply setSlice_may | with_reducible apply checkLow_may | dsimp only | split

def mayFlPop : Nat := mayTakeFrame ||| mr .KV_FL_STAT_next_bank
theorem flPop_may (hm : mayFlPop ||| mk = mk) (sl : Nat) (k : Option (Nat × Nat) → Eff) (hk : ∀ a, May mk (k a)) :
    May mk (flPop sl k) := by
  unfold flPop
  repeat' first | exact bit_sub rfl hm | (dsimp only [Upd.bit]; exact bit_sub rfl hm) | exact sub_trans rfl hm | with_reducible assumption | with_reducible constructor | with_reducible intro _ | with_reducible apply takeFrame_may | with_reducible apply hk | dsimp only | split

def mayFlPopB : Nat := mayTakeFrame
theorem flPopB_may (hm : mayFlPopB ||| mk = mk) (sl b : Nat) (k : Option (Nat × Nat) → Eff) (hk : ∀ a, May mk (k a)) :
    May mk (flPopB sl b k) := by
  unfold flPopB
  repeat' first | exact bit_sub rfl hm | (dsimp only [Upd.bit]; exact bit_sub rfl hm) | exact sub_trans rfl hm | with_reducible assumption | with_reducible constructor | with_reducible intro _ | with_reducible apply takeFrame_may | with_reducible apply hk | dsimp only | split

def mayFlPush : Nat := maySetSlice ||| mr .KV_FL_STAT_dup_push
theorem flPush_may (hm : mayFlPush ||| mk = mk) (sl b f : Nat) :
    May mk (flPush sl b f) := by
  unfold flPush
  repeat' first | exact bit_sub rfl hm | (dsimp only [Upd.bit]; exact bit_sub rfl hm) | exact sub_trans rfl hm | with_reducible assumption | with_reducible constructor | with_reducible intro _ | with_reducible apply setSlice_may | dsimp only | split

def mayKvFlPopbEff : Nat := mayFlPopB ||| mp .rsp
theorem kvFlPopbEff_may (hm : mayKvFlPopbEff ||| mk = mk) (sl : SliceIx) (s : State) :
    May mk (kvFlPopbEff sl s) := by
  unfold kvFlPopbEff
  repeat' first | exact bit_sub rfl hm | (dsimp only [Upd.bit]; exact bit_sub rfl hm) | exact sub_trans rfl hm | with_reducible assumption | with_reducible constructor | with_reducible intro _ | with_reducible apply flPopB_may | dsimp only | split

def mayRelease : Nat := maySetSlice ||| maySetDesc ||| mr .BSU_EPOCH_current
theorem release_may (hm : mayRelease ||| mk = mk) (k st : Nat) :
    May mk (release k st) := by
  unfold release
  repeat' first | exact bit_sub rfl hm | (dsimp only [Upd.bit]; exact bit_sub rfl hm) | exact sub_trans rfl hm | with_reducible assumption | with_reducible constructor | with_reducible intro _ | with_reducible apply setSlice_may | with_reducible apply setDesc_may | dsimp only | split

def mayDecrement : Nat := maySetDesc ||| mayRelease
theorem decrement_may (hm : mayDecrement ||| mk = mk) (k st : Nat) :
    May mk (decrement k st) := by
  unfold decrement
  repeat' first | exact bit_sub rfl hm | (dsimp only [Upd.bit]; exact bit_sub rfl hm) | exact sub_trans rfl hm | with_reducible assumption | with_reducible constructor | with_reducible intro _ | with_reducible apply setDesc_may | with_reducible apply release_may | dsimp only | split

def mayDropRef : Nat := maySetSeq ||| mayDecrement
theorem dropRef_may (hm : mayDropRef ||| mk = mk) (q k st : Nat) :
    May mk (dropRef q k st) := by
  unfold dropRef
  repeat' first | exact bit_sub rfl hm | (dsimp only [Upd.bit]; exact bit_sub rfl hm) | exact sub_trans rfl hm | with_reducible assumption | with_reducible constructor | with_reducible intro _ | with_reducible apply setSeq_may | with_reducible apply decrement_may | dsimp only | split

def mayStepEnd : Nat := maySetSeq ||| mayAcctSync ||| mayDecrement
theorem stepEnd_may (hm : mayStepEnd ||| mk = mk) (q : Nat) :
    May mk (stepEnd q) := by
  unfold stepEnd
  repeat' first | exact bit_sub rfl hm | (dsimp only [Upd.bit]; exact bit_sub rfl hm) | exact sub_trans rfl hm | with_reducible assumption | with_reducible constructor | with_reducible intro _ | with_reducible apply setSeq_may | with_reducible apply acctSync_may | with_reducible apply decrement_may | dsimp only | split

def mayEpochDrain : Nat := maySetSlice ||| maySetDesc ||| mayAcctSync ||| mayFlPush ||| mayRelease
theorem epochDrain_may (hm : mayEpochDrain ||| mk = mk) (sl : Nat) :
    May mk (epochDrain sl) := by
  unfold epochDrain
  repeat' first | exact bit_sub rfl hm | (dsimp only [Upd.bit]; exact bit_sub rfl hm) | exact sub_trans rfl hm | with_reducible assumption | with_reducible constructor | with_reducible intro _ | with_reducible apply setSlice_may | with_reducible apply setDesc_may | with_reducible apply acctSync_may | with_reducible apply flPush_may | with_reducible apply release_may | dsimp only | split

def mayHeaderWord : Nat := mayFwWrite
theorem headerWord_may (hm : mayHeaderWord ||| mk = mk) (k i v : Nat) :
    May mk (headerWord k i v) := by
  unfold headerWord
  repeat' first | exact bit_sub rfl hm | (dsimp only [Upd.bit]; exact bit_sub rfl hm) | exact sub_trans rfl hm | with_reducible assumption | with_reducible constructor | with_reducible intro _ | with_reducible apply fwWrite_may | dsimp only | split

def mayWriteHeader : Nat := mayFwWrite
theorem writeHeader_may (hm : mayWriteHeader ||| mk = mk) (k : Nat) (h : Header) :
    May mk (writeHeader k h) := by
  unfold writeHeader
  repeat' first | exact bit_sub rfl hm | (dsimp only [Upd.bit]; exact bit_sub rfl hm) | exact sub_trans rfl hm | with_reducible assumption | with_reducible constructor | with_reducible intro _ | with_reducible apply fwWrite_may | dsimp only | split

def maySetShared : Nat := mayHeaderWord
theorem setShared_may (hm : maySetShared ||| mk = mk) (k : Nat) (v : Bool) :
    May mk (setShared k v) := by
  unfold setShared
  repeat' first | exact bit_sub rfl hm | (dsimp only [Upd.bit]; exact bit_sub rfl hm) | exact sub_trans rfl hm | with_reducible assumption | with_reducible constructor | with_reducible intro _ | with_reducible apply headerWord_may | dsimp only | split

def mayWriteSlot : Nat := mp .hmem ||| mp .mem
theorem writeSlot_may (hm : mayWriteSlot ||| mk = mk) (fl i : Nat) (d : List Byte) :
    May mk (writeSlot fl i d) := by
  unfold writeSlot
  repeat' first | exact bit_sub rfl hm | (dsimp only [Upd.bit]; exact bit_sub rfl hm) | exact sub_trans rfl hm | with_reducible assumption | with_reducible constructor | with_reducible intro _ | dsimp only | split

def mayLeaveSlot : Nat := mp .slot
theorem leaveSlot_may (hm : mayLeaveSlot ||| mk = mk) (fl i q st p : Nat) :
    May mk (leaveSlot fl i q st p) := by
  unfold leaveSlot
  repeat' first | exact bit_sub rfl hm | (dsimp only [Upd.bit]; exact bit_sub rfl hm) | exact sub_trans rfl hm | with_reducible assumption | with_reducible constructor | with_reducible intro _ | dsimp only | split

def mayDropFrom : Nat := mayFlaskRing ||| maySetPte ||| maySetSeqD ||| maySetSlag ||| mayCountDrops ||| mayDropRef ||| mayLeaveSlot
theorem dropFrom_may (hm : mayDropFrom ||| mk = mk) (q d reason : Nat) :
    May mk (dropFrom q d reason) := by
  unfold dropFrom
  repeat' first | exact bit_sub rfl hm | (dsimp only [Upd.bit]; exact bit_sub rfl hm) | exact sub_trans rfl hm | with_reducible assumption | with_reducible constructor | with_reducible intro _ | with_reducible apply flaskRing_may | with_reducible apply setPte_may | with_reducible apply setSeqD_may | with_reducible apply setSlag_may | with_reducible apply countDrops_may | with_reducible apply dropRef_may | with_reducible apply leaveSlot_may | dsimp only | split

def mayDropEvict : Nat := maySetAccount ||| mayAcctSync ||| mayDropFrom
theorem dropEvict_may (hm : mayDropEvict ||| mk = mk) (q d reason : Nat) :
    May mk (dropEvict q d reason) := by
  unfold dropEvict
  repeat' first | exact bit_sub rfl hm | (dsimp only [Upd.bit]; exact bit_sub rfl hm) | exact sub_trans rfl hm | with_reducible assumption | with_reducible constructor | with_reducible intro _ | with_reducible apply setAccount_may | with_reducible apply acctSync_may | with_reducible apply dropFrom_may | dsimp only | split

def maySwapBegin : Nat := maySetAccount ||| maySetSeqD ||| mayAcctSync
theorem swapBegin_may (hm : maySwapBegin ||| mk = mk) (q : Nat) :
    May mk (swapBegin q) := by
  unfold swapBegin
  repeat' first | exact bit_sub rfl hm | (dsimp only [Upd.bit]; exact bit_sub rfl hm) | exact sub_trans rfl hm | with_reducible assumption | with_reducible constructor | with_reducible intro _ | with_reducible apply setAccount_may | with_reducible apply setSeqD_may | with_reducible apply acctSync_may | dsimp only | split

def mayEvictSeq : Nat := mayDropEvict ||| maySwapBegin
theorem evictSeq_may (hm : mayEvictSeq ||| mk = mk) (q sl need reason : Nat) :
    May mk (evictSeq q sl need reason) := by
  unfold evictSeq
  repeat' first | exact bit_sub rfl hm | (dsimp only [Upd.bit]; exact bit_sub rfl hm) | exact sub_trans rfl hm | with_reducible assumption | with_reducible constructor | with_reducible intro _ | with_reducible apply dropEvict_may | with_reducible apply swapBegin_may | dsimp only | split

def maySwapDone : Nat := maySetSeq ||| mayFlaskRing
theorem swapDone_may (hm : maySwapDone ||| mk = mk) (q : Nat) :
    May mk (swapDone q) := by
  unfold swapDone
  repeat' first | exact bit_sub rfl hm | (dsimp only [Upd.bit]; exact bit_sub rfl hm) | exact sub_trans rfl hm | with_reducible assumption | with_reducible constructor | with_reducible intro _ | with_reducible apply setSeq_may | with_reducible apply flaskRing_may | dsimp only | split

def maySwapHandled : Nat := maySetSeq
theorem swapHandled_may (hm : maySwapHandled ||| mk = mk) (q : Nat) (e : Nat × Nat) :
    May mk (swapHandled q e) := by
  unfold swapHandled
  repeat' first | exact bit_sub rfl hm | (dsimp only [Upd.bit]; exact bit_sub rfl hm) | exact sub_trans rfl hm | with_reducible assumption | with_reducible constructor | with_reducible intro _ | with_reducible apply setSeq_may | dsimp only | split

def maySwapFail : Nat := mayAcctSync ||| mayDropFrom
theorem swapFail_may (hm : maySwapFail ||| mk = mk) (q p reason : Nat) :
    May mk (swapFail q p reason) := by
  unfold swapFail
  repeat' first | exact bit_sub rfl hm | (dsimp only [Upd.bit]; exact bit_sub rfl hm) | exact sub_trans rfl hm | with_reducible assumption | with_reducible constructor | with_reducible intro _ | with_reducible apply acctSync_may | with_reducible apply dropFrom_may | dsimp only | split

def maySwapOut : Nat := maySetAccount ||| maySetDesc ||| maySetPte ||| mayRelease ||| mayWriteSlot ||| mp .slot
theorem swapOut_may (hm : maySwapOut ||| mk = mk) (fl k i : Nat) :
    May mk (swapOut fl k i) := by
  unfold swapOut
  repeat' first | exact bit_sub rfl hm | (dsimp only [Upd.bit]; exact bit_sub rfl hm) | exact sub_trans rfl hm | with_reducible assumption | with_reducible constructor | with_reducible intro _ | with_reducible apply setAccount_may | with_reducible apply setDesc_may | with_reducible apply setPte_may | with_reducible apply release_may | with_reducible apply writeSlot_may | dsimp only | split

def maySwapIn : Nat := maySetAccount ||| mayInvalLine ||| mayFwWrite ||| maySetDesc ||| maySetPte ||| mp .slot
theorem swapIn_may (hm : maySwapIn ||| mk = mk) (fl i k : Nat) :
    May mk (swapIn fl i k) := by
  unfold swapIn
  repeat' first | exact bit_sub rfl hm | (dsimp only [Upd.bit]; exact bit_sub rfl hm) | exact sub_trans rfl hm | with_reducible assumption | with_reducible constructor | with_reducible intro _ | with_reducible apply setAccount_may | with_reducible apply invalLine_may | with_reducible apply fwWrite_may | with_reducible apply setDesc_may | with_reducible apply setPte_may | dsimp only | split

def mayWaitFrame : Nat := maySetSlice ||| maySetSeq
theorem waitFrame_may (hm : mayWaitFrame ||| mk = mk) (q sl : Nat) :
    May mk (waitFrame q sl) := by
  unfold waitFrame
  repeat' first | exact bit_sub rfl hm | (dsimp only [Upd.bit]; exact bit_sub rfl hm) | exact sub_trans rfl hm | with_reducible assumption | with_reducible constructor | with_reducible intro _ | with_reducible apply setSlice_may | with_reducible apply setSeq_may | dsimp only | split

def mayLoadImage : Nat := mrs (imageFields.map (·.1))
theorem loadImage_may (hm : mayLoadImage ||| mk = mk) (n : Nat) (img : List Nat) : May mk (loadImage n img) :=
  .eachMem fun x hx => .set (bit_sub (mrs_bit (List.mem_map.mpr ⟨x.1, (List.mem_zipIdx hx).2.2 ▸ List.getElem_mem _, rfl⟩)) hm)

def maySaveImage : Nat := mp .image
theorem saveImage_may (hm : maySaveImage ||| mk = mk) (x r : Nat) (img : List Nat) :
    May mk (saveImage x r img) := by
  unfold saveImage
  repeat' first | exact bit_sub rfl hm | (dsimp only [Upd.bit]; exact bit_sub rfl hm) | exact sub_trans rfl hm | with_reducible assumption | with_reducible constructor | with_reducible intro _ | dsimp only | split

def mayRequestAdd : Nat := mayCtAdd ||| maySaveImage
theorem requestAdd_may (hm : mayRequestAdd ||| mk = mk) (n x ct : Nat) :
    May mk (requestAdd n x ct) := by
  unfold requestAdd
  repeat' first | exact bit_sub rfl hm | (dsimp only [Upd.bit]; exact bit_sub rfl hm) | exact sub_trans rfl hm | with_reducible assumption | with_reducible constructor | with_reducible intro _ | with_reducible apply ctAdd_may | with_reducible apply saveImage_may | dsimp only | split

def mayReportStatus : Nat := maySetCtx
theorem reportStatus_may (hm : mayReportStatus ||| mk = mk) (n st : Nat) :
    May mk (reportStatus n st) := by
  unfold reportStatus
  repeat' first | exact bit_sub rfl hm | (dsimp only [Upd.bit]; exact bit_sub rfl hm) | exact sub_trans rfl hm | with_reducible assumption | with_reducible constructor | with_reducible intro _ | with_reducible apply setCtx_may | dsimp only | split

def mayStepBegins : Nat := maySetSeq ||| maySetCtx
theorem stepBegins_may (hm : mayStepBegins ||| mk = mk) (n q : Nat) :
    May mk (stepBegins n q) := by
  unfold stepBegins
  repeat' first | exact bit_sub rfl hm | (dsimp only [Upd.bit]; exact bit_sub rfl hm) | exact sub_trans rfl hm | with_reducible assumption | with_reducible constructor | with_reducible intro _ | with_reducible apply setSeq_may | with_reducible apply setCtx_may | dsimp only | split

def mayAppAside : Nat := maySetCore
theorem appAside_may (hm : mayAppAside ||| mk = mk) (n e x : Nat) :
    May mk (appAside n e x) := by
  unfold appAside
  repeat' first | exact bit_sub rfl hm | (dsimp only [Upd.bit]; exact bit_sub rfl hm) | exact sub_trans rfl hm | with_reducible assumption | with_reducible constructor | with_reducible intro _ | with_reducible apply setCore_may | dsimp only | split

def mayAppDone : Nat := maySetCore ||| maySetSeq ||| mayFwWrite ||| mayRequestAdd
theorem appDone_may (hm : mayAppDone ||| mk = mk) (n e x : Nat) (r : AppReq) (st : Nat) :
    May mk (appDone n e x r st) := by
  unfold appDone
  repeat' first | exact bit_sub rfl hm | (dsimp only [Upd.bit]; exact bit_sub rfl hm) | exact sub_trans rfl hm | with_reducible assumption | with_reducible constructor | with_reducible intro _ | with_reducible apply setCore_may | with_reducible apply setSeq_may | with_reducible apply fwWrite_may | with_reducible apply requestAdd_may | dsimp only | split

def mayAppendInto : Nat := maySetCore ||| maySetSeq ||| mayBsuTouch ||| mayAppendWrite ||| maySetDesc ||| maySetPte ||| mayFlPop ||| mayFlPopB ||| maySetShared ||| mayDropFrom ||| mayWaitFrame ||| mayAppAside ||| mayAppDone ||| mr .BSU_PERF_commands
theorem appendInto_may (hm : mayAppendInto ||| mk = mk) (n e x : Nat) (r : AppReq) (p : Nat) :
    May mk (appendInto n e x r p) := by
  unfold appendInto
  repeat' first | exact bit_sub rfl hm | (dsimp only [Upd.bit]; exact bit_sub rfl hm) | exact sub_trans rfl hm | with_reducible assumption | with_reducible constructor | with_reducible intro _ | with_reducible apply setCore_may | with_reducible apply setSeq_may | with_reducible apply bsuTouch_may | with_reducible apply appendWrite_may | with_reducible apply setDesc_may | with_reducible apply setPte_may | with_reducible apply flPop_may | with_reducible apply flPopB_may | with_reducible apply setShared_may | with_reducible apply dropFrom_may | with_reducible apply waitFrame_may | with_reducible apply appAside_may | with_reducible apply appDone_may | dsimp only | split

def mayAppendTry : Nat := maySetSeq ||| maySetDesc ||| maySetPte ||| mayFlPop ||| mayWriteHeader ||| mayWaitFrame ||| mayAppAside ||| mayAppDone ||| mayAppendInto
theorem appendTry_may (hm : mayAppendTry ||| mk = mk) (n e x : Nat) :
    May mk (appendTry n e x) := by
  unfold appendTry
  repeat' first | exact bit_sub rfl hm | (dsimp only [Upd.bit]; exact bit_sub rfl hm) | exact sub_trans rfl hm | with_reducible assumption | with_reducible constructor | with_reducible intro _ | with_reducible apply setSeq_may | with_reducible apply setDesc_may | with_reducible apply setPte_may | with_reducible apply flPop_may | with_reducible apply writeHeader_may | with_reducible apply waitFrame_may | with_reducible apply appAside_may | with_reducible apply appDone_may | with_reducible apply appendInto_may | dsimp only | split

def mayAppendRequest : Nat := maySetCore ||| mayStepBegins ||| mayAppAside ||| mayAppendTry
theorem appendRequest_may (hm : mayAppendRequest ||| mk = mk) (n : Nat) :
    May mk (appendRequest n) := by
  unfold appendRequest
  repeat' first | exact bit_sub rfl hm | (dsimp only [Upd.bit]; exact bit_sub rfl hm) | exact sub_trans rfl hm | with_reducible assumption | with_reducible constructor | with_reducible intro _ | with_reducible apply setCore_may | with_reducible apply stepBegins_may | with_reducible apply appAside_may | with_reducible apply appendTry_may | dsimp only | split

def mayCopyOnWrite : Nat := maySetCore ||| maySetSeq ||| mayInvalLine ||| mayBsuTouch ||| mayCopyFrame ||| maySetDesc ||| maySetPte ||| mayRelease ||| mayDropRef ||| mayHeaderWord ||| mayDropFrom ||| mayAppDone ||| mayAppendTry
theorem copyOnWrite_may (hm : mayCopyOnWrite ||| mk = mk) (n : Nat) :
    May mk (copyOnWrite n) := by
  unfold copyOnWrite
  repeat' first | exact bit_sub rfl hm | (dsimp only [Upd.bit]; exact bit_sub rfl hm) | exact sub_trans rfl hm | with_reducible assumption | with_reducible constructor | with_reducible intro _ | with_reducible apply setCore_may | with_reducible apply setSeq_may | with_reducible apply invalLine_may | with_reducible apply bsuTouch_may | with_reducible apply copyFrame_may | with_reducible apply setDesc_may | with_reducible apply setPte_may | with_reducible apply release_may | with_reducible apply dropRef_may | with_reducible apply headerWord_may | with_reducible apply dropFrom_may | with_reducible apply appDone_may | with_reducible apply appendTry_may | dsimp only | split

def mayDenyAside : Nat := mayAppDone
theorem denyAside_may (hm : mayDenyAside ||| mk = mk) (q : Nat) :
    May mk (denyAside q) := by
  unfold denyAside
  repeat' first | exact bit_sub rfl hm | (dsimp only [Upd.bit]; exact bit_sub rfl hm) | exact sub_trans rfl hm | with_reducible assumption | with_reducible constructor | with_reducible intro _ | with_reducible apply appDone_may | dsimp only | split

def mayAttAside : Nat := maySetCore
theorem attAside_may (hm : mayAttAside ||| mk = mk) (n e x : Nat) :
    May mk (attAside n e x) := by
  unfold attAside
  repeat' first | exact bit_sub rfl hm | (dsimp only [Upd.bit]; exact bit_sub rfl hm) | exact sub_trans rfl hm | with_reducible assumption | with_reducible constructor | with_reducible intro _ | with_reducible apply setCore_may | dsimp only | split

def mayAttDone : Nat := maySetCore ||| mayFwWrite ||| mayRequestAdd ||| mayReportStatus
theorem attDone_may (hm : mayAttDone ||| mk = mk) (n e x : Nat) (w0 st ct : Nat) :
    May mk (attDone n e x w0 st ct) := by
  unfold attDone
  repeat' first | exact bit_sub rfl hm | (dsimp only [Upd.bit]; exact bit_sub rfl hm) | exact sub_trans rfl hm | with_reducible assumption | with_reducible constructor | with_reducible intro _ | with_reducible apply setCore_may | with_reducible apply fwWrite_may | with_reducible apply requestAdd_may | with_reducible apply reportStatus_may | dsimp only | split

def mayWritePartials : Nat := mayFwWrite
theorem writePartials_may (hm : mayWritePartials ||| mk = mk) (f size : Nat) (frames : List Nat) (parts : List (List Byte)) :
    May mk (writePartials f size frames parts) := by
  unfold writePartials
  repeat' first | exact bit_sub rfl hm | (dsimp only [Upd.bit]; exact bit_sub rfl hm) | exact sub_trans rfl hm | with_reducible assumption | with_reducible constructor | with_reducible intro _ | with_reducible apply fwWrite_may | dsimp only | split

def mayAttendPages : Nat := mayBsuTouch ||| mayWritePartials ||| mp .attend ||| mr .BSU_PERF_commands
theorem attendPages_may (hm : mayAttendPages ||| mk = mk) (n e x : Nat) (r : AttReq) :
    May mk (attendPages n e x r) := by
  unfold attendPages
  repeat' first | exact bit_sub rfl hm | (dsimp only [Upd.bit]; exact bit_sub rfl hm) | exact sub_trans rfl hm | with_reducible assumption | with_reducible constructor | with_reducible intro _ | with_reducible apply bsuTouch_may | with_reducible apply writePartials_may | dsimp only | split

def mayAttendTry : Nat := maySetCore ||| maySetSeq ||| mayAttAside ||| mayAttDone ||| mayAttendPages ||| mp .attend
theorem attendTry_may (hm : mayAttendTry ||| mk = mk) (n e x : Nat) :
    May mk (attendTry n e x) := by
  unfold attendTry
  repeat' first | exact bit_sub rfl hm | (dsimp only [Upd.bit]; exact bit_sub rfl hm) | exact sub_trans rfl hm | with_reducible assumption | with_reducible constructor | with_reducible intro _ | with_reducible apply setCore_may | with_reducible apply setSeq_may | with_reducible apply attAside_may | with_reducible apply attDone_may | with_reducible apply attendPages_may | dsimp only | split

def mayAttendRequest : Nat := maySetCore ||| mayStepBegins ||| mayAttendTry
theorem attendRequest_may (hm : mayAttendRequest ||| mk = mk) (n : Nat) :
    May mk (attendRequest n) := by
  unfold attendRequest
  repeat' first | exact bit_sub rfl hm | (dsimp only [Upd.bit]; exact bit_sub rfl hm) | exact sub_trans rfl hm | with_reducible assumption | with_reducible constructor | with_reducible intro _ | with_reducible apply setCore_may | with_reducible apply stepBegins_may | with_reducible apply attendTry_may | dsimp only | split

def mayMergeQuery : Nat := mayWritePartials
theorem mergeQuery_may (hm : mayMergeQuery ||| mk = mk) (dv f fuel : Nat) (frames : List Nat) (parts st : Nat) (k : List Byte → Nat → Eff) (hk : ∀ d w, May mk (k d w)) :
    May mk (mergeQuery dv f fuel frames parts st k) := by
  induction fuel generalizing frames parts st with
  | zero => exact hk _ _
  | succ n ih =>
    unfold mergeQuery
    repeat' first | exact bit_sub rfl hm | (dsimp only [Upd.bit]; exact bit_sub rfl hm) | exact sub_trans rfl hm | with_reducible assumption | with_reducible constructor | with_reducible intro _ | with_reducible apply writePartials_may | with_reducible apply hk | with_reducible apply ih | dsimp only | split

def mayMergeAll : Nat := mayWriteMem ||| mayMergeQuery
theorem mergeAll_may (hm : mayMergeAll ||| mk = mk) (c fl : Nat) (a : Attend) (js : List Nat) (st : Nat) (k : Nat → Eff) (hk : ∀ w, May mk (k w)) :
    May mk (mergeAll c fl a js st k) := by
  induction js generalizing st with
  | nil => exact hk _
  | cons j js ih =>
    unfold mergeAll
    repeat' first | exact bit_sub rfl hm | (dsimp only [Upd.bit]; exact bit_sub rfl hm) | exact sub_trans rfl hm | with_reducible assumption | with_reducible constructor | with_reducible intro _ | with_reducible apply writeMem_may | with_reducible apply mergeQuery_may | with_reducible apply hk | with_reducible apply ih | dsimp only | split

def mayMemberMerge : Nat := mayRequestAdd ||| mayAttDone ||| mayMergeAll ||| mp .attend
theorem memberMerge_may (hm : mayMemberMerge ||| mk = mk) (n : Nat) :
    May mk (memberMerge n) := by
  unfold memberMerge
  repeat' first | exact bit_sub rfl hm | (dsimp only [Upd.bit]; exact bit_sub rfl hm) | exact sub_trans rfl hm | with_reducible assumption | with_reducible constructor | with_reducible intro _ | with_reducible apply requestAdd_may | with_reducible apply attDone_may | with_reducible apply mergeAll_may | dsimp only | split

def mayStarve : Nat := maySetSeq ||| mayFlaskRing ||| mayAcctSync
theorem starve_may (hm : mayStarve ||| mk = mk) (q sl : Nat) :
    May mk (starve q sl) := by
  unfold starve
  repeat' first | exact bit_sub rfl hm | (dsimp only [Upd.bit]; exact bit_sub rfl hm) | exact sub_trans rfl hm | with_reducible assumption | with_reducible constructor | with_reducible intro _ | with_reducible apply setSeq_may | with_reducible apply flaskRing_may | with_reducible apply acctSync_may | dsimp only | split

def mayReclaim : Nat := maySetSlice ||| mayDropEvict ||| mayEvictSeq ||| mayStarve
theorem reclaim_may (hm : mayReclaim ||| mk = mk) (sl : Nat) :
    May mk (reclaim sl) := by
  unfold reclaim
  repeat' first | exact bit_sub rfl hm | (dsimp only [Upd.bit]; exact bit_sub rfl hm) | exact sub_trans rfl hm | with_reducible assumption | with_reducible constructor | with_reducible intro _ | with_reducible apply setSlice_may | with_reducible apply dropEvict_may | with_reducible apply evictSeq_may | with_reducible apply starve_may | dsimp only | split

def maySwapEvict : Nat := maySwapBegin ||| maySwapDone ||| maySwapFail
theorem swapEvict_may (hm : maySwapEvict ||| mk = mk) (q : Nat) :
    May mk (swapEvict q) := by
  unfold swapEvict
  repeat' first | exact bit_sub rfl hm | (dsimp only [Upd.bit]; exact bit_sub rfl hm) | exact sub_trans rfl hm | with_reducible assumption | with_reducible constructor | with_reducible intro _ | with_reducible apply swapBegin_may | with_reducible apply swapDone_may | with_reducible apply swapFail_may | dsimp only | split

def maySwapPageDone : Nat := mayBsuTouch ||| mayAcctSync ||| maySwapDone ||| maySwapHandled ||| maySwapFail ||| maySwapOut
theorem swapPageDone_may (hm : maySwapPageDone ||| mk = mk) (q : Nat) (ok : Bool) :
    May mk (swapPageDone q ok) := by
  unfold swapPageDone
  repeat' first | exact bit_sub rfl hm | (dsimp only [Upd.bit]; exact bit_sub rfl hm) | exact sub_trans rfl hm | with_reducible assumption | with_reducible constructor | with_reducible intro _ | with_reducible apply bsuTouch_may | with_reducible apply acctSync_may | with_reducible apply swapDone_may | with_reducible apply swapHandled_may | with_reducible apply swapFail_may | with_reducible apply swapOut_may | dsimp only | split

def mayPageRestore : Nat := maySetSeq ||| mayAcctSync ||| mayFlPop ||| mayFlPush ||| maySwapFail ||| maySwapIn ||| mayWaitFrame ||| mayStarve
theorem pageRestore_may (hm : mayPageRestore ||| mk = mk) (q st p : Nat) (ok : Bool) :
    May mk (pageRestore q st p ok) := by
  unfold pageRestore
  repeat' first | exact bit_sub rfl hm | (dsimp only [Upd.bit]; exact bit_sub rfl hm) | exact sub_trans rfl hm | with_reducible assumption | with_reducible constructor | with_reducible intro _ | with_reducible apply setSeq_may | with_reducible apply acctSync_may | with_reducible apply flPop_may | with_reducible apply flPush_may | with_reducible apply swapFail_may | with_reducible apply swapIn_may | with_reducible apply waitFrame_may | with_reducible apply starve_may | dsimp only | split

def mayHostCharge : Nat := mp .bucket ||| mr .REG_IOB_host
theorem hostCharge_may (hm : mayHostCharge ||| mk = mk) (fl len : Nat) (paced : Bool) :
    May mk (hostCharge fl len paced) := by
  unfold hostCharge
  repeat' first | exact bit_sub rfl hm | (dsimp only [Upd.bit]; exact bit_sub rfl hm) | exact sub_trans rfl hm | with_reducible assumption | with_reducible constructor | with_reducible intro _ | dsimp only | split

def mayRegulatorReleaseEff : Nat := mayRefill ||| mp .tick ||| mr .REG_IOW_cycles
theorem regulatorReleaseEff_may (hm : mayRegulatorReleaseEff ||| mk = mk) (host : Bool) (fl : FlaskIx) (s : State) :
    May mk (regulatorReleaseEff host fl s) := by
  unfold regulatorReleaseEff
  repeat' first | exact bit_sub rfl hm | (dsimp only [Upd.bit]; exact bit_sub rfl hm) | exact sub_trans rfl hm | with_reducible assumption | with_reducible constructor | with_reducible intro _ | with_reducible apply refill_may | dsimp only | split

def mayLadleStat : Nat := mr .LDL_STAT_active ||| mr .LDL_STAT_queued ||| mr .LDL_STAT_running
theorem ladleStat_may (hm : mayLadleStat ||| mk = mk) (e : Nat) :
    May mk (ladleStat e) := by
  unfold ladleStat
  repeat' first | exact bit_sub rfl hm | (dsimp only [Upd.bit]; exact bit_sub rfl hm) | exact sub_trans rfl hm | with_reducible assumption | with_reducible constructor | with_reducible intro _ | dsimp only | split

def mayLadleStart : Nat := maySetLadle ||| mayLadleStat ||| mr .LDL_CH_head ||| mr .LDL_CH_state ||| mr .LDL_STAT_busy_err
theorem ladleStart_may (hm : mayLadleStart ||| mk = mk) (e ch head fn fl : Nat) :
    May mk (ladleStart e ch head fn fl) := by
  unfold ladleStart
  repeat' first | exact bit_sub rfl hm | (dsimp only [Upd.bit]; exact bit_sub rfl hm) | exact sub_trans rfl hm | with_reducible assumption | with_reducible constructor | with_reducible intro _ | with_reducible apply setLadle_may | with_reducible apply ladleStat_may | dsimp only | split

def mayLadleHead : Nat := mayLadleStart
theorem ladleHead_may (hm : mayLadleHead ||| mk = mk) (e ch head : Nat) :
    May mk (ladleHead e ch head) := by
  unfold ladleHead
  repeat' first | exact bit_sub rfl hm | (dsimp only [Upd.bit]; exact bit_sub rfl hm) | exact sub_trans rfl hm | with_reducible assumption | with_reducible constructor | with_reducible intro _ | with_reducible apply ladleStart_may | dsimp only | split

def mayPoisonWords : Nat := mayPutWord
theorem poisonWords_may (hm : mayPoisonWords ||| mk = mk) (d : Desc) (bad : List Nat) (n : Nat) :
    May mk (poisonWords d bad n) := by
  unfold poisonWords
  repeat' first | exact bit_sub rfl hm | (dsimp only [Upd.bit]; exact bit_sub rfl hm) | exact sub_trans rfl hm | with_reducible assumption | with_reducible constructor | with_reducible intro _ | with_reducible apply putWord_may | dsimp only | split

def mayFailRecord : Nat := mayAccessRecords
theorem failRecord_may (hm : mayFailRecord ||| mk = mk) (iss : Issuer) (fl a : Nat) :
    May mk (failRecord iss fl a) := by
  unfold failRecord
  repeat' first | exact bit_sub rfl hm | (dsimp only [Upd.bit]; exact bit_sub rfl hm) | exact sub_trans rfl hm | with_reducible assumption | with_reducible constructor | with_reducible intro _ | with_reducible apply accessRecords_may | dsimp only | split

def mayCopyLines : Nat := mayReadMem ||| mayWriteMem ||| mayHostCharge ||| mayPoisonWords ||| mayFailRecord ||| mp .hmem ||| mp .tick ||| mr .LDL_PERF_bytes
theorem copyLines_may (hm : mayCopyLines ||| mk = mk) (e fl : Nat) (d : Desc) (k : Nat → Nat → Nat → Eff) (hk : ∀ a b c, May mk (k a b c)) :
    May mk (copyLines e fl d k) := by
  unfold copyLines
  repeat' first | exact bit_sub rfl hm | (dsimp only [Upd.bit]; exact bit_sub rfl hm) | exact sub_trans rfl hm | with_reducible assumption | with_reducible constructor | with_reducible intro _ | with_reducible apply readMem_may | with_reducible apply writeMem_may | with_reducible apply hostCharge_may | with_reducible apply poisonWords_may | with_reducible apply failRecord_may | with_reducible apply hk | dsimp only | split

def mayCopySome : Nat := mayWriteLine ||| mayPoisonWords ||| mp .hmem ||| mp .tick
theorem copySome_may (hm : mayCopySome ||| mk = mk) (e fl : Nat) (d : Desc) (k : Nat → Eff) (hk : ∀ a, May mk (k a)) :
    May mk (copySome e fl d k) := by
  unfold copySome
  repeat' first | exact bit_sub rfl hm | (dsimp only [Upd.bit]; exact bit_sub rfl hm) | exact sub_trans rfl hm | with_reducible assumption | with_reducible constructor | with_reducible intro _ | with_reducible apply writeLine_may | with_reducible apply poisonWords_may | with_reducible apply hk | dsimp only | split

def mayCopyDesc : Nat := mayCopySome ||| mayCopyLines ||| mr .LDL_PERF_bytes
theorem copyDesc_may (hm : mayCopyDesc ||| mk = mk) (e fl : Nat) (d : Desc) (lost : Bool) (k : Nat → Nat → Nat → Eff) (hk : ∀ a b c, May mk (k a b c)) :
    May mk (copyDesc e fl d lost k) := by
  unfold copyDesc
  repeat' first | exact bit_sub rfl hm | (dsimp only [Upd.bit]; exact bit_sub rfl hm) | exact sub_trans rfl hm | with_reducible assumption | with_reducible constructor | with_reducible intro _ | with_reducible apply copySome_may | with_reducible apply copyLines_may | with_reducible apply hk | dsimp only | split

def mayCutOff : Nat := mayCopySome ||| mp .tick ||| mr .LDL_PERF_bytes
theorem cutOff_may (hm : mayCutOff ||| mk = mk) (e : Nat) (r : LadleRun) :
    May mk (cutOff e r) := by
  unfold cutOff
  repeat' first | exact bit_sub rfl hm | (dsimp only [Upd.bit]; exact bit_sub rfl hm) | exact sub_trans rfl hm | with_reducible assumption | with_reducible constructor | with_reducible intro _ | with_reducible apply copySome_may | dsimp only | split

def mayLadleAbort : Nat := mayCutOff ||| mayLadleStat ||| mp .ladle ||| mr .LDL_CH_state
theorem ladleAbort_may (hm : mayLadleAbort ||| mk = mk) (e : Nat) :
    May mk (ladleAbort e) := by
  unfold ladleAbort
  repeat' first | exact bit_sub rfl hm | (dsimp only [Upd.bit]; exact bit_sub rfl hm) | exact sub_trans rfl hm | with_reducible assumption | with_reducible constructor | with_reducible intro _ | with_reducible apply cutOff_may | with_reducible apply ladleStat_may | dsimp only | split

def mayLadleEnable : Nat := mr .LDL_CTL_disable ||| mr .LDL_CH_state
theorem ladleEnable_may (hm : mayLadleEnable ||| mk = mk) (e : Nat) :
    May mk (ladleEnable e) := by
  unfold ladleEnable
  repeat' first | exact bit_sub rfl hm | (dsimp only [Upd.bit]; exact bit_sub rfl hm) | exact sub_trans rfl hm | with_reducible assumption | with_reducible constructor | with_reducible intro _ | dsimp only | split

def mayLadleAbortFlask : Nat := mayCutOff ||| maySetLadle ||| mayLadleStat ||| mr .LDL_CH_state
theorem ladleAbortFlask_may (hm : mayLadleAbortFlask ||| mk = mk) (e fl : Nat) :
    May mk (ladleAbortFlask e fl) := by
  unfold ladleAbortFlask
  repeat' first | exact bit_sub rfl hm | (dsimp only [Upd.bit]; exact bit_sub rfl hm) | exact sub_trans rfl hm | with_reducible assumption | with_reducible constructor | with_reducible intro _ | with_reducible apply cutOff_may | with_reducible apply setLadle_may | with_reducible apply ladleStat_may | dsimp only | split

def mayLdlPerfClear : Nat := mr .LDL_PERF_bytes ||| mr .LDL_PERF_reg_wait
theorem ldlPerfClear_may (hm : mayLdlPerfClear ||| mk = mk) (e : Nat) :
    May mk (ldlPerfClear e) := by
  refine .eachMem ?_
  simp only [List.forall_mem_cons]
  repeat' first | exact .set (bit_sub rfl hm) | exact (List.forall_mem_nil _) | constructor

def mayDescStart : Nat := maySetLadle ||| mayLadleStat ||| mr .LDL_CH_descs ||| mr .LDL_CH_fx ||| mr .LDL_CH_state ||| mr .LDL_CH_status
theorem descStart_may (hm : mayDescStart ||| mk = mk) (e : Nat) :
    May mk (descStart e) := by
  unfold descStart
  repeat' first | exact bit_sub rfl hm | (dsimp only [Upd.bit]; exact bit_sub rfl hm) | exact sub_trans rfl hm | with_reducible assumption | with_reducible constructor | with_reducible intro _ | with_reducible apply setLadle_may | with_reducible apply ladleStat_may | dsimp only | split

def mayLadleDone : Nat := mayDoorbell ||| mayHostRing
theorem ladleDone_may (hm : mayLadleDone ||| mk = mk) (e ch : Nat) :
    May mk (ladleDone e ch) := by
  unfold ladleDone
  repeat' first | exact bit_sub rfl hm | (dsimp only [Upd.bit]; exact bit_sub rfl hm) | exact sub_trans rfl hm | with_reducible assumption | with_reducible constructor | with_reducible intro _ | with_reducible apply doorbell_may | with_reducible apply hostRing_may | dsimp only | split

def mayDescDone : Nat := maySetLadle ||| mayReport ||| mayAddGlobal ||| mayFwWrite ||| mayLadleStat ||| mayCopyDesc ||| mayLadleDone ||| mp .tick ||| mr .LDL_CH_descs ||| mr .LDL_CH_fx ||| mr .LDL_CH_state ||| mr .LDL_CH_status ||| mr .LDL_PERF_reg_wait
theorem descDone_may (hm : mayDescDone ||| mk = mk) (e : Nat) (lost : Bool) :
    May mk (descDone e lost) := by
  unfold descDone
  repeat' first | exact bit_sub rfl hm | (dsimp only [Upd.bit]; exact bit_sub rfl hm) | exact sub_trans rfl hm | with_reducible assumption | with_reducible constructor | with_reducible intro _ | with_reducible apply setLadle_may | with_reducible apply report_may | with_reducible apply addGlobal_may | with_reducible apply fwWrite_may | with_reducible apply ladleStat_may | with_reducible apply copyDesc_may | with_reducible apply ladleDone_may | dsimp only | split

def mayWriteFlask : Nat := mayFwWrite
theorem writeFlask_may (hm : mayWriteFlask ||| mk = mk) (fl k a : Nat) :
    May mk (writeFlask fl k a) := by
  induction k generalizing a with
  | zero => exact .skip
  | succ k ih =>
    unfold writeFlask
    repeat' first | exact bit_sub rfl hm | (dsimp only [Upd.bit]; exact bit_sub rfl hm) | exact sub_trans rfl hm | with_reducible assumption | with_reducible constructor | with_reducible intro _ | with_reducible apply fwWrite_may | with_reducible apply ih | dsimp only | split

end Sys2Proof.Machine
end

