-- ==== Sys2Proof/Laws/MayFabric.lean ====
section
/-! SUPPORT. What each operation may change, one set and one lemma an operation: flash, ports, Brodit, the network, resets. -/
set_option exponentiation.threshold 1000
set_option maxRecDepth 20000
set_option linter.unusedTactic false
set_option linter.unreachableTactic false
set_option linter.unusedVariables false
namespace Sys2Proof.Machine
variable {mk : Nat}

def mayWriteCfg : Nat := maySetMisc ||| mp .cfg ||| mp .cfgSlots
theorem writeCfg_may (hm : mayWriteCfg ||| mk = mk) (f : List Byte → List Byte) :
    May mk (writeCfg f) := by
  unfold writeCfg
  repeat' first | exact bit_sub rfl hm | (dsimp only [Upd.bit]; exact bit_sub rfl hm) | exact sub_trans rfl hm | with_reducible assumption | with_reducible constructor | with_reducible intro _ | with_reducible apply setMisc_may | dsimp only | split

def maySetSub_ : Nat := mr .SP_STAT_state
theorem setSub__may (hm : maySetSub_ ||| mk = mk) (g k st : Nat) :
    May mk (setSub_ g k st) := by
  unfold setSub_
  repeat' first | exact bit_sub rfl hm | (dsimp only [Upd.bit]; exact bit_sub rfl hm) | exact sub_trans rfl hm | with_reducible assumption | with_reducible constructor | with_reducible intro _ | dsimp only | split

def mayStartTraining : Nat := maySetSub ||| maySetSub_
theorem startTraining_may (hm : mayStartTraining ||| mk = mk) (g k : Nat) (full : Bool) :
    May mk (startTraining g k full) := by
  unfold startTraining
  repeat' first | exact bit_sub rfl hm | (dsimp only [Upd.bit]; exact bit_sub rfl hm) | exact sub_trans rfl hm | with_reducible assumption | with_reducible constructor | with_reducible intro _ | with_reducible apply setSub_may | with_reducible apply setSub__may | dsimp only | split

def mayStartQual : Nat := maySetSub ||| maySetSub_
theorem startQual_may (hm : mayStartQual ||| mk = mk) (g k : Nat) (full post : Bool) :
    May mk (startQual g k full post) := by
  unfold startQual
  repeat' first | exact bit_sub rfl hm | (dsimp only [Upd.bit]; exact bit_sub rfl hm) | exact sub_trans rfl hm | with_reducible assumption | with_reducible constructor | with_reducible intro _ | with_reducible apply setSub_may | with_reducible apply setSub__may | dsimp only | split

def mayPortFailed : Nat := maySetSub ||| mayHostRing ||| mayReport ||| maySetSub_
theorem portFailed_may (hm : mayPortFailed ||| mk = mk) (g k : Nat) :
    May mk (portFailed g k) := by
  unfold portFailed
  repeat' first | exact bit_sub rfl hm | (dsimp only [Upd.bit]; exact bit_sub rfl hm) | exact sub_trans rfl hm | with_reducible assumption | with_reducible constructor | with_reducible intro _ | with_reducible apply setSub_may | with_reducible apply hostRing_may | with_reducible apply report_may | with_reducible apply setSub__may | dsimp only | split

def mayAssayFailed : Nat := maySetSub_ ||| mr .SP_STAT_cause
theorem assayFailed_may (hm : mayAssayFailed ||| mk = mk) (g k : Nat) :
    May mk (assayFailed g k) := by
  unfold assayFailed
  repeat' first | exact bit_sub rfl hm | (dsimp only [Upd.bit]; exact bit_sub rfl hm) | exact sub_trans rfl hm | with_reducible assumption | with_reducible constructor | with_reducible intro _ | with_reducible apply setSub__may | dsimp only | split

def mayAttemptFailed : Nat := maySetSub_ ||| mayPortFailed ||| mr .SP_STAT_attempts ||| mr .SP_STAT_cause
theorem attemptFailed_may (hm : mayAttemptFailed ||| mk = mk) (g k cause : Nat) :
    May mk (attemptFailed g k cause) := by
  unfold attemptFailed
  repeat' first | exact bit_sub rfl hm | (dsimp only [Upd.bit]; exact bit_sub rfl hm) | exact sub_trans rfl hm | with_reducible assumption | with_reducible constructor | with_reducible intro _ | with_reducible apply setSub__may | with_reducible apply portFailed_may | dsimp only | split

def mayPortOff : Nat := maySetSub_
theorem portOff_may (hm : mayPortOff ||| mk = mk) (g : Nat) :
    May mk (portOff g) := by
  unfold portOff
  repeat' first | exact bit_sub rfl hm | (dsimp only [Upd.bit]; exact bit_sub rfl hm) | exact sub_trans rfl hm | with_reducible assumption | with_reducible constructor | with_reducible intro _ | with_reducible apply setSub__may | dsimp only | split

def mayPortEnable : Nat := mayStartTraining ||| mayPortOff ||| mr .FP_CFG_en ||| mr .SP_STAT_attempts
theorem portEnable_may (hm : mayPortEnable ||| mk = mk) (g : Nat) (en : Bool) :
    May mk (portEnable g en) := by
  unfold portEnable
  repeat' first | exact bit_sub rfl hm | (dsimp only [Upd.bit]; exact bit_sub rfl hm) | exact sub_trans rfl hm | with_reducible assumption | with_reducible constructor | with_reducible intro _ | with_reducible apply startTraining_may | with_reducible apply portOff_may | dsimp only | split

def mayApplyPort : Nat := maySetPort ||| mayPortEnable ||| mr .FP_CFG_an_en ||| mr .FP_CFG_mode ||| mr .FP_CFG_rx_inv ||| mr .FP_CFG_tx_inv ||| mr .FP_QUAL_deg_exp ||| mr .FP_QUAL_deg_mant ||| mr .FP_QUAL_qual_exp ||| mr .FP_QUAL_qual_mant ||| mr .FP_QUAL_uc_max ||| mr .FP_QUAL_win_full ||| mr .FP_QUAL_win_short
theorem applyPort_may (hm : mayApplyPort ||| mk = mk) (g : Nat) (d : List Byte) :
    May mk (applyPort g d) := by
  unfold applyPort
  repeat' first | exact bit_sub rfl hm | (dsimp only [Upd.bit]; exact bit_sub rfl hm) | exact sub_trans rfl hm | with_reducible assumption | with_reducible constructor | with_reducible intro _ | with_reducible apply setPort_may | with_reducible apply portEnable_may | dsimp only | split

def mayConfigPort : Nat := maySetPort ||| mayApplyPort
theorem configPort_may (hm : mayConfigPort ||| mk = mk) (g : Nat) (d : List Byte) :
    May mk (configPort g d) := by
  unfold configPort
  repeat' first | exact bit_sub rfl hm | (dsimp only [Upd.bit]; exact bit_sub rfl hm) | exact sub_trans rfl hm | with_reducible assumption | with_reducible constructor | with_reducible intro _ | with_reducible apply setPort_may | with_reducible apply applyPort_may | dsimp only | split

def mayRequal : Nat := mayStartQual
theorem requal_may (hm : mayRequal ||| mk = mk) (g : Nat) :
    May mk (requal g) := by
  unfold requal
  repeat' first | exact bit_sub rfl hm | (dsimp only [Upd.bit]; exact bit_sub rfl hm) | exact sub_trans rfl hm | with_reducible assumption | with_reducible constructor | with_reducible intro _ | with_reducible apply startQual_may | dsimp only | split

def mayTrainingAttemptEndEff : Nat := mayStartQual ||| mayAttemptFailed
theorem trainingAttemptEndEff_may (hm : mayTrainingAttemptEndEff ||| mk = mk) (p : PortIx) (k : SubIx) (cause : Fin 5) (s : State) :
    May mk (trainingAttemptEndEff p k cause s) := by
  unfold trainingAttemptEndEff
  repeat' first | exact bit_sub rfl hm | (dsimp only [Upd.bit]; exact bit_sub rfl hm) | exact sub_trans rfl hm | with_reducible assumption | with_reducible constructor | with_reducible intro _ | with_reducible apply startQual_may | with_reducible apply attemptFailed_may | dsimp only | split

def mayCountWindow : Nat := mp .tick ||| mr .FP_LANE_ERR_bits ||| mr .FP_LANE_RX_bits ||| mr .SP_FECCORR_count ||| mr .SP_FECUNC_count
theorem countWindow_may (hm : mayCountWindow ||| mk = mk) (g k bits : Nat) (lanes corrected : List Nat) (uncorr : Nat) :
    May mk (countWindow g k bits lanes corrected uncorr) := by
  unfold countWindow
  repeat' first | exact bit_sub rfl hm | (dsimp only [Upd.bit]; exact bit_sub rfl hm) | exact sub_trans rfl hm | with_reducible assumption | with_reducible constructor | with_reducible intro _ | dsimp only | split

def mayWindowEnd : Nat := maySetSub ||| maySetSub_ ||| mayAssayFailed ||| mayAttemptFailed ||| mayCountWindow ||| mr .SP_STAT_attempts
theorem windowEnd_may (hm : mayWindowEnd ||| mk = mk) (g k : Nat) (corrected : List Nat) (uncorr : Nat) :
    May mk (windowEnd g k corrected uncorr) := by
  unfold windowEnd
  repeat' first | exact bit_sub rfl hm | (dsimp only [Upd.bit]; exact bit_sub rfl hm) | exact sub_trans rfl hm | with_reducible assumption | with_reducible constructor | with_reducible intro _ | with_reducible apply setSub_may | with_reducible apply setSub__may | with_reducible apply assayFailed_may | with_reducible apply attemptFailed_may | with_reducible apply countWindow_may | dsimp only | split

def mayPortDegrade : Nat := mayHostRing ||| mayReport ||| maySetSub_ ||| mr .FP_LANE_ERR_bits ||| mr .FP_LANE_RX_bits ||| mr .SP_FECUNC_count ||| mr .SP_RXFCS_count
theorem portDegrade_may (hm : mayPortDegrade ||| mk = mk) (g k : Nat) (lanes : List (Nat × Nat)) (uncorr : Nat) :
    May mk (portDegrade g k lanes uncorr) := by
  unfold portDegrade
  repeat' first | exact bit_sub rfl hm | (dsimp only [Upd.bit]; exact bit_sub rfl hm) | exact sub_trans rfl hm | with_reducible assumption | with_reducible constructor | with_reducible intro _ | with_reducible apply hostRing_may | with_reducible apply report_may | with_reducible apply setSub__may | dsimp only | split

def mayNextAssay : Nat := mayErrRecord ||| mp .assayer
theorem nextAssay_may (hm : mayNextAssay ||| mk = mk) (a : Nat) :
    May mk (nextAssay a) := by
  unfold nextAssay
  repeat' first | exact bit_sub rfl hm | (dsimp only [Upd.bit]; exact bit_sub rfl hm) | exact sub_trans rfl hm | with_reducible assumption | with_reducible constructor | with_reducible intro _ | with_reducible apply errRecord_may | dsimp only | split

def mayAssayRecords : Nat := mayErrRecord
theorem assayRecords_may (hm : mayAssayRecords ||| mk = mk) (a verdict : Nat) (r : Report) (us : Nat) :
    May mk (assayRecords a verdict r us) := by
  unfold assayRecords
  repeat' first | exact bit_sub rfl hm | (dsimp only [Upd.bit]; exact bit_sub rfl hm) | exact sub_trans rfl hm | with_reducible assumption | with_reducible constructor | with_reducible intro _ | with_reducible apply errRecord_may | dsimp only | split

def maySubAssayEnd : Nat := mayStartQual ||| mayAssayFailed ||| mayApplyPort ||| mayNextAssay ||| mayAssayRecords
theorem subAssayEnd_may (hm : maySubAssayEnd ||| mk = mk) (g k : Nat) (lasting : Bool) :
    May mk (subAssayEnd g k lasting) := by
  unfold subAssayEnd
  repeat' first | exact bit_sub rfl hm | (dsimp only [Upd.bit]; exact bit_sub rfl hm) | exact sub_trans rfl hm | with_reducible assumption | with_reducible constructor | with_reducible intro _ | with_reducible apply startQual_may | with_reducible apply assayFailed_may | with_reducible apply applyPort_may | with_reducible apply nextAssay_may | with_reducible apply assayRecords_may | dsimp only | split

def mayPortDown : Nat := mayHostRing ||| mayStartTraining ||| mayAssayFailed ||| mayAttemptFailed ||| mp .assayer ||| mp .tick ||| mr .FP_STAT_link_downs
theorem portDown_may (hm : mayPortDown ||| mk = mk) (g k : Nat) (fourth : Bool) :
    May mk (portDown g k fourth) := by
  unfold portDown
  repeat' first | exact bit_sub rfl hm | (dsimp only [Upd.bit]; exact bit_sub rfl hm) | exact sub_trans rfl hm | with_reducible assumption | with_reducible constructor | with_reducible intro _ | with_reducible apply hostRing_may | with_reducible apply startTraining_may | with_reducible apply assayFailed_may | with_reducible apply attemptFailed_may | dsimp only | split

def mayRecalibrationStepEff : Nat := maySetPort
theorem recalibrationStepEff_may (hm : mayRecalibrationStepEff ||| mk = mk) (p : PortIx) (lane : Fin 8) (up : Bool) :
    May mk (recalibrationStepEff p lane up) := by
  unfold recalibrationStepEff
  repeat' first | exact bit_sub rfl hm | (dsimp only [Upd.bit]; exact bit_sub rfl hm) | exact sub_trans rfl hm | with_reducible assumption | with_reducible constructor | with_reducible intro _ | with_reducible apply setPort_may | dsimp only | split

def maySendFrame : Nat := mp .out ||| mr .SP_TXBYTE_count ||| mr .SP_TXFRM_count
theorem sendFrame_may (hm : maySendFrame ||| mk = mk) (g k len : Nat) (m : Msg) :
    May mk (sendFrame g k len m) := by
  unfold sendFrame
  repeat' first | exact bit_sub rfl hm | (dsimp only [Upd.bit]; exact bit_sub rfl hm) | exact sub_trans rfl hm | with_reducible assumption | with_reducible constructor | with_reducible intro _ | dsimp only | split

def mayGratuitousArpEff : Nat := maySendFrame
theorem gratuitousArpEff_may (hm : mayGratuitousArpEff ||| mk = mk) (p : PortIx) (k : SubIx) (s : State) :
    May mk (gratuitousArpEff p k s) := by
  unfold gratuitousArpEff
  repeat' first | exact bit_sub rfl hm | (dsimp only [Upd.bit]; exact bit_sub rfl hm) | exact sub_trans rfl hm | with_reducible assumption | with_reducible constructor | with_reducible intro _ | with_reducible apply sendFrame_may | dsimp only | split

def mayNeighborSolicitationEff : Nat := maySendFrame ||| mp .tick ||| mr .SP_RXBYTE_count ||| mr .SP_RXFRM_count
theorem neighborSolicitationEff_may (hm : mayNeighborSolicitationEff ||| mk = mk) (p : PortIx) (k : SubIx) (target : Nat) (s : State) :
    May mk (neighborSolicitationEff p k target s) := by
  unfold neighborSolicitationEff
  repeat' first | exact bit_sub rfl hm | (dsimp only [Upd.bit]; exact bit_sub rfl hm) | exact sub_trans rfl hm | with_reducible assumption | with_reducible constructor | with_reducible intro _ | with_reducible apply sendFrame_may | dsimp only | split

def mayFpPerfClear : Nat := mr .FP_LANE_ERR_bits ||| mr .FP_LANE_RX_bits ||| mr .SP_FECCORR_count ||| mr .SP_FECUNC_count ||| mr .SP_RXBYTE_count ||| mr .SP_RXDROP_count ||| mr .SP_RXFCS_count ||| mr .SP_RXFRM_count ||| mr .SP_TXBYTE_count ||| mr .SP_TXFRM_count
theorem fpPerfClear_may (hm : mayFpPerfClear ||| mk = mk) (g : Nat) :
    May mk (fpPerfClear g) := by
  unfold fpPerfClear
  refine .seq (.each fun k => .eachMem ?_) (.each fun l => .seq (.set (bit_sub rfl hm)) (.set (bit_sub rfl hm)))
  simp only [List.forall_mem_cons]
  repeat' first | exact .set (bit_sub rfl hm) | exact (List.forall_mem_nil _) | constructor

def mayClampRate : Nat := maySetConn
theorem clampRate_may (hm : mayClampRate ||| mk = mk) (i : Nat) :
    May mk (clampRate i) := by
  unfold clampRate
  repeat' first | exact bit_sub rfl hm | (dsimp only [Upd.bit]; exact bit_sub rfl hm) | exact sub_trans rfl hm | with_reducible assumption | with_reducible constructor | with_reducible intro _ | with_reducible apply setConn_may | dsimp only | split

def mayCountConns : Nat := mr .FAB_STAT_conns
theorem countConns_may (hm : mayCountConns ||| mk = mk) (st : Nat) :
    May mk (countConns st) := by
  unfold countConns
  repeat' first | exact bit_sub rfl hm | (dsimp only [Upd.bit]; exact bit_sub rfl hm) | exact sub_trans rfl hm | with_reducible assumption | with_reducible constructor | with_reducible intro _ | dsimp only | split

def maySendConn : Nat := maySetFab ||| maySendFrame
theorem sendConn_may (hm : maySendConn ||| mk = mk) (i path peer len : Nat) (f : Frame) :
    May mk (sendConn i path peer len f) := by
  unfold sendConn
  repeat' first | exact bit_sub rfl hm | (dsimp only [Upd.bit]; exact bit_sub rfl hm) | exact sub_trans rfl hm | with_reducible assumption | with_reducible constructor | with_reducible intro _ | with_reducible apply setFab_may | with_reducible apply sendFrame_may | dsimp only | split

def maySendControl : Nat := maySendConn ||| mp .tick
theorem sendControl_may (hm : maySendControl ||| mk = mk) (i : Nat) (f : Frame) :
    May mk (sendControl i f) := by
  unfold sendControl
  repeat' first | exact bit_sub rfl hm | (dsimp only [Upd.bit]; exact bit_sub rfl hm) | exact sub_trans rfl hm | with_reducible assumption | with_reducible constructor | with_reducible intro _ | with_reducible apply sendConn_may | dsimp only | split

def mayHwEnded : Nat := mayReport ||| maySyncLost
theorem hwEnded_may (hm : mayHwEnded ||| mk = mk) (h : HwAdd) (st : Nat) :
    May mk (hwEnded h st) := by
  unfold hwEnded
  repeat' first | exact bit_sub rfl hm | (dsimp only [Upd.bit]; exact bit_sub rfl hm) | exact sub_trans rfl hm | with_reducible assumption | with_reducible constructor | with_reducible intro _ | with_reducible apply report_may | with_reducible apply syncLost_may | dsimp only | split

def mayOpProgress : Nat := maySetOp ||| mayHwEnded ||| mp .fabOp
theorem opProgress_may (hm : mayOpProgress ||| mk = mk) (id st : Nat) :
    May mk (opProgress id st) := by
  unfold opProgress
  repeat' first | exact bit_sub rfl hm | (dsimp only [Upd.bit]; exact bit_sub rfl hm) | exact sub_trans rfl hm | with_reducible assumption | with_reducible constructor | with_reducible intro _ | with_reducible apply setOp_may | with_reducible apply hwEnded_may | dsimp only | split

def mayOpEnd : Nat := maySetOp ||| mayOpProgress
theorem opEnd_may (hm : mayOpEnd ||| mk = mk) (id st : Nat) :
    May mk (opEnd id st) := by
  unfold opEnd
  repeat' first | exact bit_sub rfl hm | (dsimp only [Upd.bit]; exact bit_sub rfl hm) | exact sub_trans rfl hm | with_reducible assumption | with_reducible constructor | with_reducible intro _ | with_reducible apply setOp_may | with_reducible apply opProgress_may | dsimp only | split

def mayFreeConn : Nat := mayCountConns ||| mayOpEnd ||| mp .conn
theorem freeConn_may (hm : mayFreeConn ||| mk = mk) (i st : Nat) :
    May mk (freeConn i st) := by
  unfold freeConn
  repeat' first | exact bit_sub rfl hm | (dsimp only [Upd.bit]; exact bit_sub rfl hm) | exact sub_trans rfl hm | with_reducible assumption | with_reducible constructor | with_reducible intro _ | with_reducible apply countConns_may | with_reducible apply opEnd_may | dsimp only | split

def mayDrained? : Nat := maySetJob ||| mayFlaskRing ||| mp .job
theorem drained?_may (hm : mayDrained? ||| mk = mk) (fl ep : Nat) :
    May mk (drained? fl ep) := by
  unfold drained?
  repeat' first | exact bit_sub rfl hm | (dsimp only [Upd.bit]; exact bit_sub rfl hm) | exact sub_trans rfl hm | with_reducible assumption | with_reducible constructor | with_reducible intro _ | with_reducible apply setJob_may | with_reducible apply flaskRing_may | dsimp only | split

def mayConnLost : Nat := mayFlaskRing ||| mayReport ||| mayFreeConn ||| mayDrained? ||| mr .FAB_STAT_conn_lost
theorem connLost_may (hm : mayConnLost ||| mk = mk) (i : Nat) :
    May mk (connLost i) := by
  unfold connLost
  repeat' first | exact bit_sub rfl hm | (dsimp only [Upd.bit]; exact bit_sub rfl hm) | exact sub_trans rfl hm | with_reducible assumption | with_reducible constructor | with_reducible intro _ | with_reducible apply flaskRing_may | with_reducible apply report_may | with_reducible apply freeConn_may | with_reducible apply drained?_may | dsimp only | split

def mayIdleCloseEff : Nat := maySendControl ||| mayFreeConn ||| mayDrained?
theorem idleCloseEff_may (hm : mayIdleCloseEff ||| mk = mk) (cn : ConnIx) (s : State) :
    May mk (idleCloseEff cn s) := by
  unfold idleCloseEff
  repeat' first | exact bit_sub rfl hm | (dsimp only [Upd.bit]; exact bit_sub rfl hm) | exact sub_trans rfl hm | with_reducible assumption | with_reducible constructor | with_reducible intro _ | with_reducible apply sendControl_may | with_reducible apply freeConn_may | with_reducible apply drained?_may | dsimp only | split

def mayOpenConn : Nat := mayCountConns ||| maySendControl ||| mp .conn ||| mp .tick
theorem openConn_may (hm : mayOpenConn ||| mk = mk) (st fl ep : Nat) (k : Option Nat → Eff) (hk : ∀ a, May mk (k a)) :
    May mk (openConn st fl ep k) := by
  unfold openConn
  repeat' first | exact bit_sub rfl hm | (dsimp only [Upd.bit]; exact bit_sub rfl hm) | exact sub_trans rfl hm | with_reducible assumption | with_reducible constructor | with_reducible intro _ | with_reducible apply countConns_may | with_reducible apply sendControl_may | with_reducible apply hk | dsimp only | split

def mayQueuePkts : Nat := maySetConn
theorem queuePkts_may (hm : mayQueuePkts ||| mk = mk) (i cls : Nat) (ps : List Pkt) :
    May mk (queuePkts i cls ps) := by
  unfold queuePkts
  repeat' first | exact bit_sub rfl hm | (dsimp only [Upd.bit]; exact bit_sub rfl hm) | exact sub_trans rfl hm | with_reducible assumption | with_reducible constructor | with_reducible intro _ | with_reducible apply setConn_may | dsimp only | split

def mayCarry : Nat := mayOpEnd ||| mayOpenConn ||| mayQueuePkts
theorem carry_may (hm : mayCarry ||| mk = mk) (st fl ep id cls : Nat) (ps : List Pkt) :
    May mk (carry st fl ep id cls ps) := by
  unfold carry
  repeat' first | exact bit_sub rfl hm | (dsimp only [Upd.bit]; exact bit_sub rfl hm) | exact sub_trans rfl hm | with_reducible assumption | with_reducible constructor | with_reducible intro _ | with_reducible apply opEnd_may | with_reducible apply openConn_may | with_reducible apply queuePkts_may | dsimp only | split

def mayRingSend : Nat := maySetJob ||| mayAddTo ||| mayReadMem ||| mayWriteMem
theorem ringSend_may (hm : mayRingSend ||| mk = mk) (iss : Issuer) (fl ring ep cls : Nat) (d : List Byte) (k : Nat → Eff) (hk : ∀ a, May mk (k a)) :
    May mk (ringSend iss fl ring ep cls d k) := by
  unfold ringSend
  repeat' first | exact bit_sub rfl hm | (dsimp only [Upd.bit]; exact bit_sub rfl hm) | exact sub_trans rfl hm | with_reducible assumption | with_reducible constructor | with_reducible intro _ | with_reducible apply setJob_may | with_reducible apply addTo_may | with_reducible apply readMem_may | with_reducible apply writeMem_may | with_reducible apply hk | dsimp only | split

def mayLocalOp : Nat := mayAddTo ||| mayReadMem ||| mayWriteMem ||| mayOpEnd ||| mayRingSend
theorem localOp_may (hm : mayLocalOp ||| mk = mk) (iss : Issuer) (fl id : Nat) (x : Cmd) :
    May mk (localOp iss fl id x) := by
  unfold localOp
  repeat' first | exact bit_sub rfl hm | (dsimp only [Upd.bit]; exact bit_sub rfl hm) | exact sub_trans rfl hm | with_reducible assumption | with_reducible constructor | with_reducible intro _ | with_reducible apply addTo_may | with_reducible apply readMem_may | with_reducible apply writeMem_may | with_reducible apply opEnd_may | with_reducible apply ringSend_may | dsimp only | split

def mayTakeCommand : Nat := maySetOp ||| maySetMisc ||| mayReadMem ||| mayWriteMem ||| mayOpEnd ||| mayCarry ||| mayLocalOp ||| mp .cring ||| mp .fabOp
theorem takeCommand_may (hm : mayTakeCommand ||| mk = mk) (c ring kind : Nat) :
    May mk (takeCommand c ring kind) := by
  unfold takeCommand
  repeat' first | exact bit_sub rfl hm | (dsimp only [Upd.bit]; exact bit_sub rfl hm) | exact sub_trans rfl hm | with_reducible assumption | with_reducible constructor | with_reducible intro _ | with_reducible apply setOp_may | with_reducible apply setMisc_may | with_reducible apply readMem_may | with_reducible apply writeMem_may | with_reducible apply opEnd_may | with_reducible apply carry_may | with_reducible apply localOp_may | dsimp only | split

def mayOpComplete : Nat := mayCtAdd ||| mayFwWrite ||| mp .fabOp
theorem opComplete_may (hm : mayOpComplete ||| mk = mk) (c ring : Nat) :
    May mk (opComplete c ring) := by
  unfold opComplete
  repeat' first | exact bit_sub rfl hm | (dsimp only [Upd.bit]; exact bit_sub rfl hm) | exact sub_trans rfl hm | with_reducible assumption | with_reducible constructor | with_reducible intro _ | with_reducible apply ctAdd_may | with_reducible apply fwWrite_may | dsimp only | split

def mayFabCharge : Nat := mp .bucket ||| mr .REG_EGB_fab
theorem fabCharge_may (hm : mayFabCharge ||| mk = mk) (st fl len : Nat) :
    May mk (fabCharge st fl len) := by
  unfold fabCharge
  repeat' first | exact bit_sub rfl hm | (dsimp only [Upd.bit]; exact bit_sub rfl hm) | exact sub_trans rfl hm | with_reducible assumption | with_reducible constructor | with_reducible intro _ | dsimp only | split

def mayRekeyIfDue : Nat := maySetConn ||| maySendControl
theorem rekeyIfDue_may (hm : mayRekeyIfDue ||| mk = mk) (i : Nat) :
    May mk (rekeyIfDue i) := by
  unfold rekeyIfDue
  repeat' first | exact bit_sub rfl hm | (dsimp only [Upd.bit]; exact bit_sub rfl hm) | exact sub_trans rfl hm | with_reducible assumption | with_reducible constructor | with_reducible intro _ | with_reducible apply setConn_may | with_reducible apply sendControl_may | dsimp only | split

def mayTransmit : Nat := maySendConn ||| mayFabCharge ||| mayRekeyIfDue ||| mr .FAB_RETX_count
theorem transmit_may (hm : mayTransmit ||| mk = mk) (i : Nat) (p : Pkt) (retx : Bool) :
    May mk (transmit i p retx) := by
  unfold transmit
  repeat' first | exact bit_sub rfl hm | (dsimp only [Upd.bit]; exact bit_sub rfl hm) | exact sub_trans rfl hm | with_reducible assumption | with_reducible constructor | with_reducible intro _ | with_reducible apply sendConn_may | with_reducible apply fabCharge_may | with_reducible apply rekeyIfDue_may | dsimp only | split

def maySendNext : Nat := maySetConn ||| mayTransmit
theorem sendNext_may (hm : maySendNext ||| mk = mk) (i : Nat) :
    May mk (sendNext i) := by
  unfold sendNext
  repeat' first | exact bit_sub rfl hm | (dsimp only [Upd.bit]; exact bit_sub rfl hm) | exact sub_trans rfl hm | with_reducible assumption | with_reducible constructor | with_reducible intro _ | with_reducible apply setConn_may | with_reducible apply transmit_may | dsimp only | split

def mayTakeHwAdds : Nat := maySetMisc ||| mayOpEnd ||| mayCarry ||| mp .fabOp ||| mp .hwAdds
theorem takeHwAdds_may (hm : mayTakeHwAdds ||| mk = mk) (st : Nat) :
    May mk (takeHwAdds st) := by
  unfold takeHwAdds
  repeat' first | exact bit_sub rfl hm | (dsimp only [Upd.bit]; exact bit_sub rfl hm) | exact sub_trans rfl hm | with_reducible assumption | with_reducible constructor | with_reducible intro _ | with_reducible apply setMisc_may | with_reducible apply opEnd_may | with_reducible apply carry_may | dsimp only | split

def mayPacedSend : Nat := maySetFab ||| mayRefill ||| maySendNext ||| mayTakeHwAdds ||| mp .tick ||| mr .REG_EGW_cycles
theorem pacedSend_may (hm : mayPacedSend ||| mk = mk) (st : Nat) :
    May mk (pacedSend st) := by
  unfold pacedSend
  repeat' first | exact bit_sub rfl hm | (dsimp only [Upd.bit]; exact bit_sub rfl hm) | exact sub_trans rfl hm | with_reducible assumption | with_reducible constructor | with_reducible intro _ | with_reducible apply setFab_may | with_reducible apply refill_may | with_reducible apply sendNext_may | with_reducible apply takeHwAdds_may | dsimp only | split

def mayResend : Nat := maySetConn ||| mayTransmit
theorem resend_may (hm : mayResend ||| mk = mk) (i : Nat) (p : Pkt) :
    May mk (resend i p) := by
  unfold resend
  repeat' first | exact bit_sub rfl hm | (dsimp only [Upd.bit]; exact bit_sub rfl hm) | exact sub_trans rfl hm | with_reducible assumption | with_reducible constructor | with_reducible intro _ | with_reducible apply setConn_may | with_reducible apply transmit_may | dsimp only | split

def mayPacketLoss : Nat := maySetConn ||| mayConnLost ||| mayResend
theorem packetLoss_may (hm : mayPacketLoss ||| mk = mk) (i psn : Nat) (timer : Bool) :
    May mk (packetLoss i psn timer) := by
  unfold packetLoss
  repeat' first | exact bit_sub rfl hm | (dsimp only [Upd.bit]; exact bit_sub rfl hm) | exact sub_trans rfl hm | with_reducible assumption | with_reducible constructor | with_reducible intro _ | with_reducible apply setConn_may | with_reducible apply connLost_may | with_reducible apply resend_may | dsimp only | split

def mayPathsLost : Nat := mayClampRate ||| mayResend
theorem pathsLost_may (hm : mayPathsLost ||| mk = mk) (g k : Nat) (before : State) :
    May mk (pathsLost g k before) := by
  unfold pathsLost
  repeat' first | exact bit_sub rfl hm | (dsimp only [Upd.bit]; exact bit_sub rfl hm) | exact sub_trans rfl hm | with_reducible assumption | with_reducible constructor | with_reducible intro _ | with_reducible apply clampRate_may | with_reducible apply resend_may | dsimp only | split

def mayPortDownEff : Nat := mayPortDown ||| mayPathsLost
theorem portDownEff_may (hm : mayPortDownEff ||| mk = mk) (p : PortIx) (k : SubIx) (fourth : Bool) (s : State) :
    May mk (portDownEff p k fourth s) := by
  unfold portDownEff
  repeat' first | exact bit_sub rfl hm | (dsimp only [Upd.bit]; exact bit_sub rfl hm) | exact sub_trans rfl hm | with_reducible assumption | with_reducible constructor | with_reducible intro _ | with_reducible apply portDown_may | with_reducible apply pathsLost_may | dsimp only | split

def mayFabEnable : Nat := mayConnLost ||| mr .FAB_CFG_en
theorem fabEnable_may (hm : mayFabEnable ||| mk = mk) (st : Nat) (en : Bool) :
    May mk (fabEnable st en) := by
  unfold fabEnable
  repeat' first | exact bit_sub rfl hm | (dsimp only [Upd.bit]; exact bit_sub rfl hm) | exact sub_trans rfl hm | with_reducible assumption | with_reducible constructor | with_reducible intro _ | with_reducible apply connLost_may | dsimp only | split

def mayFabPerfClear : Nat := mr .FAB_AUTHFAIL_count ||| mr .FAB_CE_count ||| mr .FAB_RETX_count ||| mr .FAB_STRANGER_count
theorem fabPerfClear_may (hm : mayFabPerfClear ||| mk = mk) (st : Nat) :
    May mk (fabPerfClear st) := by
  refine .eachMem ?_
  simp only [List.forall_mem_cons]
  repeat' first | exact .set (bit_sub rfl hm) | exact (List.forall_mem_nil _) | constructor

def mayAuthFail : Nat := maySetFab ||| mayReport ||| mp .tick ||| mr .FAB_AUTHFAIL_count
theorem authFail_may (hm : mayAuthFail ||| mk = mk) (st fl ep : Nat) :
    May mk (authFail st fl ep) := by
  unfold authFail
  repeat' first | exact bit_sub rfl hm | (dsimp only [Upd.bit]; exact bit_sub rfl hm) | exact sub_trans rfl hm | with_reducible assumption | with_reducible constructor | with_reducible intro _ | with_reducible apply setFab_may | with_reducible apply report_may | dsimp only | split

def mayStranger : Nat := mr .FAB_STRANGER_count
theorem stranger_may (hm : mayStranger ||| mk = mk) (st : Nat) :
    May mk (stranger st) := by
  unfold stranger
  repeat' first | exact bit_sub rfl hm | (dsimp only [Upd.bit]; exact bit_sub rfl hm) | exact sub_trans rfl hm | with_reducible assumption | with_reducible constructor | with_reducible intro _ | dsimp only | split

def mayBroditIn : Nat := maySetFab ||| mayAuthFail ||| mayStranger
theorem broditIn_may (hm : mayBroditIn ||| mk = mk) (g k : Nat) (fr : Frame) :
    May mk (broditIn g k fr) := by
  unfold broditIn
  repeat' first | exact bit_sub rfl hm | (dsimp only [Upd.bit]; exact bit_sub rfl hm) | exact sub_trans rfl hm | with_reducible assumption | with_reducible constructor | with_reducible intro _ | with_reducible apply setFab_may | with_reducible apply authFail_may | with_reducible apply stranger_may | dsimp only | split

def mayFrameReceive : Nat := maySetPort ||| mayBroditIn ||| mr .SP_RXBYTE_count ||| mr .SP_RXDROP_count ||| mr .SP_RXFCS_count ||| mr .SP_RXFRM_count
theorem frameReceive_may (hm : mayFrameReceive ||| mk = mk) (g k : Nat) (fr : Frame) :
    May mk (frameReceive g k fr) := by
  unfold frameReceive
  repeat' first | exact bit_sub rfl hm | (dsimp only [Upd.bit]; exact bit_sub rfl hm) | exact sub_trans rfl hm | with_reducible assumption | with_reducible constructor | with_reducible intro _ | with_reducible apply setPort_may | with_reducible apply broditIn_may | dsimp only | split

def mayEcho : Nat := maySetConn ||| mp .tick
theorem echo_may (hm : mayEcho ||| mk = mk) (i : Nat) :
    May mk (echo i) := by
  unfold echo
  repeat' first | exact bit_sub rfl hm | (dsimp only [Upd.bit]; exact bit_sub rfl hm) | exact sub_trans rfl hm | with_reducible assumption | with_reducible constructor | with_reducible intro _ | with_reducible apply setConn_may | dsimp only | split

def mayTakeAck : Nat := maySetConn ||| mayOpProgress ||| mayEcho
theorem takeAck_may (hm : mayTakeAck ||| mk = mk) (i ack : Nat) (sack : List Nat) (stats : List (Nat × Nat)) (ece : Nat) :
    May mk (takeAck i ack sack stats ece) := by
  unfold takeAck
  repeat' first | exact bit_sub rfl hm | (dsimp only [Upd.bit]; exact bit_sub rfl hm) | exact sub_trans rfl hm | with_reducible assumption | with_reducible constructor | with_reducible intro _ | with_reducible apply setConn_may | with_reducible apply opProgress_may | with_reducible apply echo_may | dsimp only | split

def mayCongestionTick : Nat := maySetConn
theorem congestionTick_may (hm : mayCongestionTick ||| mk = mk) (i : Nat) :
    May mk (congestionTick i) := by
  unfold congestionTick
  repeat' first | exact bit_sub rfl hm | (dsimp only [Upd.bit]; exact bit_sub rfl hm) | exact sub_trans rfl hm | with_reducible assumption | with_reducible constructor | with_reducible intro _ | with_reducible apply setConn_may | dsimp only | split

def mayAckSend : Nat := maySetConn ||| maySendControl
theorem ackSend_may (hm : mayAckSend ||| mk = mk) (i : Nat) :
    May mk (ackSend i) := by
  unfold ackSend
  repeat' first | exact bit_sub rfl hm | (dsimp only [Upd.bit]; exact bit_sub rfl hm) | exact sub_trans rfl hm | with_reducible assumption | with_reducible constructor | with_reducible intro _ | with_reducible apply setConn_may | with_reducible apply sendControl_may | dsimp only | split

def mayRxTake : Nat := maySetFab
theorem rxTake_may (hm : mayRxTake ||| mk = mk) (st : Nat) (p : State → RxItem → Bool) (k : RxItem → Eff) (hk : ∀ a, May mk (k a)) :
    May mk (rxTake st p k) := by
  unfold rxTake
  repeat' first | exact bit_sub rfl hm | (dsimp only [Upd.bit]; exact bit_sub rfl hm) | exact sub_trans rfl hm | with_reducible assumption | with_reducible constructor | with_reducible intro _ | with_reducible apply setFab_may | with_reducible apply hk | dsimp only | split

def mayApplyRadds : Nat := maySetConn ||| mayAddTo
theorem applyRadds_may (hm : mayApplyRadds ||| mk = mk) (i : Nat) :
    May mk (applyRadds i) := by
  unfold applyRadds
  repeat' first | exact bit_sub rfl hm | (dsimp only [Upd.bit]; exact bit_sub rfl hm) | exact sub_trans rfl hm | with_reducible assumption | with_reducible constructor | with_reducible intro _ | with_reducible apply setConn_may | with_reducible apply addTo_may | dsimp only | split

def mayPerformed : Nat := maySetConn ||| mayApplyRadds
theorem performed_may (hm : mayPerformed ||| mk = mk) (i : Nat) (fr : Frame) (st : Nat) :
    May mk (performed i fr st) := by
  unfold performed
  repeat' first | exact bit_sub rfl hm | (dsimp only [Upd.bit]; exact bit_sub rfl hm) | exact sub_trans rfl hm | with_reducible assumption | with_reducible constructor | with_reducible intro _ | with_reducible apply setConn_may | with_reducible apply applyRadds_may | dsimp only | split

def mayRxData : Nat := maySetConn ||| mayTakeAck ||| mayRxTake ||| mr .FAB_CE_count
theorem rxData_may (hm : mayRxData ||| mk = mk) (st code : Nat) (work : Nat → RxItem → Eff) (hwork : ∀ a b, May mk (work a b)) :
    May mk (rxData st code work) := by
  unfold rxData
  repeat' first | exact bit_sub rfl hm | (dsimp only [Upd.bit]; exact bit_sub rfl hm) | exact sub_trans rfl hm | with_reducible assumption | with_reducible constructor | with_reducible intro _ | with_reducible apply setConn_may | with_reducible apply takeAck_may | with_reducible apply rxTake_may | with_reducible apply hwork | dsimp only | split

def mayRxPutEff : Nat := mayWriteMem ||| mayPerformed ||| mayRxData
theorem rxPutEff_may (hm : mayRxPutEff ||| mk = mk) (st : StackIx) :
    May mk (rxPutEff st) := by
  unfold rxPutEff
  repeat' first | exact bit_sub rfl hm | (dsimp only [Upd.bit]; exact bit_sub rfl hm) | exact sub_trans rfl hm | with_reducible assumption | with_reducible constructor | with_reducible intro _ | with_reducible apply writeMem_may | with_reducible apply performed_may | with_reducible apply rxData_may | dsimp only | split

def mayRxGet : Nat := mayReadMem ||| mayQueuePkts ||| mayPerformed
theorem rxGet_may (hm : mayRxGet ||| mk = mk) (i : Nat) (x : RxItem) :
    May mk (rxGet i x) := by
  unfold rxGet
  repeat' first | exact bit_sub rfl hm | (dsimp only [Upd.bit]; exact bit_sub rfl hm) | exact sub_trans rfl hm | with_reducible assumption | with_reducible constructor | with_reducible intro _ | with_reducible apply readMem_may | with_reducible apply queuePkts_may | with_reducible apply performed_may | dsimp only | split

def mayRxGetEff : Nat := mayApplyUpsets ||| mayRxData ||| mayRxGet
theorem rxGetEff_may (hm : mayRxGetEff ||| mk = mk) (st : StackIx) (ups : List Upset) (s : State) :
    May mk (rxGetEff st ups s) := by
  unfold rxGetEff
  repeat' first | exact bit_sub rfl hm | (dsimp only [Upd.bit]; exact bit_sub rfl hm) | exact sub_trans rfl hm | with_reducible assumption | with_reducible constructor | with_reducible intro _ | with_reducible apply applyUpsets_may | with_reducible apply rxData_may | with_reducible apply rxGet_may | dsimp only | split

def mayRxAddEff : Nat := mayCtAdd ||| mayAddTo ||| mayPerformed ||| mayRxData
theorem rxAddEff_may (hm : mayRxAddEff ||| mk = mk) (st : StackIx) :
    May mk (rxAddEff st) := by
  unfold rxAddEff
  repeat' first | exact bit_sub rfl hm | (dsimp only [Upd.bit]; exact bit_sub rfl hm) | exact sub_trans rfl hm | with_reducible assumption | with_reducible constructor | with_reducible intro _ | with_reducible apply ctAdd_may | with_reducible apply addTo_may | with_reducible apply performed_may | with_reducible apply rxData_may | dsimp only | split

def mayRxSendEff : Nat := mayRingSend ||| mayPerformed ||| mayRxData
theorem rxSendEff_may (hm : mayRxSendEff ||| mk = mk) (st : StackIx) :
    May mk (rxSendEff st) := by
  unfold rxSendEff
  repeat' first | exact bit_sub rfl hm | (dsimp only [Upd.bit]; exact bit_sub rfl hm) | exact sub_trans rfl hm | with_reducible assumption | with_reducible constructor | with_reducible intro _ | with_reducible apply ringSend_may | with_reducible apply performed_may | with_reducible apply rxData_may | dsimp only | split

def mayRxGetr : Nat := maySetConn ||| mayWriteMem ||| mayOpProgress ||| mayPerformed
theorem rxGetr_may (hm : mayRxGetr ||| mk = mk) (i : Nat) (x : RxItem) :
    May mk (rxGetr i x) := by
  unfold rxGetr
  repeat' first | exact bit_sub rfl hm | (dsimp only [Upd.bit]; exact bit_sub rfl hm) | exact sub_trans rfl hm | with_reducible assumption | with_reducible constructor | with_reducible intro _ | with_reducible apply setConn_may | with_reducible apply writeMem_may | with_reducible apply opProgress_may | with_reducible apply performed_may | dsimp only | split

def mayAckPktEff : Nat := mayTakeAck ||| mayRxTake
theorem ackPktEff_may (hm : mayAckPktEff ||| mk = mk) (st : StackIx) :
    May mk (ackPktEff st) := by
  unfold ackPktEff
  repeat' first | exact bit_sub rfl hm | (dsimp only [Upd.bit]; exact bit_sub rfl hm) | exact sub_trans rfl hm | with_reducible assumption | with_reducible constructor | with_reducible intro _ | with_reducible apply takeAck_may | with_reducible apply rxTake_may | dsimp only | split

def mayRxType : Nat := mayRxTake
theorem rxType_may (hm : mayRxType ||| mk = mk) (st t : Nat) (k : RxItem → Eff) (hk : ∀ a, May mk (k a)) :
    May mk (rxType st t k) := by
  unfold rxType
  repeat' first | exact bit_sub rfl hm | (dsimp only [Upd.bit]; exact bit_sub rfl hm) | exact sub_trans rfl hm | with_reducible assumption | with_reducible constructor | with_reducible intro _ | with_reducible apply rxTake_may | with_reducible apply hk | dsimp only | split

def mayRefuse : Nat := maySendFrame ||| mp .tick
theorem refuse_may (hm : mayRefuse ||| mk = mk) (x : RxItem) (status : Nat) :
    May mk (refuse x status) := by
  unfold refuse
  repeat' first | exact bit_sub rfl hm | (dsimp only [Upd.bit]; exact bit_sub rfl hm) | exact sub_trans rfl hm | with_reducible assumption | with_reducible constructor | with_reducible intro _ | with_reducible apply sendFrame_may | dsimp only | split

def mayInitAck : Nat := maySendControl
theorem initAck_may (hm : mayInitAck ||| mk = mk) (i : Nat) :
    May mk (initAck i) := by
  unfold initAck
  repeat' first | exact bit_sub rfl hm | (dsimp only [Upd.bit]; exact bit_sub rfl hm) | exact sub_trans rfl hm | with_reducible assumption | with_reducible constructor | with_reducible intro _ | with_reducible apply sendControl_may | dsimp only | split

def maySignReport : Nat := maySetSec
theorem signReport_may (hm : maySignReport ||| mk = mk) (fl : Nat) :
    May mk (signReport fl) := by
  unfold signReport
  repeat' first | exact bit_sub rfl hm | (dsimp only [Upd.bit]; exact bit_sub rfl hm) | exact sub_trans rfl hm | with_reducible assumption | with_reducible constructor | with_reducible intro _ | with_reducible apply setSec_may | dsimp only | split

def mayEnterV1 : Nat := maySetConn ||| mayOpEnd ||| maySetOp
theorem enterV1_may (hm : mayEnterV1 ||| mk = mk) (i : Nat) :
    May mk (enterV1 i) := by
  unfold enterV1
  repeat' first | exact bit_sub rfl hm | (dsimp only [Upd.bit]; exact bit_sub rfl hm) | exact sub_trans rfl hm | with_reducible assumption | with_reducible constructor | with_reducible intro _ | with_reducible apply setConn_may | with_reducible apply opEnd_may | with_reducible apply setOp_may | dsimp only | split

def mayRespond : Nat := mayEnterV1 ||| mayCountConns ||| mayInitAck ||| maySignReport ||| mp .conn ||| mp .tick
theorem respond_may (hm : mayRespond ||| mk = mk) (st i ver : Nat) (x : RxItem) (queue : List Pkt) :
    May mk (respond st i ver x queue) := by
  unfold respond
  repeat' first | exact bit_sub rfl hm | (dsimp only [Upd.bit]; exact bit_sub rfl hm) | exact sub_trans rfl hm | with_reducible assumption | with_reducible constructor | with_reducible intro _ | with_reducible apply enterV1_may | with_reducible apply countConns_may | with_reducible apply initAck_may | with_reducible apply signReport_may | dsimp only | split

def mayInitPkt : Nat := mayConnLost ||| mayAuthFail ||| mayRefuse ||| mayInitAck ||| mayRespond
theorem initPkt_may (hm : mayInitPkt ||| mk = mk) (st : Nat) (x : RxItem) :
    May mk (initPkt st x) := by
  unfold initPkt
  repeat' first | exact bit_sub rfl hm | (dsimp only [Upd.bit]; exact bit_sub rfl hm) | exact sub_trans rfl hm | with_reducible assumption | with_reducible constructor | with_reducible intro _ | with_reducible apply connLost_may | with_reducible apply authFail_may | with_reducible apply refuse_may | with_reducible apply initAck_may | with_reducible apply respond_may | dsimp only | split

def mayInitAckPkt : Nat := mayEnterV1 ||| maySetConn ||| mayClampRate ||| maySendControl ||| mayOpEnd ||| mayAuthFail ||| maySignReport
theorem initAckPkt_may (hm : mayInitAckPkt ||| mk = mk) (i : Nat) (x : RxItem) :
    May mk (initAckPkt i x) := by
  unfold initAckPkt
  repeat' first | exact bit_sub rfl hm | (dsimp only [Upd.bit]; exact bit_sub rfl hm) | exact sub_trans rfl hm | with_reducible assumption | with_reducible constructor | with_reducible intro _ | with_reducible apply enterV1_may | with_reducible apply setConn_may | with_reducible apply clampRate_may | with_reducible apply sendControl_may | with_reducible apply opEnd_may | with_reducible apply authFail_may | with_reducible apply signReport_may | dsimp only | split

def mayConfirmPktEff : Nat := maySetConn ||| mayClampRate ||| mayAuthFail ||| mayRxType
theorem confirmPktEff_may (hm : mayConfirmPktEff ||| mk = mk) (st : StackIx) :
    May mk (confirmPktEff st) := by
  unfold confirmPktEff
  repeat' first | exact bit_sub rfl hm | (dsimp only [Upd.bit]; exact bit_sub rfl hm) | exact sub_trans rfl hm | with_reducible assumption | with_reducible constructor | with_reducible intro _ | with_reducible apply setConn_may | with_reducible apply clampRate_may | with_reducible apply authFail_may | with_reducible apply rxType_may | dsimp only | split

def mayRefusePktEff : Nat := mayFreeConn ||| mayDrained? ||| mayRxType
theorem refusePktEff_may (hm : mayRefusePktEff ||| mk = mk) (st : StackIx) :
    May mk (refusePktEff st) := by
  unfold refusePktEff
  repeat' first | exact bit_sub rfl hm | (dsimp only [Upd.bit]; exact bit_sub rfl hm) | exact sub_trans rfl hm | with_reducible assumption | with_reducible constructor | with_reducible intro _ | with_reducible apply freeConn_may | with_reducible apply drained?_may | with_reducible apply rxType_may | dsimp only | split

def mayClosePktEff : Nat := mayFreeConn ||| mayDrained? ||| mayRxType
theorem closePktEff_may (hm : mayClosePktEff ||| mk = mk) (st : StackIx) :
    May mk (closePktEff st) := by
  unfold closePktEff
  repeat' first | exact bit_sub rfl hm | (dsimp only [Upd.bit]; exact bit_sub rfl hm) | exact sub_trans rfl hm | with_reducible assumption | with_reducible constructor | with_reducible intro _ | with_reducible apply freeConn_may | with_reducible apply drained?_may | with_reducible apply rxType_may | dsimp only | split

def mayRekeyPktEff : Nat := maySetConn ||| mayRxType
theorem rekeyPktEff_may (hm : mayRekeyPktEff ||| mk = mk) (st : StackIx) :
    May mk (rekeyPktEff st) := by
  unfold rekeyPktEff
  repeat' first | exact bit_sub rfl hm | (dsimp only [Upd.bit]; exact bit_sub rfl hm) | exact sub_trans rfl hm | with_reducible assumption | with_reducible constructor | with_reducible intro _ | with_reducible apply setConn_may | with_reducible apply rxType_may | dsimp only | split

def mayInitResendEff : Nat := maySetConn ||| maySendControl
theorem initResendEff_may (hm : mayInitResendEff ||| mk = mk) (cn : ConnIx) (s : State) :
    May mk (initResendEff cn s) := by
  unfold initResendEff
  repeat' first | exact bit_sub rfl hm | (dsimp only [Upd.bit]; exact bit_sub rfl hm) | exact sub_trans rfl hm | with_reducible assumption | with_reducible constructor | with_reducible intro _ | with_reducible apply setConn_may | with_reducible apply sendControl_may | dsimp only | split

def maySetupTimeoutEff : Nat := mayFreeConn ||| mayDrained?
theorem setupTimeoutEff_may (hm : maySetupTimeoutEff ||| mk = mk) (cn : ConnIx) (s : State) :
    May mk (setupTimeoutEff cn s) := by
  unfold setupTimeoutEff
  repeat' first | exact bit_sub rfl hm | (dsimp only [Upd.bit]; exact bit_sub rfl hm) | exact sub_trans rfl hm | with_reducible assumption | with_reducible constructor | with_reducible intro _ | with_reducible apply freeConn_may | with_reducible apply drained?_may | dsimp only | split

def mayRemovePeer : Nat := maySetJob ||| maySetConn ||| mayFreeConn ||| mayDrained?
theorem removePeer_may (hm : mayRemovePeer ||| mk = mk) (fl ep : Nat) :
    May mk (removePeer fl ep) := by
  unfold removePeer
  repeat' first | exact bit_sub rfl hm | (dsimp only [Upd.bit]; exact bit_sub rfl hm) | exact sub_trans rfl hm | with_reducible assumption | with_reducible constructor | with_reducible intro _ | with_reducible apply setJob_may | with_reducible apply setConn_may | with_reducible apply freeConn_may | with_reducible apply drained?_may | dsimp only | split

def mayDrainWindowEndEff : Nat := maySendControl ||| mayFreeConn ||| mayDrained?
theorem drainWindowEndEff_may (hm : mayDrainWindowEndEff ||| mk = mk) (fl : FlaskIx) (ep : Fin 262144) (s : State) :
    May mk (drainWindowEndEff fl ep s) := by
  unfold drainWindowEndEff
  repeat' first | exact bit_sub rfl hm | (dsimp only [Upd.bit]; exact bit_sub rfl hm) | exact sub_trans rfl hm | with_reducible assumption | with_reducible constructor | with_reducible intro _ | with_reducible apply sendControl_may | with_reducible apply freeConn_may | with_reducible apply drained?_may | dsimp only | split

def mayDropJobs : Nat := mp .conn ||| mp .job ||| mp .members
theorem dropJobs_may (hm : mayDropJobs ||| mk = mk) :
    May mk dropJobs := by
  unfold dropJobs
  repeat' first | exact bit_sub rfl hm | (dsimp only [Upd.bit]; exact bit_sub rfl hm) | exact sub_trans rfl hm | with_reducible assumption | with_reducible constructor | with_reducible intro _ | dsimp only | split

def maySetEntry : Nat := mr .NOC_ROUTE_iod ||| mr .NOC_ROUTE_stack
theorem setEntry_may (hm : maySetEntry ||| mk = mk) (st t code : Nat) :
    May mk (setEntry st t code) := by
  unfold setEntry
  repeat' first | exact bit_sub rfl hm | (dsimp only [Upd.bit]; exact bit_sub rfl hm) | exact sub_trans rfl hm | with_reducible assumption | with_reducible constructor | with_reducible intro _ | dsimp only | split

def mayReroute : Nat := maySetStack ||| maySetEntry ||| mp .tick ||| mr .NOC_STAT_draining ||| mr .NOC_STAT_failover ||| mr .NOC_STAT_replays
theorem reroute_may (hm : mayReroute ||| mk = mk) (st k : Nat) (peerLost : Bool) :
    May mk (reroute st k peerLost) := by
  unfold reroute
  repeat' first | exact bit_sub rfl hm | (dsimp only [Upd.bit]; exact bit_sub rfl hm) | exact sub_trans rfl hm | with_reducible assumption | with_reducible constructor | with_reducible intro _ | with_reducible apply setStack_may | with_reducible apply setEntry_may | dsimp only | split

def mayDropLink : Nat := mr .NOC_LINK_rate ||| mr .NOC_LINK_up
theorem dropLink_may (hm : mayDropLink ||| mk = mk) (st k : Nat) :
    May mk (dropLink st k) := by
  unfold dropLink
  repeat' first | exact bit_sub rfl hm | (dsimp only [Upd.bit]; exact bit_sub rfl hm) | exact sub_trans rfl hm | with_reducible assumption | with_reducible constructor | with_reducible intro _ | dsimp only | split

def mayLinkFalls : Nat := mayDoorbell ||| mayHostRing ||| mayReroute ||| mayDropLink
theorem linkFalls_may (hm : mayLinkFalls ||| mk = mk) (st k : Nat) (peerLost : Bool) :
    May mk (linkFalls st k peerLost) := by
  unfold linkFalls
  repeat' first | exact bit_sub rfl hm | (dsimp only [Upd.bit]; exact bit_sub rfl hm) | exact sub_trans rfl hm | with_reducible assumption | with_reducible constructor | with_reducible intro _ | with_reducible apply doorbell_may | with_reducible apply hostRing_may | with_reducible apply reroute_may | with_reducible apply dropLink_may | dsimp only | split

def mayD2dTimeoutEff : Nat := mayReport ||| mr .NOC_STAT_timeouts
theorem d2dTimeoutEff_may (hm : mayD2dTimeoutEff ||| mk = mk) (st : StackIx) (dest : Fin 13) :
    May mk (d2dTimeoutEff st dest) := by
  unfold d2dTimeoutEff
  repeat' first | exact bit_sub rfl hm | (dsimp only [Upd.bit]; exact bit_sub rfl hm) | exact sub_trans rfl hm | with_reducible assumption | with_reducible constructor | with_reducible intro _ | with_reducible apply report_may | dsimp only | split

def mayCountRetries : Nat := mp .tick ||| mr .NOC_LINK_crc ||| mr .NOC_LINK_retries
theorem countRetries_may (hm : mayCountRetries ||| mk = mk) (st k : Nat) :
    May mk (countRetries st k) := by
  unfold countRetries
  repeat' first | exact bit_sub rfl hm | (dsimp only [Upd.bit]; exact bit_sub rfl hm) | exact sub_trans rfl hm | with_reducible assumption | with_reducible constructor | with_reducible intro _ | dsimp only | split

def mayD2dLinkEff : Nat := mayReport ||| mayLinkFalls ||| mayCountRetries ||| mr .NOC_LINK_assay
theorem d2dLinkEff_may (hm : mayD2dLinkEff ||| mk = mk) (st : StackIx) (k : Fin 3) (s : State) :
    May mk (d2dLinkEff st k s) := by
  unfold d2dLinkEff
  repeat' first | exact bit_sub rfl hm | (dsimp only [Upd.bit]; exact bit_sub rfl hm) | exact sub_trans rfl hm | with_reducible assumption | with_reducible constructor | with_reducible intro _ | with_reducible apply report_may | with_reducible apply linkFalls_may | with_reducible apply countRetries_may | dsimp only | split

def mayApplyRoutes : Nat := maySetStack ||| mr .NOC_STAT_bad_route ||| mr .NOC_STAT_draining
theorem applyRoutes_may (hm : mayApplyRoutes ||| mk = mk) (st : Nat) :
    May mk (applyRoutes st) := by
  unfold applyRoutes
  repeat' first | exact bit_sub rfl hm | (dsimp only [Upd.bit]; exact bit_sub rfl hm) | exact sub_trans rfl hm | with_reducible assumption | with_reducible constructor | with_reducible intro _ | with_reducible apply setStack_may | dsimp only | split

def maySwitchRoute : Nat := maySetStack ||| maySetEntry ||| mr .NOC_STAT_draining
theorem switchRoute_may (hm : maySwitchRoute ||| mk = mk) (st t : Nat) :
    May mk (switchRoute st t) := by
  unfold switchRoute
  repeat' first | exact bit_sub rfl hm | (dsimp only [Upd.bit]; exact bit_sub rfl hm) | exact sub_trans rfl hm | with_reducible assumption | with_reducible constructor | with_reducible intro _ | with_reducible apply setStack_may | with_reducible apply setEntry_may | dsimp only | split

def mayRestoreRoutes : Nat := maySetStack ||| maySetEntry ||| mr .NOC_STAT_draining
theorem restoreRoutes_may (hm : mayRestoreRoutes ||| mk = mk) (st : Nat) :
    May mk (restoreRoutes st) := by
  unfold restoreRoutes
  repeat' first | exact bit_sub rfl hm | (dsimp only [Upd.bit]; exact bit_sub rfl hm) | exact sub_trans rfl hm | with_reducible assumption | with_reducible constructor | with_reducible intro _ | with_reducible apply setStack_may | with_reducible apply setEntry_may | dsimp only | split

def mayTrainLink : Nat := mr .NOC_LINK_good_mods ||| mr .NOC_LINK_rate ||| mr .NOC_LINK_up
theorem trainLink_may (hm : mayTrainLink ||| mk = mk) (st k wanted : Nat) :
    May mk (trainLink st k wanted) := by
  unfold trainLink
  repeat' first | exact bit_sub rfl hm | (dsimp only [Upd.bit]; exact bit_sub rfl hm) | exact sub_trans rfl hm | with_reducible assumption | with_reducible constructor | with_reducible intro _ | dsimp only | split

def mayClearWhere : Nat := mp .regs ||| mp .shad
theorem clearWhere_may (hm : mayClearWhere ||| mk = mk) (d : Dom) (o : Own) (p : Nat → Bool) :
    May mk (clearWhere d o p) := by
  unfold clearWhere
  repeat' first | exact bit_sub rfl hm | (dsimp only [Upd.bit]; exact bit_sub rfl hm) | exact sub_trans rfl hm | with_reducible assumption | with_reducible constructor | with_reducible intro _ | dsimp only | split

def mayResetCore : Nat := maySetCore ||| maySetAg ||| maySetPath ||| mayQEmpty ||| mayClearWhere ||| mp .acc
theorem resetCore_may (hm : mayResetCore ||| mk = mk) (n : Nat) :
    May mk (resetCore n) := by
  unfold resetCore
  repeat' first | exact bit_sub rfl hm | (dsimp only [Upd.bit]; exact bit_sub rfl hm) | exact sub_trans rfl hm | with_reducible assumption | with_reducible constructor | with_reducible intro _ | with_reducible apply setCore_may | with_reducible apply setAg_may | with_reducible apply setPath_may | with_reducible apply qEmpty_may | with_reducible apply clearWhere_may | dsimp only | split

def mayDropAssays : Nat := maySetMisc ||| mayErrRecord ||| mp .assayer
theorem dropAssays_may (hm : mayDropAssays ||| mk = mk) (a : Nat) (stack : Bool) :
    May mk (dropAssays a stack) := by
  unfold dropAssays
  repeat' first | exact bit_sub rfl hm | (dsimp only [Upd.bit]; exact bit_sub rfl hm) | exact sub_trans rfl hm | with_reducible assumption | with_reducible constructor | with_reducible intro _ | with_reducible apply setMisc_may | with_reducible apply errRecord_may | dsimp only | split

def mayDropCows : Nat := maySetSeq ||| mayRelease
theorem dropCows_may (hm : mayDropCows ||| mk = mk) (n : Nat) :
    May mk (dropCows n) := by
  unfold dropCows
  repeat' first | exact bit_sub rfl hm | (dsimp only [Upd.bit]; exact bit_sub rfl hm) | exact sub_trans rfl hm | with_reducible assumption | with_reducible constructor | with_reducible intro _ | with_reducible apply setSeq_may | with_reducible apply release_may | dsimp only | split

def mayLoseItems : Nat := maySetCtx
theorem loseItems_may (hm : mayLoseItems ||| mk = mk) (c : Nat) :
    May mk (loseItems c) := by
  unfold loseItems
  repeat' first | exact bit_sub rfl hm | (dsimp only [Upd.bit]; exact bit_sub rfl hm) | exact sub_trans rfl hm | with_reducible assumption | with_reducible constructor | with_reducible intro _ | with_reducible apply setCtx_may | dsimp only | split

def mayResetCluster : Nat := maySetCore ||| maySetCluster ||| maySetPath ||| maySetGath ||| mayLadleAbort ||| mayClearWhere ||| mayResetCore ||| mayDropAssays ||| mayDropCows ||| mayLoseItems ||| mp .attend
theorem resetCluster_may (hm : mayResetCluster ||| mk = mk) (c : Nat) (stack : Bool) :
    May mk (resetCluster c stack) := by
  unfold resetCluster
  repeat' first | exact bit_sub rfl hm | (dsimp only [Upd.bit]; exact bit_sub rfl hm) | exact sub_trans rfl hm | with_reducible assumption | with_reducible constructor | with_reducible intro _ | with_reducible apply setCore_may | with_reducible apply setCluster_may | with_reducible apply setPath_may | with_reducible apply setGath_may | with_reducible apply ladleAbort_may | with_reducible apply clearWhere_may | with_reducible apply resetCore_may | with_reducible apply dropAssays_may | with_reducible apply dropCows_may | with_reducible apply loseItems_may | dsimp only | split

def mayZeroCluster : Nat := maySetCluster ||| maySetMisc ||| mayZeroRange
theorem zeroCluster_may (hm : mayZeroCluster ||| mk = mk) (c : Nat) :
    May mk (zeroCluster c) := by
  unfold zeroCluster
  repeat' first | exact bit_sub rfl hm | (dsimp only [Upd.bit]; exact bit_sub rfl hm) | exact sub_trans rfl hm | with_reducible assumption | with_reducible constructor | with_reducible intro _ | with_reducible apply setCluster_may | with_reducible apply setMisc_may | with_reducible apply zeroRange_may | dsimp only | split

def maySyncTokens : Nat := maySetPte
theorem syncTokens_may (hm : maySyncTokens ||| mk = mk) (c : Nat) :
    May mk (syncTokens c) := by
  unfold syncTokens
  repeat' first | exact bit_sub rfl hm | (dsimp only [Upd.bit]; exact bit_sub rfl hm) | exact sub_trans rfl hm | with_reducible assumption | with_reducible constructor | with_reducible intro _ | with_reducible apply setPte_may | dsimp only | split

def mayStartGather : Nat := mp .tick ||| mr .EG_SRC_prio ||| mr .EG_SRC_target ||| mr .EG_TGT_mode
theorem startGather_may (hm : mayStartGather ||| mk = mk) (g : Nat) :
    May mk (startGather g) := by
  unfold startGather
  repeat' first | exact bit_sub rfl hm | (dsimp only [Upd.bit]; exact bit_sub rfl hm) | exact sub_trans rfl hm | with_reducible assumption | with_reducible constructor | with_reducible intro _ | dsimp only | split

def mayClusterReturn : Nat := mayZeroCluster ||| maySyncTokens ||| mayStartGather
theorem clusterReturn_may (hm : mayClusterReturn ||| mk = mk) (c : Nat) :
    May mk (clusterReturn c) := by
  unfold clusterReturn
  repeat' first | exact bit_sub rfl hm | (dsimp only [Upd.bit]; exact bit_sub rfl hm) | exact sub_trans rfl hm | with_reducible assumption | with_reducible constructor | with_reducible intro _ | with_reducible apply zeroCluster_may | with_reducible apply syncTokens_may | with_reducible apply startGather_may | dsimp only | split

def mayReleaseCluster : Nat := maySetCluster ||| mayClusterReturn
theorem releaseCluster_may (hm : mayReleaseCluster ||| mk = mk) (c cause : Nat) :
    May mk (releaseCluster c cause) := by
  unfold releaseCluster
  repeat' first | exact bit_sub rfl hm | (dsimp only [Upd.bit]; exact bit_sub rfl hm) | exact sub_trans rfl hm | with_reducible assumption | with_reducible constructor | with_reducible intro _ | with_reducible apply setCluster_may | with_reducible apply clusterReturn_may | dsimp only | split

def mayHoldCluster : Nat := maySetCluster ||| mayResetCluster
theorem holdCluster_may (hm : mayHoldCluster ||| mk = mk) (c cause : Nat) :
    May mk (holdCluster c cause) := by
  unfold holdCluster
  repeat' first | exact bit_sub rfl hm | (dsimp only [Upd.bit]; exact bit_sub rfl hm) | exact sub_trans rfl hm | with_reducible assumption | with_reducible constructor | with_reducible intro _ | with_reducible apply setCluster_may | with_reducible apply resetCluster_may | dsimp only | split

def mayHoldCore : Nat := maySetCluster ||| mayResetCore
theorem holdCore_may (hm : mayHoldCore ||| mk = mk) (n : Nat) :
    May mk (holdCore n) := by
  unfold holdCore
  repeat' first | exact bit_sub rfl hm | (dsimp only [Upd.bit]; exact bit_sub rfl hm) | exact sub_trans rfl hm | with_reducible assumption | with_reducible constructor | with_reducible intro _ | with_reducible apply setCluster_may | with_reducible apply resetCore_may | dsimp only | split

def mayDropTasks : Nat := mayEndCommand ||| mp .bank
theorem dropTasks_may (hm : mayDropTasks ||| mk = mk) (st : Nat) :
    May mk (dropTasks st) := by
  unfold dropTasks
  repeat' first | exact bit_sub rfl hm | (dsimp only [Upd.bit]; exact bit_sub rfl hm) | exact sub_trans rfl hm | with_reducible assumption | with_reducible constructor | with_reducible intro _ | with_reducible apply endCommand_may | dsimp only | split

def mayResetSlices : Nat := maySetSlice ||| mp .cache ||| mp .openRow
theorem resetSlices_may (hm : mayResetSlices ||| mk = mk) (st : Nat) :
    May mk (resetSlices st) := by
  unfold resetSlices
  repeat' first | exact bit_sub rfl hm | (dsimp only [Upd.bit]; exact bit_sub rfl hm) | exact sub_trans rfl hm | with_reducible assumption | with_reducible constructor | with_reducible intro _ | with_reducible apply setSlice_may | dsimp only | split

def mayResetFabric : Nat := maySetFab ||| mayFreeConn ||| mayDrained? ||| mp .port ||| mp .sub
theorem resetFabric_may (hm : mayResetFabric ||| mk = mk) (st : Nat) :
    May mk (resetFabric st) := by
  unfold resetFabric
  repeat' first | exact bit_sub rfl hm | (dsimp only [Upd.bit]; exact bit_sub rfl hm) | exact sub_trans rfl hm | with_reducible assumption | with_reducible constructor | with_reducible intro _ | with_reducible apply setFab_may | with_reducible apply freeConn_may | with_reducible apply drained?_may | dsimp only | split

def mayPeersLose : Nat := mayLinkFalls
theorem peersLose_may (hm : mayPeersLose ||| mk = mk) (st : Nat) :
    May mk (peersLose st) := by
  unfold peersLose
  repeat' first | exact bit_sub rfl hm | (dsimp only [Upd.bit]; exact bit_sub rfl hm) | exact sub_trans rfl hm | with_reducible assumption | with_reducible constructor | with_reducible intro _ | with_reducible apply linkFalls_may | dsimp only | split

def mayResetFp : Nat := maySetCluster ||| maySetStack ||| mayDoorbell ||| mayHostRing ||| mayClearWhere ||| mayDropAssays ||| mayResetCluster ||| mayDropTasks ||| mayResetSlices ||| mayResetFabric ||| mayPeersLose ||| mp .bucket
theorem resetFp_may (hm : mayResetFp ||| mk = mk) (st : Nat) :
    May mk (resetFp st) := by
  unfold resetFp
  repeat' first | exact bit_sub rfl hm | (dsimp only [Upd.bit]; exact bit_sub rfl hm) | exact sub_trans rfl hm | with_reducible assumption | with_reducible constructor | with_reducible intro _ | with_reducible apply setCluster_may | with_reducible apply setStack_may | with_reducible apply doorbell_may | with_reducible apply hostRing_may | with_reducible apply clearWhere_may | with_reducible apply dropAssays_may | with_reducible apply resetCluster_may | with_reducible apply dropTasks_may | with_reducible apply resetSlices_may | with_reducible apply resetFabric_may | with_reducible apply peersLose_may | dsimp only | split

def mayHoldFp : Nat := maySetStack ||| mayResetFp ||| mr .CRS_CAUSE_count ||| mr .CRS_CAUSE_last
theorem holdFp_may (hm : mayHoldFp ||| mk = mk) (st cause : Nat) :
    May mk (holdFp st cause) := by
  unfold holdFp
  repeat' first | exact bit_sub rfl hm | (dsimp only [Upd.bit]; exact bit_sub rfl hm) | exact sub_trans rfl hm | with_reducible assumption | with_reducible constructor | with_reducible intro _ | with_reducible apply setStack_may | with_reducible apply resetFp_may | dsimp only | split

def mayReleaseFp : Nat := maySetStack
theorem releaseFp_may (hm : mayReleaseFp ||| mk = mk) (st cause : Nat) :
    May mk (releaseFp st cause) := by
  unfold releaseFp
  repeat' first | exact bit_sub rfl hm | (dsimp only [Upd.bit]; exact bit_sub rfl hm) | exact sub_trans rfl hm | with_reducible assumption | with_reducible constructor | with_reducible intro _ | with_reducible apply setStack_may | dsimp only | split

def mayResetReleaseEff : Nat := maySetCluster ||| mayReleaseCluster ||| mayReleaseFp
theorem resetReleaseEff_may (hm : mayResetReleaseEff ||| mk = mk) (h : Held) :
    May mk (resetReleaseEff h) := by
  unfold resetReleaseEff
  repeat' first | exact bit_sub rfl hm | (dsimp only [Upd.bit]; exact bit_sub rfl hm) | exact sub_trans rfl hm | with_reducible assumption | with_reducible constructor | with_reducible intro _ | with_reducible apply setCluster_may | with_reducible apply releaseCluster_may | with_reducible apply releaseFp_may | dsimp only | split

def mayReloadRetired : Nat := mr .ECC_RETIRE_bank ||| mr .ECC_RETIRE_frame ||| mr .ECC_RETIRE_valid
theorem reloadRetired_may (hm : mayReloadRetired ||| mk = mk) (sl : Nat) :
    May mk (reloadRetired sl) := by
  unfold reloadRetired
  repeat' first | exact bit_sub rfl hm | (dsimp only [Upd.bit]; exact bit_sub rfl hm) | exact sub_trans rfl hm | with_reducible assumption | with_reducible constructor | with_reducible intro _ | dsimp only | split

def mayRebuildList : Nat := maySetSlice ||| maySetDesc ||| mayFlPush ||| mr .KV_FL_CTL_low
theorem rebuildList_may (hm : mayRebuildList ||| mk = mk) (sl : Nat) :
    May mk (rebuildList sl) := by
  unfold rebuildList
  repeat' first | exact bit_sub rfl hm | (dsimp only [Upd.bit]; exact bit_sub rfl hm) | exact sub_trans rfl hm | with_reducible assumption | with_reducible constructor | with_reducible intro _ | with_reducible apply setSlice_may | with_reducible apply setDesc_may | with_reducible apply flPush_may | dsimp only | split

def maySetRegulator : Nat := mp .bucket
theorem setRegulator_may (hm : maySetRegulator ||| mk = mk) (rate burst en : Fld) (i bucket w : Nat)
    (h1 : mk.testBit (80 + rate.ctorIdx) = true) (h2 : mk.testBit (80 + burst.ctorIdx) = true)
    (h3 : mk.testBit (80 + en.ctorIdx) = true) : May mk (setRegulator rate burst en i bucket w) := by
  unfold setRegulator
  repeat' first | exact bit_sub rfl hm | (dsimp only [Upd.bit]; exact bit_sub rfl hm) | exact sub_trans rfl hm | with_reducible assumption | with_reducible constructor | with_reducible intro _ | dsimp only | split

def maySetEgress : Nat := maySetRegulator ||| mr .REG_D2D_burst ||| mr .REG_D2D_en ||| mr .REG_D2D_rate ||| mr .REG_FAB_burst ||| mr .REG_FAB_en ||| mr .REG_FAB_rate
theorem setEgress_may (hm : maySetEgress ||| mk = mk) (st fl : Nat) (regs : List Nat) :
    May mk (setEgress st fl regs) := by
  unfold setEgress
  repeat' first | exact bit_sub rfl hm | (dsimp only [Upd.bit]; exact bit_sub rfl hm) | exact sub_trans rfl hm | with_reducible assumption | with_reducible constructor | with_reducible intro _ | with_reducible apply setRegulator_may | dsimp only | split

def mayInitStack : Nat := mayZeroRegion
theorem initStack_may (hm : mayInitStack ||| mk = mk) (st : Nat) :
    May mk (initStack st) := by
  unfold initStack
  repeat' first | exact bit_sub rfl hm | (dsimp only [Upd.bit]; exact bit_sub rfl hm) | exact sub_trans rfl hm | with_reducible assumption | with_reducible constructor | with_reducible intro _ | with_reducible apply zeroRegion_may | dsimp only | split

def mayFpReturn : Nat := maySetStack ||| mayApplyPort ||| mayReleaseCluster ||| mayReloadRetired ||| mayRebuildList ||| maySetEgress ||| mayInitStack ||| mr .CRS_STAT_self_refresh ||| mr .MC_CFG_cache_en ||| mr .MC_STAT_sr
theorem fpReturn_may (hm : mayFpReturn ||| mk = mk) (st : Nat) (settings : Eff) (hsettings : May mk settings) :
    May mk (fpReturn st settings) := by
  unfold fpReturn
  repeat' first | exact bit_sub rfl hm | (dsimp only [Upd.bit]; exact bit_sub rfl hm) | exact sub_trans rfl hm | with_reducible assumption | with_reducible constructor | with_reducible intro _ | with_reducible apply setStack_may | with_reducible apply applyPort_may | with_reducible apply releaseCluster_may | with_reducible apply reloadRetired_may | with_reducible apply rebuildList_may | with_reducible apply setEgress_may | with_reducible apply initStack_may | with_reducible apply hsettings | dsimp only | split

def mayRelink : Nat := mayRestoreRoutes ||| mayTrainLink
theorem relink_may (hm : mayRelink ||| mk = mk) (st : Nat) :
    May mk (relink st) := by
  unfold relink
  repeat' first | exact bit_sub rfl hm | (dsimp only [Upd.bit]; exact bit_sub rfl hm) | exact sub_trans rfl hm | with_reducible assumption | with_reducible constructor | with_reducible intro _ | with_reducible apply restoreRoutes_may | with_reducible apply trainLink_may | dsimp only | split

def mayPllLockLossEff : Nat := mayHoldCluster ||| mayHoldFp ||| mr .CRS_STAT_fab_lock ||| mr .CRS_STAT_mem_lock ||| mr .CRS_STAT_region_lock
theorem pllLockLossEff_may (hm : mayPllLockLossEff ||| mk = mk) (st : StackIx) (pll : Pll) (s : State) :
    May mk (pllLockLossEff st pll s) := by
  unfold pllLockLossEff
  repeat' first | exact bit_sub rfl hm | (dsimp only [Upd.bit]; exact bit_sub rfl hm) | exact sub_trans rfl hm | with_reducible assumption | with_reducible constructor | with_reducible intro _ | with_reducible apply holdCluster_may | with_reducible apply holdFp_may | dsimp only | split

def mayPllRelockEff : Nat := mayReleaseCluster ||| mayReleaseFp ||| mr .CRS_STAT_fab_lock ||| mr .CRS_STAT_mem_lock ||| mr .CRS_STAT_region_lock
theorem pllRelockEff_may (hm : mayPllRelockEff ||| mk = mk) (st : StackIx) (pll : Pll) (s : State) :
    May mk (pllRelockEff st pll s) := by
  unfold pllRelockEff
  repeat' first | exact bit_sub rfl hm | (dsimp only [Upd.bit]; exact bit_sub rfl hm) | exact sub_trans rfl hm | with_reducible assumption | with_reducible constructor | with_reducible intro _ | with_reducible apply releaseCluster_may | with_reducible apply releaseFp_may | dsimp only | split

def mayShowSlew : Nat := mr .CRS_STAT_slewing
theorem showSlew_may (hm : mayShowSlew ||| mk = mk) (st : Nat) :
    May mk (showSlew st) := by
  unfold showSlew
  repeat' first | exact bit_sub rfl hm | (dsimp only [Upd.bit]; exact bit_sub rfl hm) | exact sub_trans rfl hm | with_reducible assumption | with_reducible constructor | with_reducible intro _ | dsimp only | split

def maySetClocks : Nat := mayShowSlew ||| mr .CRS_CLK_core0_mhz ||| mr .CRS_CLK_core1_mhz
theorem setClocks_may (hm : maySetClocks ||| mk = mk) (st mhz0 mhz1 : Nat) :
    May mk (setClocks st mhz0 mhz1) := by
  unfold setClocks
  repeat' first | exact bit_sub rfl hm | (dsimp only [Upd.bit]; exact bit_sub rfl hm) | exact sub_trans rfl hm | with_reducible assumption | with_reducible constructor | with_reducible intro _ | with_reducible apply showSlew_may | dsimp only | split

def mayClockSlewStepEff : Nat := maySetStack ||| mayShowSlew
theorem clockSlewStepEff_may (hm : mayClockSlewStepEff ||| mk = mk) (st : StackIx) (r : Fin 2) (s : State) :
    May mk (clockSlewStepEff st r s) := by
  unfold clockSlewStepEff
  repeat' first | exact bit_sub rfl hm | (dsimp only [Upd.bit]; exact bit_sub rfl hm) | exact sub_trans rfl hm | with_reducible assumption | with_reducible constructor | with_reducible intro _ | with_reducible apply setStack_may | with_reducible apply showSlew_may | dsimp only | split

def mayPeerResetEff : Nat := maySetPath ||| maySetGath
theorem peerResetEff_may (hm : mayPeerResetEff ||| mk = mk) (c : ClusterIx) :
    May mk (peerResetEff c) := by
  unfold peerResetEff
  repeat' first | exact bit_sub rfl hm | (dsimp only [Upd.bit]; exact bit_sub rfl hm) | exact sub_trans rfl hm | with_reducible assumption | with_reducible constructor | with_reducible intro _ | with_reducible apply setPath_may | with_reducible apply setGath_may | dsimp only | split

def mayEachKey : Nat := 0
theorem eachKey_may (hm : mayEachKey ||| mk = mk) {α : Type} (m : Store α) (u : Nat → Upd) (hu : ∀ k, mk.testBit (u k).bit = true) :
    May mk (eachKey m u) := .each fun p => .upd (hu p.1)

def mayResetIod : Nat := maySetSeq ||| maySetGath ||| maySetMisc ||| mayLadleAbort ||| mayDropJobs ||| mayClearWhere ||| mayHoldFp ||| mayEachKey ||| mp .bucket ||| mp .cring ||| mp .ctx ||| mp .fabOp ||| mp .fn ||| mp .hwAdds ||| mp .image ||| mp .mbox ||| mp .note ||| mp .wq
theorem resetIod_may (hm : mayResetIod ||| mk = mk) :
    May mk resetIod := by
  unfold resetIod
  repeat' first | exact bit_sub rfl hm | (dsimp only [Upd.bit]; exact bit_sub rfl hm) | exact sub_trans rfl hm | with_reducible assumption | with_reducible constructor | with_reducible intro _ | with_reducible apply setSeq_may | with_reducible apply setGath_may | with_reducible apply setMisc_may | with_reducible apply ladleAbort_may | with_reducible apply dropJobs_may | with_reducible apply clearWhere_may | with_reducible apply holdFp_may | with_reducible apply eachKey_may | dsimp only | split

end Sys2Proof.Machine
end

