-- ==== Sys2Proof/Laws/MayHost.lean ====
section
/-! SUPPORT. What each operation may change, one set and one lemma an operation: contexts, the mailbox and its requests. -/
set_option exponentiation.threshold 1000
set_option maxRecDepth 20000
set_option linter.unusedTactic false
set_option linter.unreachableTactic false
set_option linter.unusedVariables false
namespace Sys2Proof.Machine
variable {mk : Nat}

def mayBeginWait : Nat := maySetCtx
theorem beginWait_may (hm : mayBeginWait ||| mk = mk) (x : Nat) :
    May mk (beginWait x) := by
  unfold beginWait
  repeat' first | exact bit_sub rfl hm | (dsimp only [Upd.bit]; exact bit_sub rfl hm) | exact sub_trans rfl hm | with_reducible assumption | with_reducible constructor | with_reducible intro _ | with_reducible apply setCtx_may | dsimp only | split

def mayWriteWord7 : Nat := mp .hmem
theorem writeWord7_may (hm : mayWriteWord7 ||| mk = mk) (key : Nat) (q : WqSt) (t w : Nat) :
    May mk (writeWord7 key q t w) := by
  unfold writeWord7
  repeat' first | exact bit_sub rfl hm | (dsimp only [Upd.bit]; exact bit_sub rfl hm) | exact sub_trans rfl hm | with_reducible assumption | with_reducible constructor | with_reducible intro _ | dsimp only | split

def mayCompleteEntry : Nat := maySetWq ||| mayHostRing ||| mayAddGlobal ||| mayWriteWord7
theorem completeEntry_may (hm : mayCompleteEntry ||| mk = mk) (key t status fx cause sub : Nat) (event addEn : Bool) (addr : Nat) :
    May mk (completeEntry key t status fx cause sub event addEn addr) := by
  unfold completeEntry
  repeat' first | exact bit_sub rfl hm | (dsimp only [Upd.bit]; exact bit_sub rfl hm) | exact sub_trans rfl hm | with_reducible assumption | with_reducible constructor | with_reducible intro _ | with_reducible apply setWq_may | with_reducible apply hostRing_may | with_reducible apply addGlobal_may | with_reducible apply writeWord7_may | dsimp only | split

def mayWqTail : Nat := maySetWq ||| mayDoorbell ||| mayHostRing ||| mayBeginWait
theorem wqTail_may (hm : mayWqTail ||| mk = mk) (f slot tail : Nat) :
    May mk (wqTail f slot tail) := by
  unfold wqTail
  repeat' first | exact bit_sub rfl hm | (dsimp only [Upd.bit]; exact bit_sub rfl hm) | exact sub_trans rfl hm | with_reducible assumption | with_reducible constructor | with_reducible intro _ | with_reducible apply setWq_may | with_reducible apply doorbell_may | with_reducible apply hostRing_may | with_reducible apply beginWait_may | dsimp only | split

def mayCoolCore : Nat := maySetMisc ||| mayZeroRange
theorem coolCore_may (hm : mayCoolCore ||| mk = mk) (n : Nat) :
    May mk (coolCore n) := by
  unfold coolCore
  repeat' first | exact bit_sub rfl hm | (dsimp only [Upd.bit]; exact bit_sub rfl hm) | exact sub_trans rfl hm | with_reducible assumption | with_reducible constructor | with_reducible intro _ | with_reducible apply setMisc_may | with_reducible apply zeroRange_may | dsimp only | split

def mayRestoreRank : Nat := mayLoadImage ||| maySaveImage
theorem restoreRank_may (hm : mayRestoreRank ||| mk = mk) (x rank n : Nat) :
    May mk (restoreRank x rank n) := by
  unfold restoreRank
  repeat' first | exact bit_sub rfl hm | (dsimp only [Upd.bit]; exact bit_sub rfl hm) | exact sub_trans rfl hm | with_reducible assumption | with_reducible constructor | with_reducible intro _ | with_reducible apply loadImage_may | with_reducible apply saveImage_may | dsimp only | split

def mayStartRank : Nat := maySeqGo ||| mr .SEQ_LIST_addr
theorem startRank_may (hm : mayStartRank ||| mk = mk) (n addr : Nat) :
    May mk (startRank n addr) := by
  unfold startRank
  repeat' first | exact bit_sub rfl hm | (dsimp only [Upd.bit]; exact bit_sub rfl hm) | exact sub_trans rfl hm | with_reducible assumption | with_reducible constructor | with_reducible intro _ | with_reducible apply seqGo_may | dsimp only | split

def mayItemStart : Nat := maySetWq ||| maySetCtx ||| mayHostRing ||| mayHostCharge ||| mayCompleteEntry ||| mayCoolCore ||| mayRestoreRank ||| mayStartRank
theorem itemStart_may (hm : mayItemStart ||| mk = mk) (x : Nat) :
    May mk (itemStart x) := by
  unfold itemStart
  repeat' first | exact bit_sub rfl hm | (dsimp only [Upd.bit]; exact bit_sub rfl hm) | exact sub_trans rfl hm | with_reducible assumption | with_reducible constructor | with_reducible intro _ | with_reducible apply setWq_may | with_reducible apply setCtx_may | with_reducible apply hostRing_may | with_reducible apply hostCharge_may | with_reducible apply completeEntry_may | with_reducible apply coolCore_may | with_reducible apply restoreRank_may | with_reducible apply startRank_may | dsimp only | split

def mayEndSteps : Nat := mayStepEnd
theorem endSteps_may (hm : mayEndSteps ||| mk = mk) (i : Item) :
    May mk (endSteps i) := by
  unfold endSteps
  repeat' first | exact bit_sub rfl hm | (dsimp only [Upd.bit]; exact bit_sub rfl hm) | exact sub_trans rfl hm | with_reducible assumption | with_reducible constructor | with_reducible intro _ | with_reducible apply stepEnd_may | dsimp only | split

def mayClearItem : Nat := maySetCtx ||| mayBeginWait
theorem clearItem_may (hm : mayClearItem ||| mk = mk) (x : Nat) :
    May mk (clearItem x) := by
  unfold clearItem
  repeat' first | exact bit_sub rfl hm | (dsimp only [Upd.bit]; exact bit_sub rfl hm) | exact sub_trans rfl hm | with_reducible assumption | with_reducible constructor | with_reducible intro _ | with_reducible apply setCtx_may | with_reducible apply beginWait_may | dsimp only | split

def mayItemComplete : Nat := maySaveImage ||| mayCompleteEntry ||| mayEndSteps ||| mayClearItem
theorem itemComplete_may (hm : mayItemComplete ||| mk = mk) (x : Nat) :
    May mk (itemComplete x) := by
  unfold itemComplete
  repeat' first | exact bit_sub rfl hm | (dsimp only [Upd.bit]; exact bit_sub rfl hm) | exact sub_trans rfl hm | with_reducible assumption | with_reducible constructor | with_reducible intro _ | with_reducible apply saveImage_may | with_reducible apply completeEntry_may | with_reducible apply endSteps_may | with_reducible apply clearItem_may | dsimp only | split

def mayFailItem : Nat := maySetCore ||| maySeqCtlStopEff ||| maySaveImage ||| mayResetCore ||| mayCompleteEntry ||| mayEndSteps ||| mayClearItem
theorem failItem_may (hm : mayFailItem ||| mk = mk) (x status cause sub : Nat) :
    May mk (failItem x status cause sub) := by
  unfold failItem
  repeat' first | exact bit_sub rfl hm | (dsimp only [Upd.bit]; exact bit_sub rfl hm) | exact sub_trans rfl hm | with_reducible assumption | with_reducible constructor | with_reducible intro _ | with_reducible apply setCore_may | with_reducible apply seqCtlStopEff_may | with_reducible apply saveImage_may | with_reducible apply resetCore_may | with_reducible apply completeEntry_may | with_reducible apply endSteps_may | with_reducible apply clearItem_may | dsimp only | split

def mayStoppingFaultEff : Nat := mayFailItem
theorem stoppingFaultEff_may (hm : mayStoppingFaultEff ||| mk = mk) (x : CtxIx) (n : SiteIx) (why : StopWhy) (s : State) :
    May mk (stoppingFaultEff x n why s) := by
  unfold stoppingFaultEff
  repeat' first | exact bit_sub rfl hm | (dsimp only [Upd.bit]; exact bit_sub rfl hm) | exact sub_trans rfl hm | with_reducible assumption | with_reducible constructor | with_reducible intro _ | with_reducible apply failItem_may | dsimp only | split

def mayStallLimitEff : Nat := maySetCore ||| mayReport ||| mr .Q_WDOG_snap_valid
theorem stallLimitEff_may (hm : mayStallLimitEff ||| mk = mk) (n : SiteIx) (s : State) :
    May mk (stallLimitEff n s) := by
  unfold stallLimitEff
  repeat' first | exact bit_sub rfl hm | (dsimp only [Upd.bit]; exact bit_sub rfl hm) | exact sub_trans rfl hm | with_reducible assumption | with_reducible constructor | with_reducible intro _ | with_reducible apply setCore_may | with_reducible apply report_may | dsimp only | split

def mayPreemptEnd : Nat := maySetCtx ||| maySaveImage ||| mayResetCore ||| mayBeginWait ||| mayEndSteps
theorem preemptEnd_may (hm : mayPreemptEnd ||| mk = mk) (x : Nat) :
    May mk (preemptEnd x) := by
  unfold preemptEnd
  repeat' first | exact bit_sub rfl hm | (dsimp only [Upd.bit]; exact bit_sub rfl hm) | exact sub_trans rfl hm | with_reducible assumption | with_reducible constructor | with_reducible intro _ | with_reducible apply setCtx_may | with_reducible apply saveImage_may | with_reducible apply resetCore_may | with_reducible apply beginWait_may | with_reducible apply endSteps_may | dsimp only | split

def mayPreemptionEff : Nat := maySetCtx ||| maySeqPause ||| mayPreemptEnd
theorem preemptionEff_may (hm : mayPreemptionEff ||| mk = mk) (x : CtxIx) (s : State) :
    May mk (preemptionEff x s) := by
  unfold preemptionEff
  repeat' first | exact bit_sub rfl hm | (dsimp only [Upd.bit]; exact bit_sub rfl hm) | exact sub_trans rfl hm | with_reducible assumption | with_reducible constructor | with_reducible intro _ | with_reducible apply setCtx_may | with_reducible apply seqPause_may | with_reducible apply preemptEnd_may | dsimp only | split

def mayPreemptionAbandonEff : Nat := maySetCore ||| maySetCtx ||| maySeqGo
theorem preemptionAbandonEff_may (hm : mayPreemptionAbandonEff ||| mk = mk) (x : CtxIx) (s : State) :
    May mk (preemptionAbandonEff x s) := by
  unfold preemptionAbandonEff
  repeat' first | exact bit_sub rfl hm | (dsimp only [Upd.bit]; exact bit_sub rfl hm) | exact sub_trans rfl hm | with_reducible assumption | with_reducible constructor | with_reducible intro _ | with_reducible apply setCore_may | with_reducible apply setCtx_may | with_reducible apply seqGo_may | dsimp only | split

def mayItemResumeEff : Nat := maySetCtx ||| mayLoadImage ||| maySaveImage ||| mayCoolCore ||| mayStartRank
theorem itemResumeEff_may (hm : mayItemResumeEff ||| mk = mk) (x : CtxIx) (s : State) :
    May mk (itemResumeEff x s) := by
  unfold itemResumeEff
  repeat' first | exact bit_sub rfl hm | (dsimp only [Upd.bit]; exact bit_sub rfl hm) | exact sub_trans rfl hm | with_reducible assumption | with_reducible constructor | with_reducible intro _ | with_reducible apply setCtx_may | with_reducible apply loadImage_may | with_reducible apply saveImage_may | with_reducible apply coolCore_may | with_reducible apply startRank_may | dsimp only | split

def mayBatchBoundaryEff : Nat := maySetCtx
theorem batchBoundaryEff_may (hm : mayBatchBoundaryEff ||| mk = mk) (x : CtxIx) (s : State) :
    May mk (batchBoundaryEff x s) := by
  unfold batchBoundaryEff
  repeat' first | exact bit_sub rfl hm | (dsimp only [Upd.bit]; exact bit_sub rfl hm) | exact sub_trans rfl hm | with_reducible assumption | with_reducible constructor | with_reducible intro _ | with_reducible apply setCtx_may | dsimp only | split

def mayDenyEntries : Nat := maySetWq ||| mayWriteWord7
theorem denyEntries_may (hm : mayDenyEntries ||| mk = mk) (key : Nat) :
    May mk (denyEntries key) := by
  unfold denyEntries
  repeat' first | exact bit_sub rfl hm | (dsimp only [Upd.bit]; exact bit_sub rfl hm) | exact sub_trans rfl hm | with_reducible assumption | with_reducible constructor | with_reducible intro _ | with_reducible apply setWq_may | with_reducible apply writeWord7_may | dsimp only | split

def mayFreeCtx : Nat := maySetSeq ||| mp .ctx ||| mp .image ||| mp .wq
theorem freeCtx_may (hm : mayFreeCtx ||| mk = mk) (x : Nat) :
    May mk (freeCtx x) := by
  unfold freeCtx
  repeat' first | exact bit_sub rfl hm | (dsimp only [Upd.bit]; exact bit_sub rfl hm) | exact sub_trans rfl hm | with_reducible assumption | with_reducible constructor | with_reducible intro _ | with_reducible apply setSeq_may | dsimp only | split

def mayDestroyCtx : Nat := maySetCtx ||| maySeqCtlStopEff ||| mayDenyEntries
theorem destroyCtx_may (hm : mayDestroyCtx ||| mk = mk) (x : Nat) :
    May mk (destroyCtx x) := by
  unfold destroyCtx
  repeat' first | exact bit_sub rfl hm | (dsimp only [Upd.bit]; exact bit_sub rfl hm) | exact sub_trans rfl hm | with_reducible assumption | with_reducible constructor | with_reducible intro _ | with_reducible apply setCtx_may | with_reducible apply seqCtlStopEff_may | with_reducible apply denyEntries_may | dsimp only | split

def mayFlaskReset : Nat := mayLadleAbortFlask ||| mayResetCluster ||| mayClusterReturn ||| mayFailItem ||| mayDenyEntries ||| mayFreeCtx
theorem flaskReset_may (hm : mayFlaskReset ||| mk = mk) (fl : Nat) :
    May mk (flaskReset fl) := by
  unfold flaskReset
  repeat' first | exact bit_sub rfl hm | (dsimp only [Upd.bit]; exact bit_sub rfl hm) | exact sub_trans rfl hm | with_reducible assumption | with_reducible constructor | with_reducible intro _ | with_reducible apply ladleAbortFlask_may | with_reducible apply resetCluster_may | with_reducible apply clusterReturn_may | with_reducible apply failItem_may | with_reducible apply denyEntries_may | with_reducible apply freeCtx_may | dsimp only | split

def mayRespondWith : Nat := maySetFn ||| mayHostRing ||| mp .mbox ||| mr .MB_STATE_state
theorem respondWith_may (hm : mayRespondWith ||| mk = mk) (f : Nat) (status : Nat) (body : List Byte) (deferred : Bool) :
    May mk (respondWith f status body deferred) := by
  unfold respondWith
  repeat' first | exact bit_sub rfl hm | (dsimp only [Upd.bit]; exact bit_sub rfl hm) | exact sub_trans rfl hm | with_reducible assumption | with_reducible constructor | with_reducible intro _ | with_reducible apply setFn_may | with_reducible apply hostRing_may | dsimp only | split

def mayRespond' : Nat := mayRespondWith
theorem respond'_may (hm : mayRespond' ||| mk = mk) (f status : Nat) (body : List Byte) :
    May mk (respond' f status body) := by
  unfold respond'
  repeat' first | exact bit_sub rfl hm | (dsimp only [Upd.bit]; exact bit_sub rfl hm) | exact sub_trans rfl hm | with_reducible assumption | with_reducible constructor | with_reducible intro _ | with_reducible apply respondWith_may | dsimp only | split

def mayAnswer : Nat := mayRespond'
theorem answer_may (hm : mayAnswer ||| mk = mk) (f status : Nat) :
    May mk (answer f status) := by
  unfold answer
  repeat' first | exact bit_sub rfl hm | (dsimp only [Upd.bit]; exact bit_sub rfl hm) | exact sub_trans rfl hm | with_reducible assumption | with_reducible constructor | with_reducible intro _ | with_reducible apply respond'_may | dsimp only | split

def mayCheckPost : Nat := maySetFn ||| mayHostRing ||| mayAnswer ||| mr .MB_STATE_state
theorem checkPost_may (hm : mayCheckPost ||| mk = mk) (f : Nat) :
    May mk (checkPost f) := by
  unfold checkPost
  repeat' first | exact bit_sub rfl hm | (dsimp only [Upd.bit]; exact bit_sub rfl hm) | exact sub_trans rfl hm | with_reducible assumption | with_reducible constructor | with_reducible intro _ | with_reducible apply setFn_may | with_reducible apply hostRing_may | with_reducible apply answer_may | dsimp only | split

def mayCheckWaiting : Nat := mayCheckPost
theorem checkWaiting_may (hm : mayCheckWaiting ||| mk = mk) :
    May mk checkWaiting := by
  unfold checkWaiting
  repeat' first | exact bit_sub rfl hm | (dsimp only [Upd.bit]; exact bit_sub rfl hm) | exact sub_trans rfl hm | with_reducible assumption | with_reducible constructor | with_reducible intro _ | with_reducible apply checkPost_may | dsimp only | split

def mayMbPost : Nat := mayDoorbell ||| mayCheckPost ||| mp .mbox ||| mr .MB_STATE_ring_busy ||| mr .MB_STATE_state ||| mr .MB_STATE_tag ||| mr .MB_STATE_wr_busy
theorem mbPost_may (hm : mayMbPost ||| mk = mk) (f : Nat) (buf : List Byte) :
    May mk (mbPost f buf) := by
  unfold mbPost
  repeat' first | exact bit_sub rfl hm | (dsimp only [Upd.bit]; exact bit_sub rfl hm) | exact sub_trans rfl hm | with_reducible assumption | with_reducible constructor | with_reducible intro _ | with_reducible apply doorbell_may | with_reducible apply checkPost_may | dsimp only | split

def mayWithReq : Nat := mayAnswer
theorem withReq_may (hm : mayWithReq ||| mk = mk) (f op : Nat) (k : Req → Eff) (hk : ∀ a, May mk (k a)) :
    May mk (withReq f op k) := by
  unfold withReq
  repeat' first | exact bit_sub rfl hm | (dsimp only [Upd.bit]; exact bit_sub rfl hm) | exact sub_trans rfl hm | with_reducible assumption | with_reducible constructor | with_reducible intro _ | with_reducible apply answer_may | with_reducible apply hk | dsimp only | split

def mayDeferReq : Nat := maySetFn ||| mayRespondWith ||| mayAnswer
theorem deferReq_may (hm : mayDeferReq ||| mk = mk) (f : Nat) (r : Req) (begin' : Eff) (w : Work) (body : List Byte) (hbegin' : May mk begin') :
    May mk (deferReq f r begin' w body) := by
  unfold deferReq
  repeat' first | exact bit_sub rfl hm | (dsimp only [Upd.bit]; exact bit_sub rfl hm) | exact sub_trans rfl hm | with_reducible assumption | with_reducible constructor | with_reducible intro _ | with_reducible apply setFn_may | with_reducible apply respondWith_may | with_reducible apply answer_may | with_reducible apply hbegin' | dsimp only | split

def mayHostIn : Nat := mayAnswer
theorem hostIn_may (hm : mayHostIn ||| mk = mk) (f addr len : Nat) (k : List Byte → Eff) (hk : ∀ a, May mk (k a)) :
    May mk (hostIn f addr len k) := by
  unfold hostIn
  repeat' first | exact bit_sub rfl hm | (dsimp only [Upd.bit]; exact bit_sub rfl hm) | exact sub_trans rfl hm | with_reducible assumption | with_reducible constructor | with_reducible intro _ | with_reducible apply answer_may | with_reducible apply hk | dsimp only | split

def mayHostOut : Nat := mayAnswer ||| mp .hmem
theorem hostOut_may (hm : mayHostOut ||| mk = mk) (f addr : Nat) (d : List Byte) (k : Eff) (hk : May mk k) :
    May mk (hostOut f addr d k) := by
  unfold hostOut
  repeat' first | exact bit_sub rfl hm | (dsimp only [Upd.bit]; exact bit_sub rfl hm) | exact sub_trans rfl hm | with_reducible assumption | with_reducible constructor | with_reducible intro _ | with_reducible apply answer_may | with_reducible apply hk | dsimp only | split

def mayHello : Nat := maySetFn ||| mayRespond' ||| mayAnswer
theorem hello_may (hm : mayHello ||| mk = mk) (f : Nat) (r : Req) :
    May mk (hello f r) := by
  unfold hello
  repeat' first | exact bit_sub rfl hm | (dsimp only [Upd.bit]; exact bit_sub rfl hm) | exact sub_trans rfl hm | with_reducible assumption | with_reducible constructor | with_reducible intro _ | with_reducible apply setFn_may | with_reducible apply respond'_may | with_reducible apply answer_may | dsimp only | split

def mayFlaskConfig : Nat := mayAnswer ||| mayDeferReq ||| mayHostIn
theorem flaskConfig_may (hm : mayFlaskConfig ||| mk = mk) (f op : Nat) (r : Req) :
    May mk (flaskConfig f op r) := by
  unfold flaskConfig
  repeat' first | exact bit_sub rfl hm | (dsimp only [Upd.bit]; exact bit_sub rfl hm) | exact sub_trans rfl hm | with_reducible assumption | with_reducible constructor | with_reducible intro _ | with_reducible apply answer_may | with_reducible apply deferReq_may | with_reducible apply hostIn_may | dsimp only | split

def mayEndGrant : Nat := mayZeroRegion ||| mr .ECC_TWG_grant
theorem endGrant_may (hm : mayEndGrant ||| mk = mk) (sl : Nat) :
    May mk (endGrant sl) := by
  unfold endGrant
  repeat' first | exact bit_sub rfl hm | (dsimp only [Upd.bit]; exact bit_sub rfl hm) | exact sub_trans rfl hm | with_reducible assumption | with_reducible constructor | with_reducible intro _ | with_reducible apply zeroRegion_may | dsimp only | split

def mayEndGrants : Nat := mayEndGrant
theorem endGrants_may (hm : mayEndGrants ||| mk = mk) (fl : Nat) :
    May mk (endGrants fl) := by
  unfold endGrants
  repeat' first | exact bit_sub rfl hm | (dsimp only [Upd.bit]; exact bit_sub rfl hm) | exact sub_trans rfl hm | with_reducible assumption | with_reducible constructor | with_reducible intro _ | with_reducible apply endGrant_may | dsimp only | split

def mayZeroOwned : Nat := mayZeroRange ||| mayZeroRegion
theorem zeroOwned_may (hm : mayZeroOwned ||| mk = mk) (r : Nat) :
    May mk (zeroOwned r) := by
  unfold zeroOwned
  repeat' first | exact bit_sub rfl hm | (dsimp only [Upd.bit]; exact bit_sub rfl hm) | exact sub_trans rfl hm | with_reducible assumption | with_reducible constructor | with_reducible intro _ | with_reducible apply zeroRange_may | with_reducible apply zeroRegion_may | dsimp only | split

def mayRespare : Nat := maySetCluster
theorem respare_may (hm : mayRespare ||| mk = mk) (c : Nat) :
    May mk (respare c) := by
  unfold respare
  repeat' first | exact bit_sub rfl hm | (dsimp only [Upd.bit]; exact bit_sub rfl hm) | exact sub_trans rfl hm | with_reducible assumption | with_reducible constructor | with_reducible intro _ | with_reducible apply setCluster_may | dsimp only | split

def mayNewFlask : Nat := mp .flaskSt ||| mp .kv ||| mr .REG_FAR_en ||| mr .REG_HOST_en ||| mr .REG_D2D_en ||| mr .REG_FAB_en
theorem newFlask_may (hm : mayNewFlask ||| mk = mk) (fl : Nat) :
    May mk (newFlask fl) := by
  unfold newFlask
  repeat' first | exact bit_sub rfl hm | (dsimp only [Upd.bit]; exact bit_sub rfl hm) | exact sub_trans rfl hm | with_reducible assumption | with_reducible constructor | with_reducible intro _ | dsimp only | split

def mayDoFlaskSet : Nat := mayNewFlask ||| maySetCluster ||| mayZeroCluster ||| mayEndGrants ||| mayZeroOwned ||| mayRespare ||| mp .owner
theorem doFlaskSet_may (hm : mayDoFlaskSet ||| mk = mk) (fl : Nat) (cs rs : List Nat) :
    May mk (doFlaskSet fl cs rs) := by
  unfold doFlaskSet
  repeat' first | exact bit_sub rfl hm | (dsimp only [Upd.bit]; exact bit_sub rfl hm) | exact sub_trans rfl hm | with_reducible assumption | with_reducible constructor | with_reducible intro _ | with_reducible apply newFlask_may | with_reducible apply setCluster_may | with_reducible apply zeroCluster_may | with_reducible apply endGrants_may | with_reducible apply zeroOwned_may | with_reducible apply respare_may | dsimp only | split

def mayDoFlaskRemove : Nat := maySetCluster ||| mayResetCluster ||| mayClusterReturn ||| mayEndGrants ||| mayZeroOwned ||| mayRespare ||| mp .owner
theorem doFlaskRemove_may (hm : mayDoFlaskRemove ||| mk = mk) (fl : Nat) (cs rs : List Nat) :
    May mk (doFlaskRemove fl cs rs) := by
  unfold doFlaskRemove
  repeat' first | exact bit_sub rfl hm | (dsimp only [Upd.bit]; exact bit_sub rfl hm) | exact sub_trans rfl hm | with_reducible assumption | with_reducible constructor | with_reducible intro _ | with_reducible apply setCluster_may | with_reducible apply resetCluster_may | with_reducible apply clusterReturn_may | with_reducible apply endGrants_may | with_reducible apply zeroOwned_may | with_reducible apply respare_may | dsimp only | split

def mayDoFlaskReset : Nat := mayFlaskReset ||| mayDeferReq
theorem doFlaskReset_may (hm : mayDoFlaskReset ||| mk = mk) (f : Nat) (r : Req) :
    May mk (doFlaskReset f r) := by
  unfold doFlaskReset
  repeat' first | exact bit_sub rfl hm | (dsimp only [Upd.bit]; exact bit_sub rfl hm) | exact sub_trans rfl hm | with_reducible assumption | with_reducible constructor | with_reducible intro _ | with_reducible apply flaskReset_may | with_reducible apply deferReq_may | dsimp only | split

def mayDoFlaskReg : Nat := maySetRegulator ||| maySetEgress ||| mayAnswer ||| mp .flaskSt ||| mr .REG_FAR_burst ||| mr .REG_FAR_en ||| mr .REG_FAR_rate ||| mr .REG_HOST_burst ||| mr .REG_HOST_en ||| mr .REG_HOST_rate
theorem doFlaskReg_may (hm : mayDoFlaskReg ||| mk = mk) (f : Nat) (r : Req) :
    May mk (doFlaskReg f r) := by
  unfold doFlaskReg
  repeat' first | exact bit_sub rfl hm | (dsimp only [Upd.bit]; exact bit_sub rfl hm) | exact sub_trans rfl hm | with_reducible assumption | with_reducible constructor | with_reducible intro _ | with_reducible apply setRegulator_may | with_reducible apply setEgress_may | with_reducible apply answer_may | dsimp only | split

def maySaveShared : Nat := maySaveImage
theorem saveShared_may (hm : maySaveShared ||| mk = mk) (before : List Nat) :
    May mk (saveShared before) := by
  unfold saveShared
  repeat' first | exact bit_sub rfl hm | (dsimp only [Upd.bit]; exact bit_sub rfl hm) | exact sub_trans rfl hm | with_reducible assumption | with_reducible constructor | with_reducible intro _ | with_reducible apply saveImage_may | dsimp only | split

def mayCtxCreate : Nat := maySetCtx ||| mayRespond' ||| mayAnswer ||| maySaveShared ||| mp .ctx
theorem ctxCreate_may (hm : mayCtxCreate ||| mk = mk) (f : Nat) (r : Req) :
    May mk (ctxCreate f r) := by
  unfold ctxCreate
  repeat' first | exact bit_sub rfl hm | (dsimp only [Upd.bit]; exact bit_sub rfl hm) | exact sub_trans rfl hm | with_reducible assumption | with_reducible constructor | with_reducible intro _ | with_reducible apply setCtx_may | with_reducible apply respond'_may | with_reducible apply answer_may | with_reducible apply saveShared_may | dsimp only | split

def mayDoCtxDestroy : Nat := mayDestroyCtx ||| mayAnswer ||| mayDeferReq
theorem doCtxDestroy_may (hm : mayDoCtxDestroy ||| mk = mk) (f : Nat) (r : Req) :
    May mk (doCtxDestroy f r) := by
  unfold doCtxDestroy
  repeat' first | exact bit_sub rfl hm | (dsimp only [Upd.bit]; exact bit_sub rfl hm) | exact sub_trans rfl hm | with_reducible assumption | with_reducible constructor | with_reducible intro _ | with_reducible apply destroyCtx_may | with_reducible apply answer_may | with_reducible apply deferReq_may | dsimp only | split

def mayQueueCreate : Nat := mayRespond' ||| mayAnswer ||| mp .wq
theorem queueCreate_may (hm : mayQueueCreate ||| mk = mk) (f : Nat) (r : Req) :
    May mk (queueCreate f r) := by
  unfold queueCreate
  repeat' first | exact bit_sub rfl hm | (dsimp only [Upd.bit]; exact bit_sub rfl hm) | exact sub_trans rfl hm | with_reducible assumption | with_reducible constructor | with_reducible intro _ | with_reducible apply respond'_may | with_reducible apply answer_may | dsimp only | split

def mayDoQueueDestroy : Nat := mayDenyEntries ||| mayAnswer ||| mayDeferReq
theorem doQueueDestroy_may (hm : mayDoQueueDestroy ||| mk = mk) (f : Nat) (r : Req) :
    May mk (doQueueDestroy f r) := by
  unfold doQueueDestroy
  repeat' first | exact bit_sub rfl hm | (dsimp only [Upd.bit]; exact bit_sub rfl hm) | exact sub_trans rfl hm | with_reducible assumption | with_reducible constructor | with_reducible intro _ | with_reducible apply denyEntries_may | with_reducible apply answer_may | with_reducible apply deferReq_may | dsimp only | split

def mayDoMemInit : Nat := mayZeroRegion ||| mayAnswer
theorem doMemInit_may (hm : mayDoMemInit ||| mk = mk) (f : Nat) (r : Req) :
    May mk (doMemInit f r) := by
  unfold doMemInit
  repeat' first | exact bit_sub rfl hm | (dsimp only [Upd.bit]; exact bit_sub rfl hm) | exact sub_trans rfl hm | with_reducible assumption | with_reducible constructor | with_reducible intro _ | with_reducible apply zeroRegion_may | with_reducible apply answer_may | dsimp only | split

def mayRetireFrame : Nat := mp .retirements ||| mr .ECC_RETIRE_bank ||| mr .ECC_RETIRE_frame ||| mr .ECC_RETIRE_valid
theorem retireFrame_may (hm : mayRetireFrame ||| mk = mk) (k : Nat) :
    May mk (retireFrame k) := by
  unfold retireFrame
  repeat' first | exact bit_sub rfl hm | (dsimp only [Upd.bit]; exact bit_sub rfl hm) | exact sub_trans rfl hm | with_reducible assumption | with_reducible constructor | with_reducible intro _ | dsimp only | split

def mayWithdraw : Nat := maySetSlice ||| maySetDesc ||| mayRetireFrame
theorem withdraw_may (hm : mayWithdraw ||| mk = mk) (k : Nat) :
    May mk (withdraw k) := by
  unfold withdraw
  repeat' first | exact bit_sub rfl hm | (dsimp only [Upd.bit]; exact bit_sub rfl hm) | exact sub_trans rfl hm | with_reducible assumption | with_reducible constructor | with_reducible intro _ | with_reducible apply setSlice_may | with_reducible apply setDesc_may | with_reducible apply retireFrame_may | dsimp only | split

def mayDoPageRetire : Nat := mayAnswer ||| mayDeferReq ||| mayWithdraw
theorem doPageRetire_may (hm : mayDoPageRetire ||| mk = mk) (f : Nat) (r : Req) :
    May mk (doPageRetire f r) := by
  unfold doPageRetire
  repeat' first | exact bit_sub rfl hm | (dsimp only [Upd.bit]; exact bit_sub rfl hm) | exact sub_trans rfl hm | with_reducible assumption | with_reducible constructor | with_reducible intro _ | with_reducible apply answer_may | with_reducible apply deferReq_may | with_reducible apply withdraw_may | dsimp only | split

def mayDoTestGrant : Nat := mayAnswer ||| mr .ECC_INIT_regions ||| mr .ECC_TWG_flask ||| mr .ECC_TWG_grant ||| mr .ECC_TWG_region
theorem doTestGrant_may (hm : mayDoTestGrant ||| mk = mk) (f : Nat) (r : Req) :
    May mk (doTestGrant f r) := by
  unfold doTestGrant
  repeat' first | exact bit_sub rfl hm | (dsimp only [Upd.bit]; exact bit_sub rfl hm) | exact sub_trans rfl hm | with_reducible assumption | with_reducible constructor | with_reducible intro _ | with_reducible apply answer_may | dsimp only | split

def mayDoTestRevoke : Nat := mayAnswer ||| mayEndGrant
theorem doTestRevoke_may (hm : mayDoTestRevoke ||| mk = mk) (f : Nat) (r : Req) :
    May mk (doTestRevoke f r) := by
  unfold doTestRevoke
  repeat' first | exact bit_sub rfl hm | (dsimp only [Upd.bit]; exact bit_sub rfl hm) | exact sub_trans rfl hm | with_reducible assumption | with_reducible constructor | with_reducible intro _ | with_reducible apply answer_may | with_reducible apply endGrant_may | dsimp only | split

def mayEccTest : Nat := mayTwRead ||| mayTwWrite ||| mayRespond' ||| mayAnswer ||| mr .ECC_TW_ADDR_word ||| mr .ECC_TW_CHK_check ||| mr .ECC_TW_DATA_data
theorem eccTest_may (hm : mayEccTest ||| mk = mk) (f : Nat) (write : Bool) (r : Req) :
    May mk (eccTest f write r) := by
  unfold eccTest
  repeat' first | exact bit_sub rfl hm | (dsimp only [Upd.bit]; exact bit_sub rfl hm) | exact sub_trans rfl hm | with_reducible assumption | with_reducible constructor | with_reducible intro _ | with_reducible apply twRead_may | with_reducible apply twWrite_may | with_reducible apply respond'_may | with_reducible apply answer_may | dsimp only | split

def mayEccTestRead : Nat := mayTwRead ||| mayRespond' ||| mayAnswer ||| mr .ECC_TW_ADDR_word
theorem eccTestRead_may (hm : mayEccTestRead ||| mk = mk) (f : Nat) (r : Req) :
    May mk (eccTest f false r) := by
  unfold eccTest
  simp only [Bool.false_eq_true, ↓reduceIte]
  repeat' first | exact bit_sub rfl hm | (dsimp only [Upd.bit]; exact bit_sub rfl hm) | exact sub_trans rfl hm | with_reducible assumption | with_reducible constructor | with_reducible intro _ | with_reducible apply twRead_may | with_reducible apply respond'_may | with_reducible apply answer_may | dsimp only | split

def mayDoRetireList : Nat := mayRespond' ||| mayAnswer ||| mayHostOut
theorem doRetireList_may (hm : mayDoRetireList ||| mk = mk) (f : Nat) (r : Req) :
    May mk (doRetireList f r) := by
  unfold doRetireList
  repeat' first | exact bit_sub rfl hm | (dsimp only [Upd.bit]; exact bit_sub rfl hm) | exact sub_trans rfl hm | with_reducible assumption | with_reducible constructor | with_reducible intro _ | with_reducible apply respond'_may | with_reducible apply answer_may | with_reducible apply hostOut_may | dsimp only | split

def mayDoLadleSubmit : Nat := mayLadleStart ||| mayWriteFlask ||| mayAnswer
theorem doLadleSubmit_may (hm : mayDoLadleSubmit ||| mk = mk) (f : Nat) (r : Req) :
    May mk (doLadleSubmit f r) := by
  unfold doLadleSubmit
  repeat' first | exact bit_sub rfl hm | (dsimp only [Upd.bit]; exact bit_sub rfl hm) | exact sub_trans rfl hm | with_reducible assumption | with_reducible constructor | with_reducible intro _ | with_reducible apply ladleStart_may | with_reducible apply writeFlask_may | with_reducible apply answer_may | dsimp only | split

def mayPlaceTables : Nat := mayFwWrite ||| mp .kv ||| mp .tick
theorem placeTables_may (hm : mayPlaceTables ||| mk = mk) (fl : Nat) (kv : List Nat) :
    May mk (placeTables fl kv) := by
  unfold placeTables
  repeat' first | exact bit_sub rfl hm | (dsimp only [Upd.bit]; exact bit_sub rfl hm) | exact sub_trans rfl hm | with_reducible assumption | with_reducible constructor | with_reducible intro _ | with_reducible apply fwWrite_may | dsimp only | split

def mayDesignate : Nat := maySetSlice ||| maySetPage ||| mayFlPush
theorem designate_may (hm : mayDesignate ||| mk = mk) (r : Nat) :
    May mk (designate r) := by
  unfold designate
  repeat' first | exact bit_sub rfl hm | (dsimp only [Upd.bit]; exact bit_sub rfl hm) | exact sub_trans rfl hm | with_reducible assumption | with_reducible constructor | with_reducible intro _ | with_reducible apply setSlice_may | with_reducible apply setPage_may | with_reducible apply flPush_may | dsimp only | split

def mayOmitRegion : Nat := maySetSlice ||| maySetPage
theorem omitRegion_may (hm : mayOmitRegion ||| mk = mk) (r : Nat) :
    May mk (omitRegion r) := by
  unfold omitRegion
  repeat' first | exact bit_sub rfl hm | (dsimp only [Upd.bit]; exact bit_sub rfl hm) | exact sub_trans rfl hm | with_reducible assumption | with_reducible constructor | with_reducible intro _ | with_reducible apply setSlice_may | with_reducible apply setPage_may | dsimp only | split

def mayWriteDescs : Nat := mayFwWrite
theorem writeDescs_may (hm : mayWriteDescs ||| mk = mk) (fl sl : Nat) :
    May mk (writeDescs fl sl) := by
  unfold writeDescs
  repeat' first | exact bit_sub rfl hm | (dsimp only [Upd.bit]; exact bit_sub rfl hm) | exact sub_trans rfl hm | with_reducible assumption | with_reducible constructor | with_reducible intro _ | with_reducible apply fwWrite_may | dsimp only | split

def maySetKvConfig : Nat := maySetCore ||| mayAcctSync ||| mayPlaceTables ||| mayDesignate ||| mayOmitRegion ||| mayWriteDescs ||| mp .kv ||| mr .KV_FL_CTL_low
theorem setKvConfig_may (hm : maySetKvConfig ||| mk = mk) (fl : Nat) (b : List Byte) (rs : List Nat) :
    May mk (setKvConfig fl b rs) := by
  unfold setKvConfig
  repeat' first | exact bit_sub rfl hm | (dsimp only [Upd.bit]; exact bit_sub rfl hm) | exact sub_trans rfl hm | with_reducible assumption | with_reducible constructor | with_reducible intro _ | with_reducible apply setCore_may | with_reducible apply acctSync_may | with_reducible apply placeTables_may | with_reducible apply designate_may | with_reducible apply omitRegion_may | with_reducible apply writeDescs_may | dsimp only | split

def mayKvConfig : Nat := mayAnswer ||| mayDeferReq ||| mayHostIn ||| maySetKvConfig
theorem kvConfig_may (hm : mayKvConfig ||| mk = mk) (f : Nat) (r : Req) :
    May mk (kvConfig f r) := by
  unfold kvConfig
  repeat' first | exact bit_sub rfl hm | (dsimp only [Upd.bit]; exact bit_sub rfl hm) | exact sub_trans rfl hm | with_reducible assumption | with_reducible constructor | with_reducible intro _ | with_reducible apply answer_may | with_reducible apply deferReq_may | with_reducible apply hostIn_may | with_reducible apply setKvConfig_may | dsimp only | split

def mayDoKvQuery : Nat := mayRespond' ||| mp .tick
theorem doKvQuery_may (hm : mayDoKvQuery ||| mk = mk) (f : Nat) (r : Req) :
    May mk (doKvQuery f r) := by
  unfold doKvQuery
  repeat' first | exact bit_sub rfl hm | (dsimp only [Upd.bit]; exact bit_sub rfl hm) | exact sub_trans rfl hm | with_reducible assumption | with_reducible constructor | with_reducible intro _ | with_reducible apply respond'_may | dsimp only | split

def maySeqAnswer : Nat := mayRespond'
theorem seqAnswer_may (hm : maySeqAnswer ||| mk = mk) (f q : Nat) :
    May mk (seqAnswer f q) := by
  unfold seqAnswer
  repeat' first | exact bit_sub rfl hm | (dsimp only [Upd.bit]; exact bit_sub rfl hm) | exact sub_trans rfl hm | with_reducible assumption | with_reducible constructor | with_reducible intro _ | with_reducible apply respond'_may | dsimp only | split

def mayMakeSeq : Nat := mayFwWrite ||| maySetSeqD ||| maySetSlag ||| mp .tick
theorem makeSeq_may (hm : mayMakeSeq ||| mk = mk) (x : SeqSt) (k : Option Nat → Eff) (hk : ∀ a, May mk (k a)) :
    May mk (makeSeq x k) := by
  unfold makeSeq
  repeat' first | exact bit_sub rfl hm | (dsimp only [Upd.bit]; exact bit_sub rfl hm) | exact sub_trans rfl hm | with_reducible assumption | with_reducible constructor | with_reducible intro _ | with_reducible apply fwWrite_may | with_reducible apply setSeqD_may | with_reducible apply setSlag_may | with_reducible apply hk | dsimp only | split

def maySeqCreate : Nat := mayAcctSync ||| mayAnswer ||| maySeqAnswer ||| mayMakeSeq
theorem seqCreate_may (hm : maySeqCreate ||| mk = mk) (f : Nat) (r : Req) :
    May mk (seqCreate f r) := by
  unfold seqCreate
  repeat' first | exact bit_sub rfl hm | (dsimp only [Upd.bit]; exact bit_sub rfl hm) | exact sub_trans rfl hm | with_reducible assumption | with_reducible constructor | with_reducible intro _ | with_reducible apply acctSync_may | with_reducible apply answer_may | with_reducible apply seqAnswer_may | with_reducible apply makeSeq_may | dsimp only | split

def mayWithSeq : Nat := mayAnswer
theorem withSeq_may (hm : mayWithSeq ||| mk = mk) (f : Nat) (r : Req) (k : Nat → SeqSt → Eff) (hk : ∀ a b, May mk (k a b)) :
    May mk (withSeq f r k) := by
  unfold withSeq
  repeat' first | exact bit_sub rfl hm | (dsimp only [Upd.bit]; exact bit_sub rfl hm) | exact sub_trans rfl hm | with_reducible assumption | with_reducible constructor | with_reducible intro _ | with_reducible apply answer_may | with_reducible apply hk | dsimp only | split

def maySharePage : Nat := maySetDesc ||| maySetPte ||| maySetShared ||| mayWriteSlot ||| mp .slot
theorem sharePage_may (hm : maySharePage ||| mk = mk) (a b st p : Nat) :
    May mk (sharePage a b st p) := by
  unfold sharePage
  repeat' first | exact bit_sub rfl hm | (dsimp only [Upd.bit]; exact bit_sub rfl hm) | exact sub_trans rfl hm | with_reducible assumption | with_reducible constructor | with_reducible intro _ | with_reducible apply setDesc_may | with_reducible apply setPte_may | with_reducible apply setShared_may | with_reducible apply writeSlot_may | dsimp only | split

def mayCopyPage : Nat := mayInvalLine ||| mayFwWrite ||| mayBsuTouch ||| mayCopyFrame ||| maySetDesc ||| maySetPte ||| mayFlPop ||| mayFlPopB ||| mayHeaderWord
theorem copyPage_may (hm : mayCopyPage ||| mk = mk) (a b st p tokens : Nat) :
    May mk (copyPage a b st p tokens) := by
  unfold copyPage
  repeat' first | exact bit_sub rfl hm | (dsimp only [Upd.bit]; exact bit_sub rfl hm) | exact sub_trans rfl hm | with_reducible assumption | with_reducible constructor | with_reducible intro _ | with_reducible apply invalLine_may | with_reducible apply fwWrite_may | with_reducible apply bsuTouch_may | with_reducible apply copyFrame_may | with_reducible apply setDesc_may | with_reducible apply setPte_may | with_reducible apply flPop_may | with_reducible apply flPopB_may | with_reducible apply headerWord_may | dsimp only | split

def maySeqFork : Nat := mayAcctSync ||| mayStarve ||| mayAnswer ||| maySeqAnswer ||| mayMakeSeq ||| mayWithSeq ||| maySharePage ||| mayCopyPage
theorem seqFork_may (hm : maySeqFork ||| mk = mk) (f : Nat) (r : Req) :
    May mk (seqFork f r) := by
  unfold seqFork
  repeat' first | exact bit_sub rfl hm | (dsimp only [Upd.bit]; exact bit_sub rfl hm) | exact sub_trans rfl hm | with_reducible assumption | with_reducible constructor | with_reducible intro _ | with_reducible apply acctSync_may | with_reducible apply starve_may | with_reducible apply answer_may | with_reducible apply seqAnswer_may | with_reducible apply makeSeq_may | with_reducible apply withSeq_may | with_reducible apply sharePage_may | with_reducible apply copyPage_may | dsimp only | split

def maySeqFree : Nat := maySetPte ||| maySetSeqD ||| maySetSlag ||| mayAcctSync ||| mayDropRef ||| mayLeaveSlot ||| mayDenyAside ||| mayStarve ||| mayAnswer ||| mayWithSeq
theorem seqFree_may (hm : maySeqFree ||| mk = mk) (f : Nat) (r : Req) :
    May mk (seqFree f r) := by
  unfold seqFree
  repeat' first | exact bit_sub rfl hm | (dsimp only [Upd.bit]; exact bit_sub rfl hm) | exact sub_trans rfl hm | with_reducible assumption | with_reducible constructor | with_reducible intro _ | with_reducible apply setPte_may | with_reducible apply setSeqD_may | with_reducible apply setSlag_may | with_reducible apply acctSync_may | with_reducible apply dropRef_may | with_reducible apply leaveSlot_may | with_reducible apply denyAside_may | with_reducible apply starve_may | with_reducible apply answer_may | with_reducible apply withSeq_may | dsimp only | split

def mayEvictNamed : Nat := mayDropEvict ||| maySwapBegin
theorem evictNamed_may (hm : mayEvictNamed ||| mk = mk) (q : Nat) :
    May mk (evictNamed q) := by
  unfold evictNamed
  repeat' first | exact bit_sub rfl hm | (dsimp only [Upd.bit]; exact bit_sub rfl hm) | exact sub_trans rfl hm | with_reducible assumption | with_reducible constructor | with_reducible intro _ | with_reducible apply dropEvict_may | with_reducible apply swapBegin_may | dsimp only | split

def maySeqEvict : Nat := mayDeferReq ||| mayWithSeq ||| mayEvictNamed
theorem seqEvict_may (hm : maySeqEvict ||| mk = mk) (f : Nat) (r : Req) :
    May mk (seqEvict f r) := by
  unfold seqEvict
  repeat' first | exact bit_sub rfl hm | (dsimp only [Upd.bit]; exact bit_sub rfl hm) | exact sub_trans rfl hm | with_reducible assumption | with_reducible constructor | with_reducible intro _ | with_reducible apply deferReq_may | with_reducible apply withSeq_may | with_reducible apply evictNamed_may | dsimp only | split

def maySeqReady : Nat := maySetPte ||| maySetSeqD ||| maySetSlag ||| mayAcctSync ||| mayAnswer ||| mayWithSeq
theorem seqReady_may (hm : maySeqReady ||| mk = mk) (f : Nat) (r : Req) :
    May mk (seqReady f r) := by
  unfold seqReady
  repeat' first | exact bit_sub rfl hm | (dsimp only [Upd.bit]; exact bit_sub rfl hm) | exact sub_trans rfl hm | with_reducible assumption | with_reducible constructor | with_reducible intro _ | with_reducible apply setPte_may | with_reducible apply setSeqD_may | with_reducible apply setSlag_may | with_reducible apply acctSync_may | with_reducible apply answer_may | with_reducible apply withSeq_may | dsimp only | split

def maySeqResume : Nat := maySetSeqD ||| mayAcctSync ||| mayAnswer ||| mayWithSeq
theorem seqResume_may (hm : maySeqResume ||| mk = mk) (f : Nat) (r : Req) :
    May mk (seqResume f r) := by
  unfold seqResume
  repeat' first | exact bit_sub rfl hm | (dsimp only [Upd.bit]; exact bit_sub rfl hm) | exact sub_trans rfl hm | with_reducible assumption | with_reducible constructor | with_reducible intro _ | with_reducible apply setSeqD_may | with_reducible apply acctSync_may | with_reducible apply answer_may | with_reducible apply withSeq_may | dsimp only | split

def mayDoPortConfig : Nat := mayWriteCfg ||| mayConfigPort ||| mayAnswer
theorem doPortConfig_may (hm : mayDoPortConfig ||| mk = mk) (f : Nat) (r : Req) :
    May mk (doPortConfig f r) := by
  unfold doPortConfig
  repeat' first | exact bit_sub rfl hm | (dsimp only [Upd.bit]; exact bit_sub rfl hm) | exact sub_trans rfl hm | with_reducible assumption | with_reducible constructor | with_reducible intro _ | with_reducible apply writeCfg_may | with_reducible apply configPort_may | with_reducible apply answer_may | dsimp only | split

def mayDoPortStatus : Nat := mayRespond' ||| mayAnswer ||| mp .tick ||| mr .FP_STAT_link_downs
theorem doPortStatus_may (hm : mayDoPortStatus ||| mk = mk) (f : Nat) (r : Req) :
    May mk (doPortStatus f r) := by
  unfold doPortStatus
  repeat' first | exact bit_sub rfl hm | (dsimp only [Upd.bit]; exact bit_sub rfl hm) | exact sub_trans rfl hm | with_reducible assumption | with_reducible constructor | with_reducible intro _ | with_reducible apply respond'_may | with_reducible apply answer_may | dsimp only | split

def mayDoEndpointSet : Nat := maySetMisc ||| mayWriteCfg ||| mayRespond' ||| mayAnswer
theorem doEndpointSet_may (hm : mayDoEndpointSet ||| mk = mk) (f : Nat) (r : Req) :
    May mk (doEndpointSet f r) := by
  unfold doEndpointSet
  repeat' first | exact bit_sub rfl hm | (dsimp only [Upd.bit]; exact bit_sub rfl hm) | exact sub_trans rfl hm | with_reducible assumption | with_reducible constructor | with_reducible intro _ | with_reducible apply setMisc_may | with_reducible apply writeCfg_may | with_reducible apply respond'_may | with_reducible apply answer_may | dsimp only | split

def mayJobJoin : Nat := mayAnswer ||| mayHostIn ||| mp .cring ||| mp .job
theorem jobJoin_may (hm : mayJobJoin ||| mk = mk) (f : Nat) (r : Req) :
    May mk (jobJoin f r) := by
  unfold jobJoin
  repeat' first | exact bit_sub rfl hm | (dsimp only [Upd.bit]; exact bit_sub rfl hm) | exact sub_trans rfl hm | with_reducible assumption | with_reducible constructor | with_reducible intro _ | with_reducible apply answer_may | with_reducible apply hostIn_may | dsimp only | split

def mayLeaveJob : Nat := maySetJob ||| mayRemovePeer ||| mp .job ||| mp .members
theorem leaveJob_may (hm : mayLeaveJob ||| mk = mk) (fl : Nat) :
    May mk (leaveJob fl) := by
  unfold leaveJob
  repeat' first | exact bit_sub rfl hm | (dsimp only [Upd.bit]; exact bit_sub rfl hm) | exact sub_trans rfl hm | with_reducible assumption | with_reducible constructor | with_reducible intro _ | with_reducible apply setJob_may | with_reducible apply removePeer_may | dsimp only | split

def mayDoJobLeave : Nat := mayAnswer ||| mayDeferReq ||| mayLeaveJob
theorem doJobLeave_may (hm : mayDoJobLeave ||| mk = mk) (f : Nat) (r : Req) :
    May mk (doJobLeave f r) := by
  unfold doJobLeave
  repeat' first | exact bit_sub rfl hm | (dsimp only [Upd.bit]; exact bit_sub rfl hm) | exact sub_trans rfl hm | with_reducible assumption | with_reducible constructor | with_reducible intro _ | with_reducible apply answer_may | with_reducible apply deferReq_may | with_reducible apply leaveJob_may | dsimp only | split

def mayJobKey : Nat := maySetJob ||| mayAnswer ||| mayHostIn
theorem jobKey_may (hm : mayJobKey ||| mk = mk) (f : Nat) (r : Req) :
    May mk (jobKey f r) := by
  unfold jobKey
  repeat' first | exact bit_sub rfl hm | (dsimp only [Upd.bit]; exact bit_sub rfl hm) | exact sub_trans rfl hm | with_reducible assumption | with_reducible constructor | with_reducible intro _ | with_reducible apply setJob_may | with_reducible apply answer_may | with_reducible apply hostIn_may | dsimp only | split

def mayCommitTable : Nat := maySetJob ||| mayRemovePeer ||| mp .members
theorem commitTable_may (hm : mayCommitTable ||| mk = mk) (fl epoch : Nat) (ms : List Member) :
    May mk (commitTable fl epoch ms) := by
  unfold commitTable
  repeat' first | exact bit_sub rfl hm | (dsimp only [Upd.bit]; exact bit_sub rfl hm) | exact sub_trans rfl hm | with_reducible assumption | with_reducible constructor | with_reducible intro _ | with_reducible apply setJob_may | with_reducible apply removePeer_may | dsimp only | split

def mayMembershipCommit : Nat := mayRespond' ||| mayAnswer ||| mayHostIn ||| mayCommitTable
theorem membershipCommit_may (hm : mayMembershipCommit ||| mk = mk) (f : Nat) (r : Req) :
    May mk (membershipCommit f r) := by
  unfold membershipCommit
  repeat' first | exact bit_sub rfl hm | (dsimp only [Upd.bit]; exact bit_sub rfl hm) | exact sub_trans rfl hm | with_reducible assumption | with_reducible constructor | with_reducible intro _ | with_reducible apply respond'_may | with_reducible apply answer_may | with_reducible apply hostIn_may | with_reducible apply commitTable_may | dsimp only | split

def mayDoWork : Nat := mayFreeCtx ||| mayDoFlaskSet ||| mayDoFlaskRemove ||| mayRetireFrame ||| mayEvictNamed ||| mp .wq
theorem doWork_may (hm : mayDoWork ||| mk = mk) :
    ∀ b0, May mk (doWork b0) := by
  intro b0
  unfold doWork
  repeat' first | exact bit_sub rfl hm | (dsimp only [Upd.bit]; exact bit_sub rfl hm) | exact sub_trans rfl hm | with_reducible assumption | with_reducible constructor | with_reducible intro _ | with_reducible apply freeCtx_may | with_reducible apply doFlaskSet_may | with_reducible apply doFlaskRemove_may | with_reducible apply retireFrame_may | with_reducible apply evictNamed_may | dsimp only | split

def mayDeferredCompletion : Nat := maySetFn ||| mayHostRing ||| mayDoWork ||| mp .mbox
theorem deferredCompletion_may (hm : mayDeferredCompletion ||| mk = mk) (f : Nat) :
    May mk (deferredCompletion f) := by
  unfold deferredCompletion
  repeat' first | exact bit_sub rfl hm | (dsimp only [Upd.bit]; exact bit_sub rfl hm) | exact sub_trans rfl hm | with_reducible assumption | with_reducible constructor | with_reducible intro _ | with_reducible apply setFn_may | with_reducible apply hostRing_may | with_reducible apply doWork_may | dsimp only | split

def mayApplyClocks : Nat := maySetClocks
theorem applyClocks_may (hm : mayApplyClocks ||| mk = mk) (st : Nat) :
    May mk (applyClocks st) := by
  unfold applyClocks
  repeat' first | exact bit_sub rfl hm | (dsimp only [Upd.bit]; exact bit_sub rfl hm) | exact sub_trans rfl hm | with_reducible assumption | with_reducible constructor | with_reducible intro _ | with_reducible apply setClocks_may | dsimp only | split

def mayApplyAllClocks : Nat := mayApplyClocks
theorem applyAllClocks_may (hm : mayApplyAllClocks ||| mk = mk) :
    May mk applyAllClocks := by
  unfold applyAllClocks
  repeat' first | exact bit_sub rfl hm | (dsimp only [Upd.bit]; exact bit_sub rfl hm) | exact sub_trans rfl hm | with_reducible assumption | with_reducible constructor | with_reducible intro _ | with_reducible apply applyClocks_may | dsimp only | split

def maySetRefresh : Nat := maySetSlice ||| mr .MC_CFG_refresh
theorem setRefresh_may (hm : maySetRefresh ||| mk = mk) (st v : Nat) :
    May mk (setRefresh st v) := by
  unfold setRefresh
  repeat' first | exact bit_sub rfl hm | (dsimp only [Upd.bit]; exact bit_sub rfl hm) | exact sub_trans rfl hm | with_reducible assumption | with_reducible constructor | with_reducible intro _ | with_reducible apply setSlice_may | dsimp only | split

def maySetCap : Nat := mr .BSU_CAP_streams
theorem setCap_may (hm : maySetCap ||| mk = mk) (st : Nat) (f : Nat → Nat) :
    May mk (setCap st f) := by
  unfold setCap
  repeat' first | exact bit_sub rfl hm | (dsimp only [Upd.bit]; exact bit_sub rfl hm) | exact sub_trans rfl hm | with_reducible assumption | with_reducible constructor | with_reducible intro _ | dsimp only | split

def mayShowAlarm : Nat := maySetMisc
theorem showAlarm_may (hm : mayShowAlarm ||| mk = mk) :
    May mk showAlarm := by
  unfold showAlarm
  repeat' first | exact bit_sub rfl hm | (dsimp only [Upd.bit]; exact bit_sub rfl hm) | exact sub_trans rfl hm | with_reducible assumption | with_reducible constructor | with_reducible intro _ | with_reducible apply setMisc_may | dsimp only | split

def mayWriteShut : Nat := maySetTherm ||| mp .shut
theorem writeShut_may (hm : mayWriteShut ||| mk = mk) (t : Nat) (ws : List Nat) :
    May mk (writeShut t ws) := by
  unfold writeShut
  repeat' first | exact bit_sub rfl hm | (dsimp only [Upd.bit]; exact bit_sub rfl hm) | exact sub_trans rfl hm | with_reducible assumption | with_reducible constructor | with_reducible intro _ | with_reducible apply setTherm_may | dsimp only | split

def mayTripStack : Nat := maySetTh ||| mayDoorbell ||| mayHoldFp ||| mayShowAlarm ||| mp .tick ||| mr .TH_STAT_cause ||| mr .TH_STAT_tripped
theorem tripStack_may (hm : mayTripStack ||| mk = mk) (st cause : Nat) :
    May mk (tripStack st cause) := by
  unfold tripStack
  repeat' first | exact bit_sub rfl hm | (dsimp only [Upd.bit]; exact bit_sub rfl hm) | exact sub_trans rfl hm | with_reducible assumption | with_reducible constructor | with_reducible intro _ | with_reducible apply setTh_may | with_reducible apply doorbell_may | with_reducible apply holdFp_may | with_reducible apply showAlarm_may | dsimp only | split

def mayEndTrip : Nat := maySetStack ||| maySetTh ||| mayReleaseFp ||| mayApplyClocks ||| mayShowAlarm ||| mr .TH_STAT_cause ||| mr .TH_STAT_tripped
theorem endTrip_may (hm : mayEndTrip ||| mk = mk) (st : Nat) :
    May mk (endTrip st) := by
  unfold endTrip
  repeat' first | exact bit_sub rfl hm | (dsimp only [Upd.bit]; exact bit_sub rfl hm) | exact sub_trans rfl hm | with_reducible assumption | with_reducible constructor | with_reducible intro _ | with_reducible apply setStack_may | with_reducible apply setTh_may | with_reducible apply releaseFp_may | with_reducible apply applyClocks_may | with_reducible apply showAlarm_may | dsimp only | split

def mayThermAck : Nat := mayAnswer ||| mayEndTrip ||| mp .shut
theorem thermAck_may (hm : mayThermAck ||| mk = mk) (f : Nat) (r : Req) :
    May mk (thermAck f r) := by
  unfold thermAck
  repeat' first | exact bit_sub rfl hm | (dsimp only [Upd.bit]; exact bit_sub rfl hm) | exact sub_trans rfl hm | with_reducible assumption | with_reducible constructor | with_reducible intro _ | with_reducible apply answer_may | with_reducible apply endTrip_may | dsimp only | split

def mayThRelease : Nat := mayEndTrip
theorem thRelease_may (hm : mayThRelease ||| mk = mk) (st : Nat) :
    May mk (thRelease st) := by
  unfold thRelease
  repeat' first | exact bit_sub rfl hm | (dsimp only [Upd.bit]; exact bit_sub rfl hm) | exact sub_trans rfl hm | with_reducible assumption | with_reducible constructor | with_reducible intro _ | with_reducible apply endTrip_may | dsimp only | split

def mayDoPwrLimit : Nat := mayWriteCfg ||| mayRespond' ||| mayAnswer
theorem doPwrLimit_may (hm : mayDoPwrLimit ||| mk = mk) (f : Nat) (r : Req) :
    May mk (doPwrLimit f r) := by
  unfold doPwrLimit
  repeat' first | exact bit_sub rfl hm | (dsimp only [Upd.bit]; exact bit_sub rfl hm) | exact sub_trans rfl hm | with_reducible assumption | with_reducible constructor | with_reducible intro _ | with_reducible apply writeCfg_may | with_reducible apply respond'_may | with_reducible apply answer_may | dsimp only | split

def mayDoLegacyGrade : Nat := mayWriteCfg ||| mayRespond' ||| mayApplyAllClocks
theorem doLegacyGrade_may (hm : mayDoLegacyGrade ||| mk = mk) (f : Nat) (r : Req) :
    May mk (doLegacyGrade f r) := by
  unfold doLegacyGrade
  repeat' first | exact bit_sub rfl hm | (dsimp only [Upd.bit]; exact bit_sub rfl hm) | exact sub_trans rfl hm | with_reducible assumption | with_reducible constructor | with_reducible intro _ | with_reducible apply writeCfg_may | with_reducible apply respond'_may | with_reducible apply applyAllClocks_may | dsimp only | split

def mayDoGetInfo : Nat := mayRespond' ||| mp .tick
theorem doGetInfo_may (hm : mayDoGetInfo ||| mk = mk) (f : Nat) (x0 : Req) :
    May mk (doGetInfo f x0) := by
  unfold doGetInfo
  repeat' first | exact bit_sub rfl hm | (dsimp only [Upd.bit]; exact bit_sub rfl hm) | exact sub_trans rfl hm | with_reducible assumption | with_reducible constructor | with_reducible intro _ | with_reducible apply respond'_may | dsimp only | split

def mayLicenceInstall : Nat := maySetSec ||| maySetMisc ||| mayRespond' ||| mayAnswer ||| mayHostIn
theorem licenceInstall_may (hm : mayLicenceInstall ||| mk = mk) (f : Nat) (r : Req) :
    May mk (licenceInstall f r) := by
  unfold licenceInstall
  repeat' first | exact bit_sub rfl hm | (dsimp only [Upd.bit]; exact bit_sub rfl hm) | exact sub_trans rfl hm | with_reducible assumption | with_reducible constructor | with_reducible intro _ | with_reducible apply setSec_may | with_reducible apply setMisc_may | with_reducible apply respond'_may | with_reducible apply answer_may | with_reducible apply hostIn_may | dsimp only | split

def mayAttest : Nat := maySetSec ||| mayRespond'
theorem attest_may (hm : mayAttest ||| mk = mk) (f : Nat) (r : Req) :
    May mk (attest f r) := by
  unfold attest
  repeat' first | exact bit_sub rfl hm | (dsimp only [Upd.bit]; exact bit_sub rfl hm) | exact sub_trans rfl hm | with_reducible assumption | with_reducible constructor | with_reducible intro _ | with_reducible apply setSec_may | with_reducible apply respond'_may | dsimp only | split

def maySetImgBank : Nat := maySetFw
theorem setImgBank_may (hm : maySetImgBank ||| mk = mk) (k : Nat) (g : ImgBank → ImgBank) :
    May mk (setImgBank k g) := by
  unfold setImgBank
  repeat' first | exact bit_sub rfl hm | (dsimp only [Upd.bit]; exact bit_sub rfl hm) | exact sub_trans rfl hm | with_reducible assumption | with_reducible constructor | with_reducible intro _ | with_reducible apply setFw_may | dsimp only | split

def mayImageLog : Nat := mayLogFree
theorem imageLog_may (hm : mayImageLog ||| mk = mk) :
    May mk imageLog := by
  unfold imageLog
  repeat' first | exact bit_sub rfl hm | (dsimp only [Upd.bit]; exact bit_sub rfl hm) | exact sub_trans rfl hm | with_reducible assumption | with_reducible constructor | with_reducible intro _ | with_reducible apply logFree_may | dsimp only | split

def mayFwUpdate : Nat := mayRespond' ||| mayAnswer ||| mayHostIn ||| maySetImgBank ||| mayImageLog
theorem fwUpdate_may (hm : mayFwUpdate ||| mk = mk) (f : Nat) (r : Req) :
    May mk (fwUpdate f r) := by
  unfold fwUpdate
  repeat' first | exact bit_sub rfl hm | (dsimp only [Upd.bit]; exact bit_sub rfl hm) | exact sub_trans rfl hm | with_reducible assumption | with_reducible constructor | with_reducible intro _ | with_reducible apply respond'_may | with_reducible apply answer_may | with_reducible apply hostIn_may | with_reducible apply setImgBank_may | with_reducible apply imageLog_may | dsimp only | split

def mayDoFwActivate : Nat := maySetFw ||| mayAnswer ||| maySetImgBank ||| mayImageLog
theorem doFwActivate_may (hm : mayDoFwActivate ||| mk = mk) (f : Nat) (r : Req) :
    May mk (doFwActivate f r) := by
  unfold doFwActivate
  repeat' first | exact bit_sub rfl hm | (dsimp only [Upd.bit]; exact bit_sub rfl hm) | exact sub_trans rfl hm | with_reducible assumption | with_reducible constructor | with_reducible intro _ | with_reducible apply setFw_may | with_reducible apply answer_may | with_reducible apply setImgBank_may | with_reducible apply imageLog_may | dsimp only | split

def mayStartRing : Nat := mayFwWrite
theorem startRing_may (hm : mayStartRing ||| mk = mk) (base cap : Nat) :
    May mk (startRing base cap) := by
  unfold startRing
  repeat' first | exact bit_sub rfl hm | (dsimp only [Upd.bit]; exact bit_sub rfl hm) | exact sub_trans rfl hm | with_reducible assumption | with_reducible constructor | with_reducible intro _ | with_reducible apply fwWrite_may | dsimp only | split

def mayDoLogConfig : Nat := maySetMisc ||| mayWriteCfg ||| mayAnswer ||| mayStartRing ||| mp .dropped
theorem doLogConfig_may (hm : mayDoLogConfig ||| mk = mk) (f : Nat) (r : Req) :
    May mk (doLogConfig f r) := by
  unfold doLogConfig
  repeat' first | exact bit_sub rfl hm | (dsimp only [Upd.bit]; exact bit_sub rfl hm) | exact sub_trans rfl hm | with_reducible assumption | with_reducible constructor | with_reducible intro _ | with_reducible apply setMisc_may | with_reducible apply writeCfg_may | with_reducible apply answer_may | with_reducible apply startRing_may | dsimp only | split

def mayDoLogFetch : Nat := mayRespond' ||| mayHostOut
theorem doLogFetch_may (hm : mayDoLogFetch ||| mk = mk) (f : Nat) (r : Req) :
    May mk (doLogFetch f r) := by
  unfold doLogFetch
  repeat' first | exact bit_sub rfl hm | (dsimp only [Upd.bit]; exact bit_sub rfl hm) | exact sub_trans rfl hm | with_reducible assumption | with_reducible constructor | with_reducible intro _ | with_reducible apply respond'_may | with_reducible apply hostOut_may | dsimp only | split

def mayDoTraceSet : Nat := maySetFw ||| mayAnswer
theorem doTraceSet_may (hm : mayDoTraceSet ||| mk = mk) (f : Nat) (r : Req) :
    May mk (doTraceSet f r) := by
  unfold doTraceSet
  repeat' first | exact bit_sub rfl hm | (dsimp only [Upd.bit]; exact bit_sub rfl hm) | exact sub_trans rfl hm | with_reducible assumption | with_reducible constructor | with_reducible intro _ | with_reducible apply setFw_may | with_reducible apply answer_may | dsimp only | split

def mayDoTraceQuery : Nat := mayRespond' ||| mayHostOut
theorem doTraceQuery_may (hm : mayDoTraceQuery ||| mk = mk) (f : Nat) (r : Req) :
    May mk (doTraceQuery f r) := by
  unfold doTraceQuery
  repeat' first | exact bit_sub rfl hm | (dsimp only [Upd.bit]; exact bit_sub rfl hm) | exact sub_trans rfl hm | with_reducible assumption | with_reducible constructor | with_reducible intro _ | with_reducible apply respond'_may | with_reducible apply hostOut_may | dsimp only | split

end Sys2Proof.Machine
end

