-- ==== Sys2Proof/Laws/MayEvent.lean ====
section
/-! SUPPORT. What each operation may change, one set and one lemma an operation: bring-up, temperature, firmware, errors, the host port, the gatherers. -/
set_option exponentiation.threshold 1000
set_option maxRecDepth 20000
set_option linter.unusedTactic false
set_option linter.unreachableTactic false
set_option linter.unusedVariables false
namespace Sys2Proof.Machine
variable {mk : Nat}

def mayBootLog : Nat := mayBootRecord
theorem bootLog_may (hm : mayBootLog ||| mk = mk) (code : Nat) :
    May mk (bootLog code) := by
  unfold bootLog
  repeat' first | exact bit_sub rfl hm | (dsimp only [Upd.bit]; exact bit_sub rfl hm) | exact sub_trans rfl hm | with_reducible assumption | with_reducible constructor | with_reducible intro _ | with_reducible apply bootRecord_may | dsimp only | split

def mayEnterPhase : Nat := maySetMisc ||| mayBootLog
theorem enterPhase_may (hm : mayEnterPhase ||| mk = mk) (p : Nat) :
    May mk (enterPhase p) := by
  unfold enterPhase
  repeat' first | exact bit_sub rfl hm | (dsimp only [Upd.bit]; exact bit_sub rfl hm) | exact sub_trans rfl hm | with_reducible assumption | with_reducible constructor | with_reducible intro _ | with_reducible apply setMisc_may | with_reducible apply bootLog_may | dsimp only | split

def mayCountTrial : Nat := maySetFw ||| maySetImgBank ||| mayImageLog
theorem countTrial_may (hm : mayCountTrial ||| mk = mk) :
    May mk countTrial := by
  unfold countTrial
  repeat' first | exact bit_sub rfl hm | (dsimp only [Upd.bit]; exact bit_sub rfl hm) | exact sub_trans rfl hm | with_reducible assumption | with_reducible constructor | with_reducible intro _ | with_reducible apply setFw_may | with_reducible apply setImgBank_may | with_reducible apply imageLog_may | dsimp only | split

def mayReadConfig : Nat := maySetMisc ||| mayLogRec ||| mp .cfg
theorem readConfig_may (hm : mayReadConfig ||| mk = mk) :
    May mk readConfig := by
  unfold readConfig
  repeat' first | exact bit_sub rfl hm | (dsimp only [Upd.bit]; exact bit_sub rfl hm) | exact sub_trans rfl hm | with_reducible assumption | with_reducible constructor | with_reducible intro _ | with_reducible apply setMisc_may | with_reducible apply logRec_may | dsimp only | split

def mayUseConfig : Nat := maySetMisc
theorem useConfig_may (hm : mayUseConfig ||| mk = mk) :
    May mk useConfig := by
  unfold useConfig
  repeat' first | exact bit_sub rfl hm | (dsimp only [Upd.bit]; exact bit_sub rfl hm) | exact sub_trans rfl hm | with_reducible assumption | with_reducible constructor | with_reducible intro _ | with_reducible apply setMisc_may | dsimp only | split

def mayCheckLicences : Nat := maySetMisc ||| mayLogRec ||| mp .tick ||| mayFreshWords
theorem checkLicences_may (hm : mayCheckLicences ||| mk = mk) :
    May mk checkLicences := by
  unfold checkLicences
  repeat' first | exact bit_sub rfl hm | (dsimp only [Upd.bit]; exact bit_sub rfl hm) | exact sub_trans rfl hm | with_reducible assumption | with_reducible constructor | with_reducible intro _ | with_reducible apply setMisc_may | with_reducible apply logRec_may | with_reducible apply freshWords_may | dsimp only | split

def mayFirstConversion : Nat := mr .TH_CONV_busy ||| mr .TH_WDOG_armed
theorem firstConversion_may (hm : mayFirstConversion ||| mk = mk) (t : Nat) :
    May mk (firstConversion t) := by
  unfold firstConversion
  repeat' first | exact bit_sub rfl hm | (dsimp only [Upd.bit]; exact bit_sub rfl hm) | exact sub_trans rfl hm | with_reducible assumption | with_reducible constructor | with_reducible intro _ | dsimp only | split

def mayIodRecord : Nat := maySetTherm ||| mayWriteShut ||| mp .tick
theorem iodRecord_may (hm : mayIodRecord ||| mk = mk) :
    May mk iodRecord := by
  unfold iodRecord
  repeat' first | exact bit_sub rfl hm | (dsimp only [Upd.bit]; exact bit_sub rfl hm) | exact sub_trans rfl hm | with_reducible assumption | with_reducible constructor | with_reducible intro _ | with_reducible apply setTherm_may | with_reducible apply writeShut_may | dsimp only | split

def mayLoadImages : Nat := maySetFw ||| mayCheckWaiting ||| mayApplyAllClocks ||| mayImageLog ||| mayEnterPhase ||| mayCountTrial ||| mayReadConfig ||| mayUseConfig ||| mayCheckLicences ||| mayFirstConversion ||| mayIodRecord
theorem loadImages_may (hm : mayLoadImages ||| mk = mk) (r : PhaseIn) (next : Nat) :
    May mk (loadImages r next) := by
  unfold loadImages
  repeat' first | exact bit_sub rfl hm | (dsimp only [Upd.bit]; exact bit_sub rfl hm) | exact sub_trans rfl hm | with_reducible assumption | with_reducible constructor | with_reducible intro _ | with_reducible apply setFw_may | with_reducible apply checkWaiting_may | with_reducible apply applyAllClocks_may | with_reducible apply imageLog_may | with_reducible apply enterPhase_may | with_reducible apply countTrial_may | with_reducible apply readConfig_may | with_reducible apply useConfig_may | with_reducible apply checkLicences_may | with_reducible apply firstConversion_may | with_reducible apply iodRecord_may | dsimp only | split

def mayExcludeUnit : Nat := maySetCluster ||| maySetSlice ||| mr .MC_CFG_cache_en
theorem excludeUnit_may (hm : mayExcludeUnit ||| mk = mk) (u : UnitId) :
    May mk (excludeUnit u) := by
  unfold excludeUnit
  repeat' first | exact bit_sub rfl hm | (dsimp only [Upd.bit]; exact bit_sub rfl hm) | exact sub_trans rfl hm | with_reducible assumption | with_reducible constructor | with_reducible intro _ | with_reducible apply setCluster_may | with_reducible apply setSlice_may | dsimp only | split

def mayTestUnits : Nat := mayReport ||| mayExcludeUnit ||| mp .excl ||| mp .excluded
theorem testUnits_may (hm : mayTestUnits ||| mk = mk) (us : List UnitId) (cls : List Nat) (kind : Nat) :
    May mk (testUnits us cls kind) := by
  unfold testUnits
  repeat' first | exact bit_sub rfl hm | (dsimp only [Upd.bit]; exact bit_sub rfl hm) | exact sub_trans rfl hm | with_reducible assumption | with_reducible constructor | with_reducible intro _ | with_reducible apply report_may | with_reducible apply excludeUnit_may | dsimp only | split

def mayAssignRoles : Nat := maySetCluster ||| maySetMisc
theorem assignRoles_may (hm : mayAssignRoles ||| mk = mk) :
    May mk assignRoles := by
  unfold assignRoles
  repeat' first | exact bit_sub rfl hm | (dsimp only [Upd.bit]; exact bit_sub rfl hm) | exact sub_trans rfl hm | with_reducible assumption | with_reducible constructor | with_reducible intro _ | with_reducible apply setCluster_may | with_reducible apply setMisc_may | dsimp only | split

def mayGradeCheck : Nat := maySetMisc
theorem gradeCheck_may (hm : mayGradeCheck ||| mk = mk) :
    May mk gradeCheck := by
  unfold gradeCheck
  repeat' first | exact bit_sub rfl hm | (dsimp only [Upd.bit]; exact bit_sub rfl hm) | exact sub_trans rfl hm | with_reducible assumption | with_reducible constructor | with_reducible intro _ | with_reducible apply setMisc_may | dsimp only | split

def mayTestLanes : Nat := mayReport ||| mp .excl ||| mp .tick
theorem testLanes_may (hm : mayTestLanes ||| mk = mk) (ls : List (Nat × Nat × Nat)) :
    May mk (testLanes ls) := by
  unfold testLanes
  repeat' first | exact bit_sub rfl hm | (dsimp only [Upd.bit]; exact bit_sub rfl hm) | exact sub_trans rfl hm | with_reducible assumption | with_reducible constructor | with_reducible intro _ | with_reducible apply report_may | dsimp only | split

def mayTrainAll : Nat := maySetStack ||| mayReroute ||| mayRestoreRoutes ||| mayTrainLink ||| mayGradeCheck ||| mayTestLanes
theorem trainAll_may (hm : mayTrainAll ||| mk = mk) (ls : List (Nat × Nat × Nat)) :
    May mk (trainAll ls) := by
  unfold trainAll
  repeat' first | exact bit_sub rfl hm | (dsimp only [Upd.bit]; exact bit_sub rfl hm) | exact sub_trans rfl hm | with_reducible assumption | with_reducible constructor | with_reducible intro _ | with_reducible apply setStack_may | with_reducible apply reroute_may | with_reducible apply restoreRoutes_may | with_reducible apply trainLink_may | with_reducible apply gradeCheck_may | with_reducible apply testLanes_may | dsimp only | split

def mayMapFar : Nat := maySetMisc
theorem mapFar_may (hm : mayMapFar ||| mk = mk) (caps : List Nat) :
    May mk (mapFar caps) := by
  unfold mapFar
  repeat' first | exact bit_sub rfl hm | (dsimp only [Upd.bit]; exact bit_sub rfl hm) | exact sub_trans rfl hm | with_reducible assumption | with_reducible constructor | with_reducible intro _ | with_reducible apply setMisc_may | dsimp only | split

def mayReserveRegions : Nat := maySetMisc ||| mayStartRing ||| mp .tick
theorem reserveRegions_may (hm : mayReserveRegions ||| mk = mk) :
    May mk reserveRegions := by
  unfold reserveRegions
  repeat' first | exact bit_sub rfl hm | (dsimp only [Upd.bit]; exact bit_sub rfl hm) | exact sub_trans rfl hm | with_reducible assumption | with_reducible constructor | with_reducible intro _ | with_reducible apply setMisc_may | with_reducible apply startRing_may | dsimp only | split

def mayInitMemory : Nat := maySetCluster ||| mayStartGather ||| mayClusterReturn ||| mayReloadRetired ||| mayInitStack ||| mayMapFar ||| mayReserveRegions
theorem initMemory_may (hm : mayInitMemory ||| mk = mk) (far : List Nat) :
    May mk (initMemory far) := by
  unfold initMemory
  repeat' first | exact bit_sub rfl hm | (dsimp only [Upd.bit]; exact bit_sub rfl hm) | exact sub_trans rfl hm | with_reducible assumption | with_reducible constructor | with_reducible intro _ | with_reducible apply setCluster_may | with_reducible apply startGather_may | with_reducible apply clusterReturn_may | with_reducible apply reloadRetired_may | with_reducible apply initStack_may | with_reducible apply mapFar_may | with_reducible apply reserveRegions_may | dsimp only | split

def mayStartPorts : Nat := mayStartQual ||| mayApplyPort
theorem startPorts_may (hm : mayStartPorts ||| mk = mk) (warm : Bool) :
    May mk (startPorts warm) := by
  unfold startPorts
  repeat' first | exact bit_sub rfl hm | (dsimp only [Upd.bit]; exact bit_sub rfl hm) | exact sub_trans rfl hm | with_reducible assumption | with_reducible constructor | with_reducible intro _ | with_reducible apply startQual_may | with_reducible apply applyPort_may | dsimp only | split

def mayConfirmBank : Nat := maySetSec ||| maySetImgBank ||| mayImageLog
theorem confirmBank_may (hm : mayConfirmBank ||| mk = mk) :
    May mk confirmBank := by
  unfold confirmBank
  repeat' first | exact bit_sub rfl hm | (dsimp only [Upd.bit]; exact bit_sub rfl hm) | exact sub_trans rfl hm | with_reducible assumption | with_reducible constructor | with_reducible intro _ | with_reducible apply setSec_may | with_reducible apply setImgBank_may | with_reducible apply imageLog_may | dsimp only | split

def mayStoreSettings : Nat := maySetTh
theorem storeSettings_may (hm : mayStoreSettings ||| mk = mk) :
    May mk storeSettings := by
  unfold storeSettings
  repeat' first | exact bit_sub rfl hm | (dsimp only [Upd.bit]; exact bit_sub rfl hm) | exact sub_trans rfl hm | with_reducible assumption | with_reducible constructor | with_reducible intro _ | with_reducible apply setTh_may | dsimp only | split

def mayInService : Nat := maySetFw ||| maySetMisc ||| mayBootLog ||| mayConfirmBank ||| mayStoreSettings
theorem inService_may (hm : mayInService ||| mk = mk) (code : Nat) :
    May mk (inService code) := by
  unfold inService
  repeat' first | exact bit_sub rfl hm | (dsimp only [Upd.bit]; exact bit_sub rfl hm) | exact sub_trans rfl hm | with_reducible assumption | with_reducible constructor | with_reducible intro _ | with_reducible apply setFw_may | with_reducible apply setMisc_may | with_reducible apply bootLog_may | with_reducible apply confirmBank_may | with_reducible apply storeSettings_may | dsimp only | split

def mayColdPhase : Nat := mayEnterPhase ||| mayLoadImages ||| mayTestUnits ||| mayAssignRoles ||| mayTrainAll ||| mayInitMemory ||| mayStartPorts ||| mayInService ||| mr .CRS_STAT_fab_lock ||| mr .CRS_STAT_mem_lock ||| mr .CRS_STAT_region_lock
theorem coldPhase_may (hm : mayColdPhase ||| mk = mk) (r : PhaseIn) :
    May mk (coldPhase r) := by
  unfold coldPhase
  repeat' first | exact bit_sub rfl hm | (dsimp only [Upd.bit]; exact bit_sub rfl hm) | exact sub_trans rfl hm | with_reducible assumption | with_reducible constructor | with_reducible intro _ | with_reducible apply enterPhase_may | with_reducible apply loadImages_may | with_reducible apply testUnits_may | with_reducible apply assignRoles_may | with_reducible apply trainAll_may | with_reducible apply initMemory_may | with_reducible apply startPorts_may | with_reducible apply inService_may | dsimp only | split

def mayIodReset : Nat := maySetFw ||| maySetSec ||| mayStepEnd ||| mayResetIod
theorem iodReset_may (hm : mayIodReset ||| mk = mk) :
    May mk iodReset := by
  unfold iodReset
  repeat' first | exact bit_sub rfl hm | (dsimp only [Upd.bit]; exact bit_sub rfl hm) | exact sub_trans rfl hm | with_reducible assumption | with_reducible constructor | with_reducible intro _ | with_reducible apply setFw_may | with_reducible apply setSec_may | with_reducible apply stepEnd_may | with_reducible apply resetIod_may | dsimp only | split

def mayWarmReentry : Nat := maySetStack ||| maySetFw ||| mayReleaseFp ||| mayEnterPhase ||| mayIodReset
theorem warmReentry_may (hm : mayWarmReentry ||| mk = mk) :
    May mk warmReentry := by
  unfold warmReentry
  repeat' first | exact bit_sub rfl hm | (dsimp only [Upd.bit]; exact bit_sub rfl hm) | exact sub_trans rfl hm | with_reducible assumption | with_reducible constructor | with_reducible intro _ | with_reducible apply setStack_may | with_reducible apply setFw_may | with_reducible apply releaseFp_may | with_reducible apply enterPhase_may | with_reducible apply iodReset_may | dsimp only | split

def mayWarmStep : Nat := maySetStack ||| maySyncTokens ||| mayStartGather ||| mayReleaseFp ||| mayFpReturn ||| mayEndGrant ||| mayEnterPhase ||| mayLoadImages ||| mayTestUnits ||| mayAssignRoles ||| mayGradeCheck ||| mayTrainAll ||| mayStartPorts ||| mayInService
theorem warmStep_may (hm : mayWarmStep ||| mk = mk) (r : PhaseIn) :
    May mk (warmStep r) := by
  unfold warmStep
  repeat' first | exact bit_sub rfl hm | (dsimp only [Upd.bit]; exact bit_sub rfl hm) | exact sub_trans rfl hm | with_reducible assumption | with_reducible constructor | with_reducible intro _ | with_reducible apply setStack_may | with_reducible apply syncTokens_may | with_reducible apply startGather_may | with_reducible apply releaseFp_may | with_reducible apply fpReturn_may | with_reducible apply endGrant_may | with_reducible apply enterPhase_may | with_reducible apply loadImages_may | with_reducible apply testUnits_may | with_reducible apply assignRoles_may | with_reducible apply gradeCheck_may | with_reducible apply trainAll_may | with_reducible apply startPorts_may | with_reducible apply inService_may | dsimp only | split

def mayTelemetryRec : Nat := mayLogRec ||| mayFreshWords
theorem telemetryRec_may (hm : mayTelemetryRec ||| mk = mk) (unit sev : Nat) :
    May mk (telemetryRec unit sev) := by
  unfold telemetryRec
  repeat' first | exact bit_sub rfl hm | (dsimp only [Upd.bit]; exact bit_sub rfl hm) | exact sub_trans rfl hm | with_reducible assumption | with_reducible constructor | with_reducible intro _ | with_reducible apply logRec_may | with_reducible apply freshWords_may | dsimp only | split

def mayShutdownRecordEff : Nat := maySetTh ||| mayHostRing ||| mayWriteShut
theorem shutdownRecordEff_may (hm : mayShutdownRecordEff ||| mk = mk) (t : ThIx) (s : State) :
    May mk (shutdownRecordEff t s) := by
  unfold shutdownRecordEff
  repeat' first | exact bit_sub rfl hm | (dsimp only [Upd.bit]; exact bit_sub rfl hm) | exact sub_trans rfl hm | with_reducible assumption | with_reducible constructor | with_reducible intro _ | with_reducible apply setTh_may | with_reducible apply hostRing_may | with_reducible apply writeShut_may | dsimp only | split

def mayConvReq : Nat := mayFirstConversion
theorem convReq_may (hm : mayConvReq ||| mk = mk) (t : Nat) :
    May mk (convReq t) := by
  unfold convReq
  repeat' first | exact bit_sub rfl hm | (dsimp only [Upd.bit]; exact bit_sub rfl hm) | exact sub_trans rfl hm | with_reducible assumption | with_reducible constructor | with_reducible intro _ | with_reducible apply firstConversion_may | dsimp only | split

def mayActBand : Nat := maySetTh ||| mayApplyClocks ||| maySetCap
theorem actBand_may (hm : mayActBand ||| mk = mk) (st band : Nat) (dram : Int) :
    May mk (actBand st band dram) := by
  unfold actBand
  repeat' first | exact bit_sub rfl hm | (dsimp only [Upd.bit]; exact bit_sub rfl hm) | exact sub_trans rfl hm | with_reducible assumption | with_reducible constructor | with_reducible intro _ | with_reducible apply setTh_may | with_reducible apply applyClocks_may | with_reducible apply setCap_may | dsimp only | split

def mayKeepWarm : Nat := maySetTh ||| maySetMisc
theorem keepWarm_may (hm : mayKeepWarm ||| mk = mk) (st : Nat) (valid : Bool) (logic : Int) :
    May mk (keepWarm st valid logic) := by
  unfold keepWarm
  repeat' first | exact bit_sub rfl hm | (dsimp only [Upd.bit]; exact bit_sub rfl hm) | exact sub_trans rfl hm | with_reducible assumption | with_reducible constructor | with_reducible intro _ | with_reducible apply setTh_may | with_reducible apply setMisc_may | dsimp only | split

def mayShowPower : Nat := mr .TH_PWR_peak_w ||| mr .TH_PWR_power_w
theorem showPower_may (hm : mayShowPower ||| mk = mk) (t watts : Nat) :
    May mk (showPower t watts) := by
  unfold showPower
  repeat' first | exact bit_sub rfl hm | (dsimp only [Upd.bit]; exact bit_sub rfl hm) | exact sub_trans rfl hm | with_reducible assumption | with_reducible constructor | with_reducible intro _ | dsimp only | split

def mayWriteSetpoint : Nat := maySetTherm ||| mp .out
theorem writeSetpoint_may (hm : mayWriteSetpoint ||| mk = mk) :
    May mk writeSetpoint := by
  unfold writeSetpoint
  repeat' first | exact bit_sub rfl hm | (dsimp only [Upd.bit]; exact bit_sub rfl hm) | exact sub_trans rfl hm | with_reducible assumption | with_reducible constructor | with_reducible intro _ | with_reducible apply setTherm_may | dsimp only | split

def mayTrayReadEff : Nat := maySetTherm ||| mayShowAlarm ||| mayTelemetryRec ||| mayWriteSetpoint
theorem trayReadEff_may (hm : mayTrayReadEff ||| mk = mk) (got : Option Tray) (s : State) :
    May mk (trayReadEff got s) := by
  unfold trayReadEff
  repeat' first | exact bit_sub rfl hm | (dsimp only [Upd.bit]; exact bit_sub rfl hm) | exact sub_trans rfl hm | with_reducible assumption | with_reducible constructor | with_reducible intro _ | with_reducible apply setTherm_may | with_reducible apply showAlarm_may | with_reducible apply telemetryRec_may | with_reducible apply writeSetpoint_may | dsimp only | split

def mayCoolantAlarmEff : Nat := maySetTh ||| maySetTherm ||| mayShowAlarm ||| mayWriteSetpoint
theorem coolantAlarmEff_may (hm : mayCoolantAlarmEff ||| mk = mk) :
    May mk coolantAlarmEff := by
  unfold coolantAlarmEff
  repeat' first | exact bit_sub rfl hm | (dsimp only [Upd.bit]; exact bit_sub rfl hm) | exact sub_trans rfl hm | with_reducible assumption | with_reducible constructor | with_reducible intro _ | with_reducible apply setTh_may | with_reducible apply setTherm_may | with_reducible apply showAlarm_may | with_reducible apply writeSetpoint_may | dsimp only | split

def mayPowerLoop : Nat := maySetTh ||| mayApplyClocks
theorem powerLoop_may (hm : mayPowerLoop ||| mk = mk) (st watts input : Nat) :
    May mk (powerLoop st watts input) := by
  unfold powerLoop
  repeat' first | exact bit_sub rfl hm | (dsimp only [Upd.bit]; exact bit_sub rfl hm) | exact sub_trans rfl hm | with_reducible assumption | with_reducible constructor | with_reducible intro _ | with_reducible apply setTh_may | with_reducible apply applyClocks_may | dsimp only | split

def mayPowerIntervalEff : Nat := maySetTherm ||| mayTelemetryRec ||| mayShowPower ||| mayPowerLoop
theorem powerIntervalEff_may (hm : mayPowerIntervalEff ||| mk = mk) (input iod : Nat) (perStack : List Nat) :
    May mk (powerIntervalEff input iod perStack) := by
  unfold powerIntervalEff
  repeat' first | exact bit_sub rfl hm | (dsimp only [Upd.bit]; exact bit_sub rfl hm) | exact sub_trans rfl hm | with_reducible assumption | with_reducible constructor | with_reducible intro _ | with_reducible apply setTherm_may | with_reducible apply telemetryRec_may | with_reducible apply showPower_may | with_reducible apply powerLoop_may | dsimp only | split

def mayFastThrottleEff : Nat := mr .TH_STAT_fast
theorem fastThrottleEff_may (hm : mayFastThrottleEff ||| mk = mk) (amps : Nat) (perStack : List Nat) (s : State) :
    May mk (fastThrottleEff amps perStack s) := by
  unfold fastThrottleEff
  repeat' first | exact bit_sub rfl hm | (dsimp only [Upd.bit]; exact bit_sub rfl hm) | exact sub_trans rfl hm | with_reducible assumption | with_reducible constructor | with_reducible intro _ | dsimp only | split

def mayHangRecords : Nat := mayLogRec ||| mayReport ||| mp .tick
theorem hangRecords_may (hm : mayHangRecords ||| mk = mk) (u : Nat) :
    May mk (hangRecords u) := by
  unfold hangRecords
  repeat' first | exact bit_sub rfl hm | (dsimp only [Upd.bit]; exact bit_sub rfl hm) | exact sub_trans rfl hm | with_reducible assumption | with_reducible constructor | with_reducible intro _ | with_reducible apply logRec_may | with_reducible apply report_may | dsimp only | split

def mayFwHang : Nat := maySetFw ||| mayDoorbell ||| mayHostRing ||| mayHoldCluster ||| mayWarmReentry ||| mayHangRecords ||| mp .tick
theorem fwHang_may (hm : mayFwHang ||| mk = mk) (u : Nat) :
    May mk (fwHang u) := by
  unfold fwHang
  repeat' first | exact bit_sub rfl hm | (dsimp only [Upd.bit]; exact bit_sub rfl hm) | exact sub_trans rfl hm | with_reducible assumption | with_reducible constructor | with_reducible intro _ | with_reducible apply setFw_may | with_reducible apply doorbell_may | with_reducible apply hostRing_may | with_reducible apply holdCluster_may | with_reducible apply warmReentry_may | with_reducible apply hangRecords_may | dsimp only | split

def mayRestartDone : Nat := maySetFw ||| mayReleaseCluster ||| mayCheckWaiting ||| maySetRefresh ||| mayFirstConversion
theorem restartDone_may (hm : mayRestartDone ||| mk = mk) (u : Nat) :
    May mk (restartDone u) := by
  unfold restartDone
  repeat' first | exact bit_sub rfl hm | (dsimp only [Upd.bit]; exact bit_sub rfl hm) | exact sub_trans rfl hm | with_reducible assumption | with_reducible constructor | with_reducible intro _ | with_reducible apply setFw_may | with_reducible apply releaseCluster_may | with_reducible apply checkWaiting_may | with_reducible apply setRefresh_may | with_reducible apply firstConversion_may | dsimp only | split

def mayAppendRing : Nat := mayFwWrite
theorem appendRing_may (hm : mayAppendRing ||| mk = mk) (base cap : Nat) (w : List Nat) (w4 w5 : Nat) :
    May mk (appendRing base cap w w4 w5) := by
  unfold appendRing
  repeat' first | exact bit_sub rfl hm | (dsimp only [Upd.bit]; exact bit_sub rfl hm) | exact sub_trans rfl hm | with_reducible assumption | with_reducible constructor | with_reducible intro _ | with_reducible apply fwWrite_may | dsimp only | split

def mayAppendLog : Nat := mayAppendRing ||| mp .flashLog
theorem appendLog_may (hm : mayAppendLog ||| mk = mk) (w : List Nat) :
    May mk (appendLog w) := by
  unfold appendLog
  repeat' first | exact bit_sub rfl hm | (dsimp only [Upd.bit]; exact bit_sub rfl hm) | exact sub_trans rfl hm | with_reducible assumption | with_reducible constructor | with_reducible intro _ | with_reducible apply appendRing_may | dsimp only | split

def mayAppendError : Nat := mayHostRing ||| mayFlaskRing ||| mayAppendRing ||| mayAppendLog ||| mp .tick
theorem appendError_may (hm : mayAppendError ||| mk = mk) (ws : List (List Nat)) :
    May mk (appendError ws) := by
  unfold appendError
  repeat' first | exact bit_sub rfl hm | (dsimp only [Upd.bit]; exact bit_sub rfl hm) | exact sub_trans rfl hm | with_reducible assumption | with_reducible constructor | with_reducible intro _ | with_reducible apply hostRing_may | with_reducible apply flaskRing_may | with_reducible apply appendRing_may | with_reducible apply appendLog_may | dsimp only | split

def mayLogAppendEff : Nat := mayAppendLog ||| mayAppendError ||| mp .fifo
theorem logAppendEff_may (hm : mayLogAppendEff ||| mk = mk) (s : State) :
    May mk (logAppendEff s) := by
  unfold logAppendEff
  repeat' first | exact bit_sub rfl hm | (dsimp only [Upd.bit]; exact bit_sub rfl hm) | exact sub_trans rfl hm | with_reducible assumption | with_reducible constructor | with_reducible intro _ | with_reducible apply appendLog_may | with_reducible apply appendError_may | dsimp only | split

def mayTracePoint : Nat := maySetFw ||| mayLogRec ||| mp .dropped ||| mp .tick
theorem tracePoint_may (hm : mayTracePoint ||| mk = mk) (u p : Nat) (payload : List Nat) :
    May mk (tracePoint u p payload) := by
  unfold tracePoint
  repeat' first | exact bit_sub rfl hm | (dsimp only [Upd.bit]; exact bit_sub rfl hm) | exact sub_trans rfl hm | with_reducible assumption | with_reducible constructor | with_reducible intro _ | with_reducible apply setFw_may | with_reducible apply logRec_may | dsimp only | split

def mayBgLateEff : Nat := mayLogFree
theorem bgLateEff_may (hm : mayBgLateEff ||| mk = mk) (u : Fin 99) (act : Fin 5) :
    May mk (bgLateEff u act) := by
  unfold bgLateEff
  repeat' first | exact bit_sub rfl hm | (dsimp only [Upd.bit]; exact bit_sub rfl hm) | exact sub_trans rfl hm | with_reducible assumption | with_reducible constructor | with_reducible intro _ | with_reducible apply logFree_may | dsimp only | split

def mayTelemetryEff : Nat := mayLogFree ||| mayTelemetryRec
theorem telemetryEff_may (hm : mayTelemetryEff ||| mk = mk) (st : StackIx) (s : State) :
    May mk (telemetryEff st s) := by
  unfold telemetryEff
  repeat' first | exact bit_sub rfl hm | (dsimp only [Upd.bit]; exact bit_sub rfl hm) | exact sub_trans rfl hm | with_reducible assumption | with_reducible constructor | with_reducible intro _ | with_reducible apply logFree_may | with_reducible apply telemetryRec_may | dsimp only | split

def mayTsPairEff : Nat := maySendLog ||| mp .tick
theorem tsPairEff_may (hm : mayTsPairEff ||| mk = mk) (st : StackIx) :
    May mk (tsPairEff st) := by
  unfold tsPairEff
  repeat' first | exact bit_sub rfl hm | (dsimp only [Upd.bit]; exact bit_sub rfl hm) | exact sub_trans rfl hm | with_reducible assumption | with_reducible constructor | with_reducible intro _ | with_reducible apply sendLog_may | dsimp only | split

def mayDramRecalibrationStepEff : Nat := maySetSlice
theorem dramRecalibrationStepEff_may (hm : mayDramRecalibrationStepEff ||| mk = mk) (sl : SliceIx) (ch : Fin 8) :
    May mk (dramRecalibrationStepEff sl ch) := by
  unfold dramRecalibrationStepEff
  repeat' first | exact bit_sub rfl hm | (dsimp only [Upd.bit]; exact bit_sub rfl hm) | exact sub_trans rfl hm | with_reducible assumption | with_reducible constructor | with_reducible intro _ | with_reducible apply setSlice_may | dsimp only | split

def mayFlashWearLevellingEff : Nat := maySetFw
theorem flashWearLevellingEff_may (hm : mayFlashWearLevellingEff ||| mk = mk) (block : Nat) (eraseFails : Bool) :
    May mk (flashWearLevellingEff block eraseFails) := by
  unfold flashWearLevellingEff
  repeat' first | exact bit_sub rfl hm | (dsimp only [Upd.bit]; exact bit_sub rfl hm) | exact sub_trans rfl hm | with_reducible assumption | with_reducible constructor | with_reducible intro _ | with_reducible apply setFw_may | dsimp only | split

def mayErrorReportEff : Nat := mayReport
theorem errorReportEff_may (hm : mayErrorReportEff ||| mk = mk) (kind : Nat) (u : UnitId) (addr : Nat) (syn : Word) (fl : Nat) :
    May mk (errorReportEff kind u addr syn fl) := by
  unfold errorReportEff
  repeat' first | exact bit_sub rfl hm | (dsimp only [Upd.bit]; exact bit_sub rfl hm) | exact sub_trans rfl hm | with_reducible assumption | with_reducible constructor | with_reducible intro _ | with_reducible apply report_may | dsimp only | split

def mayExclude : Nat := mp .excl ||| mp .lasting
theorem exclude_may (hm : mayExclude ||| mk = mk) (u : UnitId) :
    May mk (exclude u) := by
  unfold exclude
  repeat' first | exact bit_sub rfl hm | (dsimp only [Upd.bit]; exact bit_sub rfl hm) | exact sub_trans rfl hm | with_reducible assumption | with_reducible constructor | with_reducible intro _ | dsimp only | split

def mayTakeOver : Nat := maySetCluster ||| maySetMisc ||| mayZeroRange ||| mayLoadImage
theorem takeOver_may (hm : mayTakeOver ||| mk = mk) (n : Nat) :
    May mk (takeOver n) := by
  unfold takeOver
  repeat' first | exact bit_sub rfl hm | (dsimp only [Upd.bit]; exact bit_sub rfl hm) | exact sub_trans rfl hm | with_reducible assumption | with_reducible constructor | with_reducible intro _ | with_reducible apply setCluster_may | with_reducible apply setMisc_may | with_reducible apply zeroRange_may | with_reducible apply loadImage_may | dsimp only | split

def mayCoreLasting : Nat := mayResetCore ||| mayExcludeUnit ||| mayExclude ||| mayTakeOver
theorem coreLasting_may (hm : mayCoreLasting ||| mk = mk) (n : Nat) :
    May mk (coreLasting n) := by
  unfold coreLasting
  repeat' first | exact bit_sub rfl hm | (dsimp only [Upd.bit]; exact bit_sub rfl hm) | exact sub_trans rfl hm | with_reducible assumption | with_reducible constructor | with_reducible intro _ | with_reducible apply resetCore_may | with_reducible apply excludeUnit_may | with_reducible apply exclude_may | with_reducible apply takeOver_may | dsimp only | split

def mayEvictBank : Nat := mayDropEvict ||| maySwapBegin ||| mp .tick
theorem evictBank_may (hm : mayEvictBank ||| mk = mk) (sl b : Nat) :
    May mk (evictBank sl b) := by
  unfold evictBank
  repeat' first | exact bit_sub rfl hm | (dsimp only [Upd.bit]; exact bit_sub rfl hm) | exact sub_trans rfl hm | with_reducible assumption | with_reducible constructor | with_reducible intro _ | with_reducible apply dropEvict_may | with_reducible apply swapBegin_may | dsimp only | split

def mayBankOff : Nat := maySetSlice ||| maySetDesc ||| mayExcludeUnit ||| mayExclude ||| mayEvictBank
theorem bankOff_may (hm : mayBankOff ||| mk = mk) (sl b : Nat) :
    May mk (bankOff sl b) := by
  unfold bankOff
  repeat' first | exact bit_sub rfl hm | (dsimp only [Upd.bit]; exact bit_sub rfl hm) | exact sub_trans rfl hm | with_reducible assumption | with_reducible constructor | with_reducible intro _ | with_reducible apply setSlice_may | with_reducible apply setDesc_may | with_reducible apply excludeUnit_may | with_reducible apply exclude_may | with_reducible apply evictBank_may | dsimp only | split

def mayChannelLasting : Nat := maySetSlice ||| mayExclude
theorem channelLasting_may (hm : mayChannelLasting ||| mk = mk) (id lanesFailed : Nat) :
    May mk (channelLasting id lanesFailed) := by
  unfold channelLasting
  repeat' first | exact bit_sub rfl hm | (dsimp only [Upd.bit]; exact bit_sub rfl hm) | exact sub_trans rfl hm | with_reducible assumption | with_reducible constructor | with_reducible intro _ | with_reducible apply setSlice_may | with_reducible apply exclude_may | dsimp only | split

def mayCutOffStack : Nat := maySetStack ||| maySetMisc
theorem cutOffStack_may (hm : mayCutOffStack ||| mk = mk) (st : Nat) :
    May mk (cutOffStack st) := by
  unfold cutOffStack
  repeat' first | exact bit_sub rfl hm | (dsimp only [Upd.bit]; exact bit_sub rfl hm) | exact sub_trans rfl hm | with_reducible assumption | with_reducible constructor | with_reducible intro _ | with_reducible apply setStack_may | with_reducible apply setMisc_may | dsimp only | split

def mayLinkEnd : Nat := mayRestoreRoutes ||| mayTrainLink ||| mayExclude ||| mp .lasting ||| mr .NOC_LINK_assay ||| mayCutOffStack
theorem linkEnd_may (hm : mayLinkEnd ||| mk = mk) (st k : Nat) (bad : List Nat) :
    May mk (linkEnd st k bad) := by
  unfold linkEnd
  repeat' first | exact bit_sub rfl hm | (dsimp only [Upd.bit]; exact bit_sub rfl hm) | exact sub_trans rfl hm | with_reducible assumption | with_reducible constructor | with_reducible intro _ | with_reducible apply restoreRoutes_may | with_reducible apply trainLink_may | with_reducible apply exclude_may | with_reducible apply cutOffStack_may | dsimp only | split

def mayAssayVerdict : Nat := mayNextAssay ||| mayAssayRecords ||| mayCoreLasting ||| mayBankOff ||| mayChannelLasting ||| mayLinkEnd ||| mp .lasting ||| mp .tick
theorem assayVerdict_may (hm : mayAssayVerdict ||| mk = mk) (a : Nat) (fault : Bool) (rows : List Nat) (lanesFailed : Nat) :
    May mk (assayVerdict a fault rows lanesFailed) := by
  unfold assayVerdict
  repeat' first | exact bit_sub rfl hm | (dsimp only [Upd.bit]; exact bit_sub rfl hm) | exact sub_trans rfl hm | with_reducible assumption | with_reducible constructor | with_reducible intro _ | with_reducible apply nextAssay_may | with_reducible apply assayRecords_may | with_reducible apply coreLasting_may | with_reducible apply bankOff_may | with_reducible apply channelLasting_may | with_reducible apply linkEnd_may | dsimp only | split

def mayAssayVerdictEff : Nat := maySubAssayEnd ||| mayAssayVerdict
theorem assayVerdictEff_may (hm : mayAssayVerdictEff ||| mk = mk) (asr : Fin 108) (fault : Bool) (rows : List Nat) (lanesFailed : Nat) (s : State) :
    May mk (assayVerdictEff asr fault rows lanesFailed s) := by
  unfold assayVerdictEff
  repeat' first | exact bit_sub rfl hm | (dsimp only [Upd.bit]; exact bit_sub rfl hm) | exact sub_trans rfl hm | with_reducible assumption | with_reducible constructor | with_reducible intro _ | with_reducible apply subAssayEnd_may | with_reducible apply assayVerdict_may | dsimp only | split

def mayCountSuppressed : Nat := mr .WIN_STAT_errors ||| mr .WIN_STAT_last
theorem countSuppressed_may (hm : mayCountSuppressed ||| mk = mk) (f a : Nat) :
    May mk (countSuppressed f a) := by
  unfold countSuppressed
  repeat' first | exact bit_sub rfl hm | (dsimp only [Upd.bit]; exact bit_sub rfl hm) | exact sub_trans rfl hm | with_reducible assumption | with_reducible constructor | with_reducible intro _ | dsimp only | split

def mayWindowAccess : Nat := mayAccessRecords ||| mayReadLine ||| mayAccessCharge ||| mayWriteLine ||| mayCountSuppressed ||| mp .out ||| mp .tick
theorem windowAccess_may (hm : mayWindowAccess ||| mk = mk) (f : Nat) (write : Bool) (off len : Nat) (data : List Byte) :
    May mk (windowAccess f write off len data) := by
  unfold windowAccess
  repeat' first | exact bit_sub rfl hm | (dsimp only [Upd.bit]; exact bit_sub rfl hm) | exact sub_trans rfl hm | with_reducible assumption | with_reducible constructor | with_reducible intro _ | with_reducible apply accessRecords_may | with_reducible apply readLine_may | with_reducible apply accessCharge_may | with_reducible apply writeLine_may | with_reducible apply countSuppressed_may | dsimp only | split

def mayClearFn : Nat := maySetGath ||| mayClearWhere ||| mp .fn ||| mp .held ||| mp .mbox ||| mp .note
theorem clearFn_may (hm : mayClearFn ||| mk = mk) (f : Nat) :
    May mk (clearFn f) := by
  unfold clearFn
  repeat' first | exact bit_sub rfl hm | (dsimp only [Upd.bit]; exact bit_sub rfl hm) | exact sub_trans rfl hm | with_reducible assumption | with_reducible constructor | with_reducible intro _ | with_reducible apply setGath_may | with_reducible apply clearWhere_may | dsimp only | split

def mayVfOff : Nat := maySetMisc ||| mayFlaskReset
theorem vfOff_may (hm : mayVfOff ||| mk = mk) :
    May mk vfOff := by
  unfold vfOff
  repeat' first | exact bit_sub rfl hm | (dsimp only [Upd.bit]; exact bit_sub rfl hm) | exact sub_trans rfl hm | with_reducible assumption | with_reducible constructor | with_reducible intro _ | with_reducible apply setMisc_may | with_reducible apply flaskReset_may | dsimp only | split

def mayFunctionLevelResetEff : Nat := mayFlaskReset ||| mayClearFn ||| mayVfOff
theorem functionLevelResetEff_may (hm : mayFunctionLevelResetEff ||| mk = mk) (f : FnIx) (s : State) :
    May mk (functionLevelResetEff f s) := by
  unfold functionLevelResetEff
  repeat' first | exact bit_sub rfl hm | (dsimp only [Upd.bit]; exact bit_sub rfl hm) | exact sub_trans rfl hm | with_reducible assumption | with_reducible constructor | with_reducible intro _ | with_reducible apply flaskReset_may | with_reducible apply clearFn_may | with_reducible apply vfOff_may | dsimp only | split

def mayVfEnableEff : Nat := maySetMisc ||| mayVfOff
theorem vfEnableEff_may (hm : mayVfEnableEff ||| mk = mk) (en : Bool) (s : State) :
    May mk (vfEnableEff en s) := by
  unfold vfEnableEff
  repeat' first | exact bit_sub rfl hm | (dsimp only [Upd.bit]; exact bit_sub rfl hm) | exact sub_trans rfl hm | with_reducible assumption | with_reducible constructor | with_reducible intro _ | with_reducible apply setMisc_may | with_reducible apply vfOff_may | dsimp only | split

def mayHostLinkDownEff : Nat := maySetMisc ||| mayDoorbell
theorem hostLinkDownEff_may (hm : mayHostLinkDownEff ||| mk = mk) :
    May mk hostLinkDownEff := by
  unfold hostLinkDownEff
  repeat' first | exact bit_sub rfl hm | (dsimp only [Upd.bit]; exact bit_sub rfl hm) | exact sub_trans rfl hm | with_reducible assumption | with_reducible constructor | with_reducible intro _ | with_reducible apply setMisc_may | with_reducible apply doorbell_may | dsimp only | split

def maySendHeld : Nat := mp .held ||| mp .out ||| mr .MSIX_pend
theorem sendHeld_may (hm : maySendHeld ||| mk = mk) :
    May mk sendHeld := by
  unfold sendHeld
  repeat' first | exact bit_sub rfl hm | (dsimp only [Upd.bit]; exact bit_sub rfl hm) | exact sub_trans rfl hm | with_reducible assumption | with_reducible constructor | with_reducible intro _ | dsimp only | split

def mayHostLinkRetrainEff : Nat := maySetMisc ||| mayDoorbell ||| mayHostRing ||| maySendHeld
theorem hostLinkRetrainEff_may (hm : mayHostLinkRetrainEff ||| mk = mk) (width rate : Nat) (s : State) :
    May mk (hostLinkRetrainEff width rate s) := by
  unfold hostLinkRetrainEff
  repeat' first | exact bit_sub rfl hm | (dsimp only [Upd.bit]; exact bit_sub rfl hm) | exact sub_trans rfl hm | with_reducible assumption | with_reducible constructor | with_reducible intro _ | with_reducible apply setMisc_may | with_reducible apply doorbell_may | with_reducible apply hostRing_may | with_reducible apply sendHeld_may | dsimp only | split

def mayPerstNAssertEff : Nat := maySetMisc ||| mayDoorbell ||| mayVfOff ||| mp .held ||| mp .regs ||| mp .shad
theorem perstNAssertEff_may (hm : mayPerstNAssertEff ||| mk = mk) (s : State) :
    May mk (perstNAssertEff s) := by
  unfold perstNAssertEff
  repeat' first | exact bit_sub rfl hm | (dsimp only [Upd.bit]; exact bit_sub rfl hm) | exact sub_trans rfl hm | with_reducible assumption | with_reducible constructor | with_reducible intro _ | with_reducible apply setMisc_may | with_reducible apply doorbell_may | with_reducible apply vfOff_may | dsimp only | split

def mayFarLinkDownEff : Nat := maySetMisc ||| mayDoorbell ||| mayHostRing
theorem farLinkDownEff_may (hm : mayFarLinkDownEff ||| mk = mk) (u : Fin 8) :
    May mk (farLinkDownEff u) := by
  unfold farLinkDownEff
  repeat' first | exact bit_sub rfl hm | (dsimp only [Upd.bit]; exact bit_sub rfl hm) | exact sub_trans rfl hm | with_reducible assumption | with_reducible constructor | with_reducible intro _ | with_reducible apply setMisc_may | with_reducible apply doorbell_may | with_reducible apply hostRing_may | dsimp only | split

def mayEgDoorbell : Nat := mayDoorbell ||| mayHostRing ||| mp .tick
theorem egDoorbell_may (hm : mayEgDoorbell ||| mk = mk) (g src : Nat) :
    May mk (egDoorbell g src) := by
  unfold egDoorbell
  repeat' first | exact bit_sub rfl hm | (dsimp only [Upd.bit]; exact bit_sub rfl hm) | exact sub_trans rfl hm | with_reducible assumption | with_reducible constructor | with_reducible intro _ | with_reducible apply doorbell_may | with_reducible apply hostRing_may | dsimp only | split

def mayEgClaim : Nat := maySetGath ||| mp .rsp
theorem egClaim_may (hm : mayEgClaim ||| mk = mk) (g t : Nat) :
    May mk (egClaim g t) := by
  unfold egClaim
  repeat' first | exact bit_sub rfl hm | (dsimp only [Upd.bit]; exact bit_sub rfl hm) | exact sub_trans rfl hm | with_reducible assumption | with_reducible constructor | with_reducible intro _ | with_reducible apply setGath_may | dsimp only | split

def mayEgComplete : Nat := maySetGath ||| mayHostSend ||| mr .EG_STAT_bad_complete
theorem egComplete_may (hm : mayEgComplete ||| mk = mk) (g t src : Nat) :
    May mk (egComplete g t src) := by
  unfold egComplete
  repeat' first | exact bit_sub rfl hm | (dsimp only [Upd.bit]; exact bit_sub rfl hm) | exact sub_trans rfl hm | with_reducible assumption | with_reducible constructor | with_reducible intro _ | with_reducible apply setGath_may | with_reducible apply hostSend_may | dsimp only | split

def mayEgHcompleteEff : Nat := maySetGath ||| mayHostSend
theorem egHcompleteEff_may (hm : mayEgHcompleteEff ||| mk = mk) (f : FnIx) (kind : Fin 32) :
    May mk (egHcompleteEff f kind) := by
  unfold egHcompleteEff
  repeat' first | exact bit_sub rfl hm | (dsimp only [Upd.bit]; exact bit_sub rfl hm) | exact sub_trans rfl hm | with_reducible assumption | with_reducible constructor | with_reducible intro _ | with_reducible apply setGath_may | with_reducible apply hostSend_may | dsimp only | split

def mayDebugTokenEff : Nat := maySetSec
theorem debugTokenEff_may (hm : mayDebugTokenEff ||| mk = mk) (token : List Byte) :
    May mk (debugTokenEff token) := by
  unfold debugTokenEff
  repeat' first | exact bit_sub rfl hm | (dsimp only [Upd.bit]; exact bit_sub rfl hm) | exact sub_trans rfl hm | with_reducible assumption | with_reducible constructor | with_reducible intro _ | with_reducible apply setSec_may | dsimp only | split

end Sys2Proof.Machine
end

