-- ==== Sys2Proof/Laws/MayExec.lean ====
section
/-! SUPPORT. What each command may change: the frame of every command, from the sets of the operations it is made of. -/
set_option exponentiation.threshold 2000
set_option maxRecDepth 20000
set_option linter.unusedTactic false
set_option linter.unreachableTactic false
set_option linter.unusedVariables false
namespace Sys2Proof.Machine

/-- The set of everything. -/
def mayAll : Nat := 2 ^ 1000 - 1

/-- What a command may change. -/
def mayOf : Instr → Nat
  | .hello _ => mayWithReq ||| mayHello
  | .getInfo _ => mayWithReq ||| mayDoGetInfo
  | .attest _ => mayWithReq ||| mayAttest
  | .licenceInstall _ => mayWithReq ||| mayLicenceInstall
  | .legacyGrade _ => mayWithReq ||| mayDoLegacyGrade
  | .flaskConfigSet _ => mayWithReq ||| mayFlaskConfig
  | .flaskConfigRemove _ => mayWithReq ||| mayFlaskConfig
  | .flaskReset _ => mayWithReq ||| mayDoFlaskReset
  | .flaskReg _ => mayWithReq ||| mayDoFlaskReg
  | .ctxCreate _ => mayWithReq ||| mayCtxCreate
  | .ctxDestroy _ => mayWithReq ||| mayDoCtxDestroy
  | .queueCreate _ => mayWithReq ||| mayQueueCreate
  | .queueDestroy _ => mayWithReq ||| mayDoQueueDestroy
  | .memInit _ => mayWithReq ||| mayDoMemInit
  | .pageRetire _ => mayWithReq ||| mayDoPageRetire
  | .testGrant _ => mayWithReq ||| mayDoTestGrant
  | .testRevoke _ => mayWithReq ||| mayDoTestRevoke
  | .eccTestRead _ => mayWithReq ||| mayEccTestRead
  | .eccTestWrite _ => mayWithReq ||| mayEccTest
  | .retireList _ => mayWithReq ||| mayDoRetireList
  | .ladleSubmit _ => mayWithReq ||| mayDoLadleSubmit
  | .kvConfig _ => mayWithReq ||| mayKvConfig
  | .kvQuery _ => mayWithReq ||| mayDoKvQuery
  | .seqCreate _ => mayWithReq ||| maySeqCreate
  | .seqFork _ => mayWithReq ||| maySeqFork
  | .seqFree _ => mayWithReq ||| maySeqFree
  | .seqEvict _ => mayWithReq ||| maySeqEvict
  | .seqReady _ => mayWithReq ||| maySeqReady
  | .seqResume _ => mayWithReq ||| maySeqResume
  | .portConfig _ => mayWithReq ||| mayDoPortConfig
  | .portStatus _ => mayWithReq ||| mayDoPortStatus
  | .endpointSet _ => mayWithReq ||| mayDoEndpointSet
  | .jobJoin _ => mayWithReq ||| mayJobJoin
  | .jobLeave _ => mayWithReq ||| mayDoJobLeave
  | .jobKey _ => mayWithReq ||| mayJobKey
  | .membershipCommit _ => mayWithReq ||| mayMembershipCommit
  | .thermAckTrip _ => mayWithReq ||| mayThermAck
  | .pwrLimit _ => mayWithReq ||| mayDoPwrLimit
  | .fwUpdate _ => mayWithReq ||| mayFwUpdate
  | .fwActivate _ => mayWithReq ||| mayDoFwActivate
  | .logConfig _ => mayWithReq ||| mayDoLogConfig
  | .logFetch _ => mayWithReq ||| mayDoLogFetch
  | .traceSet _ => mayWithReq ||| mayDoTraceSet
  | .traceQuery _ => mayWithReq ||| mayDoTraceQuery
  | .mbDoorbellPost _ _ => mayMbPost
  | .deferredCompletion _ => mayDeferredCompletion
  | .wqDbTailWrite _ _ _ => mayWqTail
  | .workItemStart _ => mayItemStart
  | .workItemComplete _ => mayItemComplete
  | .stoppingFault _ _ _ => mayStoppingFaultEff
  | .stallLimit _ => mayStallLimitEff
  | .preemption _ => mayPreemptionEff
  | .preemptionAbandon _ => mayPreemptionAbandonEff
  | .itemResume _ => mayItemResumeEff
  | .batchBoundary _ => mayBatchBoundaryEff
  | .hostWindowAccess _ _ _ _ _ _ => mayApplyUpsets ||| mayWindowAccess
  | .functionLevelReset _ => mayFunctionLevelResetEff
  | .hostLinkDown => mayHostLinkDownEff
  | .hostLinkRetrain _ _ => mayHostLinkRetrainEff
  | .perstNAssert => mayPerstNAssertEff
  | .seqCtlGo _ => maySeqGo
  | .seqCtlStop _ => maySeqCtlStopEff
  | .seqCtlPause _ => maySeqPause
  | .recordFetch _ _ => mayRecordFetchEff
  | .recordLoad _ => mayRecordLoadEff
  | .waitRelease _ => mayWaitReleaseEff
  | .pourStart _ => mayPourStartEff
  | .pourComplete _ => mayPourCompleteEff
  | .shadowCopy _ _ => mayCopyShadow
  | .drainEnd _ => mayDrainEndEff
  | .remoteAddFailure _ _ => maySyncLost
  | .passEntry _ => mayPassEntry
  | .tileLoadComplete _ => mayTileLoad
  | .shadowRelease _ => mayShadowReleaseEff
  | .accumulatorWrite _ _ _ => mayAccWrite
  | .arrayStallEnd _ => mayArrayStallEnd
  | .vectorIteration _ _ => mayVecIteration
  | .agAccess _ _ _ => mayAgAccess
  | .loadDataPush _ _ => mayLoadPush
  | .storeAck _ _ => mayStoreAckEff
  | .queueStallEnd _ _ => mayQueueStallEnd
  | .queueStall _ => mayQueueStall
  | .qCtlFlush _ _ => mayQFlush
  | .counterAdd _ _ _ _ _ => mayCounterAddEff
  | .bankCommandIssue _ => mayBankIssue
  | .bankCommandAccept _ _ => mayBankAccept
  | .streamTokenGrant _ => mayTokenGrant
  | .rowBurst _ _ _ => mayRowBurst
  | .attendCmd _ _ => mayAttendCmdEff
  | .scoreCmd _ _ => mayScoreCmdEff
  | .valueCmd _ _ => mayValueCmdEff
  | .appendQCmd _ _ => mayAppendQCmdEff
  | .fillCmd _ _ => mayFillCmdEff
  | .copyPageCmd _ _ => mayCopyPageCmdEff
  | .reduceCmd _ _ => mayReduceCmdEff
  | .bankFence _ => mayBankFence
  | .bankResultPush _ => mayResultPush
  | .bsuFault _ _ => mayBsuFault
  | .memoryRead _ _ _ _ _ => mayMemoryReadEff
  | .memoryWrite _ _ _ _ _ => mayMemoryWriteEff
  | .eccWriteBack _ => mayWriteBack
  | .refreshSlot _ _ => mayRefreshSlot
  | .selfRefreshEntry _ => mr .CRS_STAT_self_refresh
  | .selfRefreshExit _ => maySelfRefreshExitEff
  | .scrubRead _ _ => mayApplyUpsets ||| mayScrub
  | .sramScrubRead _ _ => maySramScrubReadEff
  | .eccFillStart _ _ => mayFillStart
  | .fillEngineDone _ => mayFillDone
  | .eccTwRead _ => mayTwRead
  | .eccTwWrite _ => mayTwWrite
  | .mcCtlInval _ => mayInvalSlice
  | .mcPerfClear _ => mayMcPerfClear
  | .arrPerfClear _ => mayArrPerfClear
  | .vecPerfClear _ => mayVecPerfClear
  | .bsuPerfClear _ => mayBsuPerfClear
  | .ldlPerfClear _ => mayLdlPerfClear
  | .fpPerfClear _ => mayFpPerfClear
  | .fabPerfClear _ => mayFabPerfClear
  | .readClearCounter _ _ => mayAll
  | .kvFlPop _ => mayFlPop ||| mp .rsp
  | .kvFlPopb _ => mayKvFlPopbEff
  | .kvFlPush _ _ _ => mayFlPush
  | .appendRequest _ => mayAppendRequest ||| mayAcctSync
  | .copyOnWrite _ => mayCopyOnWrite ||| mayAcctSync
  | .attendRequest _ => mayAttendRequest
  | .memberMerge _ => mayMemberMerge
  | .stepEnd _ => mayStepEnd
  | .epochDrain _ => mayEpochDrain
  | .reclamation _ => mayReclaim
  | .dropEviction _ _ => mayDropEvict
  | .swapEviction _ => maySwapEvict
  | .swapPageDone _ _ => maySwapPageDone
  | .pageRestore _ _ _ _ => mayPageRestore
  | .kvStarved _ _ => mayStarve
  | .crsRstFp _ => mayHoldFp
  | .crsRstCluster _ => mayHoldCluster
  | .crsCoreGo _ => mayHoldCore
  | .resetRelease _ => mayResetReleaseEff
  | .fabricPlaneReturn _ => mayFpReturn ||| mayRelink ||| mayBootRecord
  | .pllLockLoss _ _ => mayPllLockLossEff
  | .pllRelock _ _ => mayPllRelockEff
  | .clockSlewStep _ _ => mayClockSlewStepEff
  | .peerReset _ => mayPeerResetEff
  | .linkDown _ _ _ => mayLinkFalls
  | .d2dTimeout _ _ => mayD2dTimeoutEff
  | .d2dLink _ _ => mayD2dLinkEff
  | .nocCtlApply _ => mayApplyRoutes
  | .routeSwitch _ _ => maySwitchRoute
  | .ldlChHeadWrite _ _ _ => mayLadleHead
  | .ladleDescriptorStart _ _ => mayApplyUpsets ||| mayDescStart
  | .ladleDescriptorDone _ _ => mayDescDone
  | .ldlCtlDisable _ => mayLadleAbort ||| mr .LDL_CTL_disable
  | .regulatorRelease _ _ => mayRegulatorReleaseEff
  | .farLinkDown _ => mayFarLinkDownEff
  | .fpCfgEnWrite _ _ => mayPortEnable
  | .fpCtlRequal _ => mayRequal
  | .trainingAttemptEnd _ _ _ => mayTrainingAttemptEndEff
  | .qualificationWindowEnd _ _ _ _ => mayWindowEnd
  | .portDegrade _ _ _ _ => mayPortDegrade
  | .subportAssayStart _ _ => maySetSub_
  | .linkAssayEnd _ _ _ => maySubAssayEnd
  | .portDown _ _ _ => mayPortDownEff
  | .failedRetry _ _ => mayStartTraining
  | .recalibrationStep _ _ _ => mayRecalibrationStepEff
  | .lldpSend _ _ => maySendFrame ||| mp .tick
  | .gratuitousArp _ _ => mayGratuitousArpEff
  | .frameReceive _ _ _ => mayFrameReceive
  | .neighborSolicitation _ _ _ => mayNeighborSolicitationEff
  | .rxPut _ => mayRxPutEff
  | .rxGet _ _ => mayRxGetEff
  | .rxAdd _ => mayRxAddEff
  | .rxSend _ => mayRxSendEff
  | .rxGetr _ => mayRxData ||| mayRxGetr
  | .ackPkt _ => mayAckPktEff
  | .ackSend _ => mayAckSend
  | .packetLoss _ _ _ => mayPacketLoss
  | .initPkt _ => mayRxType ||| mayInitPkt
  | .initAckPkt _ => mayRxType ||| mayInitAckPkt
  | .confirmPkt _ => mayConfirmPktEff
  | .refusePkt _ => mayRefusePktEff
  | .closePkt _ => mayClosePktEff
  | .rekeyPkt _ => mayRekeyPktEff
  | .oldPhaseKeyExpiry _ => maySetConn
  | .initResend _ => mayInitResendEff
  | .setupTimeout _ => maySetupTimeoutEff
  | .fabConnLost _ => mayConnLost
  | .idleClose _ => mayIdleCloseEff
  | .drainWindowEnd _ _ => mayDrainWindowEndEff
  | .congestionTick _ => mayCongestionTick
  | .putOp _ _ => mayTakeCommand
  | .getOp _ _ => mayTakeCommand
  | .addOp _ _ => mayTakeCommand
  | .sendOp _ _ => mayTakeCommand
  | .operationComplete _ _ => mayOpComplete
  | .fabCfgEnWrite _ _ => mayFabEnable
  | .fwHang _ => mayFwHang
  | .firmwareRestartDone _ => mayRestartDone
  | .logAppend => mayLogAppendEff
  | .tracePoint _ _ _ => mayTracePoint
  | .bgLate _ _ => mayBgLateEff
  | .telemetry _ => mayTelemetryEff
  | .tsPair _ => mayTsPairEff
  | .dramRecalibrationStep _ _ => mayDramRecalibrationStepEff
  | .storedSettingsWrite => mayStoreSettings
  | .egDoorbell _ _ => mayEgDoorbell
  | .egClaim _ _ => mayEgClaim
  | .egComplete _ _ _ => mayEgComplete
  | .egHcomplete _ _ => mayEgHcompleteEff
  | .assayVerdict _ _ _ _ => mayAssayVerdictEff
  | .errorReport _ _ _ _ _ => mayErrorReportEff
  | .thConvReq _ => mayConvReq
  | .diodeDone _ _ _ _ => mayAll
  | .conversionWatchdog _ => mayAll
  | .stackTrip _ _ => mayTripStack
  | .shutdownRecord _ => mayShutdownRecordEff
  | .thCtlTrip _ => mayAll
  | .thCtlRelease _ => mayThRelease
  | .iodTrip _ => mayAll
  | .trayRead _ => mayTrayReadEff
  | .trayIbi => mayDoorbell
  | .coolantAlarm => mayCoolantAlarmEff
  | .coolantAlarmClear => maySetTherm ||| mayShowAlarm
  | .powerInterval _ _ _ => mayPowerIntervalEff
  | .fastThrottle _ _ => mayFastThrottleEff
  | .fastThrottleEnd _ => mr .TH_STAT_fast
  | .coldBoot => mayAll
  | .coldPhaseEnd _ => mayColdPhase
  | .fabricPhaseTimeout => mayInService
  | .warmReentry => mayWarmReentry
  | .warmStepEnd _ => mayWarmStep
  | .resetN _ => mayAll
  | .powerUp _ => mayAll
  | .powerLoss _ => mayAll
  | .i3cRoleRequest => maySetMisc
  | .configBlockWrite _ => mp .cfgSlots
  | .debugToken _ => mayDebugTokenEff
  | .registerWrite _ _ _ => mayAll
  | .vfEnable _ => mayVfEnableEff
  | .controllerRoleReturn => maySetMisc
  | .flashWearLevelling _ _ => mayFlashWearLevellingEff
  | .invalidationComplete _ => mr .MC_STAT_inval_busy
  | .pacedTransmission _ => mayPacedSend

theorem may_all (e : Eff) : May mayAll e := by
  have hb : ∀ u : Upd, u.bit < 1000 := fun u => by
    cases u
    case reg r i v => have := fld_ctorIdx_lt r; simp only [Upd.bit]; omega
    all_goals exact of_decide_eq_true rfl
  induction e with
  | skip => exact .skip
  | upd u => exact .upd (by rw [mayAll, Nat.testBit_two_pow_sub_one]; exact decide_eq_true (hb u))
  | seq a b iha ihb => exact .seq iha ihb
  | get f ih => exact .get ih

/-- Every command is an effect within its set. -/
theorem exec_may (c : Instr) (s : State) : ∃ e, exec c s = .next (run e s) ∧ May (mayOf c) e := by
  cases c
  case hello =>
    refine ⟨_, rfl, (?_ : May (mayWithReq ||| mayHello) _)⟩
    repeat' first | with_reducible apply withReq_may rfl | with_reducible apply hello_may rfl | exact rfl | (dsimp only [Upd.bit]; exact rfl) | with_reducible constructor | with_reducible intro _
  case getInfo =>
    refine ⟨_, rfl, (?_ : May (mayWithReq ||| mayDoGetInfo) _)⟩
    repeat' first | with_reducible apply withReq_may rfl | with_reducible apply doGetInfo_may rfl | exact rfl | (dsimp only [Upd.bit]; exact rfl) | with_reducible constructor | with_reducible intro _
  case attest =>
    refine ⟨_, rfl, (?_ : May (mayWithReq ||| mayAttest) _)⟩
    repeat' first | with_reducible apply withReq_may rfl | with_reducible apply attest_may rfl | exact rfl | (dsimp only [Upd.bit]; exact rfl) | with_reducible constructor | with_reducible intro _
  case licenceInstall =>
    refine ⟨_, rfl, (?_ : May (mayWithReq ||| mayLicenceInstall) _)⟩
    repeat' first | with_reducible apply withReq_may rfl | with_reducible apply licenceInstall_may rfl | exact rfl | (dsimp only [Upd.bit]; exact rfl) | with_reducible constructor | with_reducible intro _
  case legacyGrade =>
    refine ⟨_, rfl, (?_ : May (mayWithReq ||| mayDoLegacyGrade) _)⟩
    repeat' first | with_reducible apply withReq_may rfl | with_reducible apply doLegacyGrade_may rfl | exact rfl | (dsimp only [Upd.bit]; exact rfl) | with_reducible constructor | with_reducible intro _
  case flaskConfigSet =>
    refine ⟨_, rfl, (?_ : May (mayWithReq ||| mayFlaskConfig) _)⟩
    repeat' first | with_reducible apply withReq_may rfl | with_reducible apply flaskConfig_may rfl | exact rfl | (dsimp only [Upd.bit]; exact rfl) | with_reducible constructor | with_reducible intro _
  case flaskConfigRemove =>
    refine ⟨_, rfl, (?_ : May (mayWithReq ||| mayFlaskConfig) _)⟩
    repeat' first | with_reducible apply withReq_may rfl | with_reducible apply flaskConfig_may rfl | exact rfl | (dsimp only [Upd.bit]; exact rfl) | with_reducible constructor | with_reducible intro _
  case flaskReset =>
    refine ⟨_, rfl, (?_ : May (mayWithReq ||| mayDoFlaskReset) _)⟩
    repeat' first | with_reducible apply withReq_may rfl | with_reducible apply doFlaskReset_may rfl | exact rfl | (dsimp only [Upd.bit]; exact rfl) | with_reducible constructor | with_reducible intro _
  case flaskReg =>
    refine ⟨_, rfl, (?_ : May (mayWithReq ||| mayDoFlaskReg) _)⟩
    repeat' first | with_reducible apply withReq_may rfl | with_reducible apply doFlaskReg_may rfl | exact rfl | (dsimp only [Upd.bit]; exact rfl) | with_reducible constructor | with_reducible intro _
  case ctxCreate =>
    refine ⟨_, rfl, (?_ : May (mayWithReq ||| mayCtxCreate) _)⟩
    repeat' first | with_reducible apply withReq_may rfl | with_reducible apply ctxCreate_may rfl | exact rfl | (dsimp only [Upd.bit]; exact rfl) | with_reducible constructor | with_reducible intro _
  case ctxDestroy =>
    refine ⟨_, rfl, (?_ : May (mayWithReq ||| mayDoCtxDestroy) _)⟩
    repeat' first | with_reducible apply withReq_may rfl | with_reducible apply doCtxDestroy_may rfl | exact rfl | (dsimp only [Upd.bit]; exact rfl) | with_reducible constructor | with_reducible intro _
  case queueCreate =>
    refine ⟨_, rfl, (?_ : May (mayWithReq ||| mayQueueCreate) _)⟩
    repeat' first | with_reducible apply withReq_may rfl | with_reducible apply queueCreate_may rfl | exact rfl | (dsimp only [Upd.bit]; exact rfl) | with_reducible constructor | with_reducible intro _
  case queueDestroy =>
    refine ⟨_, rfl, (?_ : May (mayWithReq ||| mayDoQueueDestroy) _)⟩
    repeat' first | with_reducible apply withReq_may rfl | with_reducible apply doQueueDestroy_may rfl | exact rfl | (dsimp only [Upd.bit]; exact rfl) | with_reducible constructor | with_reducible intro _
  case memInit =>
    refine ⟨_, rfl, (?_ : May (mayWithReq ||| mayDoMemInit) _)⟩
    repeat' first | with_reducible apply withReq_may rfl | with_reducible apply doMemInit_may rfl | exact rfl | (dsimp only [Upd.bit]; exact rfl) | with_reducible constructor | with_reducible intro _
  case pageRetire =>
    refine ⟨_, rfl, (?_ : May (mayWithReq ||| mayDoPageRetire) _)⟩
    repeat' first | with_reducible apply withReq_may rfl | with_reducible apply doPageRetire_may rfl | exact rfl | (dsimp only [Upd.bit]; exact rfl) | with_reducible constructor | with_reducible intro _
  case testGrant =>
    refine ⟨_, rfl, (?_ : May (mayWithReq ||| mayDoTestGrant) _)⟩
    repeat' first | with_reducible apply withReq_may rfl | with_reducible apply doTestGrant_may rfl | exact rfl | (dsimp only [Upd.bit]; exact rfl) | with_reducible constructor | with_reducible intro _
  case testRevoke =>
    refine ⟨_, rfl, (?_ : May (mayWithReq ||| mayDoTestRevoke) _)⟩
    repeat' first | with_reducible apply withReq_may rfl | with_reducible apply doTestRevoke_may rfl | exact rfl | (dsimp only [Upd.bit]; exact rfl) | with_reducible constructor | with_reducible intro _
  case eccTestRead =>
    refine ⟨_, rfl, (?_ : May (mayWithReq ||| mayEccTestRead) _)⟩
    repeat' first | with_reducible apply withReq_may rfl | with_reducible apply eccTestRead_may rfl | exact rfl | (dsimp only [Upd.bit]; exact rfl) | with_reducible constructor | with_reducible intro _
  case eccTestWrite =>
    refine ⟨_, rfl, (?_ : May (mayWithReq ||| mayEccTest) _)⟩
    repeat' first | with_reducible apply withReq_may rfl | with_reducible apply eccTest_may rfl | exact rfl | (dsimp only [Upd.bit]; exact rfl) | with_reducible constructor | with_reducible intro _
  case retireList =>
    refine ⟨_, rfl, (?_ : May (mayWithReq ||| mayDoRetireList) _)⟩
    repeat' first | with_reducible apply withReq_may rfl | with_reducible apply doRetireList_may rfl | exact rfl | (dsimp only [Upd.bit]; exact rfl) | with_reducible constructor | with_reducible intro _
  case ladleSubmit =>
    refine ⟨_, rfl, (?_ : May (mayWithReq ||| mayDoLadleSubmit) _)⟩
    repeat' first | with_reducible apply withReq_may rfl | with_reducible apply doLadleSubmit_may rfl | exact rfl | (dsimp only [Upd.bit]; exact rfl) | with_reducible constructor | with_reducible intro _
  case kvConfig =>
    refine ⟨_, rfl, (?_ : May (mayWithReq ||| mayKvConfig) _)⟩
    repeat' first | with_reducible apply withReq_may rfl | with_reducible apply kvConfig_may rfl | exact rfl | (dsimp only [Upd.bit]; exact rfl) | with_reducible constructor | with_reducible intro _
  case kvQuery =>
    refine ⟨_, rfl, (?_ : May (mayWithReq ||| mayDoKvQuery) _)⟩
    repeat' first | with_reducible apply withReq_may rfl | with_reducible apply doKvQuery_may rfl | exact rfl | (dsimp only [Upd.bit]; exact rfl) | with_reducible constructor | with_reducible intro _
  case seqCreate =>
    refine ⟨_, rfl, (?_ : May (mayWithReq ||| maySeqCreate) _)⟩
    repeat' first | with_reducible apply withReq_may rfl | with_reducible apply seqCreate_may rfl | exact rfl | (dsimp only [Upd.bit]; exact rfl) | with_reducible constructor | with_reducible intro _
  case seqFork =>
    refine ⟨_, rfl, (?_ : May (mayWithReq ||| maySeqFork) _)⟩
    repeat' first | with_reducible apply withReq_may rfl | with_reducible apply seqFork_may rfl | exact rfl | (dsimp only [Upd.bit]; exact rfl) | with_reducible constructor | with_reducible intro _
  case seqFree =>
    refine ⟨_, rfl, (?_ : May (mayWithReq ||| maySeqFree) _)⟩
    repeat' first | with_reducible apply withReq_may rfl | with_reducible apply seqFree_may rfl | exact rfl | (dsimp only [Upd.bit]; exact rfl) | with_reducible constructor | with_reducible intro _
  case seqEvict =>
    refine ⟨_, rfl, (?_ : May (mayWithReq ||| maySeqEvict) _)⟩
    repeat' first | with_reducible apply withReq_may rfl | with_reducible apply seqEvict_may rfl | exact rfl | (dsimp only [Upd.bit]; exact rfl) | with_reducible constructor | with_reducible intro _
  case seqReady =>
    refine ⟨_, rfl, (?_ : May (mayWithReq ||| maySeqReady) _)⟩
    repeat' first | with_reducible apply withReq_may rfl | with_reducible apply seqReady_may rfl | exact rfl | (dsimp only [Upd.bit]; exact rfl) | with_reducible constructor | with_reducible intro _
  case seqResume =>
    refine ⟨_, rfl, (?_ : May (mayWithReq ||| maySeqResume) _)⟩
    repeat' first | with_reducible apply withReq_may rfl | with_reducible apply seqResume_may rfl | exact rfl | (dsimp only [Upd.bit]; exact rfl) | with_reducible constructor | with_reducible intro _
  case portConfig =>
    refine ⟨_, rfl, (?_ : May (mayWithReq ||| mayDoPortConfig) _)⟩
    repeat' first | with_reducible apply withReq_may rfl | with_reducible apply doPortConfig_may rfl | exact rfl | (dsimp only [Upd.bit]; exact rfl) | with_reducible constructor | with_reducible intro _
  case portStatus =>
    refine ⟨_, rfl, (?_ : May (mayWithReq ||| mayDoPortStatus) _)⟩
    repeat' first | with_reducible apply withReq_may rfl | with_reducible apply doPortStatus_may rfl | exact rfl | (dsimp only [Upd.bit]; exact rfl) | with_reducible constructor | with_reducible intro _
  case endpointSet =>
    refine ⟨_, rfl, (?_ : May (mayWithReq ||| mayDoEndpointSet) _)⟩
    repeat' first | with_reducible apply withReq_may rfl | with_reducible apply doEndpointSet_may rfl | exact rfl | (dsimp only [Upd.bit]; exact rfl) | with_reducible constructor | with_reducible intro _
  case jobJoin =>
    refine ⟨_, rfl, (?_ : May (mayWithReq ||| mayJobJoin) _)⟩
    repeat' first | with_reducible apply withReq_may rfl | with_reducible apply jobJoin_may rfl | exact rfl | (dsimp only [Upd.bit]; exact rfl) | with_reducible constructor | with_reducible intro _
  case jobLeave =>
    refine ⟨_, rfl, (?_ : May (mayWithReq ||| mayDoJobLeave) _)⟩
    repeat' first | with_reducible apply withReq_may rfl | with_reducible apply doJobLeave_may rfl | exact rfl | (dsimp only [Upd.bit]; exact rfl) | with_reducible constructor | with_reducible intro _
  case jobKey =>
    refine ⟨_, rfl, (?_ : May (mayWithReq ||| mayJobKey) _)⟩
    repeat' first | with_reducible apply withReq_may rfl | with_reducible apply jobKey_may rfl | exact rfl | (dsimp only [Upd.bit]; exact rfl) | with_reducible constructor | with_reducible intro _
  case membershipCommit =>
    refine ⟨_, rfl, (?_ : May (mayWithReq ||| mayMembershipCommit) _)⟩
    repeat' first | with_reducible apply withReq_may rfl | with_reducible apply membershipCommit_may rfl | exact rfl | (dsimp only [Upd.bit]; exact rfl) | with_reducible constructor | with_reducible intro _
  case thermAckTrip =>
    refine ⟨_, rfl, (?_ : May (mayWithReq ||| mayThermAck) _)⟩
    repeat' first | with_reducible apply withReq_may rfl | with_reducible apply thermAck_may rfl | exact rfl | (dsimp only [Upd.bit]; exact rfl) | with_reducible constructor | with_reducible intro _
  case pwrLimit =>
    refine ⟨_, rfl, (?_ : May (mayWithReq ||| mayDoPwrLimit) _)⟩
    repeat' first | with_reducible apply withReq_may rfl | with_reducible apply doPwrLimit_may rfl | exact rfl | (dsimp only [Upd.bit]; exact rfl) | with_reducible constructor | with_reducible intro _
  case fwUpdate =>
    refine ⟨_, rfl, (?_ : May (mayWithReq ||| mayFwUpdate) _)⟩
    repeat' first | with_reducible apply withReq_may rfl | with_reducible apply fwUpdate_may rfl | exact rfl | (dsimp only [Upd.bit]; exact rfl) | with_reducible constructor | with_reducible intro _
  case fwActivate =>
    refine ⟨_, rfl, (?_ : May (mayWithReq ||| mayDoFwActivate) _)⟩
    repeat' first | with_reducible apply withReq_may rfl | with_reducible apply doFwActivate_may rfl | exact rfl | (dsimp only [Upd.bit]; exact rfl) | with_reducible constructor | with_reducible intro _
  case logConfig =>
    refine ⟨_, rfl, (?_ : May (mayWithReq ||| mayDoLogConfig) _)⟩
    repeat' first | with_reducible apply withReq_may rfl | with_reducible apply doLogConfig_may rfl | exact rfl | (dsimp only [Upd.bit]; exact rfl) | with_reducible constructor | with_reducible intro _
  case logFetch =>
    refine ⟨_, rfl, (?_ : May (mayWithReq ||| mayDoLogFetch) _)⟩
    repeat' first | with_reducible apply withReq_may rfl | with_reducible apply doLogFetch_may rfl | exact rfl | (dsimp only [Upd.bit]; exact rfl) | with_reducible constructor | with_reducible intro _
  case traceSet =>
    refine ⟨_, rfl, (?_ : May (mayWithReq ||| mayDoTraceSet) _)⟩
    repeat' first | with_reducible apply withReq_may rfl | with_reducible apply doTraceSet_may rfl | exact rfl | (dsimp only [Upd.bit]; exact rfl) | with_reducible constructor | with_reducible intro _
  case traceQuery =>
    refine ⟨_, rfl, (?_ : May (mayWithReq ||| mayDoTraceQuery) _)⟩
    repeat' first | with_reducible apply withReq_may rfl | with_reducible apply doTraceQuery_may rfl | exact rfl | (dsimp only [Upd.bit]; exact rfl) | with_reducible constructor | with_reducible intro _
  case mbDoorbellPost =>
    refine ⟨_, rfl, (?_ : May (mayMbPost) _)⟩
    repeat' first | with_reducible apply mbPost_may rfl | exact rfl | (dsimp only [Upd.bit]; exact rfl) | with_reducible constructor | with_reducible intro _
  case deferredCompletion =>
    refine ⟨_, rfl, (?_ : May (mayDeferredCompletion) _)⟩
    repeat' first | with_reducible apply deferredCompletion_may rfl | exact rfl | (dsimp only [Upd.bit]; exact rfl) | with_reducible constructor | with_reducible intro _
  case wqDbTailWrite =>
    refine ⟨_, rfl, (?_ : May (mayWqTail) _)⟩
    repeat' first | with_reducible apply wqTail_may rfl | exact rfl | (dsimp only [Upd.bit]; exact rfl) | with_reducible constructor | with_reducible intro _
  case workItemStart =>
    refine ⟨_, rfl, (?_ : May (mayItemStart) _)⟩
    repeat' first | with_reducible apply itemStart_may rfl | exact rfl | (dsimp only [Upd.bit]; exact rfl) | with_reducible constructor | with_reducible intro _
  case workItemComplete =>
    refine ⟨_, rfl, (?_ : May (mayItemComplete) _)⟩
    repeat' first | with_reducible apply itemComplete_may rfl | exact rfl | (dsimp only [Upd.bit]; exact rfl) | with_reducible constructor | with_reducible intro _
  case stoppingFault =>
    refine ⟨_, rfl, (?_ : May (mayStoppingFaultEff) _)⟩
    repeat' first | with_reducible apply stoppingFaultEff_may rfl | exact rfl | (dsimp only [Upd.bit]; exact rfl) | with_reducible constructor | with_reducible intro _
  case stallLimit =>
    refine ⟨_, rfl, (?_ : May (mayStallLimitEff) _)⟩
    repeat' first | with_reducible apply stallLimitEff_may rfl | exact rfl | (dsimp only [Upd.bit]; exact rfl) | with_reducible constructor | with_reducible intro _
  case preemption =>
    refine ⟨_, rfl, (?_ : May (mayPreemptionEff) _)⟩
    repeat' first | with_reducible apply preemptionEff_may rfl | exact rfl | (dsimp only [Upd.bit]; exact rfl) | with_reducible constructor | with_reducible intro _
  case preemptionAbandon =>
    refine ⟨_, rfl, (?_ : May (mayPreemptionAbandonEff) _)⟩
    repeat' first | with_reducible apply preemptionAbandonEff_may rfl | exact rfl | (dsimp only [Upd.bit]; exact rfl) | with_reducible constructor | with_reducible intro _
  case itemResume =>
    refine ⟨_, rfl, (?_ : May (mayItemResumeEff) _)⟩
    repeat' first | with_reducible apply itemResumeEff_may rfl | exact rfl | (dsimp only [Upd.bit]; exact rfl) | with_reducible constructor | with_reducible intro _
  case batchBoundary =>
    refine ⟨_, rfl, (?_ : May (mayBatchBoundaryEff) _)⟩
    repeat' first | with_reducible apply batchBoundaryEff_may rfl | exact rfl | (dsimp only [Upd.bit]; exact rfl) | with_reducible constructor | with_reducible intro _
  case hostWindowAccess =>
    refine ⟨_, rfl, (?_ : May (mayApplyUpsets ||| mayWindowAccess) _)⟩
    repeat' first | with_reducible apply applyUpsets_may rfl | with_reducible apply windowAccess_may rfl | exact rfl | (dsimp only [Upd.bit]; exact rfl) | with_reducible constructor | with_reducible intro _
  case functionLevelReset =>
    refine ⟨_, rfl, (?_ : May (mayFunctionLevelResetEff) _)⟩
    repeat' first | with_reducible apply functionLevelResetEff_may rfl | exact rfl | (dsimp only [Upd.bit]; exact rfl) | with_reducible constructor | with_reducible intro _
  case hostLinkDown =>
    refine ⟨_, rfl, (?_ : May (mayHostLinkDownEff) _)⟩
    repeat' first | with_reducible apply hostLinkDownEff_may rfl | exact rfl | (dsimp only [Upd.bit]; exact rfl) | with_reducible constructor | with_reducible intro _
  case hostLinkRetrain =>
    refine ⟨_, rfl, (?_ : May (mayHostLinkRetrainEff) _)⟩
    repeat' first | with_reducible apply hostLinkRetrainEff_may rfl | exact rfl | (dsimp only [Upd.bit]; exact rfl) | with_reducible constructor | with_reducible intro _
  case perstNAssert =>
    refine ⟨_, rfl, (?_ : May (mayPerstNAssertEff) _)⟩
    repeat' first | with_reducible apply perstNAssertEff_may rfl | exact rfl | (dsimp only [Upd.bit]; exact rfl) | with_reducible constructor | with_reducible intro _
  case seqCtlGo =>
    refine ⟨_, rfl, (?_ : May (maySeqGo) _)⟩
    repeat' first | with_reducible apply seqGo_may rfl | exact rfl | (dsimp only [Upd.bit]; exact rfl) | with_reducible constructor | with_reducible intro _
  case seqCtlStop =>
    refine ⟨_, rfl, (?_ : May (maySeqCtlStopEff) _)⟩
    repeat' first | with_reducible apply seqCtlStopEff_may rfl | exact rfl | (dsimp only [Upd.bit]; exact rfl) | with_reducible constructor | with_reducible intro _
  case seqCtlPause =>
    refine ⟨_, rfl, (?_ : May (maySeqPause) _)⟩
    repeat' first | with_reducible apply seqPause_may rfl | exact rfl | (dsimp only [Upd.bit]; exact rfl) | with_reducible constructor | with_reducible intro _
  case recordFetch =>
    refine ⟨_, rfl, (?_ : May (mayRecordFetchEff) _)⟩
    repeat' first | with_reducible apply recordFetchEff_may rfl | exact rfl | (dsimp only [Upd.bit]; exact rfl) | with_reducible constructor | with_reducible intro _
  case recordLoad =>
    refine ⟨_, rfl, (?_ : May (mayRecordLoadEff) _)⟩
    repeat' first | with_reducible apply recordLoadEff_may rfl | exact rfl | (dsimp only [Upd.bit]; exact rfl) | with_reducible constructor | with_reducible intro _
  case waitRelease =>
    refine ⟨_, rfl, (?_ : May (mayWaitReleaseEff) _)⟩
    repeat' first | with_reducible apply waitReleaseEff_may rfl | exact rfl | (dsimp only [Upd.bit]; exact rfl) | with_reducible constructor | with_reducible intro _
  case pourStart =>
    refine ⟨_, rfl, (?_ : May (mayPourStartEff) _)⟩
    repeat' first | with_reducible apply pourStartEff_may rfl | exact rfl | (dsimp only [Upd.bit]; exact rfl) | with_reducible constructor | with_reducible intro _
  case pourComplete =>
    refine ⟨_, rfl, (?_ : May (mayPourCompleteEff) _)⟩
    repeat' first | with_reducible apply pourCompleteEff_may rfl | exact rfl | (dsimp only [Upd.bit]; exact rfl) | with_reducible constructor | with_reducible intro _
  case shadowCopy =>
    refine ⟨_, rfl, (?_ : May (mayCopyShadow) _)⟩
    repeat' first | with_reducible apply copyShadow_may rfl | exact rfl | (dsimp only [Upd.bit]; exact rfl) | with_reducible constructor | with_reducible intro _
  case drainEnd =>
    refine ⟨_, rfl, (?_ : May (mayDrainEndEff) _)⟩
    repeat' first | with_reducible apply drainEndEff_may rfl | exact rfl | (dsimp only [Upd.bit]; exact rfl) | with_reducible constructor | with_reducible intro _
  case remoteAddFailure =>
    refine ⟨_, rfl, (?_ : May (maySyncLost) _)⟩
    repeat' first | with_reducible apply syncLost_may rfl | exact rfl | (dsimp only [Upd.bit]; exact rfl) | with_reducible constructor | with_reducible intro _
  case passEntry =>
    refine ⟨_, rfl, (?_ : May (mayPassEntry) _)⟩
    repeat' first | with_reducible apply passEntry_may rfl | exact rfl | (dsimp only [Upd.bit]; exact rfl) | with_reducible constructor | with_reducible intro _
  case tileLoadComplete =>
    refine ⟨_, rfl, (?_ : May (mayTileLoad) _)⟩
    repeat' first | with_reducible apply tileLoad_may rfl | exact rfl | (dsimp only [Upd.bit]; exact rfl) | with_reducible constructor | with_reducible intro _
  case shadowRelease =>
    refine ⟨_, rfl, (?_ : May (mayShadowReleaseEff) _)⟩
    repeat' first | with_reducible apply shadowReleaseEff_may rfl | exact rfl | (dsimp only [Upd.bit]; exact rfl) | with_reducible constructor | with_reducible intro _
  case accumulatorWrite =>
    refine ⟨_, rfl, (?_ : May (mayAccWrite) _)⟩
    repeat' first | with_reducible apply accWrite_may rfl | exact rfl | (dsimp only [Upd.bit]; exact rfl) | with_reducible constructor | with_reducible intro _
  case arrayStallEnd =>
    refine ⟨_, rfl, (?_ : May (mayArrayStallEnd) _)⟩
    repeat' first | with_reducible apply arrayStallEnd_may rfl | exact rfl | (dsimp only [Upd.bit]; exact rfl) | with_reducible constructor | with_reducible intro _
  case vectorIteration =>
    refine ⟨_, rfl, (?_ : May (mayVecIteration) _)⟩
    repeat' first | with_reducible apply vecIteration_may rfl | exact rfl | (dsimp only [Upd.bit]; exact rfl) | with_reducible constructor | with_reducible intro _
  case agAccess =>
    refine ⟨_, rfl, (?_ : May (mayAgAccess) _)⟩
    repeat' first | with_reducible apply agAccess_may rfl | exact rfl | (dsimp only [Upd.bit]; exact rfl) | with_reducible constructor | with_reducible intro _
  case loadDataPush =>
    refine ⟨_, rfl, (?_ : May (mayLoadPush) _)⟩
    repeat' first | with_reducible apply loadPush_may rfl | exact rfl | (dsimp only [Upd.bit]; exact rfl) | with_reducible constructor | with_reducible intro _
  case storeAck =>
    refine ⟨_, rfl, (?_ : May (mayStoreAckEff) _)⟩
    repeat' first | with_reducible apply storeAckEff_may rfl | exact rfl | (dsimp only [Upd.bit]; exact rfl) | with_reducible constructor | with_reducible intro _
  case queueStallEnd =>
    refine ⟨_, rfl, (?_ : May (mayQueueStallEnd) _)⟩
    repeat' first | with_reducible apply queueStallEnd_may rfl | exact rfl | (dsimp only [Upd.bit]; exact rfl) | with_reducible constructor | with_reducible intro _
  case queueStall =>
    refine ⟨_, rfl, (?_ : May (mayQueueStall) _)⟩
    repeat' first | with_reducible apply queueStall_may rfl | exact rfl | (dsimp only [Upd.bit]; exact rfl) | with_reducible constructor | with_reducible intro _
  case qCtlFlush =>
    refine ⟨_, rfl, (?_ : May (mayQFlush) _)⟩
    repeat' first | with_reducible apply qFlush_may rfl | exact rfl | (dsimp only [Upd.bit]; exact rfl) | with_reducible constructor | with_reducible intro _
  case counterAdd =>
    refine ⟨_, rfl, (?_ : May (mayCounterAddEff) _)⟩
    repeat' first | with_reducible apply counterAddEff_may rfl | exact rfl | (dsimp only [Upd.bit]; exact rfl) | with_reducible constructor | with_reducible intro _
  case bankCommandIssue =>
    refine ⟨_, rfl, (?_ : May (mayBankIssue) _)⟩
    repeat' first | with_reducible apply bankIssue_may rfl | exact rfl | (dsimp only [Upd.bit]; exact rfl) | with_reducible constructor | with_reducible intro _
  case bankCommandAccept =>
    refine ⟨_, rfl, (?_ : May (mayBankAccept) _)⟩
    repeat' first | with_reducible apply bankAccept_may rfl | exact rfl | (dsimp only [Upd.bit]; exact rfl) | with_reducible constructor | with_reducible intro _
  case streamTokenGrant =>
    refine ⟨_, rfl, (?_ : May (mayTokenGrant) _)⟩
    repeat' first | with_reducible apply tokenGrant_may rfl | exact rfl | (dsimp only [Upd.bit]; exact rfl) | with_reducible constructor | with_reducible intro _
  case rowBurst =>
    refine ⟨_, rfl, (?_ : May (mayRowBurst) _)⟩
    repeat' first | with_reducible apply rowBurst_may rfl | exact rfl | (dsimp only [Upd.bit]; exact rfl) | with_reducible constructor | with_reducible intro _
  case attendCmd =>
    refine ⟨_, rfl, (?_ : May (mayAttendCmdEff) _)⟩
    repeat' first | with_reducible apply attendCmdEff_may rfl | exact rfl | (dsimp only [Upd.bit]; exact rfl) | with_reducible constructor | with_reducible intro _
  case scoreCmd =>
    refine ⟨_, rfl, (?_ : May (mayScoreCmdEff) _)⟩
    repeat' first | with_reducible apply scoreCmdEff_may rfl | exact rfl | (dsimp only [Upd.bit]; exact rfl) | with_reducible constructor | with_reducible intro _
  case valueCmd =>
    refine ⟨_, rfl, (?_ : May (mayValueCmdEff) _)⟩
    repeat' first | with_reducible apply valueCmdEff_may rfl | exact rfl | (dsimp only [Upd.bit]; exact rfl) | with_reducible constructor | with_reducible intro _
  case appendQCmd =>
    refine ⟨_, rfl, (?_ : May (mayAppendQCmdEff) _)⟩
    repeat' first | with_reducible apply appendQCmdEff_may rfl | exact rfl | (dsimp only [Upd.bit]; exact rfl) | with_reducible constructor | with_reducible intro _
  case fillCmd =>
    refine ⟨_, rfl, (?_ : May (mayFillCmdEff) _)⟩
    repeat' first | with_reducible apply fillCmdEff_may rfl | exact rfl | (dsimp only [Upd.bit]; exact rfl) | with_reducible constructor | with_reducible intro _
  case copyPageCmd =>
    refine ⟨_, rfl, (?_ : May (mayCopyPageCmdEff) _)⟩
    repeat' first | with_reducible apply copyPageCmdEff_may rfl | exact rfl | (dsimp only [Upd.bit]; exact rfl) | with_reducible constructor | with_reducible intro _
  case reduceCmd =>
    refine ⟨_, rfl, (?_ : May (mayReduceCmdEff) _)⟩
    repeat' first | with_reducible apply reduceCmdEff_may rfl | exact rfl | (dsimp only [Upd.bit]; exact rfl) | with_reducible constructor | with_reducible intro _
  case bankFence =>
    refine ⟨_, rfl, (?_ : May (mayBankFence) _)⟩
    repeat' first | with_reducible apply bankFence_may rfl | exact rfl | (dsimp only [Upd.bit]; exact rfl) | with_reducible constructor | with_reducible intro _
  case bankResultPush =>
    refine ⟨_, rfl, (?_ : May (mayResultPush) _)⟩
    repeat' first | with_reducible apply resultPush_may rfl | exact rfl | (dsimp only [Upd.bit]; exact rfl) | with_reducible constructor | with_reducible intro _
  case bsuFault =>
    refine ⟨_, rfl, (?_ : May (mayBsuFault) _)⟩
    repeat' first | with_reducible apply bsuFault_may rfl | exact rfl | (dsimp only [Upd.bit]; exact rfl) | with_reducible constructor | with_reducible intro _
  case memoryRead =>
    refine ⟨_, rfl, (?_ : May (mayMemoryReadEff) _)⟩
    repeat' first | with_reducible apply memoryReadEff_may rfl | exact rfl | (dsimp only [Upd.bit]; exact rfl) | with_reducible constructor | with_reducible intro _
  case memoryWrite =>
    refine ⟨_, rfl, (?_ : May (mayMemoryWriteEff) _)⟩
    repeat' first | with_reducible apply memoryWriteEff_may rfl | exact rfl | (dsimp only [Upd.bit]; exact rfl) | with_reducible constructor | with_reducible intro _
  case eccWriteBack =>
    refine ⟨_, rfl, (?_ : May (mayWriteBack) _)⟩
    repeat' first | with_reducible apply writeBack_may rfl | exact rfl | (dsimp only [Upd.bit]; exact rfl) | with_reducible constructor | with_reducible intro _
  case refreshSlot =>
    refine ⟨_, rfl, (?_ : May (mayRefreshSlot) _)⟩
    repeat' first | with_reducible apply refreshSlot_may rfl | exact rfl | (dsimp only [Upd.bit]; exact rfl) | with_reducible constructor | with_reducible intro _
  case selfRefreshEntry =>
    refine ⟨_, rfl, (?_ : May (mr .CRS_STAT_self_refresh) _)⟩
    repeat' first | exact rfl | (dsimp only [Upd.bit]; exact rfl) | with_reducible constructor | with_reducible intro _
  case selfRefreshExit =>
    refine ⟨_, rfl, (?_ : May (maySelfRefreshExitEff) _)⟩
    repeat' first | with_reducible apply selfRefreshExitEff_may rfl | exact rfl | (dsimp only [Upd.bit]; exact rfl) | with_reducible constructor | with_reducible intro _
  case scrubRead =>
    refine ⟨_, rfl, (?_ : May (mayApplyUpsets ||| mayScrub) _)⟩
    repeat' first | with_reducible apply applyUpsets_may rfl | with_reducible apply scrub_may rfl | exact rfl | (dsimp only [Upd.bit]; exact rfl) | with_reducible constructor | with_reducible intro _
  case sramScrubRead =>
    refine ⟨_, rfl, (?_ : May (maySramScrubReadEff) _)⟩
    repeat' first | with_reducible apply sramScrubReadEff_may rfl | exact rfl | (dsimp only [Upd.bit]; exact rfl) | with_reducible constructor | with_reducible intro _
  case eccFillStart =>
    refine ⟨_, rfl, (?_ : May (mayFillStart) _)⟩
    repeat' first | with_reducible apply fillStart_may rfl | exact rfl | (dsimp only [Upd.bit]; exact rfl) | with_reducible constructor | with_reducible intro _
  case fillEngineDone =>
    refine ⟨_, rfl, (?_ : May (mayFillDone) _)⟩
    repeat' first | with_reducible apply fillDone_may rfl | exact rfl | (dsimp only [Upd.bit]; exact rfl) | with_reducible constructor | with_reducible intro _
  case eccTwRead =>
    refine ⟨_, rfl, (?_ : May (mayTwRead) _)⟩
    repeat' first | with_reducible apply twRead_may rfl | exact rfl | (dsimp only [Upd.bit]; exact rfl) | with_reducible constructor | with_reducible intro _
  case eccTwWrite =>
    refine ⟨_, rfl, (?_ : May (mayTwWrite) _)⟩
    repeat' first | with_reducible apply twWrite_may rfl | exact rfl | (dsimp only [Upd.bit]; exact rfl) | with_reducible constructor | with_reducible intro _
  case mcCtlInval =>
    refine ⟨_, rfl, (?_ : May (mayInvalSlice) _)⟩
    repeat' first | with_reducible apply invalSlice_may rfl | exact rfl | (dsimp only [Upd.bit]; exact rfl) | with_reducible constructor | with_reducible intro _
  case mcPerfClear =>
    refine ⟨_, rfl, (?_ : May (mayMcPerfClear) _)⟩
    repeat' first | with_reducible apply mcPerfClear_may rfl | exact rfl | (dsimp only [Upd.bit]; exact rfl) | with_reducible constructor | with_reducible intro _
  case arrPerfClear =>
    refine ⟨_, rfl, (?_ : May (mayArrPerfClear) _)⟩
    repeat' first | with_reducible apply arrPerfClear_may rfl | exact rfl | (dsimp only [Upd.bit]; exact rfl) | with_reducible constructor | with_reducible intro _
  case vecPerfClear =>
    refine ⟨_, rfl, (?_ : May (mayVecPerfClear) _)⟩
    repeat' first | with_reducible apply vecPerfClear_may rfl | exact rfl | (dsimp only [Upd.bit]; exact rfl) | with_reducible constructor | with_reducible intro _
  case bsuPerfClear =>
    refine ⟨_, rfl, (?_ : May (mayBsuPerfClear) _)⟩
    repeat' first | with_reducible apply bsuPerfClear_may rfl | exact rfl | (dsimp only [Upd.bit]; exact rfl) | with_reducible constructor | with_reducible intro _
  case ldlPerfClear =>
    refine ⟨_, rfl, (?_ : May (mayLdlPerfClear) _)⟩
    repeat' first | with_reducible apply ldlPerfClear_may rfl | exact rfl | (dsimp only [Upd.bit]; exact rfl) | with_reducible constructor | with_reducible intro _
  case fpPerfClear =>
    refine ⟨_, rfl, (?_ : May (mayFpPerfClear) _)⟩
    repeat' first | with_reducible apply fpPerfClear_may rfl | exact rfl | (dsimp only [Upd.bit]; exact rfl) | with_reducible constructor | with_reducible intro _
  case fabPerfClear =>
    refine ⟨_, rfl, (?_ : May (mayFabPerfClear) _)⟩
    repeat' first | with_reducible apply fabPerfClear_may rfl | exact rfl | (dsimp only [Upd.bit]; exact rfl) | with_reducible constructor | with_reducible intro _
  case readClearCounter => exact ⟨_, rfl, may_all _⟩
  case kvFlPop =>
    refine ⟨_, rfl, (?_ : May (mayFlPop ||| mp .rsp) _)⟩
    repeat' first | with_reducible apply flPop_may rfl | exact rfl | (dsimp only [Upd.bit]; exact rfl) | with_reducible constructor | with_reducible intro _
  case kvFlPopb =>
    refine ⟨_, rfl, (?_ : May (mayKvFlPopbEff) _)⟩
    repeat' first | with_reducible apply kvFlPopbEff_may rfl | exact rfl | (dsimp only [Upd.bit]; exact rfl) | with_reducible constructor | with_reducible intro _
  case kvFlPush =>
    refine ⟨_, rfl, (?_ : May (mayFlPush) _)⟩
    repeat' first | with_reducible apply flPush_may rfl | exact rfl | (dsimp only [Upd.bit]; exact rfl) | with_reducible constructor | with_reducible intro _
  case appendRequest =>
    refine ⟨_, rfl, (?_ : May (mayAppendRequest ||| mayAcctSync) _)⟩
    repeat' first | with_reducible apply appendRequest_may rfl | with_reducible apply acctSync_may rfl | exact rfl | (dsimp only [Upd.bit]; exact rfl) | with_reducible constructor | with_reducible intro _
  case copyOnWrite =>
    refine ⟨_, rfl, (?_ : May (mayCopyOnWrite ||| mayAcctSync) _)⟩
    repeat' first | with_reducible apply copyOnWrite_may rfl | with_reducible apply acctSync_may rfl | exact rfl | (dsimp only [Upd.bit]; exact rfl) | with_reducible constructor | with_reducible intro _
  case attendRequest =>
    refine ⟨_, rfl, (?_ : May (mayAttendRequest) _)⟩
    repeat' first | with_reducible apply attendRequest_may rfl | exact rfl | (dsimp only [Upd.bit]; exact rfl) | with_reducible constructor | with_reducible intro _
  case memberMerge =>
    refine ⟨_, rfl, (?_ : May (mayMemberMerge) _)⟩
    repeat' first | with_reducible apply memberMerge_may rfl | exact rfl | (dsimp only [Upd.bit]; exact rfl) | with_reducible constructor | with_reducible intro _
  case stepEnd =>
    refine ⟨_, rfl, (?_ : May (mayStepEnd) _)⟩
    repeat' first | with_reducible apply stepEnd_may rfl | exact rfl | (dsimp only [Upd.bit]; exact rfl) | with_reducible constructor | with_reducible intro _
  case epochDrain =>
    refine ⟨_, rfl, (?_ : May (mayEpochDrain) _)⟩
    repeat' first | with_reducible apply epochDrain_may rfl | exact rfl | (dsimp only [Upd.bit]; exact rfl) | with_reducible constructor | with_reducible intro _
  case reclamation =>
    refine ⟨_, rfl, (?_ : May (mayReclaim) _)⟩
    repeat' first | with_reducible apply reclaim_may rfl | exact rfl | (dsimp only [Upd.bit]; exact rfl) | with_reducible constructor | with_reducible intro _
  case dropEviction =>
    refine ⟨_, rfl, (?_ : May (mayDropEvict) _)⟩
    repeat' first | with_reducible apply dropEvict_may rfl | exact rfl | (dsimp only [Upd.bit]; exact rfl) | with_reducible constructor | with_reducible intro _
  case swapEviction =>
    refine ⟨_, rfl, (?_ : May (maySwapEvict) _)⟩
    repeat' first | with_reducible apply swapEvict_may rfl | exact rfl | (dsimp only [Upd.bit]; exact rfl) | with_reducible constructor | with_reducible intro _
  case swapPageDone =>
    refine ⟨_, rfl, (?_ : May (maySwapPageDone) _)⟩
    repeat' first | with_reducible apply swapPageDone_may rfl | exact rfl | (dsimp only [Upd.bit]; exact rfl) | with_reducible constructor | with_reducible intro _
  case pageRestore =>
    refine ⟨_, rfl, (?_ : May (mayPageRestore) _)⟩
    repeat' first | with_reducible apply pageRestore_may rfl | exact rfl | (dsimp only [Upd.bit]; exact rfl) | with_reducible constructor | with_reducible intro _
  case kvStarved =>
    refine ⟨_, rfl, (?_ : May (mayStarve) _)⟩
    repeat' first | with_reducible apply starve_may rfl | exact rfl | (dsimp only [Upd.bit]; exact rfl) | with_reducible constructor | with_reducible intro _
  case crsRstFp =>
    refine ⟨_, rfl, (?_ : May (mayHoldFp) _)⟩
    repeat' first | with_reducible apply holdFp_may rfl | exact rfl | (dsimp only [Upd.bit]; exact rfl) | with_reducible constructor | with_reducible intro _
  case crsRstCluster =>
    refine ⟨_, rfl, (?_ : May (mayHoldCluster) _)⟩
    repeat' first | with_reducible apply holdCluster_may rfl | exact rfl | (dsimp only [Upd.bit]; exact rfl) | with_reducible constructor | with_reducible intro _
  case crsCoreGo =>
    refine ⟨_, rfl, (?_ : May (mayHoldCore) _)⟩
    repeat' first | with_reducible apply holdCore_may rfl | exact rfl | (dsimp only [Upd.bit]; exact rfl) | with_reducible constructor | with_reducible intro _
  case resetRelease =>
    refine ⟨_, rfl, (?_ : May (mayResetReleaseEff) _)⟩
    repeat' first | with_reducible apply resetReleaseEff_may rfl | exact rfl | (dsimp only [Upd.bit]; exact rfl) | with_reducible constructor | with_reducible intro _
  case fabricPlaneReturn =>
    refine ⟨_, rfl, (?_ : May (mayFpReturn ||| mayRelink ||| mayBootRecord) _)⟩
    repeat' first | with_reducible apply fpReturn_may rfl | with_reducible apply relink_may rfl | with_reducible apply bootRecord_may rfl | exact rfl | (dsimp only [Upd.bit]; exact rfl) | with_reducible constructor | with_reducible intro _
  case pllLockLoss =>
    refine ⟨_, rfl, (?_ : May (mayPllLockLossEff) _)⟩
    repeat' first | with_reducible apply pllLockLossEff_may rfl | exact rfl | (dsimp only [Upd.bit]; exact rfl) | with_reducible constructor | with_reducible intro _
  case pllRelock =>
    refine ⟨_, rfl, (?_ : May (mayPllRelockEff) _)⟩
    repeat' first | with_reducible apply pllRelockEff_may rfl | exact rfl | (dsimp only [Upd.bit]; exact rfl) | with_reducible constructor | with_reducible intro _
  case clockSlewStep =>
    refine ⟨_, rfl, (?_ : May (mayClockSlewStepEff) _)⟩
    repeat' first | with_reducible apply clockSlewStepEff_may rfl | exact rfl | (dsimp only [Upd.bit]; exact rfl) | with_reducible constructor | with_reducible intro _
  case peerReset =>
    refine ⟨_, rfl, (?_ : May (mayPeerResetEff) _)⟩
    repeat' first | with_reducible apply peerResetEff_may rfl | exact rfl | (dsimp only [Upd.bit]; exact rfl) | with_reducible constructor | with_reducible intro _
  case linkDown =>
    refine ⟨_, rfl, (?_ : May (mayLinkFalls) _)⟩
    repeat' first | with_reducible apply linkFalls_may rfl | exact rfl | (dsimp only [Upd.bit]; exact rfl) | with_reducible constructor | with_reducible intro _
  case d2dTimeout =>
    refine ⟨_, rfl, (?_ : May (mayD2dTimeoutEff) _)⟩
    repeat' first | with_reducible apply d2dTimeoutEff_may rfl | exact rfl | (dsimp only [Upd.bit]; exact rfl) | with_reducible constructor | with_reducible intro _
  case d2dLink =>
    refine ⟨_, rfl, (?_ : May (mayD2dLinkEff) _)⟩
    repeat' first | with_reducible apply d2dLinkEff_may rfl | exact rfl | (dsimp only [Upd.bit]; exact rfl) | with_reducible constructor | with_reducible intro _
  case nocCtlApply =>
    refine ⟨_, rfl, (?_ : May (mayApplyRoutes) _)⟩
    repeat' first | with_reducible apply applyRoutes_may rfl | exact rfl | (dsimp only [Upd.bit]; exact rfl) | with_reducible constructor | with_reducible intro _
  case routeSwitch =>
    refine ⟨_, rfl, (?_ : May (maySwitchRoute) _)⟩
    repeat' first | with_reducible apply switchRoute_may rfl | exact rfl | (dsimp only [Upd.bit]; exact rfl) | with_reducible constructor | with_reducible intro _
  case ldlChHeadWrite =>
    refine ⟨_, rfl, (?_ : May (mayLadleHead) _)⟩
    repeat' first | with_reducible apply ladleHead_may rfl | exact rfl | (dsimp only [Upd.bit]; exact rfl) | with_reducible constructor | with_reducible intro _
  case ladleDescriptorStart =>
    refine ⟨_, rfl, (?_ : May (mayApplyUpsets ||| mayDescStart) _)⟩
    repeat' first | with_reducible apply applyUpsets_may rfl | with_reducible apply descStart_may rfl | exact rfl | (dsimp only [Upd.bit]; exact rfl) | with_reducible constructor | with_reducible intro _
  case ladleDescriptorDone =>
    refine ⟨_, rfl, (?_ : May (mayDescDone) _)⟩
    repeat' first | with_reducible apply descDone_may rfl | exact rfl | (dsimp only [Upd.bit]; exact rfl) | with_reducible constructor | with_reducible intro _
  case ldlCtlDisable =>
    refine ⟨_, rfl, (?_ : May (mayLadleAbort ||| mr .LDL_CTL_disable) _)⟩
    repeat' first | with_reducible apply ladleAbort_may rfl | exact rfl | (dsimp only [Upd.bit]; exact rfl) | with_reducible constructor | with_reducible intro _
  case regulatorRelease =>
    refine ⟨_, rfl, (?_ : May (mayRegulatorReleaseEff) _)⟩
    repeat' first | with_reducible apply regulatorReleaseEff_may rfl | exact rfl | (dsimp only [Upd.bit]; exact rfl) | with_reducible constructor | with_reducible intro _
  case farLinkDown =>
    refine ⟨_, rfl, (?_ : May (mayFarLinkDownEff) _)⟩
    repeat' first | with_reducible apply farLinkDownEff_may rfl | exact rfl | (dsimp only [Upd.bit]; exact rfl) | with_reducible constructor | with_reducible intro _
  case fpCfgEnWrite =>
    refine ⟨_, rfl, (?_ : May (mayPortEnable) _)⟩
    repeat' first | with_reducible apply portEnable_may rfl | exact rfl | (dsimp only [Upd.bit]; exact rfl) | with_reducible constructor | with_reducible intro _
  case fpCtlRequal =>
    refine ⟨_, rfl, (?_ : May (mayRequal) _)⟩
    repeat' first | with_reducible apply requal_may rfl | exact rfl | (dsimp only [Upd.bit]; exact rfl) | with_reducible constructor | with_reducible intro _
  case trainingAttemptEnd =>
    refine ⟨_, rfl, (?_ : May (mayTrainingAttemptEndEff) _)⟩
    repeat' first | with_reducible apply trainingAttemptEndEff_may rfl | exact rfl | (dsimp only [Upd.bit]; exact rfl) | with_reducible constructor | with_reducible intro _
  case qualificationWindowEnd =>
    refine ⟨_, rfl, (?_ : May (mayWindowEnd) _)⟩
    repeat' first | with_reducible apply windowEnd_may rfl | exact rfl | (dsimp only [Upd.bit]; exact rfl) | with_reducible constructor | with_reducible intro _
  case portDegrade =>
    refine ⟨_, rfl, (?_ : May (mayPortDegrade) _)⟩
    repeat' first | with_reducible apply portDegrade_may rfl | exact rfl | (dsimp only [Upd.bit]; exact rfl) | with_reducible constructor | with_reducible intro _
  case subportAssayStart =>
    refine ⟨_, rfl, (?_ : May (maySetSub_) _)⟩
    repeat' first | with_reducible apply setSub__may rfl | exact rfl | (dsimp only [Upd.bit]; exact rfl) | with_reducible constructor | with_reducible intro _
  case linkAssayEnd =>
    refine ⟨_, rfl, (?_ : May (maySubAssayEnd) _)⟩
    repeat' first | with_reducible apply subAssayEnd_may rfl | exact rfl | (dsimp only [Upd.bit]; exact rfl) | with_reducible constructor | with_reducible intro _
  case portDown =>
    refine ⟨_, rfl, (?_ : May (mayPortDownEff) _)⟩
    repeat' first | with_reducible apply portDownEff_may rfl | exact rfl | (dsimp only [Upd.bit]; exact rfl) | with_reducible constructor | with_reducible intro _
  case failedRetry =>
    refine ⟨_, rfl, (?_ : May (mayStartTraining) _)⟩
    repeat' first | with_reducible apply startTraining_may rfl | exact rfl | (dsimp only [Upd.bit]; exact rfl) | with_reducible constructor | with_reducible intro _
  case recalibrationStep =>
    refine ⟨_, rfl, (?_ : May (mayRecalibrationStepEff) _)⟩
    repeat' first | with_reducible apply recalibrationStepEff_may rfl | exact rfl | (dsimp only [Upd.bit]; exact rfl) | with_reducible constructor | with_reducible intro _
  case lldpSend =>
    refine ⟨_, rfl, (?_ : May (maySendFrame ||| mp .tick) _)⟩
    repeat' first | with_reducible apply sendFrame_may rfl | exact rfl | (dsimp only [Upd.bit]; exact rfl) | with_reducible constructor | with_reducible intro _
  case gratuitousArp =>
    refine ⟨_, rfl, (?_ : May (mayGratuitousArpEff) _)⟩
    repeat' first | with_reducible apply gratuitousArpEff_may rfl | exact rfl | (dsimp only [Upd.bit]; exact rfl) | with_reducible constructor | with_reducible intro _
  case frameReceive =>
    refine ⟨_, rfl, (?_ : May (mayFrameReceive) _)⟩
    repeat' first | with_reducible apply frameReceive_may rfl | exact rfl | (dsimp only [Upd.bit]; exact rfl) | with_reducible constructor | with_reducible intro _
  case neighborSolicitation =>
    refine ⟨_, rfl, (?_ : May (mayNeighborSolicitationEff) _)⟩
    repeat' first | with_reducible apply neighborSolicitationEff_may rfl | exact rfl | (dsimp only [Upd.bit]; exact rfl) | with_reducible constructor | with_reducible intro _
  case rxPut =>
    refine ⟨_, rfl, (?_ : May (mayRxPutEff) _)⟩
    repeat' first | with_reducible apply rxPutEff_may rfl | exact rfl | (dsimp only [Upd.bit]; exact rfl) | with_reducible constructor | with_reducible intro _
  case rxGet =>
    refine ⟨_, rfl, (?_ : May (mayRxGetEff) _)⟩
    repeat' first | with_reducible apply rxGetEff_may rfl | exact rfl | (dsimp only [Upd.bit]; exact rfl) | with_reducible constructor | with_reducible intro _
  case rxAdd =>
    refine ⟨_, rfl, (?_ : May (mayRxAddEff) _)⟩
    repeat' first | with_reducible apply rxAddEff_may rfl | exact rfl | (dsimp only [Upd.bit]; exact rfl) | with_reducible constructor | with_reducible intro _
  case rxSend =>
    refine ⟨_, rfl, (?_ : May (mayRxSendEff) _)⟩
    repeat' first | with_reducible apply rxSendEff_may rfl | exact rfl | (dsimp only [Upd.bit]; exact rfl) | with_reducible constructor | with_reducible intro _
  case rxGetr =>
    refine ⟨_, rfl, (?_ : May (mayRxData ||| mayRxGetr) _)⟩
    repeat' first | with_reducible apply rxData_may rfl | with_reducible apply rxGetr_may rfl | exact rfl | (dsimp only [Upd.bit]; exact rfl) | with_reducible constructor | with_reducible intro _
  case ackPkt =>
    refine ⟨_, rfl, (?_ : May (mayAckPktEff) _)⟩
    repeat' first | with_reducible apply ackPktEff_may rfl | exact rfl | (dsimp only [Upd.bit]; exact rfl) | with_reducible constructor | with_reducible intro _
  case ackSend =>
    refine ⟨_, rfl, (?_ : May (mayAckSend) _)⟩
    repeat' first | with_reducible apply ackSend_may rfl | exact rfl | (dsimp only [Upd.bit]; exact rfl) | with_reducible constructor | with_reducible intro _
  case packetLoss =>
    refine ⟨_, rfl, (?_ : May (mayPacketLoss) _)⟩
    repeat' first | with_reducible apply packetLoss_may rfl | exact rfl | (dsimp only [Upd.bit]; exact rfl) | with_reducible constructor | with_reducible intro _
  case initPkt =>
    refine ⟨_, rfl, (?_ : May (mayRxType ||| mayInitPkt) _)⟩
    repeat' first | with_reducible apply rxType_may rfl | with_reducible apply initPkt_may rfl | exact rfl | (dsimp only [Upd.bit]; exact rfl) | with_reducible constructor | with_reducible intro _
  case initAckPkt =>
    refine ⟨_, rfl, (?_ : May (mayRxType ||| mayInitAckPkt) _)⟩
    repeat' first | with_reducible apply rxType_may rfl | with_reducible apply initAckPkt_may rfl | exact rfl | (dsimp only [Upd.bit]; exact rfl) | with_reducible constructor | with_reducible intro _
  case confirmPkt =>
    refine ⟨_, rfl, (?_ : May (mayConfirmPktEff) _)⟩
    repeat' first | with_reducible apply confirmPktEff_may rfl | exact rfl | (dsimp only [Upd.bit]; exact rfl) | with_reducible constructor | with_reducible intro _
  case refusePkt =>
    refine ⟨_, rfl, (?_ : May (mayRefusePktEff) _)⟩
    repeat' first | with_reducible apply refusePktEff_may rfl | exact rfl | (dsimp only [Upd.bit]; exact rfl) | with_reducible constructor | with_reducible intro _
  case closePkt =>
    refine ⟨_, rfl, (?_ : May (mayClosePktEff) _)⟩
    repeat' first | with_reducible apply closePktEff_may rfl | exact rfl | (dsimp only [Upd.bit]; exact rfl) | with_reducible constructor | with_reducible intro _
  case rekeyPkt =>
    refine ⟨_, rfl, (?_ : May (mayRekeyPktEff) _)⟩
    repeat' first | with_reducible apply rekeyPktEff_may rfl | exact rfl | (dsimp only [Upd.bit]; exact rfl) | with_reducible constructor | with_reducible intro _
  case oldPhaseKeyExpiry =>
    refine ⟨_, rfl, (?_ : May (maySetConn) _)⟩
    repeat' first | with_reducible apply setConn_may rfl | exact rfl | (dsimp only [Upd.bit]; exact rfl) | with_reducible constructor | with_reducible intro _
  case initResend =>
    refine ⟨_, rfl, (?_ : May (mayInitResendEff) _)⟩
    repeat' first | with_reducible apply initResendEff_may rfl | exact rfl | (dsimp only [Upd.bit]; exact rfl) | with_reducible constructor | with_reducible intro _
  case setupTimeout =>
    refine ⟨_, rfl, (?_ : May (maySetupTimeoutEff) _)⟩
    repeat' first | with_reducible apply setupTimeoutEff_may rfl | exact rfl | (dsimp only [Upd.bit]; exact rfl) | with_reducible constructor | with_reducible intro _
  case fabConnLost =>
    refine ⟨_, rfl, (?_ : May (mayConnLost) _)⟩
    repeat' first | with_reducible apply connLost_may rfl | exact rfl | (dsimp only [Upd.bit]; exact rfl) | with_reducible constructor | with_reducible intro _
  case idleClose =>
    refine ⟨_, rfl, (?_ : May (mayIdleCloseEff) _)⟩
    repeat' first | with_reducible apply idleCloseEff_may rfl | exact rfl | (dsimp only [Upd.bit]; exact rfl) | with_reducible constructor | with_reducible intro _
  case drainWindowEnd =>
    refine ⟨_, rfl, (?_ : May (mayDrainWindowEndEff) _)⟩
    repeat' first | with_reducible apply drainWindowEndEff_may rfl | exact rfl | (dsimp only [Upd.bit]; exact rfl) | with_reducible constructor | with_reducible intro _
  case congestionTick =>
    refine ⟨_, rfl, (?_ : May (mayCongestionTick) _)⟩
    repeat' first | with_reducible apply congestionTick_may rfl | exact rfl | (dsimp only [Upd.bit]; exact rfl) | with_reducible constructor | with_reducible intro _
  case putOp =>
    refine ⟨_, rfl, (?_ : May (mayTakeCommand) _)⟩
    repeat' first | with_reducible apply takeCommand_may rfl | exact rfl | (dsimp only [Upd.bit]; exact rfl) | with_reducible constructor | with_reducible intro _
  case getOp =>
    refine ⟨_, rfl, (?_ : May (mayTakeCommand) _)⟩
    repeat' first | with_reducible apply takeCommand_may rfl | exact rfl | (dsimp only [Upd.bit]; exact rfl) | with_reducible constructor | with_reducible intro _
  case addOp =>
    refine ⟨_, rfl, (?_ : May (mayTakeCommand) _)⟩
    repeat' first | with_reducible apply takeCommand_may rfl | exact rfl | (dsimp only [Upd.bit]; exact rfl) | with_reducible constructor | with_reducible intro _
  case sendOp =>
    refine ⟨_, rfl, (?_ : May (mayTakeCommand) _)⟩
    repeat' first | with_reducible apply takeCommand_may rfl | exact rfl | (dsimp only [Upd.bit]; exact rfl) | with_reducible constructor | with_reducible intro _
  case operationComplete =>
    refine ⟨_, rfl, (?_ : May (mayOpComplete) _)⟩
    repeat' first | with_reducible apply opComplete_may rfl | exact rfl | (dsimp only [Upd.bit]; exact rfl) | with_reducible constructor | with_reducible intro _
  case fabCfgEnWrite =>
    refine ⟨_, rfl, (?_ : May (mayFabEnable) _)⟩
    repeat' first | with_reducible apply fabEnable_may rfl | exact rfl | (dsimp only [Upd.bit]; exact rfl) | with_reducible constructor | with_reducible intro _
  case fwHang =>
    refine ⟨_, rfl, (?_ : May (mayFwHang) _)⟩
    repeat' first | with_reducible apply fwHang_may rfl | exact rfl | (dsimp only [Upd.bit]; exact rfl) | with_reducible constructor | with_reducible intro _
  case firmwareRestartDone =>
    refine ⟨_, rfl, (?_ : May (mayRestartDone) _)⟩
    repeat' first | with_reducible apply restartDone_may rfl | exact rfl | (dsimp only [Upd.bit]; exact rfl) | with_reducible constructor | with_reducible intro _
  case logAppend =>
    refine ⟨_, rfl, (?_ : May (mayLogAppendEff) _)⟩
    repeat' first | with_reducible apply logAppendEff_may rfl | exact rfl | (dsimp only [Upd.bit]; exact rfl) | with_reducible constructor | with_reducible intro _
  case tracePoint =>
    refine ⟨_, rfl, (?_ : May (mayTracePoint) _)⟩
    repeat' first | with_reducible apply tracePoint_may rfl | exact rfl | (dsimp only [Upd.bit]; exact rfl) | with_reducible constructor | with_reducible intro _
  case bgLate =>
    refine ⟨_, rfl, (?_ : May (mayBgLateEff) _)⟩
    repeat' first | with_reducible apply bgLateEff_may rfl | exact rfl | (dsimp only [Upd.bit]; exact rfl) | with_reducible constructor | with_reducible intro _
  case telemetry =>
    refine ⟨_, rfl, (?_ : May (mayTelemetryEff) _)⟩
    repeat' first | with_reducible apply telemetryEff_may rfl | exact rfl | (dsimp only [Upd.bit]; exact rfl) | with_reducible constructor | with_reducible intro _
  case tsPair =>
    refine ⟨_, rfl, (?_ : May (mayTsPairEff) _)⟩
    repeat' first | with_reducible apply tsPairEff_may rfl | exact rfl | (dsimp only [Upd.bit]; exact rfl) | with_reducible constructor | with_reducible intro _
  case dramRecalibrationStep =>
    refine ⟨_, rfl, (?_ : May (mayDramRecalibrationStepEff) _)⟩
    repeat' first | with_reducible apply dramRecalibrationStepEff_may rfl | exact rfl | (dsimp only [Upd.bit]; exact rfl) | with_reducible constructor | with_reducible intro _
  case storedSettingsWrite =>
    refine ⟨_, rfl, (?_ : May (mayStoreSettings) _)⟩
    repeat' first | with_reducible apply storeSettings_may rfl | exact rfl | (dsimp only [Upd.bit]; exact rfl) | with_reducible constructor | with_reducible intro _
  case egDoorbell =>
    refine ⟨_, rfl, (?_ : May (mayEgDoorbell) _)⟩
    repeat' first | with_reducible apply egDoorbell_may rfl | exact rfl | (dsimp only [Upd.bit]; exact rfl) | with_reducible constructor | with_reducible intro _
  case egClaim =>
    refine ⟨_, rfl, (?_ : May (mayEgClaim) _)⟩
    repeat' first | with_reducible apply egClaim_may rfl | exact rfl | (dsimp only [Upd.bit]; exact rfl) | with_reducible constructor | with_reducible intro _
  case egComplete =>
    refine ⟨_, rfl, (?_ : May (mayEgComplete) _)⟩
    repeat' first | with_reducible apply egComplete_may rfl | exact rfl | (dsimp only [Upd.bit]; exact rfl) | with_reducible constructor | with_reducible intro _
  case egHcomplete =>
    refine ⟨_, rfl, (?_ : May (mayEgHcompleteEff) _)⟩
    repeat' first | with_reducible apply egHcompleteEff_may rfl | exact rfl | (dsimp only [Upd.bit]; exact rfl) | with_reducible constructor | with_reducible intro _
  case assayVerdict =>
    refine ⟨_, rfl, (?_ : May (mayAssayVerdictEff) _)⟩
    repeat' first | with_reducible apply assayVerdictEff_may rfl | exact rfl | (dsimp only [Upd.bit]; exact rfl) | with_reducible constructor | with_reducible intro _
  case errorReport =>
    refine ⟨_, rfl, (?_ : May (mayErrorReportEff) _)⟩
    repeat' first | with_reducible apply errorReportEff_may rfl | exact rfl | (dsimp only [Upd.bit]; exact rfl) | with_reducible constructor | with_reducible intro _
  case thConvReq =>
    refine ⟨_, rfl, (?_ : May (mayConvReq) _)⟩
    repeat' first | with_reducible apply convReq_may rfl | exact rfl | (dsimp only [Upd.bit]; exact rfl) | with_reducible constructor | with_reducible intro _
  case diodeDone => exact ⟨_, rfl, may_all _⟩
  case conversionWatchdog => exact ⟨_, rfl, may_all _⟩
  case stackTrip =>
    refine ⟨_, rfl, (?_ : May (mayTripStack) _)⟩
    repeat' first | with_reducible apply tripStack_may rfl | exact rfl | (dsimp only [Upd.bit]; exact rfl) | with_reducible constructor | with_reducible intro _
  case shutdownRecord =>
    refine ⟨_, rfl, (?_ : May (mayShutdownRecordEff) _)⟩
    repeat' first | with_reducible apply shutdownRecordEff_may rfl | exact rfl | (dsimp only [Upd.bit]; exact rfl) | with_reducible constructor | with_reducible intro _
  case thCtlTrip => exact ⟨_, rfl, may_all _⟩
  case thCtlRelease =>
    refine ⟨_, rfl, (?_ : May (mayThRelease) _)⟩
    repeat' first | with_reducible apply thRelease_may rfl | exact rfl | (dsimp only [Upd.bit]; exact rfl) | with_reducible constructor | with_reducible intro _
  case iodTrip => exact ⟨_, rfl, may_all _⟩
  case trayRead =>
    refine ⟨_, rfl, (?_ : May (mayTrayReadEff) _)⟩
    repeat' first | with_reducible apply trayReadEff_may rfl | exact rfl | (dsimp only [Upd.bit]; exact rfl) | with_reducible constructor | with_reducible intro _
  case trayIbi =>
    refine ⟨_, rfl, (?_ : May (mayDoorbell) _)⟩
    repeat' first | with_reducible apply doorbell_may rfl | exact rfl | (dsimp only [Upd.bit]; exact rfl) | with_reducible constructor | with_reducible intro _
  case coolantAlarm =>
    refine ⟨_, rfl, (?_ : May (mayCoolantAlarmEff) _)⟩
    repeat' first | with_reducible apply coolantAlarmEff_may rfl | exact rfl | (dsimp only [Upd.bit]; exact rfl) | with_reducible constructor | with_reducible intro _
  case coolantAlarmClear =>
    refine ⟨_, rfl, (?_ : May (maySetTherm ||| mayShowAlarm) _)⟩
    repeat' first | with_reducible apply setTherm_may rfl | with_reducible apply showAlarm_may rfl | exact rfl | (dsimp only [Upd.bit]; exact rfl) | with_reducible constructor | with_reducible intro _
  case powerInterval =>
    refine ⟨_, rfl, (?_ : May (mayPowerIntervalEff) _)⟩
    repeat' first | with_reducible apply powerIntervalEff_may rfl | exact rfl | (dsimp only [Upd.bit]; exact rfl) | with_reducible constructor | with_reducible intro _
  case fastThrottle =>
    refine ⟨_, rfl, (?_ : May (mayFastThrottleEff) _)⟩
    repeat' first | with_reducible apply fastThrottleEff_may rfl | exact rfl | (dsimp only [Upd.bit]; exact rfl) | with_reducible constructor | with_reducible intro _
  case fastThrottleEnd =>
    refine ⟨_, rfl, (?_ : May (mr .TH_STAT_fast) _)⟩
    repeat' first | exact rfl | (dsimp only [Upd.bit]; exact rfl) | with_reducible constructor | with_reducible intro _
  case coldBoot => exact ⟨_, rfl, may_all _⟩
  case coldPhaseEnd =>
    refine ⟨_, rfl, (?_ : May (mayColdPhase) _)⟩
    repeat' first | with_reducible apply coldPhase_may rfl | exact rfl | (dsimp only [Upd.bit]; exact rfl) | with_reducible constructor | with_reducible intro _
  case fabricPhaseTimeout =>
    refine ⟨_, rfl, (?_ : May (mayInService) _)⟩
    repeat' first | with_reducible apply inService_may rfl | exact rfl | (dsimp only [Upd.bit]; exact rfl) | with_reducible constructor | with_reducible intro _
  case warmReentry =>
    refine ⟨_, rfl, (?_ : May (mayWarmReentry) _)⟩
    repeat' first | with_reducible apply warmReentry_may rfl | exact rfl | (dsimp only [Upd.bit]; exact rfl) | with_reducible constructor | with_reducible intro _
  case warmStepEnd =>
    refine ⟨_, rfl, (?_ : May (mayWarmStep) _)⟩
    repeat' first | with_reducible apply warmStep_may rfl | exact rfl | (dsimp only [Upd.bit]; exact rfl) | with_reducible constructor | with_reducible intro _
  case resetN => exact ⟨_, rfl, may_all _⟩
  case powerUp => exact ⟨_, rfl, may_all _⟩
  case powerLoss => exact ⟨_, rfl, may_all _⟩
  case i3cRoleRequest =>
    refine ⟨_, rfl, (?_ : May (maySetMisc) _)⟩
    repeat' first | with_reducible apply setMisc_may rfl | exact rfl | (dsimp only [Upd.bit]; exact rfl) | with_reducible constructor | with_reducible intro _
  case configBlockWrite =>
    refine ⟨_, rfl, (?_ : May (mp .cfgSlots) _)⟩
    repeat' first | exact rfl | (dsimp only [Upd.bit]; exact rfl) | with_reducible constructor | with_reducible intro _
  case debugToken =>
    refine ⟨_, rfl, (?_ : May (mayDebugTokenEff) _)⟩
    repeat' first | with_reducible apply debugTokenEff_may rfl | exact rfl | (dsimp only [Upd.bit]; exact rfl) | with_reducible constructor | with_reducible intro _
  case registerWrite => exact ⟨_, rfl, may_all _⟩
  case vfEnable =>
    refine ⟨_, rfl, (?_ : May (mayVfEnableEff) _)⟩
    repeat' first | with_reducible apply vfEnableEff_may rfl | exact rfl | (dsimp only [Upd.bit]; exact rfl) | with_reducible constructor | with_reducible intro _
  case controllerRoleReturn =>
    refine ⟨_, rfl, (?_ : May (maySetMisc) _)⟩
    repeat' first | with_reducible apply setMisc_may rfl | exact rfl | (dsimp only [Upd.bit]; exact rfl) | with_reducible constructor | with_reducible intro _
  case flashWearLevelling =>
    refine ⟨_, rfl, (?_ : May (mayFlashWearLevellingEff) _)⟩
    repeat' first | with_reducible apply flashWearLevellingEff_may rfl | exact rfl | (dsimp only [Upd.bit]; exact rfl) | with_reducible constructor | with_reducible intro _
  case invalidationComplete =>
    refine ⟨_, rfl, (?_ : May (mr .MC_STAT_inval_busy) _)⟩
    repeat' first | exact rfl | (dsimp only [Upd.bit]; exact rfl) | with_reducible constructor | with_reducible intro _
  case pacedTransmission =>
    refine ⟨_, rfl, (?_ : May (mayPacedSend) _)⟩
    repeat' first | with_reducible apply pacedSend_may rfl | exact rfl | (dsimp only [Upd.bit]; exact rfl) | with_reducible constructor | with_reducible intro _

end Sys2Proof.Machine
end

