-- ==== Sys2Proof/Laws/MayKeep.lean ====
section
/-! SUPPORT. What an effect leaves alone, part by part: an effect within a set of updates leaves every part outside the set
as it was, and every unit of the part. -/
namespace Sys2Proof.Machine
variable {m : Nat} {e : Eff} (he : May m e)
include he

theorem May.tick (hb : m.testBit Part.tick.ctorIdx = false) (h79 : m.testBit 79 = false) (s : State) : (run e s).tick = s.tick :=
  he.frame .tick (·.tick) (fun u t h => applyUpd_tick u t h) hb h79 nofun nofun s
theorem May.rsp (hb : m.testBit Part.rsp.ctorIdx = false) (h79 : m.testBit 79 = false) (s : State) : (run e s).rsp = s.rsp :=
  he.frame .rsp (·.rsp) (fun u t h => applyUpd_rsp u t h) hb h79 nofun nofun s
theorem May.out (hb : m.testBit Part.out.ctorIdx = false) (h79 : m.testBit 79 = false) (s : State) : (run e s).out = s.out :=
  he.frame .out (·.out) (fun u t h => applyUpd_out u t h) hb h79 nofun nofun s
theorem May.misc (hb : m.testBit Part.misc.ctorIdx = false) (h79 : m.testBit 79 = false) (s : State) : (run e s).misc = s.misc :=
  he.frame .misc (·.misc) (fun u t h => applyUpd_misc u t h) hb h79 nofun nofun s
theorem May.mem (hb : m.testBit Part.mem.ctorIdx = false) (h79 : m.testBit 79 = false) (s : State) : (run e s).mem = s.mem :=
  he.frame .mem (·.mem) (fun u t h => applyUpd_mem u t h) hb h79 nofun nofun s
theorem May.marks (hb : m.testBit Part.marks.ctorIdx = false) (h79 : m.testBit 79 = false) (s : State) : (run e s).marks = s.marks :=
  he.frame .marks (·.marks) (fun u t h => applyUpd_marks u t h) hb h79 nofun nofun s
theorem May.wb (hb : m.testBit Part.wb.ctorIdx = false) (h79 : m.testBit 79 = false) (s : State) : (run e s).wb = s.wb :=
  he.frame .wb (·.wb) (fun u t h => applyUpd_wb u t h) hb h79 nofun nofun s
theorem May.cache (hb : m.testBit Part.cache.ctorIdx = false) (h79 : m.testBit 79 = false) (s : State) : (run e s).cache = s.cache :=
  he.frame .cache (·.cache) (fun u t h => applyUpd_cache u t h) hb h79 nofun nofun s
theorem May.openRow (hb : m.testBit Part.openRow.ctorIdx = false) (h79 : m.testBit 79 = false) (s : State) : (run e s).openRow = s.openRow :=
  he.frame .openRow (·.openRow) (fun u t h => applyUpd_openRow u t h) hb h79 nofun nofun s
theorem May.slice (hb : m.testBit Part.slice.ctorIdx = false) (h79 : m.testBit 79 = false) (s : State) : (run e s).slice = s.slice :=
  he.frame .slice (·.slice) (fun u t h => applyUpd_slice u t h) hb h79 nofun nofun s
theorem May.owner (hb : m.testBit Part.owner.ctorIdx = false) (h79 : m.testBit 79 = false) (s : State) : (run e s).owner = s.owner :=
  he.frame .owner (·.owner) (fun u t h => applyUpd_owner u t h) hb h79 nofun nofun s
theorem May.cluster (hb : m.testBit Part.cluster.ctorIdx = false) (h79 : m.testBit 79 = false) (s : State) : (run e s).cluster = s.cluster :=
  he.frame .cluster (·.cluster) (fun u t h => applyUpd_cluster u t h) hb h79 nofun nofun s
theorem May.stack (hb : m.testBit Part.stack.ctorIdx = false) (h79 : m.testBit 79 = false) (s : State) : (run e s).stack = s.stack :=
  he.frame .stack (·.stack) (fun u t h => applyUpd_stack u t h) hb h79 nofun nofun s
theorem May.members (hb : m.testBit Part.members.ctorIdx = false) (h79 : m.testBit 79 = false) (s : State) : (run e s).members = s.members :=
  he.frame .members (·.members) (fun u t h => applyUpd_members u t h) hb h79 nofun nofun s
theorem May.hwAdds (hb : m.testBit Part.hwAdds.ctorIdx = false) (h79 : m.testBit 79 = false) (s : State) : (run e s).hwAdds = s.hwAdds :=
  he.frame .hwAdds (·.hwAdds) (fun u t h => applyUpd_hwAdds u t h) hb h79 nofun nofun s
theorem May.port (hb : m.testBit Part.port.ctorIdx = false) (h79 : m.testBit 79 = false) (s : State) : (run e s).port = s.port :=
  he.frame .port (·.port) (fun u t h => applyUpd_port u t h) hb h79 nofun nofun s
theorem May.sub (hb : m.testBit Part.sub.ctorIdx = false) (h79 : m.testBit 79 = false) (s : State) : (run e s).sub = s.sub :=
  he.frame .sub (·.sub) (fun u t h => applyUpd_sub u t h) hb h79 nofun nofun s
theorem May.job (hb : m.testBit Part.job.ctorIdx = false) (h79 : m.testBit 79 = false) (s : State) : (run e s).job = s.job :=
  he.frame .job (·.job) (fun u t h => applyUpd_job u t h) hb h79 nofun nofun s
theorem May.conn (hb : m.testBit Part.conn.ctorIdx = false) (h79 : m.testBit 79 = false) (s : State) : (run e s).conn = s.conn :=
  he.frame .conn (·.conn) (fun u t h => applyUpd_conn u t h) hb h79 nofun nofun s
theorem May.fabOp (hb : m.testBit Part.fabOp.ctorIdx = false) (h79 : m.testBit 79 = false) (s : State) : (run e s).fabOp = s.fabOp :=
  he.frame .fabOp (·.fabOp) (fun u t h => applyUpd_fabOp u t h) hb h79 nofun nofun s
theorem May.cring (hb : m.testBit Part.cring.ctorIdx = false) (h79 : m.testBit 79 = false) (s : State) : (run e s).cring = s.cring :=
  he.frame .cring (·.cring) (fun u t h => applyUpd_cring u t h) hb h79 nofun nofun s
theorem May.fab (hb : m.testBit Part.fab.ctorIdx = false) (h79 : m.testBit 79 = false) (s : State) : (run e s).fab = s.fab :=
  he.frame .fab (·.fab) (fun u t h => applyUpd_fab u t h) hb h79 nofun nofun s
theorem May.cfg (hb : m.testBit Part.cfg.ctorIdx = false) (h79 : m.testBit 79 = false) (s : State) : (run e s).cfg = s.cfg :=
  he.frame .cfg (·.cfg) (fun u t h => applyUpd_cfg u t h) hb h79 nofun nofun s
theorem May.cfgSlots (hb : m.testBit Part.cfgSlots.ctorIdx = false) (h79 : m.testBit 79 = false) (s : State) : (run e s).cfgSlots = s.cfgSlots :=
  he.frame .cfgSlots (·.cfgSlots) (fun u t h => applyUpd_cfgSlots u t h) hb h79 nofun nofun s
theorem May.ladle (hb : m.testBit Part.ladle.ctorIdx = false) (h79 : m.testBit 79 = false) (s : State) : (run e s).ladle = s.ladle :=
  he.frame .ladle (·.ladle) (fun u t h => applyUpd_ladle u t h) hb h79 nofun nofun s
theorem May.bucket (hb : m.testBit Part.bucket.ctorIdx = false) (h79 : m.testBit 79 = false) (s : State) : (run e s).bucket = s.bucket :=
  he.frame .bucket (·.bucket) (fun u t h => applyUpd_bucket u t h) hb h79 nofun nofun s
theorem May.core (hb : m.testBit Part.core.ctorIdx = false) (h79 : m.testBit 79 = false) (s : State) : (run e s).core = s.core :=
  he.frame .core (·.core) (fun u t h => applyUpd_core u t h) hb h79 nofun nofun s
theorem May.queue (hb : m.testBit Part.queue.ctorIdx = false) (h79 : m.testBit 79 = false) (s : State) : (run e s).queue = s.queue :=
  he.frame .queue (·.queue) (fun u t h => applyUpd_queue u t h) hb h79 nofun nofun s
theorem May.acc (hb : m.testBit Part.acc.ctorIdx = false) (h79 : m.testBit 79 = false) (s : State) : (run e s).acc = s.acc :=
  he.frame .acc (·.acc) (fun u t h => applyUpd_acc u t h) hb h79 nofun nofun s
theorem May.ag (hb : m.testBit Part.ag.ctorIdx = false) (h79 : m.testBit 79 = false) (s : State) : (run e s).ag = s.ag :=
  he.frame .ag (·.ag) (fun u t h => applyUpd_ag u t h) hb h79 nofun nofun s
theorem May.bank (hb : m.testBit Part.bank.ctorIdx = false) (h79 : m.testBit 79 = false) (s : State) : (run e s).bank = s.bank :=
  he.frame .bank (·.bank) (fun u t h => applyUpd_bank u t h) hb h79 nofun nofun s
theorem May.path (hb : m.testBit Part.path.ctorIdx = false) (h79 : m.testBit 79 = false) (s : State) : (run e s).path = s.path :=
  he.frame .path (·.path) (fun u t h => applyUpd_path u t h) hb h79 nofun nofun s
theorem May.page (hb : m.testBit Part.page.ctorIdx = false) (h79 : m.testBit 79 = false) (s : State) : (run e s).page = s.page :=
  he.frame .page (·.page) (fun u t h => applyUpd_page u t h) hb h79 nofun nofun s
theorem May.pte (hb : m.testBit Part.pte.ctorIdx = false) (h79 : m.testBit 79 = false) (s : State) : (run e s).pte = s.pte :=
  he.frame .pte (·.pte) (fun u t h => applyUpd_pte u t h) hb h79 nofun nofun s
theorem May.seqs (hb : m.testBit Part.seq.ctorIdx = false) (h79 : m.testBit 79 = false) (s : State) : (run e s).seq = s.seq :=
  he.frame .seq (·.seq) (fun u t h => applyUpd_seq u t h) hb h79 nofun nofun s
theorem May.slag (hb : m.testBit Part.slag.ctorIdx = false) (h79 : m.testBit 79 = false) (s : State) : (run e s).slag = s.slag :=
  he.frame .slag (·.slag) (fun u t h => applyUpd_slag u t h) hb h79 nofun nofun s
theorem May.slot (hb : m.testBit Part.slot.ctorIdx = false) (h79 : m.testBit 79 = false) (s : State) : (run e s).slot = s.slot :=
  he.frame .slot (·.slot) (fun u t h => applyUpd_slot u t h) hb h79 nofun nofun s
theorem May.kv (hb : m.testBit Part.kv.ctorIdx = false) (h79 : m.testBit 79 = false) (s : State) : (run e s).kv = s.kv :=
  he.frame .kv (·.kv) (fun u t h => applyUpd_kv u t h) hb h79 nofun nofun s
theorem May.mbox (hb : m.testBit Part.mbox.ctorIdx = false) (h79 : m.testBit 79 = false) (s : State) : (run e s).mbox = s.mbox :=
  he.frame .mbox (·.mbox) (fun u t h => applyUpd_mbox u t h) hb h79 nofun nofun s
theorem May.fn (hb : m.testBit Part.fn.ctorIdx = false) (h79 : m.testBit 79 = false) (s : State) : (run e s).fn = s.fn :=
  he.frame .fn (·.fn) (fun u t h => applyUpd_fn u t h) hb h79 nofun nofun s
theorem May.wq (hb : m.testBit Part.wq.ctorIdx = false) (h79 : m.testBit 79 = false) (s : State) : (run e s).wq = s.wq :=
  he.frame .wq (·.wq) (fun u t h => applyUpd_wq u t h) hb h79 nofun nofun s
theorem May.ctx (hb : m.testBit Part.ctx.ctorIdx = false) (h79 : m.testBit 79 = false) (s : State) : (run e s).ctx = s.ctx :=
  he.frame .ctx (·.ctx) (fun u t h => applyUpd_ctx u t h) hb h79 nofun nofun s
theorem May.image (hb : m.testBit Part.image.ctorIdx = false) (h79 : m.testBit 79 = false) (s : State) : (run e s).image = s.image :=
  he.frame .image (·.image) (fun u t h => applyUpd_image u t h) hb h79 nofun nofun s
theorem May.flaskSt (hb : m.testBit Part.flaskSt.ctorIdx = false) (h79 : m.testBit 79 = false) (s : State) : (run e s).flaskSt = s.flaskSt :=
  he.frame .flaskSt (·.flaskSt) (fun u t h => applyUpd_flaskSt u t h) hb h79 nofun nofun s
theorem May.hmem (hb : m.testBit Part.hmem.ctorIdx = false) (h79 : m.testBit 79 = false) (s : State) : (run e s).hmem = s.hmem :=
  he.frame .hmem (·.hmem) (fun u t h => applyUpd_hmem u t h) hb h79 nofun nofun s
theorem May.account (hb : m.testBit Part.account.ctorIdx = false) (h79 : m.testBit 79 = false) (s : State) : (run e s).account = s.account :=
  he.frame .account (·.account) (fun u t h => applyUpd_account u t h) hb h79 nofun nofun s
theorem May.attend (hb : m.testBit Part.attend.ctorIdx = false) (h79 : m.testBit 79 = false) (s : State) : (run e s).attend = s.attend :=
  he.frame .attend (·.attend) (fun u t h => applyUpd_attend u t h) hb h79 nofun nofun s
theorem May.gath (hb : m.testBit Part.gath.ctorIdx = false) (h79 : m.testBit 79 = false) (s : State) : (run e s).gath = s.gath :=
  he.frame .gath (·.gath) (fun u t h => applyUpd_gath u t h) hb h79 nofun nofun s
theorem May.note (hb : m.testBit Part.note.ctorIdx = false) (h79 : m.testBit 79 = false) (s : State) : (run e s).note = s.note :=
  he.frame .note (·.note) (fun u t h => applyUpd_note u t h) hb h79 nofun nofun s
theorem May.assayer (hb : m.testBit Part.assayer.ctorIdx = false) (h79 : m.testBit 79 = false) (s : State) : (run e s).assayer = s.assayer :=
  he.frame .assayer (·.assayer) (fun u t h => applyUpd_assayer u t h) hb h79 nofun nofun s
theorem May.lasting (hb : m.testBit Part.lasting.ctorIdx = false) (h79 : m.testBit 79 = false) (s : State) : (run e s).lasting = s.lasting :=
  he.frame .lasting (·.lasting) (fun u t h => applyUpd_lasting u t h) hb h79 nofun nofun s
theorem May.fifo (hb : m.testBit Part.fifo.ctorIdx = false) (h79 : m.testBit 79 = false) (s : State) : (run e s).fifo = s.fifo :=
  he.frame .fifo (·.fifo) (fun u t h => applyUpd_fifo u t h) hb h79 nofun nofun s
theorem May.dropped (hb : m.testBit Part.dropped.ctorIdx = false) (h79 : m.testBit 79 = false) (s : State) : (run e s).dropped = s.dropped :=
  he.frame .dropped (·.dropped) (fun u t h => applyUpd_dropped u t h) hb h79 nofun nofun s
theorem May.retirements (hb : m.testBit Part.retirements.ctorIdx = false) (h79 : m.testBit 79 = false) (s : State) : (run e s).retirements = s.retirements :=
  he.frame .retirements (·.retirements) (fun u t h => applyUpd_retirements u t h) hb h79 nofun nofun s
theorem May.excl (hb : m.testBit Part.excl.ctorIdx = false) (h79 : m.testBit 79 = false) (s : State) : (run e s).excl = s.excl :=
  he.frame .excl (·.excl) (fun u t h => applyUpd_excl u t h) hb h79 nofun nofun s
theorem May.excluded (hb : m.testBit Part.excluded.ctorIdx = false) (h79 : m.testBit 79 = false) (s : State) : (run e s).excluded = s.excluded :=
  he.frame .excluded (·.excluded) (fun u t h => applyUpd_excluded u t h) hb h79 nofun nofun s
theorem May.fw (hb : m.testBit Part.fw.ctorIdx = false) (h79 : m.testBit 79 = false) (s : State) : (run e s).fw = s.fw :=
  he.frame .fw (·.fw) (fun u t h => applyUpd_fw u t h) hb h79 nofun nofun s
theorem May.sec (hb : m.testBit Part.sec.ctorIdx = false) (h79 : m.testBit 79 = false) (s : State) : (run e s).sec = s.sec :=
  he.frame .sec (·.sec) (fun u t h => applyUpd_sec u t h) hb h79 nofun nofun s
theorem May.therm (hb : m.testBit Part.therm.ctorIdx = false) (h79 : m.testBit 79 = false) (s : State) : (run e s).therm = s.therm :=
  he.frame .therm (·.therm) (fun u t h => applyUpd_therm u t h) hb h79 nofun nofun s
theorem May.th (hb : m.testBit Part.th.ctorIdx = false) (h79 : m.testBit 79 = false) (s : State) : (run e s).th = s.th :=
  he.frame .th (·.th) (fun u t h => applyUpd_th u t h) hb h79 nofun nofun s
theorem May.shut (hb : m.testBit Part.shut.ctorIdx = false) (h79 : m.testBit 79 = false) (s : State) : (run e s).shut = s.shut :=
  he.frame .shut (·.shut) (fun u t h => applyUpd_shut u t h) hb h79 nofun nofun s
theorem May.held (hb : m.testBit Part.held.ctorIdx = false) (h79 : m.testBit 79 = false) (s : State) : (run e s).held = s.held :=
  he.frame .held (·.held) (fun u t h => applyUpd_held u t h) hb h79 nofun nofun s
theorem May.flashLog (hb : m.testBit Part.flashLog.ctorIdx = false) (h79 : m.testBit 79 = false) (s : State) : (run e s).flashLog = s.flashLog :=
  he.frame .flashLog (·.flashLog) (fun u t h => applyUpd_flashLog u t h) hb h79 nofun nofun s
theorem May.coreAt (hb : m.testBit Part.core.ctorIdx = false) (h79 : m.testBit 79 = false) (s : State) (k0 : Nat) :
    (run e s).coreAt k0 = s.coreAt k0 := by
  simp only [State.coreAt, he.core hb h79]
theorem May.clusterAt (hb : m.testBit Part.cluster.ctorIdx = false) (h79 : m.testBit 79 = false) (s : State) (k0 : Nat) :
    (run e s).clusterAt k0 = s.clusterAt k0 := by
  simp only [State.clusterAt, he.cluster hb h79]
theorem May.stackAt (hb : m.testBit Part.stack.ctorIdx = false) (h79 : m.testBit 79 = false) (s : State) (k0 : Nat) :
    (run e s).stackAt k0 = s.stackAt k0 := by
  simp only [State.stackAt, he.stack hb h79]
theorem May.queueAt (hb : m.testBit Part.queue.ctorIdx = false) (h79 : m.testBit 79 = false) (s : State) (k0 k1 : Nat) :
    (run e s).queueAt k0 k1 = s.queueAt k0 k1 := by
  simp only [State.queueAt, he.queue hb h79]
theorem May.agAt (hb : m.testBit Part.ag.ctorIdx = false) (h79 : m.testBit 79 = false) (s : State) (k0 k1 : Nat) :
    (run e s).agAt k0 k1 = s.agAt k0 k1 := by
  simp only [State.agAt, he.ag hb h79]
theorem May.sliceAt (hb : m.testBit Part.slice.ctorIdx = false) (h79 : m.testBit 79 = false) (s : State) (k0 : Nat) :
    (run e s).sliceAt k0 = s.sliceAt k0 := by
  simp only [State.sliceAt, he.slice hb h79]
theorem May.bankAt (hb : m.testBit Part.bank.ctorIdx = false) (h79 : m.testBit 79 = false) (s : State) (k0 k1 : Nat) :
    (run e s).bankAt k0 k1 = s.bankAt k0 k1 := by
  simp only [State.bankAt, he.bank hb h79]
theorem May.pathAt (hb : m.testBit Part.path.ctorIdx = false) (h79 : m.testBit 79 = false) (s : State) (k0 : Nat) :
    (run e s).pathAt k0 = s.pathAt k0 := by
  simp only [State.pathAt, he.path hb h79]
theorem May.seqAt (hb : m.testBit Part.seq.ctorIdx = false) (h79 : m.testBit 79 = false) (s : State) (k0 : Nat) :
    (run e s).seqAt k0 = s.seqAt k0 := by
  simp only [State.seqAt, he.seqs hb h79]
theorem May.kvAt (hb : m.testBit Part.kv.ctorIdx = false) (h79 : m.testBit 79 = false) (s : State) (k0 : Nat) :
    (run e s).kvAt k0 = s.kvAt k0 := by
  simp only [State.kvAt, he.kv hb h79]
theorem May.pageAt (hb : m.testBit Part.page.ctorIdx = false) (h79 : m.testBit 79 = false) (s : State) (k0 : Nat) :
    (run e s).pageAt k0 = s.pageAt k0 := by
  simp only [State.pageAt, he.page hb h79]
theorem May.gathAt (hb : m.testBit Part.gath.ctorIdx = false) (h79 : m.testBit 79 = false) (s : State) (k0 : Nat) :
    (run e s).gathAt k0 = s.gathAt k0 := by
  simp only [State.gathAt, he.gath hb h79]
theorem May.assayerAt (hb : m.testBit Part.assayer.ctorIdx = false) (h79 : m.testBit 79 = false) (s : State) (k0 : Nat) :
    (run e s).assayerAt k0 = s.assayerAt k0 := by
  simp only [State.assayerAt, he.assayer hb h79]
theorem May.fnAt (hb : m.testBit Part.fn.ctorIdx = false) (h79 : m.testBit 79 = false) (s : State) (k0 : Nat) :
    (run e s).fnAt k0 = s.fnAt k0 := by
  simp only [State.fnAt, he.fn hb h79]
theorem May.wqAt (hb : m.testBit Part.wq.ctorIdx = false) (h79 : m.testBit 79 = false) (s : State) (k0 : Nat) :
    (run e s).wqAt k0 = s.wqAt k0 := by
  simp only [State.wqAt, he.wq hb h79]
theorem May.ctxAt (hb : m.testBit Part.ctx.ctorIdx = false) (h79 : m.testBit 79 = false) (s : State) (k0 : Nat) :
    (run e s).ctxAt k0 = s.ctxAt k0 := by
  simp only [State.ctxAt, he.ctx hb h79]
theorem May.ladleAt (hb : m.testBit Part.ladle.ctorIdx = false) (h79 : m.testBit 79 = false) (s : State) (k0 : Nat) :
    (run e s).ladleAt k0 = s.ladleAt k0 := by
  simp only [State.ladleAt, he.ladle hb h79]
theorem May.accountAt (hb : m.testBit Part.account.ctorIdx = false) (h79 : m.testBit 79 = false) (s : State) (k0 : Nat) :
    (run e s).accountAt k0 = s.accountAt k0 := by
  simp only [State.accountAt, he.account hb h79]
theorem May.portAt (hb : m.testBit Part.port.ctorIdx = false) (h79 : m.testBit 79 = false) (s : State) (k0 : Nat) :
    (run e s).portAt k0 = s.portAt k0 := by
  simp only [State.portAt, he.port hb h79]
theorem May.subAt (hb : m.testBit Part.sub.ctorIdx = false) (h79 : m.testBit 79 = false) (s : State) (k0 : Nat) :
    (run e s).subAt k0 = s.subAt k0 := by
  simp only [State.subAt, he.sub hb h79]
theorem May.jobAt (hb : m.testBit Part.job.ctorIdx = false) (h79 : m.testBit 79 = false) (s : State) (k0 : Nat) :
    (run e s).jobAt k0 = s.jobAt k0 := by
  simp only [State.jobAt, he.job hb h79]
theorem May.connAt (hb : m.testBit Part.conn.ctorIdx = false) (h79 : m.testBit 79 = false) (s : State) (k0 : Nat) :
    (run e s).connAt k0 = s.connAt k0 := by
  simp only [State.connAt, he.conn hb h79]
theorem May.opAt (hb : m.testBit Part.fabOp.ctorIdx = false) (h79 : m.testBit 79 = false) (s : State) (k0 : Nat) :
    (run e s).opAt k0 = s.opAt k0 := by
  simp only [State.opAt, he.fabOp hb h79]
theorem May.fabAt (hb : m.testBit Part.fab.ctorIdx = false) (h79 : m.testBit 79 = false) (s : State) (k0 : Nat) :
    (run e s).fabAt k0 = s.fabAt k0 := by
  simp only [State.fabAt, he.fab hb h79]
theorem May.thAt (hb : m.testBit Part.th.ctorIdx = false) (h79 : m.testBit 79 = false) (s : State) (k0 : Nat) :
    (run e s).thAt k0 = s.thAt k0 := by
  simp only [State.thAt, he.th hb h79]
theorem May.flaskStAt (hb : m.testBit Part.flaskSt.ctorIdx = false) (h79 : m.testBit 79 = false) (s : State) (k0 : Nat) :
    (run e s).flaskStAt k0 = s.flaskStAt k0 := by
  simp only [State.flaskStAt, he.flaskSt hb h79]
theorem May.ownerAt (hb : m.testBit Part.owner.ctorIdx = false) (h79 : m.testBit 79 = false) (s : State) (k0 : Nat) :
    (run e s).ownerAt k0 = s.ownerAt k0 := by
  simp only [State.ownerAt, he.owner hb h79]
theorem May.accAt (hb : m.testBit Part.acc.ctorIdx = false) (h79 : m.testBit 79 = false) (s : State) (k0 k1 : Nat) :
    (run e s).accAt k0 k1 = s.accAt k0 k1 := by
  simp only [State.accAt, he.acc hb h79]
theorem May.slotAt (hb : m.testBit Part.slot.ctorIdx = false) (h79 : m.testBit 79 = false) (s : State) (k0 k1 : Nat) :
    (run e s).slotAt k0 k1 = s.slotAt k0 k1 := by
  simp only [State.slotAt, he.slot hb h79]
theorem May.pteAt (hb : m.testBit Part.pte.ctorIdx = false) (h79 : m.testBit 79 = false) (s : State) (k0 k1 k2 : Nat) :
    (run e s).pteAt k0 k1 k2 = s.pteAt k0 k1 k2 := by
  simp only [State.pteAt, he.pte hb h79]
theorem May.slagAt (hb : m.testBit Part.slag.ctorIdx = false) (h79 : m.testBit 79 = false) (s : State) (k0 : Nat) :
    (run e s).slagAt k0 = s.slagAt k0 := by
  simp only [State.slagAt, he.slag hb h79]
theorem May.markAt (hb : m.testBit Part.marks.ctorIdx = false) (h79 : m.testBit 79 = false) (s : State) (k0 : Nat) :
    (run e s).markAt k0 = s.markAt k0 := by
  simp only [State.markAt, he.marks hb h79]
theorem May.attendsAt (hb : m.testBit Part.attend.ctorIdx = false) (h79 : m.testBit 79 = false) (s : State) (k0 : Nat) :
    (run e s).attendsAt k0 = s.attendsAt k0 := by
  simp only [State.attendsAt, he.attend hb h79]
theorem May.byteAt (hb : m.testBit Part.mem.ctorIdx = false) (h79 : m.testBit 79 = false) (s : State) (a : Nat) :
    (run e s).byteAt a = s.byteAt a := by
  simp only [State.byteAt, he.mem hb h79]

/-- A register field outside the set. -/
theorem May.reg (r : Fld) (i : Nat) (h : m.testBit (80 + r.ctorIdx) = false) (h0 : m.testBit Part.regs.ctorIdx = false)
    (h79 : m.testBit 79 = false) (s : State) : (run e s).reg r i = s.reg r i := he.regFrame r i h h0 h79 s

end Sys2Proof.Machine
end

