-- ==== Sys2Proof/Laws/Answer.lean ====
section
/-! SUPPORT. Mailbox requests: a request that is due is carried out, and what a response leaves in the page. -/
set_option exponentiation.threshold 1000
namespace Sys2Proof.Machine

/-- A request that is due is carried out. -/
theorem run_withReq {s : State} {f op : Nat} {r : Req} (h : RequestDue s f op r) (ho : (opRow op).isSome) (k : Req → Eff) :
    run (withReq f op k) s = run (k r) s := by
  obtain ⟨o, ho⟩ := Option.isSome_iff_exists.mp ho
  have h1 := h.flask o ho
  have h2 := h.body o ho
  simp only [withReq, run_get, h.posted, ho, h.code, h.awake, h2]
  have hs := h.service
  rw [if_neg (by simp), if_neg (by omega), if_neg (by omega)]
  rw [if_neg (by simpa using h1), if_neg (by rcases h.ctx with h | h <;> simp [h])]
  simp

theorem leNat_leBytes (v n : Nat) : leNat (leBytes v n) = v % 256 ^ n := by
  induction n generalizing v with
  | zero => simp [leBytes, leNat, Nat.mod_one]
  | succ n ih =>
    simp only [leBytes, leNat, ih, BitVec.toNat_ofNat, Nat.pow_succ]
    have := Nat.mod_mul (x := v) (a := 256) (b := 256 ^ n)
    rw [Nat.mul_comm (256 ^ n) 256, this]

theorem leBytes_length (v n : Nat) : (leBytes v n).length = n := by
  induction n generalizing v with
  | zero => rfl
  | succ n ih => simp [leBytes, ih]

/-- Bytes of a mailbox page after a block was written. -/
theorem mboxBytes_put (s : State) (f off : Nat) (d : List Byte) (o n : Nat) (h1 : off ≤ o) (h2 : o + n ≤ off + d.length) :
    (applyUpd (.mbox (f * 4096 + off) d) s).mboxBytes f o n = (d.drop (o - off)).take n := by
  refine List.ext_getElem ?_ fun k hk _ => ?_
  · simp [State.mboxBytes]; omega
  · simp only [State.mboxBytes, List.length_map, List.length_range] at hk
    simp only [State.mboxBytes, List.getElem_map, List.getElem_range, applyUpd_mbox_self, List.getElem_take, List.getElem_drop]
    have : f * 4096 + o + k = f * 4096 + off + (o - off + k) := by omega
    rw [this, putBytes_get _ _ _ _ (by omega)]


/-! Fields of a message sealed with its crc, and its body. -/

theorem headerBytes_length (a b op len fl tag ctx st : Nat) : (headerBytes a b op len fl tag ctx st).length = 32 := by
  simp [headerBytes, byte, leBytes]

/-- A header field below the crc survives the sealing. -/
theorem sealed_field {h : List Byte} (hl : h.length = 32) (d : List Byte) (o n : Nat) (ho : o + n ≤ 28) :
    ((sealed h d).drop o).take n = (h.drop o).take n := by
  refine List.ext_getElem ?_ fun k h1 h2 => ?_
  · simp [sealed, putAt, leBytes, hl]; omega
  · simp only [List.length_take, List.length_drop, hl] at h2
    have hk : o + k < 28 := by omega
    simp only [sealed, putAt, List.getElem_take, List.getElem_drop, List.append_assoc]
    rw [List.getElem_append_left (by simp [hl]; omega)]
    simp only [List.getElem_take]
    rw [List.getElem_append_left (by omega)]

theorem sealed_body {h : List Byte} (hl : h.length = 32) (d : List Byte) : (sealed h d).drop 32 = d := by
  have : ((h ++ d).take 28 ++ leBytes (crc32c (h ++ d)) 4).length = 32 := by simp [leBytes, hl]; omega
  rw [sealed, putAt, show 28 + (leBytes (crc32c (h ++ d)) 4).length = 32 by simp [leBytes], ← this, List.drop_left, this, ← hl,
    List.drop_left]

theorem header_op (a b op len fl tag ctx st : Nat) : ((headerBytes a b op len fl tag ctx st).drop 2).take 2 = leBytes op 2 := by
  simp [headerBytes, byte, leBytes]
theorem header_len (a b op len fl tag ctx st : Nat) : ((headerBytes a b op len fl tag ctx st).drop 4).take 2 = leBytes len 2 := by
  simp [headerBytes, byte, leBytes]
theorem header_flags (a b op len fl tag ctx st : Nat) : ((headerBytes a b op len fl tag ctx st).drop 6).take 2 = leBytes fl 2 := by
  simp [headerBytes, byte, leBytes]
theorem header_tag (a b op len fl tag ctx st : Nat) : ((headerBytes a b op len fl tag ctx st).drop 8).take 2 = leBytes tag 2 := by
  simp [headerBytes, byte, leBytes]
theorem header_status (a b op len fl tag ctx st : Nat) : ((headerBytes a b op len fl tag ctx st).drop 16).take 2 = leBytes st 2 := by
  simp [headerBytes, byte, leBytes]
theorem field_leBytes (v n : Nat) : field (leBytes v n) 0 n = v % 256 ^ n := by
  rw [field, List.drop_zero, List.take_of_length_le (by simp [leBytes_length]), leNat_leBytes]

/-- A response that firmware writes stands in the function's page (R482, R483). -/
theorem run_respondWith {s : State} {f : Nat} {r : Req} (h : (s.fnAt f).run = some r) (st : Nat) (body : List Byte) (d : Bool) :
    Answered (run (respondWith f st body d) s) f r st d (if st = 0 then padTo8 body else []) ∧
    (run (respondWith f st body d) s).fnAt f = { s.fnAt f with run := none, last := some (r.tag, r.op, r.crc) } := by
  obtain ⟨b, hb⟩ : ∃ b, b = if st = 0 then padTo8 body else [] := ⟨_, rfl⟩
  obtain ⟨h0, h0e⟩ : ∃ x, x = headerBytes (if (st == stBadVersion) = true then 3 else (s.fnAt f).major)
      (if (st == stBadVersion) = true then fwMinor else ((s.fnAt f).minor).getD fwMinor) r.op b.length (if d = true then 256 else 0) r.tag r.ctx st :=
    ⟨_, rfl⟩
  obtain ⟨s2, hs2⟩ : ∃ s2, s2 = run (.seq (.upd (.mbox (f * 4096 + 0x800) (sealed h0 b)))
      (.seq (setReg .MB_STATE_state f 2) (setFn f (fun x => { x with run := none, last := some (r.tag, r.op, r.crc) })))) s := ⟨_, rfl⟩
  have e : run (respondWith f st body d) s = run (Eff.when (!r.noEvent) (hostRing f 0 0)) s2 := by
    simp only [respondWith, run_get, h, run_opt_some, hs2, h0e, hb]
    rfl
  have hm : May mayHostRing (Eff.when (!r.noEvent) (hostRing f 0 0)) := .when (hostRing_may rfl f 0 0)
  have emb : (run (respondWith f st body d) s).mbox = s2.mbox := by
    rw [e]; exact hm.frame .mbox (·.mbox) applyUpd_mbox rfl rfl nofun nofun s2
  have efn : (run (respondWith f st body d) s).fn = s2.fn := by
    rw [e]; exact hm.frame .fn (·.fn) applyUpd_fn rfl rfl nofun nofun s2
  have ereg : (run (respondWith f st body d) s).reg .MB_STATE_state f = s2.reg .MB_STATE_state f := by
    rw [e]; exact hm.regFrame .MB_STATE_state f rfl rfl rfl s2
  have hh : h0.length = 32 := h0e ▸ headerBytes_length ..
  have hl : (sealed h0 b).length = 32 + b.length := by
    have h28 : min 28 (32 + b.length) = 28 := by omega
    simp [sealed, putAt, leBytes, hh, h28]; omega
  have ebytes : ∀ o n, 0x800 ≤ o → o + n ≤ 0x800 + (32 + b.length) →
      (run (respondWith f st body d) s).mboxBytes f o n = ((sealed h0 b).drop (o - 0x800)).take n := by
    intro o n h1 h2
    rw [← hl] at h2
    rw [← mboxBytes_put s f 0x800 (sealed h0 b) o n h1 h2]
    simp only [State.mboxBytes, emb, hs2]
    rfl
  have efnAt : (run (respondWith f st body d) s).fnAt f = { s.fnAt f with run := none, last := some (r.tag, r.op, r.crc) } := by
    simp only [State.fnAt, efn, hs2]
    simp [State.fnAt]
  rw [← hb]
  have fld : ∀ o v, 0x800 ≤ o → o + 2 ≤ 0x820 → ((sealed h0 b).drop (o - 0x800)).take 2 = leBytes v 2 →
      field ((run (respondWith f st body d) s).mboxBytes f o 2) 0 2 = v % 2 ^ 16 := by
    intro o v h1 h2 h3
    rw [ebytes o 2 h1 (by omega), h3, field_leBytes]; rfl
  refine ⟨?_, efnAt⟩
  exact {
    done := by rw [ereg, hs2]; simp; rfl
    free := by rw [efnAt]
    kept := by rw [efnAt]
    code := fld 0x802 _ (by decide) (by decide) (by rw [sealed_field hh b _ 2 (by decide), h0e]; exact header_op ..)
    length := fld 0x804 _ (by decide) (by decide) (by rw [sealed_field hh b _ 2 (by decide), h0e]; exact header_len ..)
    flags := by
      have := fld 0x806 _ (by decide) (by decide) (by rw [sealed_field hh b _ 2 (by decide), h0e]; exact header_flags ..)
      rw [this]; cases d <;> rfl
    tag := fld 0x808 _ (by decide) (by decide) (by rw [sealed_field hh b _ 2 (by decide), h0e]; exact header_tag ..)
    status := fld 0x810 _ (by decide) (by decide) (by rw [sealed_field hh b _ 2 (by decide), h0e]; exact header_status ..)
    body := by
      rw [ebytes 0x820 b.length (by decide) (by omega), show (0x820 - 0x800) = 32 from rfl, sealed_body hh]; exact List.take_length }

/-! The three forms of a response: with a body, without one, and of a deferred request. -/

theorem run_answer {s : State} {f : Nat} {r : Req} (h : (s.fnAt f).run = some r) (st : Nat) :
    Answered (run (answer f st) s) f r st false [] := by
  have := (run_respondWith h st [] false).1
  rwa [show (if st = 0 then padTo8 [] else []) = ([] : List Byte) by split <;> rfl] at this

theorem run_respond {s : State} {f : Nat} {r : Req} (h : (s.fnAt f).run = some r) (b : List Byte) :
    Answered (run (respond' f 0 b) s) f r 0 false (padTo8 b) := (run_respondWith h 0 b false).1

/-- The function's own record after any response. -/
theorem fnAt_respondWith {s : State} {f : Nat} {r : Req} (h : (s.fnAt f).run = some r) (st : Nat) (b : List Byte) (d : Bool) :
    (run (respondWith f st b d) s).fnAt f = { s.fnAt f with run := none, last := some (r.tag, r.op, r.crc) } :=
  (run_respondWith h st b d).2

/-- A deferred request that there is room for is accepted (R488, R490): begun, listed, and answered DEFERRED. -/
theorem run_deferReq {s : State} {f : Nat} {r : Req} (h : (s.fnAt f).run = some r) (hd : (s.fnAt f).deferred.length < 16)
    {m : Nat} {e : Eff} (he : May m e) (h1 : m.testBit Part.fn.ctorIdx = false) (h2 : m.testBit 79 = false) (w : Work)
    (b : List Byte) : Answered (run (deferReq f r e w b) s) f r 0 true (padTo8 b) ∧
      ((run (deferReq f r e w b) s).fnAt f).deferred = (s.fnAt f).deferred ++ [{ op := r.op, tag := r.tag, work := w }] := by
  have hf := he.fnAt h1 h2 s f
  simp only [deferReq, run_get, if_neg (show ¬16 ≤ (s.fnAt f).deferred.length by omega), run_all_cons, run_all_nil, run_setFn, hf]
  have hr : ((applyUpd (.fn f { s.fnAt f with deferred := (s.fnAt f).deferred ++ [{ op := r.op, tag := r.tag, work := w }] })
      (run e s)).fnAt f).run = some r := by simp [h]
  refine ⟨(run_respondWith hr 0 b true).1, ?_⟩
  rw [fnAt_respondWith hr]
  simp

/-! What a response leaves alone. -/
section
variable (f st : Nat) (b : List Byte) (d : Bool) (s : State)

theorem respondWith_frame {α : Type} (p : Part) (g : State → α) (hg : ∀ u s, u.touches p = false → g (applyUpd u s) = g s)
    (h : mayRespondWith.testBit p.ctorIdx = false) (h79 : mayRespondWith.testBit 79 = false) (hr : p ≠ .regs) (hs : p ≠ .shad) :
    g (run (respondWith f st b d) s) = g s := (respondWith_may (mk := mayRespondWith) rfl f st b d).frame p g hg h h79 hr hs s

/-- A register field that no response writes. -/
theorem respondWith_reg (r : Fld) (i : Nat) (h : mayRespondWith.testBit (80 + r.ctorIdx) = false) :
    (run (respondWith f st b d) s).reg r i = s.reg r i :=
  (respondWith_may (mk := mayRespondWith) rfl f st b d).regFrame r i h rfl rfl s

@[simp] theorem respondWith_tick : (run (respondWith f st b d) s).tick = s.tick :=
  respondWith_frame f st b d s .tick (·.tick) (fun u s h => applyUpd_tick u s h) rfl rfl nofun nofun
@[simp] theorem respondWith_rsp : (run (respondWith f st b d) s).rsp = s.rsp :=
  respondWith_frame f st b d s .rsp (·.rsp) (fun u s h => applyUpd_rsp u s h) rfl rfl nofun nofun
@[simp] theorem respondWith_fuse : (run (respondWith f st b d) s).fuse = s.fuse :=
  respondWith_frame f st b d s .fuse (·.fuse) (fun u s _ => applyUpd_fuse u s) rfl rfl nofun nofun
@[simp] theorem respondWith_misc : (run (respondWith f st b d) s).misc = s.misc :=
  respondWith_frame f st b d s .misc (·.misc) (fun u s h => applyUpd_misc u s h) rfl rfl nofun nofun
@[simp] theorem respondWith_mem : (run (respondWith f st b d) s).mem = s.mem :=
  respondWith_frame f st b d s .mem (·.mem) (fun u s h => applyUpd_mem u s h) rfl rfl nofun nofun
@[simp] theorem respondWith_marks : (run (respondWith f st b d) s).marks = s.marks :=
  respondWith_frame f st b d s .marks (·.marks) (fun u s h => applyUpd_marks u s h) rfl rfl nofun nofun
@[simp] theorem respondWith_wb : (run (respondWith f st b d) s).wb = s.wb :=
  respondWith_frame f st b d s .wb (·.wb) (fun u s h => applyUpd_wb u s h) rfl rfl nofun nofun
@[simp] theorem respondWith_cache : (run (respondWith f st b d) s).cache = s.cache :=
  respondWith_frame f st b d s .cache (·.cache) (fun u s h => applyUpd_cache u s h) rfl rfl nofun nofun
@[simp] theorem respondWith_openRow : (run (respondWith f st b d) s).openRow = s.openRow :=
  respondWith_frame f st b d s .openRow (·.openRow) (fun u s h => applyUpd_openRow u s h) rfl rfl nofun nofun
@[simp] theorem respondWith_slice : (run (respondWith f st b d) s).slice = s.slice :=
  respondWith_frame f st b d s .slice (·.slice) (fun u s h => applyUpd_slice u s h) rfl rfl nofun nofun
@[simp] theorem respondWith_owner : (run (respondWith f st b d) s).owner = s.owner :=
  respondWith_frame f st b d s .owner (·.owner) (fun u s h => applyUpd_owner u s h) rfl rfl nofun nofun
@[simp] theorem respondWith_cluster : (run (respondWith f st b d) s).cluster = s.cluster :=
  respondWith_frame f st b d s .cluster (·.cluster) (fun u s h => applyUpd_cluster u s h) rfl rfl nofun nofun
@[simp] theorem respondWith_stack : (run (respondWith f st b d) s).stack = s.stack :=
  respondWith_frame f st b d s .stack (·.stack) (fun u s h => applyUpd_stack u s h) rfl rfl nofun nofun
@[simp] theorem respondWith_members : (run (respondWith f st b d) s).members = s.members :=
  respondWith_frame f st b d s .members (·.members) (fun u s h => applyUpd_members u s h) rfl rfl nofun nofun
@[simp] theorem respondWith_hwAdds : (run (respondWith f st b d) s).hwAdds = s.hwAdds :=
  respondWith_frame f st b d s .hwAdds (·.hwAdds) (fun u s h => applyUpd_hwAdds u s h) rfl rfl nofun nofun
@[simp] theorem respondWith_port : (run (respondWith f st b d) s).port = s.port :=
  respondWith_frame f st b d s .port (·.port) (fun u s h => applyUpd_port u s h) rfl rfl nofun nofun
@[simp] theorem respondWith_sub : (run (respondWith f st b d) s).sub = s.sub :=
  respondWith_frame f st b d s .sub (·.sub) (fun u s h => applyUpd_sub u s h) rfl rfl nofun nofun
@[simp] theorem respondWith_job : (run (respondWith f st b d) s).job = s.job :=
  respondWith_frame f st b d s .job (·.job) (fun u s h => applyUpd_job u s h) rfl rfl nofun nofun
@[simp] theorem respondWith_conn : (run (respondWith f st b d) s).conn = s.conn :=
  respondWith_frame f st b d s .conn (·.conn) (fun u s h => applyUpd_conn u s h) rfl rfl nofun nofun
@[simp] theorem respondWith_fabOp : (run (respondWith f st b d) s).fabOp = s.fabOp :=
  respondWith_frame f st b d s .fabOp (·.fabOp) (fun u s h => applyUpd_fabOp u s h) rfl rfl nofun nofun
@[simp] theorem respondWith_cring : (run (respondWith f st b d) s).cring = s.cring :=
  respondWith_frame f st b d s .cring (·.cring) (fun u s h => applyUpd_cring u s h) rfl rfl nofun nofun
@[simp] theorem respondWith_fab : (run (respondWith f st b d) s).fab = s.fab :=
  respondWith_frame f st b d s .fab (·.fab) (fun u s h => applyUpd_fab u s h) rfl rfl nofun nofun
@[simp] theorem respondWith_cfg : (run (respondWith f st b d) s).cfg = s.cfg :=
  respondWith_frame f st b d s .cfg (·.cfg) (fun u s h => applyUpd_cfg u s h) rfl rfl nofun nofun
@[simp] theorem respondWith_cfgSlots : (run (respondWith f st b d) s).cfgSlots = s.cfgSlots :=
  respondWith_frame f st b d s .cfgSlots (·.cfgSlots) (fun u s h => applyUpd_cfgSlots u s h) rfl rfl nofun nofun
@[simp] theorem respondWith_ladle : (run (respondWith f st b d) s).ladle = s.ladle :=
  respondWith_frame f st b d s .ladle (·.ladle) (fun u s h => applyUpd_ladle u s h) rfl rfl nofun nofun
@[simp] theorem respondWith_bucket : (run (respondWith f st b d) s).bucket = s.bucket :=
  respondWith_frame f st b d s .bucket (·.bucket) (fun u s h => applyUpd_bucket u s h) rfl rfl nofun nofun
@[simp] theorem respondWith_core : (run (respondWith f st b d) s).core = s.core :=
  respondWith_frame f st b d s .core (·.core) (fun u s h => applyUpd_core u s h) rfl rfl nofun nofun
@[simp] theorem respondWith_queue : (run (respondWith f st b d) s).queue = s.queue :=
  respondWith_frame f st b d s .queue (·.queue) (fun u s h => applyUpd_queue u s h) rfl rfl nofun nofun
@[simp] theorem respondWith_acc : (run (respondWith f st b d) s).acc = s.acc :=
  respondWith_frame f st b d s .acc (·.acc) (fun u s h => applyUpd_acc u s h) rfl rfl nofun nofun
@[simp] theorem respondWith_ag : (run (respondWith f st b d) s).ag = s.ag :=
  respondWith_frame f st b d s .ag (·.ag) (fun u s h => applyUpd_ag u s h) rfl rfl nofun nofun
@[simp] theorem respondWith_bank : (run (respondWith f st b d) s).bank = s.bank :=
  respondWith_frame f st b d s .bank (·.bank) (fun u s h => applyUpd_bank u s h) rfl rfl nofun nofun
@[simp] theorem respondWith_path : (run (respondWith f st b d) s).path = s.path :=
  respondWith_frame f st b d s .path (·.path) (fun u s h => applyUpd_path u s h) rfl rfl nofun nofun
@[simp] theorem respondWith_page : (run (respondWith f st b d) s).page = s.page :=
  respondWith_frame f st b d s .page (·.page) (fun u s h => applyUpd_page u s h) rfl rfl nofun nofun
@[simp] theorem respondWith_pte : (run (respondWith f st b d) s).pte = s.pte :=
  respondWith_frame f st b d s .pte (·.pte) (fun u s h => applyUpd_pte u s h) rfl rfl nofun nofun
@[simp] theorem respondWith_seq : (run (respondWith f st b d) s).seq = s.seq :=
  respondWith_frame f st b d s .seq (·.seq) (fun u s h => applyUpd_seq u s h) rfl rfl nofun nofun
@[simp] theorem respondWith_slag : (run (respondWith f st b d) s).slag = s.slag :=
  respondWith_frame f st b d s .slag (·.slag) (fun u s h => applyUpd_slag u s h) rfl rfl nofun nofun
@[simp] theorem respondWith_slot : (run (respondWith f st b d) s).slot = s.slot :=
  respondWith_frame f st b d s .slot (·.slot) (fun u s h => applyUpd_slot u s h) rfl rfl nofun nofun
@[simp] theorem respondWith_kv : (run (respondWith f st b d) s).kv = s.kv :=
  respondWith_frame f st b d s .kv (·.kv) (fun u s h => applyUpd_kv u s h) rfl rfl nofun nofun
@[simp] theorem respondWith_wq : (run (respondWith f st b d) s).wq = s.wq :=
  respondWith_frame f st b d s .wq (·.wq) (fun u s h => applyUpd_wq u s h) rfl rfl nofun nofun
@[simp] theorem respondWith_ctx : (run (respondWith f st b d) s).ctx = s.ctx :=
  respondWith_frame f st b d s .ctx (·.ctx) (fun u s h => applyUpd_ctx u s h) rfl rfl nofun nofun
@[simp] theorem respondWith_image : (run (respondWith f st b d) s).image = s.image :=
  respondWith_frame f st b d s .image (·.image) (fun u s h => applyUpd_image u s h) rfl rfl nofun nofun
@[simp] theorem respondWith_flaskSt : (run (respondWith f st b d) s).flaskSt = s.flaskSt :=
  respondWith_frame f st b d s .flaskSt (·.flaskSt) (fun u s h => applyUpd_flaskSt u s h) rfl rfl nofun nofun
@[simp] theorem respondWith_hmem : (run (respondWith f st b d) s).hmem = s.hmem :=
  respondWith_frame f st b d s .hmem (·.hmem) (fun u s h => applyUpd_hmem u s h) rfl rfl nofun nofun
@[simp] theorem respondWith_account : (run (respondWith f st b d) s).account = s.account :=
  respondWith_frame f st b d s .account (·.account) (fun u s h => applyUpd_account u s h) rfl rfl nofun nofun
@[simp] theorem respondWith_attend : (run (respondWith f st b d) s).attend = s.attend :=
  respondWith_frame f st b d s .attend (·.attend) (fun u s h => applyUpd_attend u s h) rfl rfl nofun nofun
@[simp] theorem respondWith_assayer : (run (respondWith f st b d) s).assayer = s.assayer :=
  respondWith_frame f st b d s .assayer (·.assayer) (fun u s h => applyUpd_assayer u s h) rfl rfl nofun nofun
@[simp] theorem respondWith_lasting : (run (respondWith f st b d) s).lasting = s.lasting :=
  respondWith_frame f st b d s .lasting (·.lasting) (fun u s h => applyUpd_lasting u s h) rfl rfl nofun nofun
@[simp] theorem respondWith_fifo : (run (respondWith f st b d) s).fifo = s.fifo :=
  respondWith_frame f st b d s .fifo (·.fifo) (fun u s h => applyUpd_fifo u s h) rfl rfl nofun nofun
@[simp] theorem respondWith_dropped : (run (respondWith f st b d) s).dropped = s.dropped :=
  respondWith_frame f st b d s .dropped (·.dropped) (fun u s h => applyUpd_dropped u s h) rfl rfl nofun nofun
@[simp] theorem respondWith_retirements : (run (respondWith f st b d) s).retirements = s.retirements :=
  respondWith_frame f st b d s .retirements (·.retirements) (fun u s h => applyUpd_retirements u s h) rfl rfl nofun nofun
@[simp] theorem respondWith_excl : (run (respondWith f st b d) s).excl = s.excl :=
  respondWith_frame f st b d s .excl (·.excl) (fun u s h => applyUpd_excl u s h) rfl rfl nofun nofun
@[simp] theorem respondWith_excluded : (run (respondWith f st b d) s).excluded = s.excluded :=
  respondWith_frame f st b d s .excluded (·.excluded) (fun u s h => applyUpd_excluded u s h) rfl rfl nofun nofun
@[simp] theorem respondWith_fw : (run (respondWith f st b d) s).fw = s.fw :=
  respondWith_frame f st b d s .fw (·.fw) (fun u s h => applyUpd_fw u s h) rfl rfl nofun nofun
@[simp] theorem respondWith_sec : (run (respondWith f st b d) s).sec = s.sec :=
  respondWith_frame f st b d s .sec (·.sec) (fun u s h => applyUpd_sec u s h) rfl rfl nofun nofun
@[simp] theorem respondWith_therm : (run (respondWith f st b d) s).therm = s.therm :=
  respondWith_frame f st b d s .therm (·.therm) (fun u s h => applyUpd_therm u s h) rfl rfl nofun nofun
@[simp] theorem respondWith_th : (run (respondWith f st b d) s).th = s.th :=
  respondWith_frame f st b d s .th (·.th) (fun u s h => applyUpd_th u s h) rfl rfl nofun nofun
@[simp] theorem respondWith_shut : (run (respondWith f st b d) s).shut = s.shut :=
  respondWith_frame f st b d s .shut (·.shut) (fun u s h => applyUpd_shut u s h) rfl rfl nofun nofun
@[simp] theorem respondWith_flashLog : (run (respondWith f st b d) s).flashLog = s.flashLog :=
  respondWith_frame f st b d s .flashLog (·.flashLog) (fun u s h => applyUpd_flashLog u s h) rfl rfl nofun nofun
@[simp] theorem respondWith_coreAt (k0 : Nat) : (run (respondWith f st b d) s).coreAt k0 = s.coreAt k0 := by
  simp only [State.coreAt, respondWith_core]
@[simp] theorem respondWith_clusterAt (k0 : Nat) : (run (respondWith f st b d) s).clusterAt k0 = s.clusterAt k0 := by
  simp only [State.clusterAt, respondWith_cluster]
@[simp] theorem respondWith_stackAt (k0 : Nat) : (run (respondWith f st b d) s).stackAt k0 = s.stackAt k0 := by
  simp only [State.stackAt, respondWith_stack]
@[simp] theorem respondWith_queueAt (k0 k1 : Nat) : (run (respondWith f st b d) s).queueAt k0 k1 = s.queueAt k0 k1 := by
  simp only [State.queueAt, respondWith_queue]
@[simp] theorem respondWith_agAt (k0 k1 : Nat) : (run (respondWith f st b d) s).agAt k0 k1 = s.agAt k0 k1 := by
  simp only [State.agAt, respondWith_ag]
@[simp] theorem respondWith_sliceAt (k0 : Nat) : (run (respondWith f st b d) s).sliceAt k0 = s.sliceAt k0 := by
  simp only [State.sliceAt, respondWith_slice]
@[simp] theorem respondWith_bankAt (k0 k1 : Nat) : (run (respondWith f st b d) s).bankAt k0 k1 = s.bankAt k0 k1 := by
  simp only [State.bankAt, respondWith_bank]
@[simp] theorem respondWith_pathAt (k0 : Nat) : (run (respondWith f st b d) s).pathAt k0 = s.pathAt k0 := by
  simp only [State.pathAt, respondWith_path]
@[simp] theorem respondWith_seqAt (k0 : Nat) : (run (respondWith f st b d) s).seqAt k0 = s.seqAt k0 := by
  simp only [State.seqAt, respondWith_seq]
@[simp] theorem respondWith_kvAt (k0 : Nat) : (run (respondWith f st b d) s).kvAt k0 = s.kvAt k0 := by
  simp only [State.kvAt, respondWith_kv]
@[simp] theorem respondWith_pageAt (k0 : Nat) : (run (respondWith f st b d) s).pageAt k0 = s.pageAt k0 := by
  simp only [State.pageAt, respondWith_page]
@[simp] theorem respondWith_assayerAt (k0 : Nat) : (run (respondWith f st b d) s).assayerAt k0 = s.assayerAt k0 := by
  simp only [State.assayerAt, respondWith_assayer]
@[simp] theorem respondWith_wqAt (k0 : Nat) : (run (respondWith f st b d) s).wqAt k0 = s.wqAt k0 := by
  simp only [State.wqAt, respondWith_wq]
@[simp] theorem respondWith_ctxAt (k0 : Nat) : (run (respondWith f st b d) s).ctxAt k0 = s.ctxAt k0 := by
  simp only [State.ctxAt, respondWith_ctx]
@[simp] theorem respondWith_ladleAt (k0 : Nat) : (run (respondWith f st b d) s).ladleAt k0 = s.ladleAt k0 := by
  simp only [State.ladleAt, respondWith_ladle]
@[simp] theorem respondWith_accountAt (k0 : Nat) : (run (respondWith f st b d) s).accountAt k0 = s.accountAt k0 := by
  simp only [State.accountAt, respondWith_account]
@[simp] theorem respondWith_portAt (k0 : Nat) : (run (respondWith f st b d) s).portAt k0 = s.portAt k0 := by
  simp only [State.portAt, respondWith_port]
@[simp] theorem respondWith_subAt (k0 : Nat) : (run (respondWith f st b d) s).subAt k0 = s.subAt k0 := by
  simp only [State.subAt, respondWith_sub]
@[simp] theorem respondWith_jobAt (k0 : Nat) : (run (respondWith f st b d) s).jobAt k0 = s.jobAt k0 := by
  simp only [State.jobAt, respondWith_job]
@[simp] theorem respondWith_connAt (k0 : Nat) : (run (respondWith f st b d) s).connAt k0 = s.connAt k0 := by
  simp only [State.connAt, respondWith_conn]
@[simp] theorem respondWith_opAt (k0 : Nat) : (run (respondWith f st b d) s).opAt k0 = s.opAt k0 := by
  simp only [State.opAt, respondWith_fabOp]
@[simp] theorem respondWith_fabAt (k0 : Nat) : (run (respondWith f st b d) s).fabAt k0 = s.fabAt k0 := by
  simp only [State.fabAt, respondWith_fab]
@[simp] theorem respondWith_thAt (k0 : Nat) : (run (respondWith f st b d) s).thAt k0 = s.thAt k0 := by
  simp only [State.thAt, respondWith_th]
@[simp] theorem respondWith_flaskStAt (k0 : Nat) : (run (respondWith f st b d) s).flaskStAt k0 = s.flaskStAt k0 := by
  simp only [State.flaskStAt, respondWith_flaskSt]
@[simp] theorem respondWith_ownerAt (k0 : Nat) : (run (respondWith f st b d) s).ownerAt k0 = s.ownerAt k0 := by
  simp only [State.ownerAt, respondWith_owner]
@[simp] theorem respondWith_accAt (k0 k1 : Nat) : (run (respondWith f st b d) s).accAt k0 k1 = s.accAt k0 k1 := by
  simp only [State.accAt, respondWith_acc]
@[simp] theorem respondWith_slotAt (k0 k1 : Nat) : (run (respondWith f st b d) s).slotAt k0 k1 = s.slotAt k0 k1 := by
  simp only [State.slotAt, respondWith_slot]
@[simp] theorem respondWith_pteAt (k0 k1 k2 : Nat) : (run (respondWith f st b d) s).pteAt k0 k1 k2 = s.pteAt k0 k1 k2 := by
  simp only [State.pteAt, respondWith_pte]
@[simp] theorem respondWith_slagAt (k0 : Nat) : (run (respondWith f st b d) s).slagAt k0 = s.slagAt k0 := by
  simp only [State.slagAt, respondWith_slag]
@[simp] theorem respondWith_markAt (k0 : Nat) : (run (respondWith f st b d) s).markAt k0 = s.markAt k0 := by
  simp only [State.markAt, respondWith_marks]
@[simp] theorem respondWith_attendsAt (k0 : Nat) : (run (respondWith f st b d) s).attendsAt k0 = s.attendsAt k0 := by
  simp only [State.attendsAt, respondWith_attend]
@[simp] theorem respondWith_byteAt (a : Nat) : (run (respondWith f st b d) s).byteAt a = s.byteAt a := by
  simp only [State.byteAt, respondWith_mem]
end

end Sys2Proof.Machine
end

