-- ==== Sys2Proof/Laws/Effects.lean ====
section
/-! SUPPORT. What the operations that many commands share do, one lemma for each thing a statement asks of them. -/
set_option exponentiation.threshold 1000
namespace Sys2Proof.Machine

theorem seqAt_setSeqD (q : Nat) (g : SeqSt → SeqSt) (s : State) : (run (setSeqD q g) s).seqAt q = g (s.seqAt q) := by
  simp only [setSeqD, run_seq, run_get, run_setSeq]
  rw [(fwWrite_may (mk := mayFwWrite) rfl _ _).seqAt rfl rfl]
  simp

theorem slagAt_setSlag (q : Nat) (g : Slag) (s : State) : (run (setSlag q g) s).slagAt q = g := by
  simp only [setSlag, run_seq, run_get, run_upd]
  rw [(fwWrite_may (mk := mayFwWrite) rfl _ _).slagAt rfl rfl]
  simp

theorem pageAt_setDesc (k : Nat) (g : PageDesc → PageDesc) (s : State) : (run (setDesc k g) s).pageAt k = g (s.pageAt k) := by
  simp only [setDesc, run_seq, run_get, run_setPage]
  rw [((May.opt fun _ => fwWrite_may (mk := mayFwWrite) rfl _ _) : May mayFwWrite _).pageAt rfl rfl]
  simp

theorem byteAt_zeroRegion (sl r : Nat) (s : State) (a : Nat) : (run (zeroRegion sl r) s).byteAt a =
    if sl * 2 ^ 30 + r * 2 ^ 26 ≤ a ∧ a < sl * 2 ^ 30 + r * 2 ^ 26 + 2 ^ 26 then 0 else s.byteAt a := by
  have hc : ∀ (l : List Nat) (t : State), (run (Eff.each l (fun k => .get fun s => .upd (.cache (sl * 512 + k)
      ((Store.get [] s.cache (sl * 512 + k)).filter (fun c => c.line * 64 / 2 ^ 26 != sl * 16 + r))))) t).byteAt a = t.byteAt a := fun l t =>
    ((May.each fun k => .get fun s => .upd (u := .cache _ _) (show (mp .cache).testBit Part.cache.ctorIdx = true from rfl)) : May (mp .cache) _).frame .mem (·.byteAt a) (fun u s h => byteAt_frame u s a h) rfl rfl nofun nofun t
  simp only [zeroRegion, zeroRange, run_all_cons, run_all_nil, run_get, run_setReg, run_upd, run_setSlice]
  rw [byteAt_frame _ _ _ (by simp), byteAt_frame _ _ _ (by simp), hc, byteAt_frame _ _ _ (by simp), byteAt_frame _ _ _ (by simp), byteAt_zero]

theorem bit_testBit (w n : Nat) : bit w n = w.testBit n := by
  rw [bit, Nat.testBit_eq_decide_div_mod_eq]
  exact beq_eq_decide _ _
theorem bit_setBit (w n k : Nat) (b : Bool) : bit (setBit w n b) k = if n = k then b else bit w k := by
  unfold setBit
  split
  · rename_i h; subst h; split
    · rename_i h; rw [h]
    · rfl
  · rename_i h
    have key : ∀ (hi lo : Nat) (c : Bool), lo < 2 ^ n → (bit (lo + 2 ^ n * (2 * hi + c.toNat)) k = if k < n then lo.testBit k else if k = n then c else hi.testBit (k - n - 1)) := by
      intro hi lo c hlo
      rw [bit_testBit, Nat.add_comm, Nat.testBit_two_pow_mul_add _ hlo]
      split
      · rfl
      · rw [show 2 * hi + c.toNat = Nat.bit c hi by cases c <;> simp [Nat.bit]]
        split
        · rename_i h1; subst h1; simp
        · rw [show k - n = (k - n - 1) + 1 by omega, Nat.testBit_bit_succ]
          simp
    have hw : ∀ c, bit w n = c → w = w % 2 ^ n + 2 ^ n * (2 * (w / 2 ^ n / 2) + c.toNat) := by
      intro c hc
      have h1 := Nat.mod_add_div w (2 ^ n)
      have h2 := Nat.mod_add_div (w / 2 ^ n) 2
      have h3 : w / 2 ^ n % 2 = c.toNat := by
        subst hc; simp only [bit]; rcases Nat.mod_two_eq_zero_or_one (w / 2 ^ n) with h | h <;> simp [h]
      rw [← h3, Nat.add_comm (2 * _), h2, h1]
    have hlo : w % 2 ^ n < 2 ^ n := Nat.mod_lt _ (by positivity)
    cases b with
    | true =>
      have hc : bit w n = false := by simpa using h
      have e : w + 2 ^ n = w % 2 ^ n + 2 ^ n * (2 * (w / 2 ^ n / 2) + true.toNat) := by
        conv_lhs => rw [hw _ hc]
        simp; ring
      simp only [if_true]
      rw [e, key _ _ _ hlo]
      conv_rhs => rw [hw _ hc, key _ _ _ hlo]
      split_ifs <;> first | rfl | omega
    | false =>
      have hc : bit w n = true := by simpa using h
      have e : w - 2 ^ n = w % 2 ^ n + 2 ^ n * (2 * (w / 2 ^ n / 2) + false.toNat) := by
        conv_lhs => rw [hw _ hc]
        simp only [Bool.toNat_true, Bool.toNat_false, Nat.mul_add, Nat.mul_one, Nat.add_zero]; omega
      simp only [Bool.false_eq_true, if_false]
      rw [e, key _ _ _ hlo]
      conv_rhs => rw [hw _ hc, key _ _ _ hlo]
      split_ifs <;> first | rfl | omega

theorem init_zeroRegion (sl r : Nat) (h : r < 16) (s : State) : bit ((run (zeroRegion sl r) s).reg .ECC_INIT_regions sl) r = true := by
  simp only [zeroRegion, run_all_cons, run_all_nil, run_get, run_setReg, reg_applyUpd_same]
  rw [bit_testBit, Nat.testBit_mod_two_pow, ← bit_testBit, bit_setBit]
  simp [Fld.info, h]
end Sys2Proof.Machine
end

