-- ==== Sys2Proof/Laws/Frame.lean ====
section
/-! SUPPORT. From what an effect may change to the frame a statement writes out: the lists of OnlyChanges as a set, and a command
that stays within the set has the frame. -/
set_option exponentiation.threshold 1000
namespace Sys2Proof.Machine

/-- The set of several parts. -/
def mps (l : List Part) : Nat := l.foldr (fun p a => mp p ||| a) 0

/-- A part stands at its own place among the parts. -/
theorem part_inj {p q : Part} (h : p.ctorIdx = q.ctorIdx) : p = q := by
  have := congrArg Part.ofNat h
  rwa [Part.ofNat_ctorIdx, Part.ofNat_ctorIdx] at this

theorem part_lt (p : Part) : p.ctorIdx < 79 := by cases p <;> decide

/-- A register field stands at its own place among the fields. -/
theorem fld_inj {r q : Fld} (h : r.ctorIdx = q.ctorIdx) : r = q := by
  have := congrArg Fld.ofNat h
  rwa [Fld.ofNat_ctorIdx, Fld.ofNat_ctorIdx] at this

theorem mps_bit (l : List Part) (k : Nat) : (mps l).testBit k = true ↔ ∃ p ∈ l, p.ctorIdx = k := by
  induction l with
  | nil => simp [mps]
  | cons a l ih =>
    simp only [mps, List.foldr_cons] at ih ⊢
    rw [Nat.testBit_or, Bool.or_eq_true, ih, mp, Nat.testBit_two_pow]
    simp

theorem mrs_testBit (l : List Fld) (k : Nat) : (mrs l).testBit k = true ↔ ∃ r ∈ l, 80 + r.ctorIdx = k := by
  induction l with
  | nil => simp [mrs]
  | cons a l ih =>
    simp only [mrs, List.foldr_cons] at ih ⊢
    rw [Nat.testBit_or, Bool.or_eq_true, ih, mr, Nat.testBit_two_pow]
    simp

/-- Outside the lists a set holds nothing. -/
theorem lists_bit {m k : Nat} {ps : List Part} {rs : List Fld} (h : m ||| (mps ps ||| mrs rs) = mps ps ||| mrs rs)
    (h1 : ∀ p ∈ ps, p.ctorIdx ≠ k) (h2 : ∀ r ∈ rs, 80 + r.ctorIdx ≠ k) : m.testBit k = false := by
  cases hb : m.testBit k
  · rfl
  · have : (mps ps ||| mrs rs).testBit k = true := by rw [← h]; simp [hb]
    rw [Nat.testBit_or, Bool.or_eq_true, mps_bit, mrs_testBit] at this
    rcases this with ⟨p, hp, e⟩ | ⟨r, hr, e⟩
    · exact absurd e (h1 p hp)
    · exact absurd e (h2 r hr)

/-- What stays within the two lists has their frame. -/
theorem May.framed {m : Nat} {e : Eff} (he : May m e) (ps : List Part) (rs : List Fld)
    (h : (if Part.regs ∈ ps then m % 2 ^ 80 else m) ||| (mps ps ||| mrs rs) = mps ps ||| mrs rs)
    (hs : Part.regs ∈ ps → Part.shad ∈ ps) (s : State) : OnlyChanges ps rs s (run e s) := by
  have low : ∀ k, k < 80 → (if Part.regs ∈ ps then m % 2 ^ 80 else m).testBit k = m.testBit k := fun k hk => by
    split
    · rw [Nat.testBit_mod_two_pow]; simp [hk]
    · rfl
  have hbit : ∀ p : Part, p ∉ ps → m.testBit p.ctorIdx = false := fun p hp => by
    rw [← low _ (by have := part_lt p; omega)]
    exact lists_bit h (fun q hq e => hp (part_inj e ▸ hq)) (fun r _ e => by have := part_lt p; omega)
  have h79 : m.testBit 79 = false := by
    rw [← low _ (by omega)]
    exact lists_bit h (fun p _ e => by have := part_lt p; omega) (fun r _ e => by omega)
  constructor
  · intro p hp hr
    have hb := hbit p hp
    have touch : ∀ u : Upd, m.testBit u.bit = true → u.touches p = false := fun u hu => by
      cases ht : u.touches p
      · rfl
      · rcases bit_touches u p ht with e | ⟨e, -⟩ | ⟨e, e2⟩ | e
        · rw [e, hb] at hu; cases hu
        · exact absurd e hr
        · rw [e2, hbit .regs (fun hh => hp (e ▸ hs hh))] at hu; cases hu
        · rw [e, h79] at hu; cases hu
    have key : ∀ {α : Type} (g : State → α), (∀ u t, u.touches p = false → g (applyUpd u t) = g t) → g (run e s) = g s :=
      fun g hg => run_frame g (P := fun u => m.testBit u.bit = true) (fun u t hu => hg u t (touch u hu)) he.only s
    cases p
    case regs => exact absurd rfl hr
    all_goals exact key _ fun u t ht => by simp [ht]
  · intro h0 r hr i
    rw [if_neg h0] at h
    exact he.regFrame r i (lists_bit h (fun p _ e => by have := part_lt p; omega) (fun q hq e => hr (fld_inj (Nat.add_left_cancel e) ▸ hq)))
      (hbit .regs h0) h79 s

/-- A command that stays within the two lists has their frame. -/
theorem exec_framed (c : Instr) (s : State) (ps : List Part) (rs : List Fld)
    (h : (if Part.regs ∈ ps then mayOf c % 2 ^ 80 else mayOf c) ||| (mps ps ||| mrs rs) = mps ps ||| mrs rs)
    (hs : Part.regs ∈ ps → Part.shad ∈ ps) : ∃ t, exec c s = .next t ∧ OnlyChanges ps rs s t := by
  obtain ⟨e, he, hm⟩ := exec_may c s
  exact ⟨_, he, hm.framed ps rs h hs s⟩

end Sys2Proof.Machine
end

