-- ==== Sys2Proof/Laws/Keep.lean ====
section
/-! SUPPORT. What every primitive update keeps: the canonical form of every table, the widths of the register fields, the
fuses, the queue of commands, the count of free values and the messages already sent. -/
namespace Sys2Proof.Machine

theorem State.reset_canonical : State.reset.Canonical := by
  constructor <;> first | rfl | exact ⟨rfl, by simp [State.reset]⟩

theorem State.reset_fit : State.reset.Fit := by
  constructor <;> simp [Regs.fit, State.reset]

theorem Regs.wf_set {m : Store Nat} (r : Fld) (i v : Nat) (h : Regs.wf m) : Regs.wf (Store.set (regDflt r i) (regKey r i) v m) := by
  refine ⟨Store.sorted_set h.1, fun r' i' w hw => ?_⟩
  rcases Store.mem_set hw with ⟨he, hv⟩ | ⟨hm, -⟩
  · simp only [Prod.mk.injEq] at he
    obtain ⟨rfl, rfl⟩ := regKey_inj he.1
    exact he.2 ▸ hv
  · exact h.2 r' i' w hm

theorem Regs.wf_clear {m : Store Nat} (p : Nat → Bool) (h : Regs.wf m) : Regs.wf (Store.clear p m) :=
  ⟨Store.sorted_filter _ h.1, fun r i v hv => h.2 r i v (List.mem_filter.mp hv).1⟩

theorem Regs.fit_clear {m : Store Nat} (p : Nat → Bool) (h : Regs.fit m) : Regs.fit (Store.clear p m) :=
  fun r i v hv => h r i v (List.mem_filter.mp hv).1

theorem Regs.fit_del {m : Store Nat} (a : Nat) (h : Regs.fit m) : Regs.fit (Store.del a m) :=
  fun r i v hv => h r i v (List.mem_filter.mp hv).1

theorem Regs.fit_put {m : Store Nat} (r : Fld) (i v : Nat) (hv : v < 2 ^ r.info.width) (h : Regs.fit m) :
    Regs.fit (Store.put (regKey r i) v m) := by
  intro r' i' w hw
  rcases Store.mem_put hw with he | hm
  · simp only [Prod.mk.injEq] at he
    obtain ⟨rfl, rfl⟩ := regKey_inj he.1
    exact he.2 ▸ hv
  · exact h r' i' w hm

theorem Regs.fit_set {m : Store Nat} (r : Fld) (i v : Nat) (hv : v < 2 ^ r.info.width) (h : Regs.fit m) :
    Regs.fit (Store.set (regDflt r i) (regKey r i) v m) := by
  unfold Store.set
  split
  · exact Regs.fit_del _ h
  · exact Regs.fit_put r i v hv h

/-! Each table that State.Canonical names keeps its form, one lemma a table. -/

theorem applyUpd_wf_mem (u : Upd) (s : State) (h : Store.wf 0 s.mem = true) : Store.wf 0 (applyUpd u s).mem = true := by
  cases u <;> try exact h
  all_goals first | exact putBytes_wf _ _ h | (simp only [applyUpd]; exact Store.wf_clear h)

theorem applyUpd_wf_hmem (u : Upd) (s : State) (h : Store.wf 0 s.hmem = true) : Store.wf 0 (applyUpd u s).hmem = true := by
  cases u <;> try exact h
  all_goals exact putBytes_wf _ _ h

theorem applyUpd_wf_mbox (u : Upd) (s : State) (h : Store.wf 0 s.mbox = true) : Store.wf 0 (applyUpd u s).mbox = true := by
  cases u <;> try exact h
  all_goals first | exact putBytes_wf _ _ h | (simp only [applyUpd]; exact Store.wf_clear h) | rfl

theorem applyUpd_wf_marks (u : Upd) (s : State) (h : Store.wf {} s.marks = true) : Store.wf {} (applyUpd u s).marks = true := by
  cases u <;> try exact h
  all_goals first | exact Store.wf_set h | (simp only [applyUpd]; exact Store.wf_clear h)

theorem applyUpd_wf_owner (u : Upd) (s : State) (h : Store.wf none s.owner = true) : Store.wf none (applyUpd u s).owner = true := by
  cases u <;> try exact h
  all_goals first | exact Store.wf_set h | rfl

theorem applyUpd_wf_slice (u : Upd) (s : State) (h : Store.wf {} s.slice = true) : Store.wf {} (applyUpd u s).slice = true := by
  cases u <;> try exact h
  all_goals first | exact Store.wf_set h | rfl

theorem applyUpd_wf_core (u : Upd) (s : State) (h : Store.wf {} s.core = true) : Store.wf {} (applyUpd u s).core = true := by
  cases u <;> try exact h
  all_goals first | exact Store.wf_set h | rfl

theorem applyUpd_wf_queue (u : Upd) (s : State) (h : Store.wf {} s.queue = true) : Store.wf {} (applyUpd u s).queue = true := by
  cases u <;> try exact h
  all_goals first | exact Store.wf_set h | rfl

theorem applyUpd_wf_acc (u : Upd) (s : State) (h : Store.wf {} s.acc = true) : Store.wf {} (applyUpd u s).acc = true := by
  cases u <;> try exact h
  all_goals first | exact Store.wf_set h | (simp only [applyUpd]; exact Store.wf_clear h) | rfl

theorem applyUpd_wf_bank (u : Upd) (s : State) (h : Store.wf {} s.bank = true) : Store.wf {} (applyUpd u s).bank = true := by
  cases u <;> try exact h
  all_goals first | exact Store.wf_set h | rfl

theorem applyUpd_wf_page (u : Upd) (s : State) (h : Store.wf {} s.page = true) : Store.wf {} (applyUpd u s).page = true := by
  cases u <;> try exact h
  all_goals first | exact Store.wf_set h | rfl

theorem applyUpd_wf_seq (u : Upd) (s : State) (h : Store.wf {} s.seq = true) : Store.wf {} (applyUpd u s).seq = true := by
  cases u <;> try exact h
  all_goals first | exact Store.wf_set h | rfl

theorem applyUpd_wf_ctx (u : Upd) (s : State) (h : Store.wf {} s.ctx = true) : Store.wf {} (applyUpd u s).ctx = true := by
  cases u <;> try exact h
  all_goals first | exact Store.wf_set h | rfl

theorem applyUpd_wf_conn (u : Upd) (s : State) (h : Store.wf {} s.conn = true) : Store.wf {} (applyUpd u s).conn = true := by
  cases u <;> try exact h
  all_goals first | exact Store.wf_set h | rfl

theorem applyUpd_wf_gath (u : Upd) (s : State) (h : Store.wf {} s.gath = true) : Store.wf {} (applyUpd u s).gath = true := by
  cases u <;> try exact h
  all_goals first | exact Store.wf_set h | rfl

theorem applyUpd_wf_regs (u : Upd) (s : State) (h : Regs.wf s.regs) : Regs.wf (applyUpd u s).regs := by
  cases u <;> try exact h
  all_goals first | exact Regs.wf_set _ _ _ h | (simp only [applyUpd, wiped]; exact Regs.wf_clear _ h)

/-- A primitive update keeps the canonical form. -/
theorem applyUpd_canonical (u : Upd) (s : State) (h : s.Canonical) : (applyUpd u s).Canonical where
  mem := applyUpd_wf_mem u s h.mem
  marks := applyUpd_wf_marks u s h.marks
  hmem := applyUpd_wf_hmem u s h.hmem
  mbox := applyUpd_wf_mbox u s h.mbox
  owner := applyUpd_wf_owner u s h.owner
  slice := applyUpd_wf_slice u s h.slice
  core := applyUpd_wf_core u s h.core
  queue := applyUpd_wf_queue u s h.queue
  acc := applyUpd_wf_acc u s h.acc
  bank := applyUpd_wf_bank u s h.bank
  page := applyUpd_wf_page u s h.page
  seq := applyUpd_wf_seq u s h.seq
  ctx := applyUpd_wf_ctx u s h.ctx
  conn := applyUpd_wf_conn u s h.conn
  gath := applyUpd_wf_gath u s h.gath
  regs := applyUpd_wf_regs u s h.regs

/-- A primitive update keeps register fields within their widths. -/
theorem applyUpd_fit (u : Upd) (s : State) (h : s.Fit) : (applyUpd u s).Fit := by
  obtain ⟨h1, h2⟩ := h
  have hp (r : Fld) (v : Nat) : v % 2 ^ r.info.width < 2 ^ r.info.width := Nat.mod_lt _ (Nat.two_pow_pos _)
  have h0 : Regs.fit [] := fun _ _ _ hv => absurd hv List.not_mem_nil
  constructor
  · cases u <;> try exact h1
    all_goals first | exact Regs.fit_set _ _ _ (hp _ _) h1 | (simp only [applyUpd, wiped]; exact Regs.fit_clear _ h1)
  · cases u <;> try exact h2
    all_goals first | exact Regs.fit_put _ _ _ (hp _ _) h2 | exact Regs.fit_del _ h2 | exact Regs.fit_clear _ h2 | exact h0

/-- Messages already sent stay as they were sent. -/
theorem applyUpd_out_prefix (u : Upd) (s : State) : s.out <+: (applyUpd u s).out := by
  cases u <;> first | exact List.prefix_refl _ | exact List.prefix_append _ _

theorem applyUpd_tick_le (u : Upd) (s : State) : s.tick ≤ (applyUpd u s).tick := by
  cases u <;> first | exact Nat.le_refl _ | exact Nat.le_succ _

/-- Every command is an effect run on the state: it never stops. -/
theorem exec_run (c : Instr) (s : State) : ∃ e, exec c s = .next (run e s) := by
  cases c <;> exact ⟨_, rfl⟩

/-- One step, said once: the queue empty and nothing changes, or an effect runs on the state less its front command. -/
theorem step_cases {s : State} {o : Host.Outcome State Fault Refusal} (h : step s = o) :
    (s.pending = [] ∧ o = .next s) ∨
    (∃ c cs e, s.pending = c :: cs ∧ o = exec c { s with pending := cs } ∧ o = .next (run e { s with pending := cs })) := by
  unfold step at h
  split at h
  · exact .inl ⟨by assumption, h.symm⟩
  · rename_i c cs hp
    obtain ⟨e, he⟩ := exec_run c { s with pending := cs }
    exact .inr ⟨c, cs, e, hp, h.symm, h.symm.trans he⟩

end Sys2Proof.Machine
end

