-- ==== Sys2Proof/Laws/Shared.lean ====
section
/-! SUPPORT. What the operations that every family shares can do: which updates a doorbell, a host note, an error report, a
log record and a mailbox answer make. One lemma an operation, for every property of updates. -/
namespace Sys2Proof.Machine

variable (P : Upd → Prop)

@[simp] theorem doorbell_only (g src : Nat) (hg : ∀ v, P (.gath g v)) (hr : P (.reg .EG_STAT_bad_src g 1)) :
    Eff.Only P (doorbell g src) := by
  intro s
  simp only
  split_ifs <;> first | trivial | exact hr | exact fun s => hg _

@[simp] theorem coreEvent_only (n e : Nat) (hg : ∀ v, P (.gath (n / 12) v)) (hr : P (.reg .EG_STAT_bad_src (n / 12) 1)) :
    Eff.Only P (coreEvent n e) := doorbell_only P _ _ hg hr

@[simp] theorem sendLog_only (x : LogItem) (h1 : ∀ l, P (.fifo l)) (h2 : ∀ m, P (.misc m)) (h3 : ∀ n, P (.dropped n)) :
    Eff.Only P (sendLog x) := by
  intro s
  simp only
  split_ifs
  · exact h1 _
  · exact fun s => h2 _
  · exact h3 _

@[simp] theorem freshWords_only (n : Nat) (k : List Nat → Eff) (ht : P .tick) (hk : ∀ l, Eff.Only P (k l)) :
    Eff.Only P (freshWords n k) := by
  induction n generalizing k with
  | zero => exact hk []
  | succ n ih => exact fun s => ⟨ht, ih _ fun l => hk _⟩

@[simp] theorem logRec_only (ty sev tsSrc cls unit point : Nat) (pl : List Nat) (ht : P .tick) (h1 : ∀ l, P (.fifo l))
    (h2 : ∀ m, P (.misc m)) (h3 : ∀ n, P (.dropped n)) : Eff.Only P (logRec ty sev tsSrc cls unit point pl) :=
  fun _ => ⟨ht, sendLog_only P _ h1 h2 h3⟩

@[simp] theorem logFree_only (ty cls unit : Nat) (known : List Nat) (ht : P .tick) (h1 : ∀ l, P (.fifo l))
    (h2 : ∀ m, P (.misc m)) (h3 : ∀ n, P (.dropped n)) : Eff.Only P (logFree ty cls unit known) :=
  fun _ => ⟨ht, freshWords_only P _ _ ht fun _ => logRec_only P _ _ _ _ _ _ _ ht h1 h2 h3⟩

@[simp] theorem bootRecord_only (cls unit code : Nat) (ht : P .tick) (h1 : ∀ l, P (.fifo l))
    (h2 : ∀ m, P (.misc m)) (h3 : ∀ n, P (.dropped n)) : Eff.Only P (bootRecord cls unit code) :=
  fun _ => logFree_only P _ _ _ _ ht h1 h2 h3

@[simp] theorem askAssay_only (r : Report) (h1 : ∀ a x, P (.assayer a x)) (h2 : ∀ m, P (.misc m)) :
    Eff.Only P (askAssay r) := by
  intro s
  simp only
  split
  · exact h1 _ _
  · split_ifs
    · exact h1 _ _
    · exact h1 _ _
    · exact h1 _ _
    · exact fun s => h2 _

/-- An error report takes a free time stamp and either goes to the log or to its assayer. -/
@[simp] theorem report_only (kind cls id addr syn fl : Nat) (detail : List Nat) (ts : Nat) (ht : P .tick) (h1 : ∀ l, P (.fifo l))
    (h2 : ∀ m, P (.misc m)) (h3 : ∀ n, P (.dropped n)) (h4 : ∀ a x, P (.assayer a x)) :
    Eff.Only P (report kind cls id addr syn fl detail ts) := by
  refine fun s => ⟨ht, fun s => ?_⟩
  simp only
  split_ifs
  · exact sendLog_only P _ h1 h2 h3
  · exact sendLog_only P _ h1 h2 h3
  · exact sendLog_only P _ h1 h2 h3
  · exact askAssay_only P _ h4 h2

@[simp] theorem sendMsix_only (f v : Nat) (h1 : ∀ m, P (.emit m)) (h2 : ∀ i v, P (.reg .MSIX_pend i v)) (h3 : ∀ l, P (.held l)) :
    Eff.Only P (sendMsix f v) := by
  intro s
  generalize (if vectorCount f ≤ v then 0 else v) = w
  simp only
  split_ifs
  · exact h1 _
  all_goals exact ⟨h2 _ _, (only_when _ _ _).mpr fun _ => h3 _⟩

@[simp] theorem hostSend_only (f : Nat) (h0 : ∀ v, P (.gath 96 v)) (h1 : ∀ m, P (.emit m)) (h2 : ∀ i v, P (.reg .MSIX_pend i v))
    (h3 : ∀ l, P (.held l)) : Eff.Only P (hostSend f) := by
  intro s
  rw [only_each]
  exact fun k _ s => ⟨fun s => h0 _, sendMsix_only P _ _ h1 h2 h3⟩

/-- A host doorbell appends its note, marks its kind and may send a message (R538, R541). -/
@[simp] theorem hostRing_only (f kind param : Nat) (h0 : ∀ v, P (.gath 96 v)) (h1 : ∀ m, P (.emit m)) (h2 : ∀ i v, P (.reg .MSIX_pend i v))
    (h3 : ∀ l, P (.held l)) (h4 : ∀ n v, P (.note n v)) (h5 : ∀ v, P (.reg .EG_HNOTE_wr_seq f v)) (h6 : P (.reg .EG_STAT_bad_src 96 1)) :
    Eff.Only P (hostRing f kind param) := by
  intro s
  simp only
  split_ifs
  · exact ⟨h4 _ _, h5 _, doorbell_only P _ _ h0 h6, hostSend_only P f h0 h1 h2 h3, trivial⟩
  · trivial

@[simp] theorem flaskRing_only (fl kind param : Nat) (h0 : ∀ v, P (.gath 96 v)) (h1 : ∀ m, P (.emit m)) (h2 : ∀ i v, P (.reg .MSIX_pend i v))
    (h3 : ∀ l, P (.held l)) (h4 : ∀ n v, P (.note n v)) (h5 : ∀ f v, P (.reg .EG_HNOTE_wr_seq f v)) (h6 : P (.reg .EG_STAT_bad_src 96 1)) :
    Eff.Only P (flaskRing fl kind param) :=
  fun _ => (only_when _ _ _).mpr fun _ => hostRing_only P _ _ _ h0 h1 h2 h3 h4 (h5 _) h6

@[simp] theorem ctAdd_only (n ct v : Nat) (h1 : ∀ v, P (.reg .CT_value (n * 8 + ct) v)) (h2 : P (.reg .Q_WDOG_idle n 0)) :
    Eff.Only P (ctAdd n ct v) := ⟨fun _ => h1 _, h2⟩

@[simp] theorem addTo_only (iss : Issuer) (fl : Option Nat) (a v : Nat) (bad : Nat → Eff) (h1 : ∀ i v, P (.reg .CT_value i v))
    (h2 : ∀ n, P (.reg .Q_WDOG_idle n 0)) (ht : P .tick) (hf : ∀ l, P (.fifo l)) (hm : ∀ m, P (.misc m)) (hd : ∀ n, P (.dropped n))
    (ha : ∀ a x, P (.assayer a x)) (hb : ∀ st, Eff.Only P (bad st)) : Eff.Only P (addTo iss fl a v bad) := by
  intro s
  simp only
  split
  · exact ctAdd_only P _ _ _ (h1 _) (h2 _)
  · exact hb _
  · exact ⟨report_only P _ _ _ _ _ _ _ _ ht hf hm hd ha, hb _⟩
  · exact hb _

@[simp] theorem addGlobal_only (iss : Issuer) (fl : Option Nat) (a v : Nat) (bad : Nat → Eff) (h1 : ∀ i v, P (.reg .CT_value i v))
    (h2 : ∀ n, P (.reg .Q_WDOG_idle n 0)) (ht : P .tick) (hf : ∀ l, P (.fifo l)) (hm : ∀ m, P (.misc m)) (hd : ∀ n, P (.dropped n))
    (ha : ∀ a x, P (.assayer a x)) (hh : ∀ l, P (.hwAdds l)) (hb : ∀ st, Eff.Only P (bad st)) :
    Eff.Only P (addGlobal iss fl a v bad) := by
  intro s
  simp only
  split_ifs
  · exact addTo_only P _ _ _ _ _ h1 h2 ht hf hm hd ha hb
  · split
    · split_ifs
      · exact hh _
      · exact hb _
    · exact hb _

/-- The updates a mailbox answer makes (R482, R491): the response page, MB_STATE, what firmware keeps of the function, and
the host doorbell's. -/
@[simp] def Upd.answers (f : Nat) : Upd → Prop
  | .mbox a _ => a = f * 4096 + 0x800
  | .reg r i _ => (r = .MB_STATE_state ∧ i = f) ∨ r = .MSIX_pend ∨ (r = .EG_HNOTE_wr_seq ∧ i = f) ∨ (r = .EG_STAT_bad_src ∧ i = 96)
  | .fn n _ => n = f
  | .note _ _ => True
  | .gath g _ => g = 96
  | .emit _ => True
  | .held _ => True
  | _ => False

theorem Eff.Only.mono {P Q : Upd → Prop} (h : ∀ u, P u → Q u) {e : Eff} (he : Eff.Only P e) : Eff.Only Q e := by
  induction e with
  | skip => trivial
  | upd u => exact h u he
  | seq a b iha ihb => exact ⟨iha he.1, ihb he.2⟩
  | get f ih => exact fun s => ih s (he s)

theorem respondWith_answers (f st : Nat) (body : List Byte) (d : Bool) : Eff.Only (Upd.answers f) (respondWith f st body d) := by
  intro s
  rw [only_opt]
  intro r _
  refine ⟨rfl, .inl ⟨rfl, rfl⟩, fun _ => rfl, (only_when _ _ _).mpr fun _ => ?_, trivial⟩
  exact hostRing_only _ f 0 0 (fun _ => rfl) (fun _ => trivial) (fun _ _ => .inr (.inl rfl)) (fun _ => trivial)
    (fun _ _ => trivial) (fun _ => .inr (.inr (.inl ⟨rfl, rfl⟩))) (.inr (.inr (.inr ⟨rfl, rfl⟩)))

end Sys2Proof.Machine
end

