-- ==== Sys2Proof/Laws/MemFrame.lean ====
section
/-! SUPPORT. Which bytes of memory the operations that store can change, one lemma an operation. -/
set_option exponentiation.threshold 1000
namespace Sys2Proof.Machine

/-- An update that leaves the byte at an address alone. -/
def Spares (a : Nat) (u : Upd) : Prop := ∀ s, (applyUpd u s).byteAt a = s.byteAt a

/-- What leaves a byte alone throughout leaves it alone. -/
theorem spares_run {a : Nat} {e : Eff} (h : Eff.Only (Spares a) e) (s : State) : (run e s).byteAt a = s.byteAt a :=
  run_frame (fun s => s.byteAt a) (P := Spares a) (fun _ s hu => hu s) h s

/-- An effect that stores nothing leaves every byte alone. -/
theorem May.spares {m : Nat} {e : Eff} (he : May m e) (hb : m.testBit Part.mem.ctorIdx = false) (h79 : m.testBit 79 = false) (a : Nat) :
    Eff.Only (Spares a) e :=
  he.only.mono fun u hu s => byteAt_frame u s a <| by
    cases ht : u.touches .mem
    · rfl
    · rcases bit_touches u .mem ht with e | ⟨e, -⟩ | ⟨e, -⟩ | e
      · rw [e, hb] at hu; cases hu
      · cases e
      · cases e
      · rw [e, h79] at hu; cases hu

theorem spares_bytes {a b : Nat} {d : List Byte} (h : a < b ∨ b + d.length ≤ a) : Spares a (.bytes b d) :=
  fun s => byteAt_bytes_other b d s a h

/-- A word write changes only the bytes it is given. -/
theorem putWord_spares (a w : Nat) (d : List Byte) (p : Bool) (h : a < w * 8 ∨ w * 8 + d.length ≤ a) :
    Eff.Only (Spares a) (putWord w d p) := by
  refine fun s => ⟨spares_bytes h, fun s => byteAt_frame _ _ _ (by simp), ?_, trivial⟩
  intro s
  simp only
  split_ifs
  · exact fun s => byteAt_frame _ _ _ (by simp)
  · trivial

/-- A write within one word changes only that word. -/
theorem writeWord_spares (fl a w off : Nat) (d : List Byte) (hd : off + d.length ≤ 8) (h : a < w * 8 ∨ w * 8 + 8 ≤ a) :
    Eff.Only (Spares a) (writeWord fl w off d) := by
  intro s
  by_cases h8 : d.length = 8
  · simp only [h8, if_true]
    exact putWord_spares a w d false (by omega)
  · have hr : ∀ b k ad sy (u : Nat × Nat × Nat), Eff.Only (Spares a) (Eff.when b (report k u.1 u.2.1 ad sy fl [] u.2.2)) := fun b k ad sy u =>
      (only_when _ _ _).mpr fun _ => (report_may (mk := mayReport) rfl k _ _ ad sy fl [] _).spares rfl rfl a
    simp only [h8, if_false]
    refine ⟨hr _ _ _ _ _, hr _ _ _ _ _, hr _ _ _ _ _,
      (only_when _ _ _).mpr fun _ s => byteAt_frame _ _ _ (by simp), ?_, trivial⟩
    refine putWord_spares a w _ _ ?_
    have hl : ∀ x, (wordBytes x).length = 8 := fun _ => rfl
    simp only [List.length_append, List.length_take, List.length_drop, hl]
    omega

/-- The pieces of a write by word lie within its words. -/
theorem splitWords_mem (k a : Nat) (d : List Byte) (p : Nat × Nat × List Byte) (h : p ∈ splitWords k a d) :
    a / 8 ≤ p.1 ∧ p.2.1 + p.2.2.length ≤ 8 ∧ p.1 * 8 + p.2.1 + p.2.2.length ≤ a + d.length ∧ a ≤ p.1 * 8 + p.2.1 ∧ 0 < p.2.2.length := by
  induction k generalizing a d with
  | zero => cases h
  | succ k ih =>
    unfold splitWords at h
    split_ifs at h with hd
    · cases h
    have hl : 0 < d.length := List.length_pos_iff.mpr hd
    rcases List.mem_cons.mp h with rfl | h
    · simp only [List.length_take]
      omega
    · have := ih _ _ h
      simp only [List.length_drop] at this
      omega

/-- The pieces of a write by line lie within its lines. -/
theorem splitLines_mem (k a : Nat) (d : List Byte) (p : Nat × List Byte) (h : p ∈ splitLines k a d) :
    a ≤ p.1 ∧ p.1 % 64 + p.2.length ≤ 64 ∧ p.1 + p.2.length ≤ a + d.length ∧ 0 < p.2.length := by
  induction k generalizing a d with
  | zero => cases h
  | succ k ih =>
    unfold splitLines at h
    split_ifs at h with hd
    · cases h
    have hl : 0 < d.length := List.length_pos_iff.mpr hd
    rcases List.mem_cons.mp h with rfl | h
    · simp only [List.length_take]
      omega
    · have := ih _ _ h
      simp only [List.length_drop] at this
      omega

/-- A write of part of a line changes only the words it reaches. -/
theorem writeLine_spares (fl hint a b : Nat) (d : List Byte) (h : b < a / 8 * 8 ∨ (a + d.length + 7) / 8 * 8 ≤ b) :
    Eff.Only (Spares b) (writeLine fl hint a d) := by
  have hw : ∀ p ∈ splitWords 9 a d, b < p.1 * 8 ∨ p.1 * 8 + 8 ≤ b := fun p hp => by
    have := splitWords_mem _ _ _ _ hp; omega
  have hword : ∀ p ∈ splitWords 9 a d, Eff.Only (Spares b) (writeWord fl p.1 p.2.1 p.2.2) := fun p hp =>
    writeWord_spares _ _ _ _ _ (splitWords_mem _ _ _ _ hp).2.1 (hw p hp)
  intro s
  simp only
  split_ifs
  · trivial
  · refine ⟨fun _ => fun s => byteAt_frame _ _ _ (by simp), ?_, (only_each _ _ _).mpr fun p hp => hword p hp, ?_, ?_, trivial⟩
    · exact (openRow_may (mk := mayOpenRow) rfl _).spares rfl rfl b
    · refine fun s => (only_opt _ _ _).mpr fun _ _ => fun s => byteAt_frame _ _ _ (by simp)
    · exact (cacheEff_may (mk := mayCacheEff) rfl _ _ _ _ _).spares rfl rfl b
  · split
    · refine (only_each _ _ _).mpr fun p hp => ?_
      have := splitWords_mem _ _ _ _ hp
      have := hw p hp
      split_ifs
      · exact putWord_spares _ _ _ _ (by omega)
      · exact spares_bytes (by omega)
    · exact (only_each _ _ _).mpr fun p hp => hword p hp

/-- A write changes only the words of its range. -/
theorem writeMem_spares (iss : Issuer) (chk : Bool) (fl : Option Nat) (a hint b : Nat) (d : List Byte) (k : Nat → Eff)
    (h : b < a / 8 * 8 ∨ (a + d.length + 7) / 8 * 8 ≤ b) (hk : ∀ st, Eff.Only (Spares b) (k st)) :
    Eff.Only (Spares b) (writeMem iss chk fl a hint d k) := by
  refine fun s => ⟨?_, (only_each _ _ _).mpr fun p hp => ?_, ?_, hk _, trivial⟩
  · exact (accessRecords_may (mk := mayAccessRecords) rfl _ _ _ _).spares rfl rfl b
  · have := splitLines_mem _ _ _ _ (List.mem_filter.mp hp).1
    exact writeLine_spares _ _ _ _ _ (by omega)
  · exact (accessCharge_may (mk := mayAccessCharge) rfl _ _ _ _).spares rfl rfl b

/-- A write changes only lines of its range that passed its checks. -/
theorem writeMem_judged (iss : Issuer) (chk : Bool) (fl : Option Nat) (a hint b : Nat) (d : List Byte) (k : Nat → Eff) (s : State)
    (h : s.judge (srcOf iss) chk fl (b / 64) ≠ .ok) (hk : ∀ st, Eff.Only (Spares b) (k st)) :
    (run (writeMem iss chk fl a hint d k) s).byteAt b = s.byteAt b := by
  rw [writeMem, run_get]
  refine spares_run ?_ s
  refine ⟨?_, (only_each _ _ _).mpr fun p hp => ?_, ?_, hk _, trivial⟩
  · exact (accessRecords_may (mk := mayAccessRecords) rfl _ _ _ _).spares rfl rfl b
  · obtain ⟨h1, h2⟩ := List.mem_filter.mp hp
    have := splitLines_mem _ _ _ _ h1
    have hne : p.1 / 64 ≠ b / 64 := fun e => h (by rw [← e]; exact eq_of_beq h2)
    exact writeLine_spares _ _ _ _ _ (by omega)
  · exact (accessCharge_may (mk := mayAccessCharge) rfl _ _ _ _).spares rfl rfl b

end Sys2Proof.Machine
end

