-- ==== Sys2Proof/WellFormed.lean ====
section
/-! DEFINITION. Which commands are well formed: the ranges of the operands that are not Fins. A unit that does not exist
cannot be named at all. The meanings are total and do not rely on any of it. -/
namespace Sys2Proof
open Machine

/-- Every upset names a word of the 46-bit local address space (R29) and flips some bit. -/
def Upset.ok (u : Upset) : Bool := decide (u.word < 2 ^ 43) && u.flips != 0

/-- An access starts within 64-bit addresses and carries at least a byte and at most 4,096 (R34, R399). -/
def accessOk (addr len : Nat) : Bool := decide (addr < 2 ^ 64) && decide (1 ≤ len) && decide (len ≤ 4096)

/-- A command is well formed. -/
def Instr.wellFormed : Instr → Bool
  | .mbDoorbellPost _ buf => decide (buf.length ≤ 2048)
  | .hostWindowAccess _ write off len data ups =>
      decide (1 ≤ len) && decide (off + len ≤ 2 ^ 34) && (!write || data.length == len) && ups.all Upset.ok
  | .hostLinkRetrain width rate => decide (1 ≤ width) && decide (width ≤ 16) && decide (1 ≤ rate) && decide (rate < 2 ^ 16)
  | .recordFetch _ ups => ups.all Upset.ok
  | .agAccess _ _ ups => ups.all Upset.ok
  | .rowBurst _ _ ups => ups.all Upset.ok
  | .scrubRead _ ups => ups.all Upset.ok
  | .sramScrubRead addr ups => decide (addr < 2 ^ 46) && ups.all Upset.ok
  | .ladleDescriptorStart _ ups => ups.all Upset.ok
  | .rxGet _ ups => ups.all Upset.ok
  | .memoryRead _ addr len _ ups => accessOk addr len && ups.all Upset.ok
  | .memoryWrite _ addr _ data ups => accessOk addr data.length && ups.all Upset.ok
  | .accumulatorWrite _ _ accErr => decide (accErr ≤ 3)
  | .vectorIteration _ accErr => decide (accErr ≤ 3)
  | .eccWriteBack line => decide (line < 2 ^ 40)
  | .readClearCounter r _ => r.info.acc == .rc
  | .qualificationWindowEnd _ _ corrected _ => decide (corrected.length ≤ 8)
  | .portDegrade _ _ lanes _ => decide (lanes.length ≤ 8)
  | .tracePoint _ _ payload => decide (payload.length ≤ 5)
  | .diodeDone _ _ temp _ => decide (-32768 ≤ temp) && decide (temp ≤ 32767)
  | .powerInterval _ _ perStack => perStack.length == 12
  | .fastThrottle _ perStack => perStack.length == 12
  | .configBlockWrite block => block.length == 4096
  | .debugToken token => token.length == 576
  | _ => true

end Sys2Proof
end

