-- ==== Sys2Proof/Tests/Slice0.lean ====
section
/-! SUPPORT. The model's own tests: ill-formed commands refused, the spec's worked examples, and one witness for the hypotheses of every
clause of the obligations (wit_<clause>: concrete states and operands that meet them together). -/
namespace Sys2Proof.Tests
open Sys2Proof.Machine
set_option linter.all false
set_option exponentiation.threshold 2000
set_option maxRecDepth 20000
set_option Elab.async false

/-! ## Small states -/

/-- A module in service: every part of it running, the host link up and the virtual functions enabled. -/
def up : State := { State.reset with
  misc := { ({} : Misc) with phase := 0x20, linkUp := true, vfOn := true, licence := 7, linkRate := 32 } }

/-- A request of a function, as the checks leave it. -/
def asks (op : Nat) (body : List Byte) (flask : Nat := 0) (ctx : Nat := 0xFFFF) : Req :=
  { op := op, tag := 0xFFFF, flask := flask, ctx := ctx, body := body, crc := 1 }

/-- The module with a request of a function posted. -/
def asked (f : Nat) (r : Req) : State := { up with fn := [(f, { run := some r })] }

/-- `RequestDue`, as a test. -/
def due (s : State) (f op : Nat) (r : Req) : Bool :=
  decide ((s.fnAt f).run = some r) && decide (r.op = op) && !decide (2 ∈ s.fw.restarting)
    && decide (s.misc.phase = 0x20 ∨ ((op = 1 ∨ op = 2) ∨ s.misc.phase = 0x30 ∧ f = 0 ∧ op = 0x0601))
    && decide (r.ctx = 0xFFFF ∨ (s.ctxAt r.ctx).dying = false)
    && (opRow op).all (fun o => !(o.flask && s.flaskBusy r.flask && decide (op ≠ 0x0101)) && !bodyBad r o)

theorem due_of {s : State} {f op : Nat} {r : Req} (h : due s f op r = true) : RequestDue s f op r := by
  simp only [due, Bool.and_eq_true, decide_eq_true_eq, Bool.not_eq_true', decide_eq_false_iff_not] at h
  obtain ⟨⟨⟨⟨⟨a, b⟩, c⟩, d⟩, e⟩, g⟩ := h
  exact ⟨a, b, c, d, fun o ho => by rw [ho] at g; simp only [Option.all_some, Bool.and_eq_true, Bool.not_eq_true'] at g; exact g.1, e,
    fun o ho => by rw [ho] at g; simp only [Option.all_some, Bool.and_eq_true, Bool.not_eq_true'] at g; exact g.2⟩

theorem findNat_some (p : Nat → Bool) (n : Nat) : ∀ m k, m ≤ k → k < m + n → p k = true → ∃ j, findNat p n m = some j ∧ p j = true := by
  induction n with
  | zero => intro m k h1 h2; omega
  | succ n ih =>
    intro m k h1 h2 hk
    rw [findNat]
    by_cases hm : p m = true
    · exact ⟨m, by simp [hm], hm⟩
    · rw [if_neg hm]
      exact ih (m + 1) k (by by_cases e : m = k; · subst e; exact absurd hk hm
                             · omega) (by omega) hk

/-- A structure finds a place wherever the free value points, when there is one place for it. -/
theorem place_some {s : State} {fl : Nat} {kv : List Nat} {taken : List (Nat × Nat)} {len : Nat} (v c : Nat) (hc : c < 18432 * 2 ^ 20)
    (h : s.placeOk fl kv taken (c * 64) len = true) :
    ∃ a, s.place fl kv taken len v = some a ∧ s.placeOk fl kv taken a len = true := by
  obtain ⟨j, h1, h2⟩ := findNat_some (fun k => s.placeOk fl kv taken ((v + k) % (18432 * 2 ^ 20) * 64) len) (18432 * 2 ^ 20) 0
    ((18432 * 2 ^ 20 - v % (18432 * 2 ^ 20) + c) % (18432 * 2 ^ 20)) (by omega) (by omega) (by
      rw [show (v + (18432 * 2 ^ 20 - v % (18432 * 2 ^ 20) + c) % (18432 * 2 ^ 20)) % (18432 * 2 ^ 20) = c by omega]; exact h)
  exact ⟨(v + j) % (18432 * 2 ^ 20) * 64, by rw [State.place, h1]; rfl, h2⟩

/-- Register fields at values. -/
def rg (l : List (Fld × Nat × Nat)) : Store Nat := l.map fun x => (regKey x.1 x.2.1, x.2.2)

/-- The module with a core at site 1151 of a flask's cluster, and register fields at values. -/
def site (l : List (Fld × Nat × Nat)) (c : CoreSt := {}) : State :=
  { up with cluster := [(95, { flask := some 0 })], regs := rg l, core := [(1151, c)] }

/-- A header of a record: version 3, its type, length and flags. -/
def hdrWord (type len flags : Nat) : Nat := type + 3 * 2 ^ 4 + len * 2 ^ 24 + flags * 2 ^ 36

theorem bit_zero (k : Nat) : bit 0 k = false := by simp [bit]

/-- The words of the last slice decode clean while no mark is held and the slice's words are defined. -/
theorem word_clean {s : State} (hm : s.marks = []) (hu : (s.sliceAt 1151).undef = 0) (hd : (s.sliceAt 1151).deadCh = 0) {w : Nat}
    (h : w / 2 ^ 27 = 1151) : (s.decodeWord w).verdict = 0 := by
  have hm : s.markAt w = {} := by rw [State.markAt, hm]; rfl
  have e : w * 8 / 2 ^ 30 = 1151 := by omega
  have hw : s.undefWord w = false := by
    simp only [State.undefWord, State.undefPlace, e, hu, bit_zero, Bool.and_false, Bool.false_or]
    rw [decide_eq_false (show ¬scratchBase ≤ w * 8 by simp only [scratchBase]; omega)]; rfl
  simp only [State.decodeWord, hm, e, hd, hw, bit_zero, Bool.and_false, Bool.false_eq_true, if_false]
  rw [if_neg (by simp only [farBase]; omega), decodeCoded, if_neg (by decide), if_pos (by decide)]

/-- Reads of that slice lose nothing. -/
theorem reads_clean {s : State} (hm : s.marks = []) (hu : (s.sliceAt 1151).undef = 0) (hd : (s.sliceAt 1151).deadCh = 0) {a len : Nat}
    (h0 : 0 < len) (h : 1151 * 2 ^ 30 ≤ a) (hl : a + len ≤ 1152 * 2 ^ 30) : (s.bsuBytes a len).2 = false := by
  rw [State.bsuBytes, if_neg (by omega), List.any_eq_false]
  intro r hr
  obtain ⟨k, hk, rfl⟩ := List.mem_map.1 hr
  rw [List.mem_range] at hk
  rw [word_clean hm hu hd (by omega)]
  decide

/-- Bytes of memory that are not 0, from an address on. -/
def cells (a : Nat) (d : List Byte) : List (Nat × Byte) := (d.zipIdx.map fun x => (a + x.2, x.1)).filter fun x => x.2 != 0

/-- The last slice of the last stack with register fields at values and its words defined. -/
def sliceUp (l : List (Fld × Nat × Nat)) (x : SliceSt := { undef := 0 }) : State := { up with regs := rg l, slice := [(1151, x)] }

/-! ## Ill-formed commands are refused by WellFormed, one for each check -/

theorem test_post_too_long : (Instr.mbDoorbellPost 0 (List.replicate 2049 0)).wellFormed = false := by decide +kernel
theorem test_window_empty : (Instr.hostWindowAccess 0 false 0 0 [] []).wellFormed = false := by decide
theorem test_window_past_end : (Instr.hostWindowAccess 0 false (2 ^ 34 - 1) 2 [] []).wellFormed = false := by decide
theorem test_window_data_short : (Instr.hostWindowAccess 0 true 0 2 [1] []).wellFormed = false := by decide
theorem test_window_upset : (Instr.hostWindowAccess 0 false 0 1 [] [⟨2 ^ 43, 1⟩]).wellFormed = false := by decide
theorem test_retrain_no_lane : (Instr.hostLinkRetrain 0 32).wellFormed = false := by decide
theorem test_retrain_wide : (Instr.hostLinkRetrain 17 32).wellFormed = false := by decide
theorem test_retrain_no_rate : (Instr.hostLinkRetrain 16 0).wellFormed = false := by decide
theorem test_retrain_fast : (Instr.hostLinkRetrain 16 (2 ^ 16)).wellFormed = false := by decide
theorem test_fetch_upset_flips_nothing : (Instr.recordFetch 0 [⟨0, 0⟩]).wellFormed = false := by decide
theorem test_agAccess_upset : (Instr.agAccess 0 0 [⟨2 ^ 43, 1⟩]).wellFormed = false := by decide
theorem test_rowBurst_upset : (Instr.rowBurst 0 0 [⟨2 ^ 43, 1⟩]).wellFormed = false := by decide
theorem test_scrubRead_upset : (Instr.scrubRead 0 [⟨0, 0⟩]).wellFormed = false := by decide
theorem test_sramScrub_far : (Instr.sramScrubRead (2 ^ 46) []).wellFormed = false := by decide
theorem test_sramScrub_upset : (Instr.sramScrubRead 0 [⟨0, 0⟩]).wellFormed = false := by decide
theorem test_descriptor_upset : (Instr.ladleDescriptorStart 0 [⟨0, 0⟩]).wellFormed = false := by decide
theorem test_rxGet_upset : (Instr.rxGet 0 [⟨0, 0⟩]).wellFormed = false := by decide
theorem test_read_address : (Instr.memoryRead (.fw 0) (2 ^ 64) 1 0 []).wellFormed = false := by decide
theorem test_read_empty : (Instr.memoryRead (.fw 0) 0 0 0 []).wellFormed = false := by decide
theorem test_read_long : (Instr.memoryRead (.fw 0) 0 4097 0 []).wellFormed = false := by decide
theorem test_read_upset : (Instr.memoryRead (.fw 0) 0 1 0 [⟨0, 0⟩]).wellFormed = false := by decide
theorem test_write_empty : (Instr.memoryWrite (.fw 0) 0 0 [] []).wellFormed = false := by decide
theorem test_write_upset : (Instr.memoryWrite (.fw 0) 0 0 [1] [⟨0, 0⟩]).wellFormed = false := by decide
theorem test_accumulator_bits : (Instr.accumulatorWrite 0 false 4).wellFormed = false := by decide
theorem test_vector_bits : (Instr.vectorIteration 0 4).wellFormed = false := by decide
theorem test_writeBack_line : (Instr.eccWriteBack (2 ^ 40)).wellFormed = false := by decide
theorem test_readClear_other_field : (Instr.readClearCounter .SEQ_STATUS_state 0).wellFormed = false := by decide
theorem test_qualification_lanes : (Instr.qualificationWindowEnd 0 0 (List.replicate 9 0) 0).wellFormed = false := by decide
theorem test_degrade_lanes : (Instr.portDegrade 0 0 (List.replicate 9 (0, 0)) 0).wellFormed = false := by decide
theorem test_trace_payload : (Instr.tracePoint 0 0 (List.replicate 6 0)).wellFormed = false := by decide
theorem test_diode_cold : (Instr.diodeDone 0 true (-32769) 0).wellFormed = false := by decide
theorem test_diode_hot : (Instr.diodeDone 0 true 32768 0).wellFormed = false := by decide
theorem test_interval_stacks : (Instr.powerInterval 0 0 [0]).wellFormed = false := by decide
theorem test_throttle_stacks : (Instr.fastThrottle 0 [0]).wellFormed = false := by decide
theorem test_config_length : (Instr.configBlockWrite [0]).wellFormed = false := by decide
theorem test_token_length : (Instr.debugToken [0]).wellFormed = false := by decide

/-! ## The spec's worked examples -/

/-- The worked decode of 07_stacked_memory.md. -/
theorem test_worked_decode : 0x0094C5A6B3C0 / 2 ^ 30 = 595 ∧ frameOf 0x05A6B3C0 = 22 ∧ bankOf 0x05A6B3C0 = 89 ∧
    chanOf 0x05A6B3C0 = 5 ∧ rowOf 0x05A6B3C0 = 358 ∧ pfn 595 89 22 = 0x189D916 := by decide +kernel

/-- R58's two conversions to E4M3: 460 rounds to 448, and 470 overflows to it. -/
theorem test_460_to_e4m3 : ofFmt 3 (toFmt 3 false (.fin false 460 0)).1 = ofFmt 3 0x7E ∧ (ofFmt 3 0x7E).rat = 448 := by decide +kernel
theorem test_470_to_e4m3 : (toFmt 3 false (.fin false 470 0)).1 = 0x7E ∧ (toFmt 3 false (.fin false 470 0)).2 ≠ 0 := by decide +kernel

/-- The worked block conversion of 02_number_formats.md to E2M1: its scale, and the codes of its four elements. -/
theorem test_worked_block : let r := scaleBlock 7 ([0x415B3333, 0x40A00000, 0x40266666, 0xBE99999A].map (ofFmt 0)
      ++ List.replicate 28 (.fin false 0 0))
    (r.1, r.2.1.take 4) = (0x80, [7, 4, 3, 8]) := by decide +kernel

/-- The worked walk of 05_queues_and_address_generation.md. -/
def walk : State := site [(.CHG_AG_base, 2, 0x80100000), (.CHG_AG_count0, 2, 128), (.CHG_AG_stride0, 2, 64), (.CHG_AG_count1, 2, 4),
  (.CHG_AG_stride1, 2, 0x2000), (.CHG_AG_count2, 2, 2), (.CHG_AG_stride2, 2, 32), (.CHG_AG_count3, 2, 1)]
theorem test_worked_walk : [0, 127, 128, 511, 512, 1023].map (agAddr walk 0 2) =
    [0x80100000, 0x80101FC0, 0x80102000, 0x80107FC0, 0x80100020, 0x80107FE0] := by decide +kernel

/-- The worked qualification of 17_fabric_ports.md: lane 5 is above the limit of a qualification, the others are not. -/
theorem test_worked_qualification : rateAbove 2474000 (2 ^ 37) 1 5 = true ∧ rateAbove 96000 (2 ^ 37) 1 5 = false ∧
    rateAbove 41000 (2 ^ 37) 1 5 = false := by decide

/-- Stack 4 is lost (13_on_package_network.md): where stack 3's entries go for stacks 4 and 5. -/
def lossStart : State := { up with regs := rg [(.NOC_LINK_up, 9, 1), (.NOC_LINK_up, 10, 1), (.NOC_LINK_up, 11, 1), (.NOC_CTL_auto_en, 3, 1)] }
def after (o : Out) (f : State → Nat) : Option Nat := match o with | .next t => some (f t) | _ => none
theorem test_worked_link_loss_own : lossStart.moved 3 0 true 4 = 0 := by decide +kernel
theorem test_worked_link_loss_next : lossStart.moved 3 0 true 5 = 3 := by decide +kernel

/-- A step runs the command in front: an ADD wraps at 2^32 (R164). -/
theorem test_step_counterAdd_wraps : after (step { site [(.CT_value, 1151 * 8 + 7, 2)] with pending := [.counterAdd 1151 7 0xFFFFFFFF (.core 1151) 0] })
    (fun t => t.reg .CT_value (1151 * 8 + 7)) = some 1 := by decide +kernel

/-! ## FlaskAndContextRequestsComplete -/

theorem wit_hello : ∃ (f : FnIx) (s : State) (r : Req) (v : Nat × Nat), RequestDue s f 1 r ∧ (s.fnAt f).deferred = [] ∧
    helloChoice (field r.body 0 1) (field r.body 1 1) (field r.body 2 1) = some v :=
  ⟨16, asked 16 (asks 1 (leBytes 0xFF0302 3 ++ List.replicate 13 0)), asks 1 (leBytes 0xFF0302 3 ++ List.replicate 13 0), (3, 0),
    due_of (by decide +kernel),
    by decide +kernel,
    by decide +kernel⟩

theorem wit_getInfo : ∃ (f : FnIx) (s : State) (r : Req), RequestDue s f 2 r :=
  ⟨0, { asked 0 (asks 2 []) with misc := { up.misc with phase := 1 } }, asks 2 [],
    due_of (by decide +kernel)⟩

theorem wit_attest : ∃ (f : FnIx) (s : State) (r : Req), RequestDue s f 3 r ∧ ((r.body.take 64).all (· == 0)) = false :=
  ⟨0, asked 0 (asks 3 (List.replicate 63 0 ++ [1])), asks 3 (List.replicate 63 0 ++ [1]),
    due_of (by decide +kernel),
    by decide +kernel⟩

theorem wit_certificate : ∃ (f : FnIx) (s : State) (r : Req), RequestDue s f 3 r ∧ (r.body.take 64).all (· == 0) = true :=
  ⟨0, asked 0 (asks 3 (List.replicate 64 0)), asks 3 (List.replicate 64 0),
    due_of (by decide +kernel),
    by decide +kernel⟩

theorem wit_licenceInstall : ∃ (f : FnIx) (s : State) (r : Req) (n : Nat) (ls : List (List Byte)) (new : List (List Byte)) (kept :
    List (List Byte)) (ok : Bool), RequestDue s f 4 r ∧ s.misc.linkUp = true ∧ n = field r.body 8 4 ∧ n ≠ 0 ∧ n % 576 = 0 ∧ n ≤
    8064 ∧ ls = (List.range (n / 576)).map (fun k => ((s.hostBytes f (field r.body 0 8) n).drop (576 * k)).take 576) ∧ ok = ls.all
    (fun x => s.licenceOk x (s.counter 0) (min (s.counter 1 + 1) 0xFFFFFFFF)) ∧ new = ls.zipIdx.filterMap (fun x => if (ls.drop
    (x.2 + 1)).any (fun y => field y 16 4 == field x.1 16 4) then none else some x.1) ∧ kept = s.sec.licences.filter (fun x =>
    s.licenceOk x (s.counter 0) (min (s.counter 1 + 1) 0xFFFFFFFF) && !new.any (fun y => field y 16 4 == field x 16 4)) :=
  ⟨0, asked 0 (asks 4 (leBytes 4096 8 ++ leBytes 8064 4)), asks 4 (leBytes 4096 8 ++ leBytes 8064 4), 8064, _, _, _, _,
    due_of (by decide +kernel),
    by decide +kernel,
    by decide +kernel,
    by decide +kernel,
    by decide +kernel,
    by decide +kernel,
    rfl,
    rfl,
    rfl,
    rfl⟩

theorem wit_legacyGrade : ∃ (f : FnIx) (s : State) (r : Req), RequestDue s f 5 r :=
  ⟨0, asked 0 (asks 5 [0x1F]), asks 5 [0x1F],
    due_of (by decide +kernel)⟩

theorem wit_flaskConfigSet : ∃ (f : FnIx) (s : State) (r : Req) (cs : List Nat) (rs : List Nat), RequestDue s f 0x0101 r ∧ field
    r.body 0 1 = 0 ∧ s.misc.linkUp = true ∧ (s.fnAt f).deferred.length < 16 ∧ field r.body 32 4 ≤ 83968 ∧ cs = (List.range
    96).filter (fun c => bit (field r.body 8 12) c) ∧ rs = nub (u32s (s.hostBytes f (field r.body 24 8) (4 * field r.body 32 4))
    (field r.body 32 4)) ∧ s.flaskRefusal r.flask 0 cs rs (field r.body 32 4) = 0 :=
  ⟨0, { asked 0 (asks 0x0101 (leBytes 0 8 ++ leBytes 1 12 ++ leBytes 0 4 ++ leBytes 4096 8 ++ leBytes 1 4) 15) with
    hmem := [(4096, 0xFF), (4097, 0x47)] }, asks 0x0101 (leBytes 0 8 ++ leBytes 1 12 ++ leBytes 0 4 ++ leBytes 4096 8 ++ leBytes 1 4) 15, _, _,
    due_of (by decide +kernel),
    by decide +kernel,
    by decide +kernel,
    by decide +kernel,
    by decide +kernel,
    rfl,
    rfl,
    by decide +kernel⟩

theorem wit_flaskConfigRemove : ∃ (f : FnIx) (s : State) (r : Req) (cs : List Nat) (rs : List Nat), RequestDue s f 0x0101 r ∧
    field r.body 0 1 = 1 ∧ s.misc.linkUp = true ∧ (s.fnAt f).deferred.length < 16 ∧ field r.body 32 4 ≤ 83968 ∧ cs = (List.range
    96).filter (fun c => bit (field r.body 8 12) c) ∧ rs = nub (u32s (s.hostBytes f (field r.body 24 8) (4 * field r.body 32 4))
    (field r.body 32 4)) ∧ s.flaskRefusal r.flask 1 cs rs (field r.body 32 4) = 0 :=
  ⟨0, { asked 0 (asks 0x0101 (leBytes 1 8 ++ leBytes 1 12 ++ leBytes 0 4 ++ leBytes 4096 8 ++ leBytes 1 4)) with
    hmem := [(4096, 0xFF), (4097, 0x47)], owner := [(18431, some 0)], cluster := [(0, { flask := some 0 })] }, asks 0x0101 (leBytes 1 8 ++ leBytes 1 12 ++ leBytes 0 4 ++ leBytes 4096 8 ++ leBytes 1 4), _, _,
    due_of (by decide +kernel),
    by decide +kernel,
    by decide +kernel,
    by decide +kernel,
    by decide +kernel,
    rfl,
    rfl,
    by decide +kernel⟩

theorem wit_flaskReset : ∃ (f : FnIx) (s : State) (r : Req), RequestDue s f 0x0102 r ∧ (s.fnAt f).deferred.length < 16 :=
  ⟨1, { up with fn := [(1, { run := some (asks 0x0102 []), deferred := List.replicate 15 {} })], owner := [(18431, some 0)] }, asks 0x0102 [],
    due_of (by decide +kernel),
    by decide +kernel⟩

theorem wit_flaskReg : ∃ (f : FnIx) (s : State) (r : Req), RequestDue s f 0x0103 r ∧ (∀ k < 4, regWordBad (field r.body (8 * k) 8)
    = false) :=
  ⟨0, asked 0 (asks 0x0103 ((List.replicate 4 (leBytes 0xFFFF000100000001 8)).flatten) 15), asks 0x0103 ((List.replicate 4 (leBytes 0xFFFF000100000001 8)).flatten) 15,
    due_of (by decide +kernel),
    by decide +kernel⟩

theorem wit_ctxCreate : ∃ (f : FnIx) (s : State) (r : Req) (x : Nat), RequestDue s f 0x0110 r ∧ r.ctx = 0xFFFF ∧ field r.body 0 1
    ≤ 7 ∧ 1 ≤ field r.body 2 1 ∧ field r.body 3 1 + field r.body 2 1 ≤ 96 ∧ (∀ k < field r.body 2 1, s.flaskOf (field r.body 3 1 +
    k) = some r.flask) ∧ findNat (fun x => !(s.ctxAt x).on) 256 0 = some x ∧ s.poolRoom (field r.body 2 1 * s.perCluster) = true
    :=
  ⟨1, { asked 1 (asks 0x0110 [7, 0, 1, 95]) with cluster := [(95, { flask := some 0 })] }, asks 0x0110 [7, 0, 1, 95], 0,
    due_of (by decide +kernel),
    by decide +kernel,
    by decide +kernel,
    by decide +kernel,
    by decide +kernel,
    by decide +kernel,
    by decide +kernel,
    by decide +kernel⟩

theorem wit_ctxDestroy : ∃ (f : FnIx) (s : State) (r : Req), RequestDue s f 0x0111 r ∧ r.ctx ≠ 0xFFFF ∧ (s.fnAt f).deferred.length
    < 16 :=
  ⟨1, { up with fn := [(1, { run := some (asks 0x0111 [] 0 255), deferred := List.replicate 15 {} })], ctx := [(255, { on := true, fn := 1 })] }, asks 0x0111 [] 0 255,
    due_of (by decide +kernel),
    by decide +kernel,
    by decide +kernel⟩

theorem wit_queueCreate : ∃ (f : FnIx) (s : State) (r : Req) (q : Nat) (k : Nat), RequestDue s f 0x0112 r ∧ field r.body 0 8 %
    4096 = 0 ∧ 4 ≤ field r.body 8 1 ∧ field r.body 8 1 ≤ 16 ∧ r.ctx ≠ 0xFFFF ∧ findNat (fun q => !(s.wqAt (wqKey f q)).on) 256 0 =
    some q ∧ findNat (fun k => !(s.wq.any (fun p => p.2.on && p.2.num == k))) 4096 0 = some k :=
  ⟨1, { asked 1 (asks 0x0112 (leBytes 4096 8 ++ [16]) 0 255) with ctx := [(255, { on := true, fn := 1 })] }, asks 0x0112 (leBytes 4096 8 ++ [16]) 0 255, 0, 0,
    due_of (by decide +kernel),
    by decide +kernel,
    by decide +kernel,
    by decide +kernel,
    by decide +kernel,
    by decide +kernel,
    by decide +kernel⟩

theorem wit_queueDestroy : ∃ (f : FnIx) (s : State) (r : Req) (k : Nat), RequestDue s f 0x0113 r ∧ field r.body 0 2 ≤ 255 ∧ k =
    wqKey f (field r.body 0 2) ∧ (s.wqAt k).on = true ∧ (s.wqAt k).dying = false ∧ s.wqFlask (s.wqAt k) = r.flask ∧ (s.fnAt
    f).deferred.length < 16 :=
  ⟨1, { up with
    fn := [(1, { run := some (asks 0x0113 [255, 0]), deferred := List.replicate 15 {} })],
    wq := [(511, { on := true, ctx := 255, tail := 3 })], ctx := [(255, { on := true, fn := 1 })] }, asks 0x0113 [255, 0], 511,
    due_of (by decide +kernel),
    by decide +kernel,
    by decide +kernel,
    by decide +kernel,
    by decide +kernel,
    by decide +kernel,
    by decide +kernel⟩

/-- The body of a SEQ_CREATE: policy SWAP, one slice, 1151, FP16 pages of one token record. -/
def seqBody : List Byte :=
  [1, 1, 0, 3] ++ leBytes 1 2 ++ leBytes 1 2 ++ [0, 0] ++ leBytes 1 2 ++ leBytes 1 2 ++ leBytes 0 2 ++ leBytes 1151 2 ++ leBytes 0 30

/-- A flask with a cluster, a region and sequences. -/
def seqSite (r : Req) (seqs : Store SeqSt) : State :=
  { asked 1 r with owner := [(0, some 0)], cluster := [(95, { flask := some 0 })], seq := seqs, pte := [(8191 * 2 ^ 32, { kind := 1, tokens := 1 })] }

theorem place_ok {s : State} {fl : Nat} {kv : List Nat} {taken : List (Nat × Nat)} {a len : Nat}
    (h1 : ((regionsIn a len).all fun r => decide (r < 18432) && s.ownerAt r == some fl && !kv.contains r) = true)
    (h2 : (taken.all fun t => !(decide (a < t.1 + t.2) && decide (t.1 < a + len))) = true) : s.placeOk fl kv taken a len = true := by
  rw [State.placeOk, h1, h2]; rfl

/-! ## MemoryAndCacheRequestsComplete -/

theorem wit_memInit : ∃ (f : FnIx) (s : State) (r : Req) (rs : List Nat), RequestDue s f 0x0201 r ∧ rs = u32s (r.body.drop 8)
    (field r.body 0 4) ∧ (∀ x ∈ rs, x < 18432 ∧ s.ownerAt x = some r.flask ∧ s.stackHeld (x / 16 / 96) = false) :=
  ⟨1, { asked 1 (asks 0x0201 (leBytes 1 8 ++ leBytes 18431 4)) with owner := [(18431, some 0)] }, asks 0x0201 (leBytes 1 8 ++ leBytes 18431 4), _,
    due_of (by decide +kernel),
    rfl,
    by decide +kernel⟩

theorem wit_pageRetire : ∃ (f : FnIx) (s : State) (r : Req) (ps : List Nat) (ks : List Nat) (new : List Nat), RequestDue s f
    0x0202 r ∧ (s.fnAt f).deferred.length < 16 ∧ ps = u32s (r.body.drop 8) (field r.body 0 4) ∧ (∀ p ∈ ps, p < 2 ^ 26 ∧ p / 2 ^ 22
    ≤ 11 ∧ p / 2 ^ 15 % 128 ≤ 95) ∧ ks = nub (ps.map keyOfPfn) ∧ new = ks.filter (fun k => !s.retired (k / 32768) (k / 256 % 128)
    (k % 256) && !(s.pageAt k).retire) ∧ (∀ k ∈ new, s.retireCount (k / 32768) + (s.page.filter (fun p => p.1 / 32768 == k / 32768
    && p.2.retire && p.2.state != 6)).length + (new.filter (fun j => j / 32768 == k / 32768)).length ≤ 32) :=
  ⟨0, { up with fn := [(0, { run := some (asks 0x0202 (leBytes 1 8 ++ leBytes (11 * 2 ^ 22 + 95 * 2 ^ 15 + 32767) 4)), deferred := List.replicate 15 {} })] }, asks 0x0202 (leBytes 1 8 ++ leBytes (11 * 2 ^ 22 + 95 * 2 ^ 15 + 32767) 4), _, _, _,
    due_of (by decide +kernel),
    by decide +kernel,
    rfl,
    by decide +kernel,
    rfl,
    rfl,
    by decide +kernel⟩

theorem wit_testGrant : ∃ (f : FnIx) (s : State) (r : Req) (rg : Nat) (sl : Nat), RequestDue s f 0x0203 r ∧ rg = field r.body 4 4
    ∧ sl = rg / 16 ∧ field r.body 0 1 ≤ 15 ∧ s.regionExists rg = true ∧ rg < 18432 ∧ s.ownerAt rg = some (field r.body 0 1) ∧
    s.flag .ECC_TWG_grant sl = false ∧ s.grants (field r.body 0 1) < 4 :=
  ⟨0, { asked 0 (asks 0x0203 (leBytes 15 4 ++ leBytes 18431 4)) with owner := [(18431, some 15)] }, asks 0x0203 (leBytes 15 4 ++ leBytes 18431 4), _, _,
    due_of (by decide +kernel),
    rfl,
    rfl,
    by decide +kernel,
    by decide +kernel,
    by decide +kernel,
    by decide +kernel,
    by decide +kernel,
    by decide +kernel⟩

theorem wit_testRevoke : ∃ (f : FnIx) (s : State) (r : Req) (rg : Nat) (sl : Nat), RequestDue s f 0x0204 r ∧ rg = field r.body 4 4
    ∧ sl = rg / 16 ∧ field r.body 0 1 ≤ 15 ∧ s.regionExists rg = true ∧ rg < 18432 ∧ s.reg .ECC_TWG_grant sl = 1 ∧ s.reg
    .ECC_TWG_flask sl = field r.body 0 1 ∧ s.reg .ECC_TWG_region sl = rg % 16 :=
  ⟨0, { asked 0 (asks 0x0204 (leBytes 15 4 ++ leBytes 18431 4)) with
    regs := [(regKey .ECC_TWG_grant 1151, 1), (regKey .ECC_TWG_flask 1151, 15), (regKey .ECC_TWG_region 1151, 15)] }, asks 0x0204 (leBytes 15 4 ++ leBytes 18431 4), _, _,
    due_of (by decide +kernel),
    rfl,
    rfl,
    by decide +kernel,
    by decide +kernel,
    by decide +kernel,
    by decide +kernel,
    by decide +kernel,
    by decide +kernel⟩

theorem wit_eccTestRead : ∃ (f : FnIx) (s : State) (r : Req) (a : Nat) (sl : Nat), RequestDue s f 0x0205 r ∧ field r.body 0 1 = 0
    ∧ a = field r.body 8 8 ∧ sl = a / 2 ^ 30 ∧ a % 8 = 0 ∧ s.granted a = true ∧ s.reg .ECC_TWG_flask sl = r.flask ∧ s.stackHeld
    (sl / 96) = false :=
  ⟨1, { asked 1 (asks 0x0205 (leBytes 0 8 ++ leBytes (1152 * 2 ^ 30 - 8) 8 ++ leBytes 0 10)) with
    regs := [(regKey .ECC_TWG_grant 1151, 1), (regKey .ECC_TWG_region 1151, 15)], mem := [(1152 * 2 ^ 30 - 8, 1)], slice := [(1151, { undef := 0 })] }, asks 0x0205 (leBytes 0 8 ++ leBytes (1152 * 2 ^ 30 - 8) 8 ++ leBytes 0 10), _, _,
    due_of (by decide +kernel),
    by decide +kernel,
    rfl,
    rfl,
    by decide +kernel,
    by decide +kernel,
    by decide +kernel,
    by decide +kernel⟩

theorem wit_eccTestWrite : ∃ (f : FnIx) (s : State) (r : Req) (a : Nat) (sl : Nat), RequestDue s f 0x0205 r ∧ field r.body 0 1 = 1
    ∧ a = field r.body 8 8 ∧ sl = a / 2 ^ 30 ∧ a % 8 = 0 ∧ s.granted a = true ∧ s.reg .ECC_TWG_flask sl = r.flask ∧ s.stackHeld
    (sl / 96) = false :=
  ⟨1, { asked 1 (asks 0x0205 (leBytes 1 8 ++ leBytes (1152 * 2 ^ 30 - 8) 8 ++ leBytes (2 ^ 80 - 1) 10)) with
    regs := [(regKey .ECC_TWG_grant 1151, 1), (regKey .ECC_TWG_region 1151, 15)] }, asks 0x0205 (leBytes 1 8 ++ leBytes (1152 * 2 ^ 30 - 8) 8 ++ leBytes (2 ^ 80 - 1) 10), _, _,
    due_of (by decide +kernel),
    by decide +kernel,
    rfl,
    rfl,
    by decide +kernel,
    by decide +kernel,
    by decide +kernel,
    by decide +kernel⟩

theorem wit_retireList : ∃ (f : FnIx) (s : State) (r : Req) (w : Nat), RequestDue s f 0x0206 r ∧ field r.body 8 4 % 4 = 0 ∧
    s.misc.linkUp = true ∧ w = min (field r.body 8 4 / 4) s.retirements.length :=
  ⟨0, { asked 0 (asks 0x0206 (leBytes (2 ^ 64 - 4) 8 ++ leBytes 4 4)) with retirements := [5, 32768] }, asks 0x0206 (leBytes (2 ^ 64 - 4) 8 ++ leBytes 4 4), _,
    due_of (by decide +kernel),
    by decide +kernel,
    by decide +kernel,
    rfl⟩

theorem wit_ladleSubmit : ∃ (f : FnIx) (s : State) (r : Req) (a : Nat) (e : Nat) (ch : Nat), RequestDue s f 0x0210 r ∧ a = field
    r.body 0 8 ∧ a % 64 = 0 ∧ a < 2 ^ 46 ∧ s.memOwner a = some r.flask ∧ s.freeChannel = some (e, ch) :=
  ⟨1, { asked 1 (asks 0x0210 (leBytes (1152 * 2 ^ 30 - 64) 8)) with owner := [(18431, some 0)] }, asks 0x0210 (leBytes (1152 * 2 ^ 30 - 64) 8), _, 96, 0,
    due_of (by decide +kernel),
    rfl,
    by decide +kernel,
    by decide +kernel,
    by decide +kernel,
    by decide +kernel⟩

theorem wit_kvConfig : ∃ (f : FnIx) (s : State) (r : Req) (rs : List Nat), RequestDue s f 0x0301 r ∧ (s.fnAt f).deferred.length <
    16 ∧ s.misc.linkUp = true ∧ field r.body 8 4 ≤ 18432 ∧ rs = nub (u32s (s.hostBytes f (field r.body 0 8) (4 * field r.body 8
    4)) (field r.body 8 4)) ∧ s.kvRefusal r.flask (kvCfgOf (s.kvAt r.flask) r.body) rs (field r.body 8 4) = 0 :=
  ⟨1, { up with fn := [(1, { run := some (asks 0x0301 (leBytes 4096 8 ++ leBytes 1 4 ++ leBytes 0 4 ++ leBytes 128 4 ++ leBytes 1536 4 ++ leBytes 128 4 ++ leBytes 0 36)), deferred := List.replicate 15 {} })], owner := [(18431, some 0)], cluster := [(95, { flask := some 0 })], hmem := [(2 ^ 64 + 4096, 0xFF), (2 ^ 64 + 4097, 0x47)], regs := [(regKey .ECC_INIT_regions 1151, 0x8000)] }, asks 0x0301 (leBytes 4096 8 ++ leBytes 1 4 ++ leBytes 0 4 ++ leBytes 128 4 ++ leBytes 1536 4 ++ leBytes 128 4 ++ leBytes 0 36), _,
    due_of (by decide +kernel),
    by decide +kernel,
    by decide +kernel,
    by decide +kernel,
    rfl,
    by decide +kernel⟩

theorem wit_kvQuery : ∃ (f : FnIx) (s : State) (r : Req), RequestDue s f 0x0302 r ∧ (s.kvAt r.flask).set = true :=
  ⟨16, { asked 16 (asks 0x0302 [] 15) with kv := [(15, { set := true, descBase := 2 ^ 46 - 1 })] }, asks 0x0302 [] 15,
    due_of (by decide +kernel),
    by decide +kernel⟩

theorem wit_kvQueryUnset : ∃ (f : FnIx) (s : State) (r : Req), RequestDue s f 0x0302 r ∧ (s.kvAt r.flask).set = false :=
  ⟨16, asked 16 (asks 0x0302 [] 15), asks 0x0302 [] 15,
    due_of (by decide +kernel),
    by decide +kernel⟩

theorem wit_seqCreate : ∃ (f : FnIx) (s : State) (r : Req) (x : SeqSt) (q : Nat) (pt : Nat) (da : Nat), RequestDue s f 0x0310 r ∧
    x = seqOf r ∧ seqBad r.body x = false ∧ (∀ sl ∈ x.spread.take x.spreadN, s.flaskOf (sl / 12) = some r.flask) ∧ s.freeSeq =
    some q ∧ s.place r.flask (s.kvRegionsOf r.flask) (s.kvTaken r.flask) x.tableLen (Config.free s.tick) = some pt ∧ s.place
    r.flask (s.kvRegionsOf r.flask) ((pt, x.tableLen) :: s.kvTaken r.flask) 64 (Config.free (s.tick + 1)) = some da := by
  obtain ⟨pt, h1, _⟩ := place_some (s := seqSite (asks 0x0310 seqBody) []) (fl := 0) (kv := []) (taken := []) (len := 8) (Config.free 0) 0
    (by decide) (by decide +kernel)
  have h2 : ∃ da, (seqSite (asks 0x0310 seqBody) []).place 0 [] [(pt, 8)] 64 (Config.free 1) = some da := by
    by_cases h : pt < 64
    · exact (place_some _ 2 (by decide) (place_ok (by decide +kernel) (by simp; omega))).imp fun _ h => h.1
    · exact (place_some _ 0 (by decide) (place_ok (by decide +kernel) (by simp; omega))).imp fun _ h => h.1
  obtain ⟨da, h2⟩ := h2
  exact ⟨1, seqSite (asks 0x0310 seqBody) [], asks 0x0310 seqBody, _, 0, pt, da, due_of (by decide +kernel), rfl, by decide +kernel,
    by decide +kernel, by decide +kernel, h1, h2⟩

theorem wit_seqFork : ∃ (f : FnIx) (s : State) (r : Req) (a : Nat) (b : Nat) (len : Nat) (pt : Nat) (da : Nat) (x : SeqSt),
    RequestDue s f 0x0311 r ∧ a = field r.body 0 2 ∧ a ≤ 8191 ∧ x = s.seqAt a ∧ x.state ≠ 0 ∧ x.flask = r.flask ∧ len = field
    r.body 4 4 ∧ x.cow = false ∧ x.swapping = false ∧ (∀ st < x.streams, len ≤ s.liveTokens a st) ∧ ((List.range x.streams).filter
    (fun st => s.forkCopy a st len)).length ≤ s.freeCount (x.sliceOf (len / max 1 x.capacity)) ∧ ((∀ st < x.streams, ∀ p ≤ len /
    max 1 x.capacity, (s.pteAt a st p).kind = 1 → (s.pageAt (s.pteAt a st p).key).refcount < 65535)) ∧ s.freeSeq = some b ∧
    s.place r.flask (s.kvRegionsOf r.flask) (s.kvTaken r.flask) x.tableLen (Config.free s.tick) = some pt ∧ s.place r.flask
    (s.kvRegionsOf r.flask) ((pt, x.tableLen) :: s.kvTaken r.flask) 64 (Config.free (s.tick + 1)) = some da := by
  obtain ⟨pt, h1, _⟩ := place_some (s := seqSite (asks 0x0311 (leBytes 8191 4 ++ leBytes 1 4)) [(8191, { seqOf (asks 0x0310 seqBody) with ptBase := 64 })])
    (fl := 0) (kv := []) (taken := [(0, 64), (64, 8)]) (len := 8) (Config.free 0) 2 (by decide) (by decide +kernel)
  have h2 : ∃ da, (seqSite (asks 0x0311 (leBytes 8191 4 ++ leBytes 1 4)) [(8191, { seqOf (asks 0x0310 seqBody) with ptBase := 64 })]).place 0 []
      [(pt, 8), (0, 64), (64, 8)] 64 (Config.free 1) = some da := by
    by_cases h : pt < 192
    · exact (place_some _ 4 (by decide) (place_ok (by decide +kernel) (by simp; omega))).imp fun _ h => h.1
    · exact (place_some _ 2 (by decide) (place_ok (by decide +kernel) (by simp; omega))).imp fun _ h => h.1
  obtain ⟨da, h2⟩ := h2
  exact ⟨1, seqSite (asks 0x0311 (leBytes 8191 4 ++ leBytes 1 4)) [(8191, { seqOf (asks 0x0310 seqBody) with ptBase := 64 })],
    asks 0x0311 (leBytes 8191 4 ++ leBytes 1 4), 8191, 0, 1, pt, da, _, due_of (by decide +kernel), by decide +kernel, by decide +kernel, rfl,
    by decide +kernel, by decide +kernel, by decide +kernel, by decide +kernel, by decide +kernel, by decide +kernel, by decide +kernel,
    by decide +kernel, by decide +kernel, h1, h2⟩

theorem wit_seqFree : ∃ (f : FnIx) (s : State) (r : Req) (q : Nat), RequestDue s f 0x0312 r ∧ q = field r.body 0 2 ∧ q ≤ 8191 ∧
    (s.seqAt q).state ≠ 0 ∧ (s.seqAt q).flask = r.flask ∧ (s.seqAt q).cow = false :=
  ⟨1, { asked 1 (asks 0x0312 (leBytes 8191 2)) with seq := [(8191, { state := 1 })] }, asks 0x0312 (leBytes 8191 2), _,
    due_of (by decide +kernel),
    rfl,
    by decide +kernel,
    by decide +kernel,
    by decide +kernel,
    by decide +kernel⟩

theorem wit_seqEvict : ∃ (f : FnIx) (s : State) (r : Req) (q : Nat), RequestDue s f 0x0313 r ∧ (s.fnAt f).deferred.length < 16 ∧ q
    = field r.body 0 2 ∧ q ≤ 8191 ∧ (s.seqAt q).state ≠ 0 ∧ (s.seqAt q).flask = r.flask :=
  ⟨1, { up with fn := [(1, { run := some (asks 0x0313 (leBytes 8191 2)), deferred := List.replicate 15 {} })], seq := [(8191, { state := 1, policy := 1 })] }, asks 0x0313 (leBytes 8191 2), _,
    due_of (by decide +kernel),
    by decide +kernel,
    rfl,
    by decide +kernel,
    by decide +kernel,
    by decide +kernel⟩

theorem wit_seqReady : ∃ (f : FnIx) (s : State) (r : Req) (q : Nat), RequestDue s f 0x0314 r ∧ q = field r.body 0 2 ∧ q ≤ 8191 ∧
    (s.seqAt q).state = 2 ∧ (s.seqAt q).flask = r.flask ∧ (s.seqAt q).stepOpen = false :=
  ⟨1, { asked 1 (asks 0x0314 (leBytes 8191 2)) with seq := [(8191, { state := 2 })] }, asks 0x0314 (leBytes 8191 2), _,
    due_of (by decide +kernel),
    rfl,
    by decide +kernel,
    by decide +kernel,
    by decide +kernel,
    by decide +kernel⟩

theorem wit_seqResume : ∃ (f : FnIx) (s : State) (r : Req) (q : Nat), RequestDue s f 0x0315 r ∧ q = field r.body 0 2 ∧ q ≤ 8191 ∧
    (s.seqAt q).state = 3 ∧ (s.seqAt q).flask = r.flask ∧ (s.seqAt q).swapping = false :=
  ⟨1, { asked 1 (asks 0x0315 (leBytes 8191 2)) with seq := [(8191, { state := 3 })] }, asks 0x0315 (leBytes 8191 2), _,
    due_of (by decide +kernel),
    rfl,
    by decide +kernel,
    by decide +kernel,
    by decide +kernel,
    by decide +kernel⟩

/-- A PORT_CONFIG body: port 59, its highest mode, FP_QUAL as it is. -/
def portBody59 : List Byte := [59, 5, 1, 1, 0xFF, 0xFF] ++ List.replicate 71 0

/-- A JOB_JOIN body: job 7 in job-key mode with encryption, one receive ring on site 1151 and counter 7. -/
def joinBody : List Byte := leBytes 7 4 ++ [1, 1, 0, 0] ++ leBytes 4096 8 ++ leBytes 4 4 ++ leBytes 0 4 ++ leBytes 10082 4 ++ [1, 0, 0, 0]
  ++ leBytes (2 ^ 46 - 8192) 8 ++ leBytes 1 4 ++ leBytes 8320 4 ++ leBytes 1151 2 ++ [7, 0, 0, 0, 0, 0]

/-- A membership entry: endpoint 262143, any version, IPv6. -/
def memberLast : List Byte := leBytes (3 * 2 ^ 22 + 262143) 8 ++ List.replicate 56 0

/-! ## FabricPowerAndFirmwareRequestsComplete -/

theorem wit_portConfig : ∃ (f : FnIx) (s : State) (r : Req), RequestDue s f 0x0401 r ∧ portFieldsBad r.body = false :=
  ⟨0, asked 0 (asks 0x0401 portBody59), asks 0x0401 portBody59,
    due_of (by decide +kernel),
    by decide +kernel⟩

theorem wit_portStatus : ∃ (f : FnIx) (s : State) (r : Req) (g : Nat), RequestDue s f 0x0402 r ∧ g = field r.body 0 1 ∧ g ≤ 59 ∧
    s.portLive g = true :=
  ⟨0, { asked 0 (asks 0x0402 [59]) with regs := [(regKey .FP_STAT_link_downs 59, 9)] }, asks 0x0402 [59], _,
    due_of (by decide +kernel),
    rfl,
    by decide +kernel,
    by decide +kernel⟩

theorem wit_endpointSet : ∃ (f : FnIx) (s : State) (r : Req) (e : Nat), RequestDue s f 0x0403 r ∧ e = field r.body 0 4 ∧ ((e ≤
    262143 ∨ e = 0xFFFFFFFF)) ∧ s.anyJob = false :=
  ⟨0, asked 0 (asks 0x0403 (leBytes 262143 4)), asks 0x0403 (leBytes 262143 4), _,
    due_of (by decide +kernel),
    rfl,
    by decide +kernel,
    by decide +kernel⟩

theorem wit_jobJoin : ∃ (f : FnIx) (s : State) (r : Req), RequestDue s f 0x0410 r ∧ s.misc.linkUp = true ∧ field r.body 4 1 ≤ 1 ∧
    field r.body 5 1 ≤ 1 ∧ field r.body 28 1 ≤ 16 ∧ field r.body 20 4 % 128 = 0 ∧ field r.body 20 4 + 13 * field r.body 24 4 * 128
    ≤ 2 ^ 24 ∧ (∀ k < field r.body 28 1, s.rxRingBad r.body k = false) ∧ ((field r.body 5 1 = 1 → bit s.misc.licence 0 = true)) ∧
    s.misc.endpoint.isSome ∧ (s.jobAt r.flask).on = false :=
  ⟨1, { asked 1 (asks 0x0410 joinBody) with misc := { up.misc with endpoint := some 1 } }, asks 0x0410 joinBody,
    due_of (by decide +kernel),
    by decide +kernel,
    by decide +kernel,
    by decide +kernel,
    by decide +kernel,
    by decide +kernel,
    by decide +kernel,
    by decide +kernel,
    by decide +kernel,
    by decide +kernel,
    by decide +kernel⟩

theorem wit_jobLeave : ∃ (f : FnIx) (s : State) (r : Req), RequestDue s f 0x0411 r ∧ (s.fnAt f).deferred.length < 16 ∧ (s.jobAt
    r.flask).on = true ∧ (s.jobAt r.flask).leaving = false :=
  ⟨1, { up with fn := [(1, { run := some (asks 0x0411 []), deferred := List.replicate 15 {} })], job := [(0, { on := true })] }, asks 0x0411 [],
    due_of (by decide +kernel),
    by decide +kernel,
    by decide +kernel,
    by decide +kernel⟩

theorem wit_jobKey : ∃ (f : FnIx) (s : State) (r : Req) (p : Option (List Byte)) (ok : Bool), RequestDue s f 0x0412 r ∧
    s.misc.linkUp = true ∧ field r.body 8 4 = 512 ∧ field r.body 12 1 ≤ 1 ∧ (s.jobAt r.flask).on = true ∧ (s.jobAt
    r.flask).leaving = false ∧ p = Config.unwrap (s.hostBytes f (field r.body 0 8) 512) ∧ ok = p.any (fun p => p.length == 40 &&
    field p 0 4 == (s.jobAt r.flask).job && field p 4 1 == field r.body 12 1 && field p 5 3 == 0) :=
  ⟨1, { asked 1 (asks 0x0412 (leBytes 4096 8 ++ leBytes 512 4 ++ [1])) with job := [(0, { on := true })] }, asks 0x0412 (leBytes 4096 8 ++ leBytes 512 4 ++ [1]), _, _,
    due_of (by decide +kernel),
    by decide +kernel,
    by decide +kernel,
    by decide +kernel,
    by decide +kernel,
    by decide +kernel,
    rfl,
    rfl⟩

theorem wit_membershipCommit : ∃ (f : FnIx) (s : State) (r : Req) (n : Nat) (es : List (List Byte)), RequestDue s f 0x0413 r ∧
    s.misc.linkUp = true ∧ n = field r.body 4 4 ∧ es = entriesOf (s.hostBytes f (field r.body 8 8) (64 * n)) n ∧ s.commitRefusal
    (s.jobAt r.flask) (field r.body 0 4) n es = 0 :=
  ⟨1, { asked 1 (asks 0x0413 (leBytes 1 4 ++ leBytes 1 4 ++ leBytes 4096 8)) with
    job := [(0, { on := true })], hmem := memberLast.zipIdx.map (fun x => (2 ^ 64 + 4096 + x.2, x.1)) }, asks 0x0413 (leBytes 1 4 ++ leBytes 1 4 ++ leBytes 4096 8), _, _,
    due_of (by decide +kernel),
    by decide +kernel,
    rfl,
    rfl,
    by decide +kernel⟩

theorem wit_thermAckTrip : ∃ (f : FnIx) (s : State) (r : Req) (u : Nat) (x : Shut), RequestDue s f 0x0501 r ∧ u = field r.body 0 1
    ∧ u ≤ 12 ∧ s.unacked u = some x ∧ x.seq = field r.body 8 8 :=
  ⟨0, { asked 0 (asks 0x0501 (leBytes 11 8 ++ leBytes 1 8)) with shut := [{ seq := 1, unit := 11 }], regs := [(regKey .TH_STAT_tripped 11, 1)] }, asks 0x0501 (leBytes 11 8 ++ leBytes 1 8), _, { seq := 1, unit := 11 },
    due_of (by decide +kernel),
    rfl,
    by decide +kernel,
    by decide +kernel,
    by decide +kernel⟩

theorem wit_pwrLimit : ∃ (f : FnIx) (s : State) (r : Req) (c : Nat), RequestDue s f 0x0502 r ∧ c = field r.body 0 4 ∧ ((c = 0 ∨
    (1200 ≤ c ∧ c ≤ 4400))) :=
  ⟨0, asked 0 (asks 0x0502 (leBytes 4400 4)), asks 0x0502 (leBytes 4400 4), _,
    due_of (by decide +kernel),
    rfl,
    by decide +kernel⟩

theorem wit_fwUpdate : ∃ (f : FnIx) (s : State) (r : Req) (k : Nat) (last : Nat) (n : Nat) (img : List Byte) (low : Bool) (ok :
    Bool), RequestDue s f 0x0601 r ∧ s.misc.linkUp = true ∧ k = field r.body 0 1 ∧ last = field r.body 1 1 ∧ n = field r.body 16 4
    ∧ k ≤ 1 ∧ last ≤ 1 ∧ n ≤ 2 ^ 20 ∧ ((last = 0 → n % 4096 = 0)) ∧ ((k ≠ s.fw.running ∨ s.misc.phase = 0x30)) ∧ img = putChunk
    (s.imgBank k).bytes (field r.body 4 4) (s.hostBytes f (field r.body 8 8) n) ∧ low = (Config.imageSec img).any (fun v => decide
    (v < s.sec.floor)) ∧ ok = (last == 1 && Config.imageOk img && !low) :=
  ⟨0, { asked 0 (asks 0x0601 ([1, 1, 0, 0] ++ leBytes 0 4 ++ leBytes 4096 8 ++ leBytes 5 4)) with misc := { up.misc with phase := 0x30 } }, asks 0x0601 ([1, 1, 0, 0] ++ leBytes 0 4 ++ leBytes 4096 8 ++ leBytes 5 4), _, _, _, _, _, _,
    due_of (by decide +kernel),
    by decide +kernel,
    rfl,
    rfl,
    rfl,
    by decide +kernel,
    by decide +kernel,
    by decide +kernel,
    by decide +kernel,
    by decide +kernel,
    rfl,
    rfl,
    rfl⟩

theorem wit_fwActivate : ∃ (f : FnIx) (s : State) (r : Req) (k : Nat), RequestDue s f 0x0602 r ∧ k = field r.body 0 1 ∧ k ≤ 1 ∧
    (s.imgBank k).valid = true :=
  ⟨0, asked 0 (asks 0x0602 [1]), asks 0x0602 [1], _,
    due_of (by decide +kernel),
    rfl,
    by decide +kernel,
    by decide +kernel⟩

theorem wit_logConfig : ∃ (f : FnIx) (s : State) (r : Req) (k : Nat), RequestDue s f 0x0610 r ∧ k < 8 ∧ field r.body 0 4 = 2 ^ (12
    + k) :=
  ⟨0, asked 0 (asks 0x0610 (leBytes (2 ^ 19) 4)), asks 0x0610 (leBytes (2 ^ 19) 4), 7,
    due_of (by decide +kernel),
    by decide +kernel,
    by decide +kernel⟩

theorem wit_logFetch : ∃ (f : FnIx) (s : State) (r : Req) (recs : List (List Nat)), RequestDue s f 0x0611 r ∧ s.misc.linkUp = true
    ∧ recs = (s.flashLog.drop (max (field r.body 0 4) s.flashOldest)).take (field r.body 4 4) :=
  ⟨0, { asked 0 (asks 0x0611 (leBytes 0 4 ++ leBytes 2 4 ++ leBytes 4096 8)) with flashLog := [[1, 2, 3, 4, 5, 6, 7, 8]] }, asks 0x0611 (leBytes 0 4 ++ leBytes 2 4 ++ leBytes 4096 8), _,
    due_of (by decide +kernel),
    by decide +kernel,
    rfl⟩

theorem wit_traceSet : ∃ (f : FnIx) (s : State) (r : Req), RequestDue s f 0x0612 r ∧ field r.body 0 512 < 2 ^ 3840 :=
  ⟨0, asked 0 (asks 0x0612 (List.replicate 480 0xFF ++ List.replicate 32 0)), asks 0x0612 (List.replicate 480 0xFF ++ List.replicate 32 0),
    due_of (by decide +kernel),
    by decide +kernel⟩

theorem wit_traceQuery : ∃ (f : FnIx) (s : State) (r : Req) (d : List Byte), RequestDue s f 0x0613 r ∧ s.misc.linkUp = true ∧ d =
    Config.traceTable.take (field r.body 8 4) :=
  ⟨0, asked 0 (asks 0x0613 (leBytes 4096 8 ++ leBytes 65536 4)), asks 0x0613 (leBytes 4096 8 ++ leBytes 65536 4), _,
    due_of (by decide +kernel),
    by decide +kernel,
    rfl⟩

/-- A posted GET_INFO. -/
def infoPost : List Byte := sealed (headerBytes 3 0 2 0 0 0xFFFF 0xFFFF 0) [] ++ List.replicate 2016 0

/-- Cluster 95 with one rank, at site 1151, its stack's diode read, and a context on it. -/
def ctxSite (c : CtxSt) : State := { up with
  cluster := [(95, { flask := some 0, ranks := [1151] })], regs := [(regKey .TH_RES_valid 11, 1)], ctx := [(255, { c with on := true, first := 95 })] }

/-! ## HostAndSchedulerEventsComplete -/

theorem wit_mbDoorbellPost : ∃ (f : FnIx) (d : List Byte) (s : State) (o : OpRow), s.misc.linkUp = true ∧ s.fnOn f = true ∧ s.fwUp
    = true ∧ s.reg .MB_STATE_state f ≠ 1 ∧ d.length = 2048 ∧ headerBad d = false ∧ messageCrc d (field d 6 2) = field d 28 4 ∧
    (¬(bit (field d 6 2) 1 = true ∧ (s.fnAt f).last = some ((requestOf f d).tag, (requestOf f d).op, (requestOf f d).crc))) ∧
    ((field d 0 1 = (s.fnAt f).major ∨ (requestOf f d).op = 1)) ∧ opRow (requestOf f d).op = some o ∧ (¬((s.fnAt f).major = 2 ∧
    o.v2 = false)) ∧ o.len ≤ (requestOf f d).body.length ∧ bodyLen (requestOf f d).op (requestOf f d).body o ≤ (requestOf f
    d).body.length ∧ s.permitted f (requestOf f d) o = true ∧ (¬((requestOf f d).op = 3 ∧ 16 ≤ s.signing)) :=
  ⟨16, infoPost, up, { len := 0, flask := false },
    by decide +kernel,
    by decide +kernel,
    by decide +kernel,
    by decide +kernel,
    by decide +kernel,
    by decide +kernel,
    by decide +kernel,
    by decide +kernel,
    by decide +kernel,
    by decide +kernel,
    by decide +kernel,
    by decide +kernel,
    by decide +kernel,
    by decide +kernel,
    by decide +kernel⟩

theorem wit_mbDoorbellBusy : ∃ (f : FnIx) (d : List Byte) (s : State), s.misc.linkUp = true ∧ s.fnOn f = true ∧ s.misc.phase ≠ 0 ∧
    s.reg .MB_STATE_state f = 1 :=
  ⟨16, [0], { up with regs := [(regKey .MB_STATE_state 16, 1)] },
    by decide +kernel,
    by decide +kernel,
    by decide +kernel,
    by decide +kernel⟩

theorem wit_deferredCompletion : ∃ (f : FnIx) (s : State) (d : Deferred) (i : Nat), s.fwUp = true ∧ 2 ∉ s.fw.restarting ∧ (s.fnAt
    f).deferred.zipIdx.find? (fun x => s.workDue x.1.work) = some (d, i) ∧ nextWork (run (doWork d.work) s) d.work = none :=
  ⟨16, { up with fn := [(16, { deferred := [{ work := .seqEvict 0 false }, { tag := 7 }], defSeq := 15 })], seq := [(0, { state := 1, cow := true })] }, { tag := 7 }, 1,
    by decide +kernel,
    by decide +kernel,
    by decide +kernel,
    by decide +kernel⟩

theorem wit_wqDbTailWrite : ∃ (f : FnIx) (slot : Fin 256) (tail : BitVec 32) (s : State) (q : WqSt), q = s.wqAt (wqKey f slot) ∧
    s.misc.linkUp = true ∧ s.fnOn f = true ∧ q.on = true ∧ q.dying = false ∧ 0 ≤ signed 32 (wrap 32 ((tail.toNat : Int) - q.tail))
    ∧ (wrap 32 ((tail.toNat : Int) - q.completed) ≤ 2 ^ q.log2) :=
  ⟨16, 255, 7, { up with wq := [(wqKey 16 255, { on := true, log2 := 4, tail := 2 ^ 32 - 1, started := 2 ^ 32 - 9, completed := 2 ^ 32 - 9 })] }, _,
    rfl,
    by decide +kernel,
    by decide +kernel,
    by decide +kernel,
    by decide +kernel,
    by decide +kernel,
    by decide +kernel⟩

theorem wit_workItemStart : ∃ (x : CtxIx) (s : State) (key : Nat) (q : WqSt) (w : List Nat), s.mayStart x = true ∧ (s.ctxAt
    x).item = none ∧ s.nextQueue x = some (key, q) ∧ s.wqAt key = q ∧ s.misc.linkUp = true ∧ w = s.entryWords key q q.started ∧
    entryBad w = false :=
  ⟨255, { ctxSite {} with wq := [(wqKey 16 255, { on := true, ctx := 255, tail := 1 })] }, wqKey 16 255, { on := true, ctx := 255, tail := 1 }, _,
    by decide +kernel,
    by decide +kernel,
    by decide +kernel,
    by decide +kernel,
    by decide +kernel,
    rfl,
    by decide +kernel⟩

theorem wit_workItemComplete : ∃ (x : CtxIx) (s : State) (i : Item), s.schLive = true ∧ (s.ctxAt x).item = some i ∧ i.saved = none
    ∧ i.lost = false ∧ (∀ k ∈ s.sitesOf (s.ctxAt x), s.coreLive k.2 = true ∧ s.seqState k.2 = 0) :=
  ⟨255, { ctxSite { item := some { queue := wqKey 16 255 } } with wq := [(wqKey 16 255, { on := true, ctx := 255, tail := 1, started := 1, completed := 2 ^ 32 - 1 })] }, { queue := wqKey 16 255 },
    by decide +kernel,
    by decide +kernel,
    by decide +kernel,
    by decide +kernel,
    by decide +kernel⟩

theorem wit_stoppingFault : ∃ (x : CtxIx) (n : SiteIx) (why : StopWhy) (s : State) (i : Item) (v : Nat × Nat × Nat), s.schLive =
    true ∧ (s.ctxAt x).item = some i ∧ (((∃ k ∈ s.sitesOf (s.ctxAt x), k.2 = n.val) ∨ why = .clusterReset)) ∧ s.faultOf x n why =
    some v :=
  ⟨255, 1151, .attend 257, { ctxSite { item := some { queue := wqKey 16 255 } } with core := [(1151, { attFault := 257 })] }, { queue := wqKey 16 255 }, (257, 5, 0),
    by decide +kernel,
    by decide +kernel,
    by decide +kernel,
    by decide +kernel⟩

theorem wit_stallLimit : ∃ (n : SiteIx) (s : State), s.coreLive n = true ∧ s.cccLive (n / 12) = true ∧ 8 ≤ (s.coreAt n).stalls ∧
    (s.coreAt n).stallDone = s.reg .SEQ_DONE_count n :=
  ⟨1151, { up with core := [(1151, { stalls := 8 })] },
    by decide +kernel,
    by decide +kernel,
    by decide +kernel,
    by decide +kernel⟩

theorem wit_preemption : ∃ (x : CtxIx) (s : State) (i : Item), s.schLive = true ∧ (s.ctxAt x).item = some i ∧ i.saved = none ∧
    i.lost = false ∧ i.pausing = false ∧ i.noPause = false ∧ ((s.outranked x = true ∨ s.itemHeld i = true)) :=
  ⟨255, { ctxSite { item := some { seqs := [8191] } } with seq := [(8191, { held := true })] }, { seqs := [8191] },
    by decide +kernel,
    by decide +kernel,
    by decide +kernel,
    by decide +kernel,
    by decide +kernel,
    by decide +kernel,
    by decide +kernel⟩

theorem wit_preemptionSaves : ∃ (x : CtxIx) (s : State) (i : Item), s.schLive = true ∧ (s.ctxAt x).item = some i ∧ i.saved = none
    ∧ i.lost = false ∧ i.pausing = true ∧ ((∀ k ∈ s.sitesOf (s.ctxAt x), (s.seqState k.2 = 6 ∨ s.seqState k.2 = 0) ∧ s.addsDone
    k.2 = true)) :=
  ⟨255, { ctxSite { item := some { pausing := true } } with regs := [(regKey .SEQ_STATUS_state 1151, 6), (regKey .SEQ_PC_addr 1151, 2 ^ 43 - 1)] }, { pausing := true },
    by decide +kernel,
    by decide +kernel,
    by decide +kernel,
    by decide +kernel,
    by decide +kernel,
    by decide +kernel⟩

theorem wit_preemptionAbandon : ∃ (x : CtxIx) (s : State) (i : Item), s.schLive = true ∧ (s.ctxAt x).item = some i ∧ i.pausing =
    true ∧ (∃ k ∈ s.sitesOf (s.ctxAt x), s.seqState k.2 ≠ 6 ∧ s.seqState k.2 ≠ 0) :=
  ⟨255, { ctxSite { item := some { pausing := true } } with regs := [(regKey .SEQ_STATUS_state 1151, 1)] }, { pausing := true },
    by decide +kernel,
    by decide +kernel,
    by decide +kernel,
    by decide +kernel⟩

theorem wit_itemResume : ∃ (x : CtxIx) (s : State) (i : Item) (l : List (Nat × Nat)), s.mayStart x = true ∧ (s.ctxAt x).item =
    some i ∧ i.saved = some l :=
  ⟨255, ctxSite { item := some { saved := some [(0, 5)] } }, { saved := some [(0, 5)] }, [(0, 5)],
    by decide +kernel,
    by decide +kernel,
    by decide +kernel⟩

theorem wit_batchBoundary : ∃ (x : CtxIx) (s : State) (r : Nat), s.schLive = true ∧ (s.ctxAt x).rot = some r ∧ (s.ctxAt x).on =
    true ∧ Store.sorted s.ctx = true ∧ (∀ p ∈ s.rotSet r, p.2.moved = true ∧ p.2.item = none) :=
  ⟨255, { ctxSite {} with ctx := [(3, { on := true, rot := some 3, moved := true, range := 1 }), (255, { on := true, rot := some 3, rotIdx := 1, moved := true })] }, 3,
    by decide +kernel,
    by decide +kernel,
    by decide +kernel,
    by decide +kernel,
    by decide +kernel⟩

theorem wit_hostWindowRead : ∃ (f : FnIx) (off : Nat) (len : Nat) (s : State), s.misc.linkUp = true ∧ s.fnOn f = true ∧ off + len
    ≤ 2 ^ 34 :=
  ⟨16, 2 ^ 34 - 64, 64, up,
    by decide +kernel,
    by decide +kernel,
    by decide +kernel⟩

theorem wit_hostWindowWrite : ∃ (f : FnIx) (off : Nat) (data : List Byte) (s : State) (a : Nat), s.misc.linkUp = true ∧ s.fnOn f =
    true ∧ off + data.length ≤ 2 ^ 34 ∧ a = s.reg .WIN_BASE_base f * 2 ^ 26 + off ∧ (∀ l ∈ linesOf a data.length, s.judgeWindow f
    (f.val == 0 && s.ringAccess true a data.length) l = .ok) ∧ ((∀ b, a ≤ b → b < a + data.length → b < stackedEnd → bit
    (s.sliceAt (b / 2 ^ 30)).deadCh (chanOf (b % 2 ^ 30)) = false)) :=
  ⟨16, 2 ^ 34 - 64, List.replicate 64 0xA5, { up with regs := [(regKey .NOC_LINK_up 2, 1), (regKey .WIN_CTL_en 16, 1)], owner := [(255, some 15)] }, _,
    by decide +kernel,
    by decide +kernel,
    by decide +kernel,
    rfl,
    by decide +kernel,
    by
    intro b _ _ _; simp [State.sliceAt, up, State.reset, Store.get, bit]⟩

theorem wit_functionLevelReset : ∃ (f : FnIx) (s : State), s.misc.linkUp = true ∧ s.fnOn f = true :=
  ⟨16, { up with fn := [(16, { defSeq := 3 })], owner := [(5, some 15)] },
    by decide +kernel,
    by decide +kernel⟩

theorem wit_hostLinkDown : ∃ (s : State), s.misc.linkUp = true :=
  ⟨up,
    by decide +kernel⟩

theorem wit_hostLinkRetrain : ∃ (width : Nat) (rate : Nat) (s : State), s.misc.phase ≠ 0 ∧ s.misc.linkUp = false ∧ ((width = 16 ∨
    width = 8 ∨ width = 4)) ∧ 0 < rate ∧ rate ≤ s.fullRate :=
  ⟨4, 128, { up with misc := { up.misc with linkUp := false } },
    by decide +kernel,
    by decide +kernel,
    by decide +kernel,
    by decide +kernel,
    by decide +kernel⟩

theorem wit_perstNAssert : ∃ (s : State), s.misc.phase ≠ 0 :=
  ⟨{ up with held := [(0, 1)] },
    by decide +kernel⟩

theorem wit_vfEnable : ∃ (en : Bool) (s : State), s.misc.linkUp = true :=
  ⟨false, { up with owner := [(5, some 15)] },
    by decide +kernel⟩

/-! ## SequencerEventsComplete -/

theorem wit_seqCtlGoIdle : ∃ (n : SiteIx) (s : State), s.coreLive n = true ∧ s.seqState n = 0 :=
  ⟨1151, site [(.SEQ_LIST_addr, 1151, 2 ^ 43 - 1)],
    by decide +kernel,
    by decide +kernel⟩

theorem wit_seqCtlGoPaused : ∃ (n : SiteIx) (s : State), s.coreLive n = true ∧ s.seqState n = 6 :=
  ⟨1151, site [(.SEQ_STATUS_state, 1151, 6), (.SEQ_PC_addr, 1151, 2 ^ 43 - 1)],
    by decide +kernel,
    by decide +kernel⟩

theorem wit_seqCtlStopError : ∃ (n : SiteIx) (s : State), s.coreLive n = true ∧ s.seqState n = 7 :=
  ⟨1151, site [(.SEQ_STATUS_state, 1151, 7)],
    by decide +kernel,
    by decide +kernel⟩

theorem wit_seqCtlStopPaused : ∃ (n : SiteIx) (s : State), s.coreLive n = true ∧ s.seqState n = 6 :=
  ⟨1151, site [(.SEQ_STATUS_state, 1151, 6), (.SEQ_PC_addr, 1151, 2 ^ 43 - 1)],
    by decide +kernel,
    by decide +kernel⟩

theorem wit_seqCtlStopRunning : ∃ (n : SiteIx) (s : State), s.coreLive n = true ∧ 1 ≤ s.seqState n ∧ s.seqState n ≤ 5 :=
  ⟨1151, site [(.SEQ_STATUS_state, 1151, 5)] { pours := [{ addr := 2 ^ 43 - 1 }], arr := some {} },
    by decide +kernel,
    by decide +kernel,
    by decide +kernel⟩

theorem wit_seqCtlPause : ∃ (n : SiteIx) (s : State), s.coreLive n = true ∧ s.seqState n ≠ 0 ∧ s.seqState n ≠ 6 ∧ s.seqState n ≠ 7
    :=
  ⟨1151, site [(.SEQ_STATUS_state, 1151, 5)],
    by decide +kernel,
    by decide +kernel,
    by decide +kernel,
    by decide +kernel⟩

theorem wit_recordFetch : ∃ (n : SiteIx) (ups : List Upset) (s : State) (u : State) (len : Nat), s.coreLive n = true ∧ s.seqState
    n = 1 ∧ u = run (applyUpsets ups) s ∧ (len = (let h := leNat (u.readResult (n / 96) true (s.coreFlask n) (s.reg .SEQ_PC_addr n
    * 8) 8).data; if headerSub h = 0 then hdrLength h else 1)) :=
  ⟨1151, [], { site [(.SEQ_STATUS_state, 1151, 1)] with owner := [(0, some 0)], slice := [(0, { undef := 0 })], mem := [(0, 0x31), (3, 1)] }, _, _,
    by decide +kernel,
    by decide +kernel,
    rfl,
    rfl⟩

theorem wit_recordLoad : ∃ (n : SiteIx) (s : State) (h : Nat), s.coreLive n = true ∧ s.seqState n = 2 ∧ h = (s.coreAt n).hdr ∧
    headerSub h = 0 ∧ ((syncActs (s.coreAt n) = true → (s.coreAt n).pours = [])) ∧ lockWaits s n = false :=
  ⟨1151, site [(.SEQ_STATUS_state, 1151, 2)] { words := [hdrWord 1 1 0] }, _,
    by decide +kernel,
    by decide +kernel,
    rfl,
    by decide +kernel,
    by decide +kernel,
    by decide +kernel⟩

theorem wit_recordLoadError : ∃ (n : SiteIx) (s : State), s.coreLive n = true ∧ s.seqState n = 2 ∧ headerSub (s.coreAt n).hdr ≠ 0
    :=
  ⟨1151, site [(.SEQ_STATUS_state, 1151, 2)] { words := [0] },
    by decide +kernel,
    by decide +kernel,
    by decide +kernel⟩

theorem wit_waitRelease : ∃ (n : SiteIx) (s : State) (h : Nat), s.coreLive n = true ∧ s.seqState n = 3 ∧ h = (s.coreAt n).hdr ∧
    s.selTrue n (hdrSel h) = true :=
  ⟨1151, site [(.SEQ_STATUS_state, 1151, 3)] { words := [hdrWord 1 1 1] }, _,
    by decide +kernel,
    by decide +kernel,
    rfl,
    by decide +kernel⟩

theorem wit_pourStart : ∃ (n : SiteIx) (s : State), s.coreLive n = true ∧ s.seqState n = 4 ∧ s.engagedIdle n = true ∧ (s.coreAt
    n).pours.length < 4 ∧ startCheck (run (settle n) s) n = none :=
  ⟨1151, site [(.SEQ_STATUS_state, 1151, 4), (.CHG_SYNC_eng_vec, 1151, 1), (.CHG_VEC_n_ops, 1151, 1), (.CHG_VEC_repeats, 1151, 1), (.CHG_VEC_slot0_3, 1151, 2 ^ 9), (.CHG_QB_vin_a, 1151, 16)]
  { words := [hdrWord 1 1 0], pours := [{}, {}, {}] },
    by decide +kernel,
    by decide +kernel,
    by decide +kernel,
    by decide +kernel,
    by decide +kernel⟩

theorem wit_pourStartError : ∃ (n : SiteIx) (s : State) (v : Nat × Nat), s.coreLive n = true ∧ s.seqState n = 4 ∧ s.engagedIdle n
    = true ∧ (s.coreAt n).pours.length < 4 ∧ startCheck (run (settle n) s) n = some v :=
  ⟨1151, site [(.SEQ_STATUS_state, 1151, 4)] { words := [hdrWord 1 1 0], pours := [{}, {}, {}] }, (1, 10),
    by decide +kernel,
    by decide +kernel,
    by decide +kernel,
    by decide +kernel,
    by decide +kernel⟩

theorem wit_pourComplete : ∃ (n : SiteIx) (s : State) (p : Pour) (ps : List Pour), s.coreLive n = true ∧ (s.coreAt n).pours = p ::
    ps ∧ s.drained n p = true :=
  ⟨1151, site [(.SEQ_DONE_count, 1151, 2 ^ 14 - 1)] { pours := [{ addr := 2 ^ 43 - 1, fx := 15 }] }, { addr := 2 ^ 43 - 1, fx := 15 }, [],
    by decide +kernel,
    by decide +kernel,
    by decide +kernel⟩

theorem wit_shadowCopy : ∃ (n : SiteIx) (blk : Fin 13) (s : State), s.coreLive n = true ∧ s.blkBusy n blk = false :=
  ⟨1151, 0, { site [] with shad := rg [(.CHG_ARR_m_count, 1151, 2048)] },
    by decide +kernel,
    by decide +kernel⟩

theorem wit_drainEnd : ∃ (n : SiteIx) (s : State) (c : CoreSt) (br : Bool) (next : Nat), s.coreLive n = true ∧ s.seqState n = 5 ∧
    c = s.coreAt n ∧ c.pours = [] ∧ br = (hdrBranch c.hdr && s.selTrue n (hdrSel c.hdr)) ∧ next = (if br then wrap 43 ((s.reg
    .SEQ_PC_addr n : Int) + hdrOff c.hdr) else s.nextRec n) :=
  ⟨1151, site [(.SEQ_STATUS_state, 1151, 5)] { words := [hdrWord 0 1 2] }, _, _, _,
    by decide +kernel,
    by decide +kernel,
    rfl,
    by decide +kernel,
    rfl,
    rfl⟩

theorem wit_remoteAddFailure : ∃ (n : SiteIx) (addr : Word) (s : State), s.fifo.length < 1024 :=
  ⟨1151, 2 ^ 64 - 1, { up with fifo := List.replicate 1023 {} },
    by decide +kernel⟩

/-- A core whose queue rings 0 to 2 have 256 entries, with queues, generators and a core state of its own. -/
def ringed (l : List (Fld × Nat × Nat)) (c : CoreSt := {}) (q : Store QueueSt := []) (g : Store AgSt := []) : State :=
  { site (l ++ [(.CHG_QB_q0, 1151, 5), (.CHG_QB_q1, 1151, 133), (.CHG_QB_q2, 1151, 261)]) c with
    queue := q, ag := g, owner := [(0, some 0)], slice := [(0, { undef := 0 })] }

/-! ## ArrayVectorAndQueueEventsComplete -/

theorem wit_passEntry : ∃ (n : SiteIx) (s : State) (r : Run) (tl : Tile), s.coreLive n = true ∧ (s.coreAt n).arr = some r ∧ (if
    s.flag .CHG_ARR_wgt_reuse n then (s.coreAt n).active else if (s.coreAt n).shadowBusy then none else (s.coreAt n).shadow) =
    some tl ∧ (∀ k < s.reg .CHG_ARR_m_count n, s.entryHeld n (s.reg .CHG_ARR_acc_base n + k) = false) :=
  ⟨1151, ringed [(.CHG_ARR_wgt_reuse, 1151, 1), (.CHG_ARR_m_count, 1151, 2), (.CHG_ARR_repeats, 1151, 2), (.CHG_ARR_acc_base, 1151, 2047)]
  { arr := some {}, active := some {} }, {}, {},
    by decide +kernel,
    by decide +kernel,
    by decide +kernel,
    by decide +kernel⟩

theorem wit_passEntryHeld : ∃ (n : SiteIx) (s : State) (r : Run) (tl : Tile) (k : Nat), s.coreLive n = true ∧ (s.coreAt n).arr =
    some r ∧ (if s.flag .CHG_ARR_wgt_reuse n then (s.coreAt n).active else if (s.coreAt n).shadowBusy then none else (s.coreAt
    n).shadow) = some tl ∧ k < s.reg .CHG_ARR_m_count n ∧ s.entryHeld n (s.reg .CHG_ARR_acc_base n + k) = true :=
  ⟨1151, { ringed [(.CHG_ARR_m_count, 1151, 2), (.CHG_ARR_repeats, 1151, 2), (.CHG_ARR_acc_base, 1151, 2047)]
  { arr := some {}, shadow := some {} } with acc := [(1151 * 2048, { st := .committed })] }, {}, {}, 1,
    by decide +kernel,
    by decide +kernel,
    by decide +kernel,
    by decide +kernel,
    by decide +kernel⟩

theorem wit_tileLoadComplete : ∃ (n : SiteIx) (s : State) (f : Nat) (p : Nat) (wq : Nat) (sp : Bool), s.coreLive n = true ∧
    s.tilesWanted n = true ∧ f = s.reg .CHG_ARR_wgt_fmt n ∧ p = payload f ∧ wq = s.reg .CHG_QB_wgt n ∧ sp = s.flag .CHG_ARR_sparse
    n ∧ tileBytes f ≤ s.qHeld n wq p ∧ ((s.wgtScaled n = true → tileScales sp ≤ s.qHeld n (s.reg .CHG_QB_wsc n) 128)) ∧ ((sp =
    true → tileMeta ≤ s.qHeld n (s.reg .CHG_QB_meta n) 128)) :=
  ⟨1151, ringed [(.CHG_ARR_repeats, 1151, 1), (.CHG_ARR_wgt_fmt, 1151, 9)] { arr := some {} } [(1151 * 16, { count := 32 })], 9, 128, 0, false,
    by decide +kernel,
    by decide +kernel,
    by decide +kernel,
    by decide +kernel,
    by decide +kernel,
    by decide +kernel,
    by decide +kernel,
    by decide +kernel,
    by decide +kernel⟩

theorem wit_shadowRelease : ∃ (n : SiteIx) (s : State), s.coreLive n = true ∧ (s.coreAt n).shadowBusy = true :=
  ⟨1151, site [] { shadowBusy := true, shadow := some {} },
    by decide +kernel,
    by decide +kernel⟩

theorem wit_accumulatorWrite : ∃ (n : SiteIx) (accErr : Nat) (s : State) (p : Pass) (l : List Pass) (e : Nat) (old : AccEnt) (keep
    : Bool) (undef : Bool), s.coreLive n = true ∧ (s.coreAt n).passes = p :: l ∧ actBytes p.act p.sparse ≤ s.qHeld n (s.reg
    .CHG_QB_act n) (payload p.act) ∧ ((p.actScale = true → ascBytes p.sparse ≤ s.qHeld n (s.reg .CHG_QB_asc n) 128)) ∧ ((p.push =
    false ∨ (p.step ≠ 0 ∧ p.step ≠ 3))) ∧ p.bad = false ∧ accErr < 3 ∧ e = (p.base + p.done) % 2048 ∧ old = s.accAt n e ∧ keep =
    (p.step == 2 || p.step == 3) ∧ undef = (keep && (old.st == .free || old.int != p.accInt)) :=
  ⟨1151, 2, ringed [] { passes := [{ act := 8, wgt := 8, accInt := true, m := 1, base := 2047, step := 2, done := 1 }] } [(1151 * 16, { count := 1 })], { act := 8, wgt := 8, accInt := true, m := 1, base := 2047, step := 2, done := 1 }, [], 0, _, _, _,
    by decide +kernel,
    by decide +kernel,
    by decide +kernel,
    by decide +kernel,
    by decide +kernel,
    by decide +kernel,
    by decide +kernel,
    by decide +kernel,
    rfl,
    rfl,
    rfl⟩

theorem wit_accumulatorPush : ∃ (n : SiteIx) (accErr : Nat) (s : State) (p : Pass) (l : List Pass), s.coreLive n = true ∧
    (s.coreAt n).passes = p :: l ∧ actBytes p.act p.sparse ≤ s.qHeld n (s.reg .CHG_QB_act n) (payload p.act) ∧ ((p.actScale = true
    → ascBytes p.sparse ≤ s.qHeld n (s.reg .CHG_QB_asc n) 128)) ∧ p.push = true ∧ ((p.step = 0 ∨ p.step = 3)) ∧ 64 * fmtWidth
    p.outFmt / 8 ≤ s.qRoom n (s.reg .CHG_QB_out n) 128 ∧ p.bad = false ∧ accErr < 3 :=
  ⟨1151, 2, ringed [(.CHG_QB_out, 1151, 1)] { passes := [{ act := 8, wgt := 8, accInt := true, m := 1, base := 2047, push := true, done := 1, outFmt := 8 }] } [(1151 * 16, { count := 1 })], { act := 8, wgt := 8, accInt := true, m := 1, base := 2047, push := true, done := 1, outFmt := 8 }, [],
    by decide +kernel,
    by decide +kernel,
    by decide +kernel,
    by decide +kernel,
    by decide +kernel,
    by decide +kernel,
    by decide +kernel,
    by decide +kernel,
    by decide +kernel⟩

theorem wit_arrayStallEnd : ∃ (n : SiteIx) (s : State), s.coreLive n = true :=
  ⟨1151, ringed [(.ARR_STATUS_stall_act, 1151, 1), (.ARR_STATUS_stall_wgt, 1151, 1), (.CHG_QB_wgt, 1151, 1)] {} [(1151 * 16, { count := 1 })],
    by decide +kernel⟩

theorem wit_vectorIteration : ∃ (n : SiteIx) (accErr : Nat) (s : State) (r : Run), s.coreLive n = true ∧ (s.coreAt n).vec = some r
    ∧ (if s.reg .CHG_QB_vin_a n = 16 then (s.coreAt n).order ≠ [] else vecBytes (s.reg .CHG_VEC_in_fmt_a n) ≤ s.qHeld n (s.reg
    .CHG_QB_vin_a n) (payload (s.reg .CHG_VEC_in_fmt_a n))) ∧ ((s.flag .CHG_VEC_in_b_en n = true → vecBytes (s.reg
    .CHG_VEC_in_fmt_b n) ≤ s.qHeld n (s.reg .CHG_QB_vin_b n) (payload (s.reg .CHG_VEC_in_fmt_b n)))) ∧ (((s.chain n).any (fun w =>
    slotDst w == 4 && (slotOp w != 0x30 || decide (s.reg .CHG_VEC_repeats n ≤ r.done + 1))) = true → vecBytes (s.reg
    .CHG_VEC_out_fmt n) ≤ s.qRoom n (s.reg .CHG_QB_vout n) (payload (s.reg .CHG_VEC_out_fmt n)) ∧ (s.flag .CHG_VEC_out_scale n =
    true → 2 ≤ s.qRoom n (s.reg .CHG_QB_vosc n) 128))) :=
  ⟨1151, 0, ringed [(.CHG_VEC_repeats, 1151, 1), (.VEC_STATUS_iter, 1151, 2 ^ 20 - 1), (.CHG_VEC_n_ops, 1151, 1), (.CHG_VEC_slot0_3, 1151, 2 ^ 9 + 4), (.CHG_VEC_in_fmt_a, 1151, 8),
  (.CHG_VEC_out_fmt, 1151, 8), (.CHG_QB_vout, 1151, 1)] { vec := some {} } [(1151 * 16, { count := 1 })], {},
    by decide +kernel,
    by decide +kernel,
    by decide +kernel,
    by decide +kernel,
    by decide +kernel⟩

theorem wit_agLoad : ∃ (n : SiteIx) (g : Fin 8) (ups : List Upset) (s : State) (u : State) (r : Run) (b : Nat) (z : Nat) (rd :
    Rd), s.coreLive n = true ∧ (s.agAt n g).run = some r ∧ (((s.coreAt n).bnk = none ∨ s.reg .CHG_BNK_addr_ag n ≠ g)) ∧ s.farHeld
    (n / 96) (s.coreFlask n) (agAddr s n g r.done) = false ∧ s.flag .CHG_AG_dir (n * 8 + g) = false ∧ s.ring n (s.reg .CHG_AG_q (n
    * 8 + g)) = some (b, z) ∧ u = run (applyUpsets ups) s ∧ reserved (s.queueAt n (s.reg .CHG_AG_q (n * 8 + g))).fill (s.agAt n
    g).loads + s.reg .CHG_AG_len (n * 8 + g) ≤ (z - (s.queueAt n (s.reg .CHG_AG_q (n * 8 + g))).count) * 128 ∧ rd = u.readResult
    (srcOf (coreIss n)) true (s.coreFlask n) (agAddr s n g r.done) (s.reg .CHG_AG_len (n * 8 + g)) ∧ rd.bad = false :=
  ⟨1151, 7, [], ringed [(.CHG_AG_q, 1151 * 8 + 7, 2), (.CHG_AG_len, 1151 * 8 + 7, 64), (.CHG_AG_count0, 1151 * 8 + 7, 1), (.CHG_AG_count1, 1151 * 8 + 7, 1),
  (.CHG_AG_count2, 1151 * 8 + 7, 1), (.CHG_AG_count3, 1151 * 8 + 7, 1), (.NOC_LINK_up, 2, 1), (.NOC_LINK_up, 35, 1)] {} [] [(1151 * 8 + 7, { run := some {} })], _, {}, 65536, 256, _,
    by decide +kernel,
    by decide +kernel,
    by decide +kernel,
    by decide +kernel,
    by decide +kernel,
    by decide +kernel,
    rfl,
    by decide +kernel,
    rfl,
    by decide +kernel⟩

theorem wit_agStore : ∃ (n : SiteIx) (g : Fin 8) (ups : List Upset) (s : State) (r : Run), s.coreLive n = true ∧ (s.agAt n g).run
    = some r ∧ (((s.coreAt n).bnk = none ∨ s.reg .CHG_BNK_addr_ag n ≠ g)) ∧ s.farHeld (n / 96) (s.coreFlask n) (agAddr s n g
    r.done) = false ∧ s.flag .CHG_AG_dir (n * 8 + g) = true ∧ (if s.reg .CHG_AG_q (n * 8 + g) = 16 then (s.coreAt n).order ≠ []
    else s.reg .CHG_AG_len (n * 8 + g) ≤ s.qHeld n (s.reg .CHG_AG_q (n * 8 + g)) 128) :=
  ⟨1151, 7, [], ringed [(.CHG_AG_dir, 1151 * 8 + 7, 1), (.CHG_AG_len, 1151 * 8 + 7, 128)] {} [(1151 * 16, { count := 1 })] [(1151 * 8 + 7, { run := some {} })], {},
    by decide +kernel,
    by decide +kernel,
    by decide +kernel,
    by decide +kernel,
    by decide +kernel,
    by decide +kernel⟩

theorem wit_loadDataPush : ∃ (n : SiteIx) (g : Fin 8) (s : State) (l : Load) (ls : List Load), s.coreLive n = true ∧ (s.agAt n
    g).loads = l :: ls :=
  ⟨1151, 7, ringed [] {} [(1151 * 16 + 1, { fill := 64 })] [(1151 * 8 + 7, { loads := [{ q := 1, data := List.replicate 64 5 }] })], { q := 1, data := List.replicate 64 5 }, [],
    by decide +kernel,
    by decide +kernel⟩

theorem wit_storeAck : ∃ (n : SiteIx) (g : Fin 8) (s : State), s.coreLive n = true ∧ (s.agAt n g).stores ≠ [] :=
  ⟨1151, 7, ringed [] {} [] [(1151 * 8 + 7, { stores := [3] })],
    by decide +kernel,
    by decide +kernel⟩

theorem wit_queueStallEnd : ∃ (n : SiteIx) (q : Fin 16) (s : State), s.coreLive n = true :=
  ⟨1151, 1, ringed [] {} [(1151 * 16 + 1, { stallPush := true })],
    by decide +kernel⟩

theorem wit_queueStall : ∃ (n : SiteIx) (s : State), s.coreLive n = true ∧ (s.coreAt n).pours ≠ [] :=
  ⟨1151, ringed [(.SEQ_PC_addr, 1151, 2 ^ 43 - 1), (.SEQ_DONE_count, 1151, 3)] { pours := [{}] },
    by decide +kernel,
    by decide +kernel⟩

theorem wit_qCtlFlush : ∃ (n : SiteIx) (m : BitVec 16) (s : State), s.coreLive n = true ∧ ((s.seqState n = 0 ∨ s.seqState n = 6 ∨
    s.seqState n = 7)) :=
  ⟨1151, 0x8000, ringed [] {} [(1151 * 16 + 1, { count := 1 }), (1151 * 16 + 15, { count := 1 })],
    by decide +kernel,
    by decide +kernel⟩

theorem wit_counterAdd : ∃ (n : SiteIx) (ct : Fin 8) (v : BitVec 32) (iss : Issuer) (fl : FlaskIx) (s : State), judgeAdd s (srcOf
    iss) (some fl.val) (counterAddr n ct) = .done n ct :=
  ⟨1151, 7, 0xFFFFFFFF, .core 1151, 0, ringed [(.CT_value, 1151 * 8 + 7, 2)],
    by decide +kernel⟩

theorem wit_arrPerfClear : ∃ (n : SiteIx) (s : State), s.coreLive n = true :=
  ⟨1151, ringed [(.ARR_PERF_issue, 1151, 2)],
    by decide +kernel⟩

theorem wit_vecPerfClear : ∃ (n : SiteIx) (s : State), s.coreLive n = true :=
  ⟨1151, ringed [(.VEC_PERF_iters, 1151, 2)],
    by decide +kernel⟩

/-- A core with a running bank unit and its path. -/
def unit (l : List (Fld × Nat × Nat)) (p : PathSt) : State := { site l { bnk := some {} } with path := [(1151, p)] }

/-- A bank's BSU at the top of the stacked memory, its slice's words defined. -/
def bsu (x : BankSt) : State := { up with bank := [(1151 * 128 + 127, x)], slice := [(1151, { undef := 0 })], path := [(0, { out := [{ num := 9 }], next := 10 })] }

/-- A task of that bank on its last frame. -/
def job (cmd : Nat) (imm : Nat := 0) (args : List Byte := []) : Task :=
  { path := 0, num := 9, cmd := cmd, addr := 1151 * 2 ^ 30 + 2 ^ 30 - 32768, imm := imm, args := args, bursts := 1 }

/-! ## BankUnitEventsComplete -/

theorem wit_bankCommandIssue : ∃ (n : SiteIx) (s : State) (r : Run), s.coreLive n = true ∧ (s.coreAt n).bnk = some r ∧ (s.pathAt
    n).outstanding < 64 ∧ s.flag .CHG_BNK_arg_en n = false :=
  ⟨1151, unit [(.CHG_BNK_count, 1151, 2), (.CHG_AG_base, 1151 * 8, 2 ^ 40), (.CHG_BNK_cmd, 1151, 5)] { out := [{ num := 2 }], next := 3 }, {},
    by decide +kernel,
    by decide +kernel,
    by decide +kernel,
    by decide +kernel⟩

theorem wit_bankCommandIssueStall : ∃ (n : SiteIx) (s : State) (r : Run), s.coreLive n = true ∧ (s.coreAt n).bnk = some r ∧ 64 ≤
    (s.pathAt n).outstanding :=
  ⟨1151, unit [(.CHG_BNK_count, 1151, 2)] { out := List.replicate 64 {} }, {},
    by decide +kernel,
    by decide +kernel,
    by decide +kernel⟩

theorem wit_bankCommandAccept : ∃ (sl : SliceIx) (b : BankIx) (s : State) (k : Task) (ws : List Task), s.stackHeld (sl / 96) =
    false ∧ (s.bankAt sl b).wait = k :: ws ∧ (s.bankAt sl b).ctx.length < 8 ∧ bit (s.sliceAt sl).bsuOff b = false ∧ s.bankAssay sl
    b = false ∧ placementBad k.cmd k.imm k.addr = false ∧ (∀ f ∈ frames k.cmd k.imm k.addr, s.judge (pathStack k.path) true
    (s.pathFlask k.path) (f / 64) = .ok) :=
  ⟨1151, 127, { bsu { wait := [{ job 5 with path := 1151, flask := 0 }], ctx := List.replicate 7 (job 1) } with
    path := [(1151, { out := [{ num := 9 }] })], cluster := [(95, { flask := some 0 })], owner := [(1151 * 16 + 15, some 0)] }, { job 5 with path := 1151, flask := 0 }, [],
    by decide +kernel,
    by decide +kernel,
    by decide +kernel,
    by decide +kernel,
    by decide +kernel,
    by decide +kernel,
    by decide +kernel⟩

theorem wit_streamTokenGrant : ∃ (sl : SliceIx) (b : BankIx) (s : State), s.stackHeld (sl / 96) = false ∧ s.streaming sl < s.reg
    .BSU_CAP_streams sl ∧ ((List.range 128).map (fun k => ((s.sliceAt sl).tokNext + k) % 128)).find? (fun b => !(s.bankAt sl
    b).ctx.isEmpty && !(s.bankAt sl b).token) = some b.val :=
  ⟨1151, 127, { bsu { ctx := [job 1] } with regs := rg [(.BSU_CAP_streams, 1151, 1)] },
    by decide +kernel,
    by decide +kernel,
    by decide +kernel⟩

theorem wit_rowBurst : ∃ (sl : SliceIx) (b : BankIx) (ups : List Upset) (s : State) (k : Task) (ready : List Task), s.stackHeld
    (sl / 96) = false ∧ (s.bankAt sl b).token = true ∧ ready = (s.bankAt sl b).ctx.filter (taskReady (s.bankAt sl b).ctx) ∧
    ready.find? (fun x => x.bursts == ready.foldl (fun m x => min m x.bursts) (ready.headD {}).bursts) = some k :=
  ⟨1151, 127, [], bsu { ctx := [job 1], token := true }, job 1, [job 1],
    by decide +kernel,
    by decide +kernel,
    by decide +kernel,
    by decide +kernel⟩

theorem wit_attendCmd : ∃ (sl : SliceIx) (b : BankIx) (s : State) (k : Task), k.path < 1168 ∧ (s.bankAt sl b).ctx.find? (fun x =>
    x.cmd == 1 && decide (0 < x.bursts) && taskReady (s.bankAt sl b).ctx x) = some k :=
  ⟨1151, 127, bsu { ctx := [job 1] }, job 1,
    by decide +kernel,
    by decide +kernel⟩

theorem wit_scoreCmd : ∃ (sl : SliceIx) (b : BankIx) (s : State) (k : Task), k.path < 1168 ∧ (s.bankAt sl b).ctx.find? (fun x =>
    x.cmd == 2 && decide (0 < x.bursts) && taskReady (s.bankAt sl b).ctx x) = some k :=
  ⟨1151, 127, bsu { ctx := [job 2] }, job 2,
    by decide +kernel,
    by decide +kernel⟩

theorem wit_valueCmd : ∃ (sl : SliceIx) (b : BankIx) (s : State) (k : Task), k.path < 1168 ∧ (s.bankAt sl b).ctx.find? (fun x =>
    x.cmd == 3 && decide (0 < x.bursts) && taskReady (s.bankAt sl b).ctx x) = some k :=
  ⟨1151, 127, bsu { ctx := [job 3] }, job 3,
    by decide +kernel,
    by decide +kernel⟩

theorem wit_reduceCmd : ∃ (sl : SliceIx) (b : BankIx) (s : State) (k : Task), k.path < 1168 ∧ (s.bankAt sl b).ctx.find? (fun x =>
    x.cmd == 7 && decide (0 < x.bursts) && taskReady (s.bankAt sl b).ctx x) = some k :=
  ⟨1151, 127, bsu { ctx := [job 7] }, job 7,
    by decide +kernel,
    by decide +kernel⟩

theorem wit_appendQCmd : ∃ (sl : SliceIx) (b : BankIx) (s : State) (k : Task) (h : Header) (idx : Nat) (fl : Nat) (rc : List
    Byte), k.path < 1168 ∧ k.addr % 8 = 0 ∧ (s.bankAt sl b).ctx.find? (fun x => x.cmd == 4 && decide (0 < x.bursts) && taskReady
    (s.bankAt sl b).ctx x) = some k ∧ s.pageHeader k.addr = some h ∧ appendResult s k.addr (bits k.imm 11 0) (tokenOf k.fmt (bits
    k.imm 11 0) k.args) = (0, idx, rc, fl) :=
  ⟨1151, 127, { bsu { ctx := [job 4 32 (List.replicate 128 0)] } with mem := [((job 4).addr, 1), ((job 4).addr + 1, 3), ((job 4).addr + 2, 128), ((job 4).addr + 6, 1),
  ((job 4).addr + 16, 32), ((job 4).addr + 18, 32), ((job 4).addr + 20, 33), ((job 4).addr + 22, 40)] }, job 4 32 (List.replicate 128 0), parseHeader (1 + 3 * 2 ^ 8 + 32 * 2 ^ 18 + 2 ^ 48) 0 (32 + 32 * 2 ^ 16 + 33 * 2 ^ 32 + 40 * 2 ^ 48) 0, 0, 0, List.replicate 40 0,
    by decide +kernel,
    by decide +kernel,
    by decide +kernel,
    by decide +kernel,
    by decide +kernel⟩

theorem wit_fillCmd : ∃ (sl : SliceIx) (b : BankIx) (s : State) (k : Task), k.path < 1168 ∧ (s.bankAt sl b).ctx.find? (fun x =>
    x.cmd == 5 && decide (0 < x.bursts) && taskReady (s.bankAt sl b).ctx x) = some k :=
  ⟨1151, 127, bsu { ctx := [job 5 0xA5] }, job 5 0xA5,
    by decide +kernel,
    by decide +kernel⟩

theorem wit_copyPageCmd : ∃ (sl : SliceIx) (b : BankIx) (s : State) (k : Task) (src : Nat), k.path < 1168 ∧ src = k.addr / 32768 *
    32768 ∧ (s.bankAt sl b).ctx.find? (fun x => x.cmd == 6 && decide (0 < x.bursts) && taskReady (s.bankAt sl b).ctx x) = some k ∧
    (s.bsuBytes src 32768).2 = false :=
  ⟨1151, 127, bsu { ctx := [job 6 3] }, job 6 3, 1151 * 2 ^ 30 + 2 ^ 30 - 32768,
    by decide +kernel,
    by decide +kernel,
    by decide +kernel,
    reads_clean rfl rfl rfl (by decide) (by decide) (by decide)⟩

theorem wit_bankFence : ∃ (pa : PathIx) (s : State) (f : PathEnt), (s.pathAt pa).out.find? (fun e => e.fence.isSome &&
    e.done.isNone && e.waitFor.all (fun k => !(s.pathAt pa).out.any (fun x => x.num == k && x.done.isNone))) = some f :=
  ⟨1167, { up with path := [(1167, { out := [{ num := 1, done := some [] }, { num := 2, fence := some 0, waitFor := [1] }] })] }, { num := 2, fence := some 0, waitFor := [1] },
    by decide +kernel⟩

theorem wit_bankResultPush : ∃ (pa : PathIx) (s : State) (e : PathEnt) (es : List PathEnt) (d : List Byte), pa.val < 1152 ∧
    (s.pathAt pa).out.dropWhile (fun e => e.done.isSome && !e.resEn) = e :: es ∧ e.done = some d ∧ d.length ≤ s.qRoom pa (s.reg
    .CHG_BNK_res_q pa) 128 :=
  ⟨1151, { up with path := [(1151, { out := [{ num := 1, resEn := true, done := some [1, 2] }] })], regs := rg [(.CHG_QB_q0, 1151, 1)] }, { num := 1, resEn := true, done := some [1, 2] }, [], [1, 2],
    by decide +kernel,
    by decide +kernel,
    by decide +kernel,
    by decide +kernel⟩

theorem wit_bankResultStall : ∃ (pa : PathIx) (s : State) (e : PathEnt) (es : List PathEnt) (d : List Byte), pa.val < 1152 ∧
    (s.pathAt pa).out.dropWhile (fun e => e.done.isSome && !e.resEn) = e :: es ∧ e.done = some d ∧ s.qRoom pa (s.reg
    .CHG_BNK_res_q pa) 128 < d.length :=
  ⟨1151, { up with path := [(1151, { out := [{ num := 1, resEn := true, done := some [1, 2] }] })] }, { num := 1, resEn := true, done := some [1, 2] }, [], [1, 2],
    by decide +kernel,
    by decide +kernel,
    by decide +kernel,
    by decide +kernel⟩

theorem wit_bsuFault : ∃ (sl : SliceIx) (b : BankIx) (s : State) (k : Task) (ks : List Task), s.stackHeld (sl / 96) = false ∧
    (s.bankAt sl b).ctx = k :: ks ∧ k.path < 1168 :=
  ⟨1151, 127, bsu { ctx := [job 4] }, job 4, [],
    by decide +kernel,
    by decide +kernel,
    by decide +kernel⟩

theorem wit_bsuPerfClear : ∃ (sl : SliceIx) (s : State), s.stackHeld (sl / 96) = false :=
  ⟨1151, { up with regs := rg [(.BSU_PERF_bursts, 1151, 2 ^ 64 - 1)] },
    by decide +kernel⟩

/-! ## MemoryEventsComplete -/

theorem wit_memoryRead : ∃ (iss : Issuer) (addr : Nat) (len : Nat) (hint : Fin 4) (ups : List Upset) (s : State) (u : State) (r :
    Rd), u = run (applyUpsets ups) s ∧ r = u.readResult (srcOf iss) (issChecked iss) (u.issFlask iss) addr len :=
  ⟨.host 0, 1152 * 2 ^ 30 - 64, 128, 3, [⟨2 ^ 27 * 1152 - 1, 1⟩], up, _, _,
    rfl,
    rfl⟩

theorem wit_memoryReadClean : ∃ (iss : Issuer) (addr : Nat) (len : Nat) (hint : Fin 4) (s : State), 0 < len ∧ (∀ l ∈ linesOf addr
    len, s.judge (srcOf iss) (issChecked iss) (s.issFlask iss) l = .ok) ∧ ((∀ w, addr / 8 ≤ w → w ≤ (addr + len - 1) / 8 →
    s.deliver w = ⟨BitVec.ofNat 64 (s.rawWord (w * 8)), 0, 0⟩)) :=
  ⟨.core 1151, 1152 * 2 ^ 30 - 16, 8, 0, { site [] with slice := [(1151, { undef := 0 })], owner := [(18431, some 0)], mem := [(1152 * 2 ^ 30 - 16, 5)] },
    by decide +kernel,
    by decide +kernel,
    fun w h1 h2 => by
      obtain rfl : w = 144 * 2 ^ 30 - 2 := by omega
      decide +kernel⟩

theorem wit_memoryWrite : ∃ (iss : Issuer) (addr : Nat) (hint : Fin 4) (data : List Byte) (ups : List Upset) (s : State) (u :
    State), u = run (applyUpsets ups) s :=
  ⟨.ladle 95, 1152 * 2 ^ 30 - 64, 3, [1], [], up, _,
    rfl⟩

theorem wit_memoryWriteStores : ∃ (iss : Issuer) (addr : Nat) (hint : Fin 4) (data : List Byte) (s : State), (∀ l ∈ linesOf addr
    data.length, s.judge (srcOf iss) (issChecked iss) (s.issFlask iss) l = .ok) ∧ ((∀ a, addr ≤ a → a < addr + data.length → a <
    stackedEnd → bit (s.sliceAt (a / 2 ^ 30)).deadCh (chanOf (a % 2 ^ 30)) = false)) :=
  ⟨.core 1151, 1152 * 2 ^ 30 - 65, 3, [1, 2, 3], { site [] with slice := [(1151, { undef := 0 })], owner := [(18431, some 0)] },
    by decide +kernel,
    fun a h1 h2 _ => by
      have h2 : a < 1152 * 2 ^ 30 - 65 + 3 := h2
      rw [show a / 2 ^ 30 = 1151 by omega, State.sliceAt]
      simp [Store.get, bit]⟩

theorem wit_eccWriteBack : ∃ (line : Nat) (s : State), Store.get 0 s.wb line ≠ 0 :=
  ⟨18 * 2 ^ 30 - 1, { sliceUp [(.ECC_WB_done, 1151, 2 ^ 32 - 1)] with wb := [(18 * 2 ^ 30 - 1, 128)], marks := [(144 * 2 ^ 30 - 1, { flips := 3 })] },
    by decide +kernel⟩

theorem wit_refreshSlot : ∃ (sl : SliceIx) (b : BankIx) (s : State), s.stackHeld (sl / 96) = false :=
  ⟨1151, 127, sliceUp [(.MC_PERF_refresh, 1151, 2 ^ 64 - 1)] { slots := 2 ^ 127 - 1 },
    by decide +kernel⟩

theorem wit_selfRefreshEntry : ∃ (st : StackIx) (s : State), s.stackHeld st = true :=
  ⟨11, { up with stack := [(11, { down := true })] },
    by decide +kernel⟩

theorem wit_selfRefreshExit : ∃ (st : StackIx) (s : State), s.stackHeld st = false ∧ s.flag .CRS_STAT_self_refresh st = true :=
  ⟨11, { up with regs := rg [(.CRS_STAT_self_refresh, 11, 1)] },
    by decide +kernel,
    by decide +kernel⟩

theorem wit_scrubRead : ∃ (sl : SliceIx) (ups : List Upset) (s : State), s.flag .ECC_SCRUB_en sl = true ∧ s.stackHeld (sl / 96) =
    false ∧ (s.sliceAt sl).withheld = false :=
  ⟨1151, [], sliceUp [(.ECC_SCRUB_en, 1151, 1), (.ECC_SCRUB_pos, 1151, 2 ^ 24 - 1)],
    by decide +kernel,
    by decide +kernel,
    by decide +kernel⟩

theorem wit_sramScrubRead : ∃ (addr : Nat) (ups : List Upset) (s : State) (u : State) (w : Nat), u = run (applyUpsets ups) s ∧
    (((∃ c, u.target addr = .csram c) ∨ (∃ n, u.target addr = .scratch n))) ∧ w / 16 = addr / 128 ∧ (((u.decodeWord w).verdict = 1
    ∨ (u.decodeWord w).verdict = 2)) :=
  ⟨csramBase + 96 * 2 ^ 24 - 128, [⟨(csramBase + 96 * 2 ^ 24) / 8 - 1, 1⟩], up, _, (csramBase + 96 * 2 ^ 24) / 8 - 1,
    rfl,
    Or.inl ⟨95, by decide +kernel⟩,
    by decide +kernel,
    Or.inl (by decide +kernel)⟩

theorem wit_eccFillStart : ∃ (sl : SliceIx) (regions : BitVec 16) (s : State), s.stackHeld (sl / 96) = false ∧ s.flag
    .ECC_FILL_busy sl = false :=
  ⟨1151, 0x8000, sliceUp [],
    by decide +kernel,
    by decide +kernel⟩

theorem wit_fillEngineDone : ∃ (sl : SliceIx) (s : State), s.flag .ECC_FILL_busy sl = true :=
  ⟨1151, sliceUp [(.ECC_FILL_busy, 1151, 1)] { filling := 0x8000 },
    by decide +kernel⟩

theorem wit_eccTwRead : ∃ (sl : SliceIx) (s : State) (w : Nat), s.flag .ECC_TWG_grant sl = true ∧ w = sl * 2 ^ 27 + s.reg
    .ECC_TW_ADDR_word sl :=
  ⟨1151, sliceUp [(.ECC_TWG_grant, 1151, 1), (.ECC_TW_ADDR_word, 1151, 2 ^ 27 - 1)], 1152 * 2 ^ 27 - 1,
    by decide +kernel,
    by decide +kernel⟩

theorem wit_eccTwWrite : ∃ (sl : SliceIx) (s : State) (w : Nat), s.flag .ECC_TWG_grant sl = true ∧ w = sl * 2 ^ 27 + s.reg
    .ECC_TW_ADDR_word sl :=
  ⟨1151, sliceUp [(.ECC_TWG_grant, 1151, 1), (.ECC_TW_ADDR_word, 1151, 2 ^ 27 - 1), (.ECC_TW_DATA_data, 1151, 2 ^ 64 - 2), (.ECC_TW_CHK_check, 1151, 2 ^ 16 - 2)], 1152 * 2 ^ 27 - 1,
    by decide +kernel,
    by decide +kernel⟩

theorem wit_mcCtlInval : ∃ (sl : SliceIx) (s : State), s.stackHeld (sl / 96) = false :=
  ⟨1151, { sliceUp [] with cache := [(1151 * 512, [{ line := 1151 * 2 ^ 24 }])] },
    by decide +kernel⟩

theorem wit_mcPerfClear : ∃ (sl : SliceIx) (s : State), s.stackHeld (sl / 96) = false :=
  ⟨1151, sliceUp [(.MC_PERF_hits, 1151, 1)],
    by decide +kernel⟩

theorem wit_readClearCounter_MemoryEventsComplete : ∃ (r : Fld) (i : Nat) (s : State), s.fieldExists r i = true ∧ s.blockLive r i
    = true ∧ r.info.acc = .rc ∧ r ∉ [.KV_FL_POP_valid, .KV_FL_POP_bank, .KV_FL_POP_frame, .KV_FL_POPB_valid, .KV_FL_POPB_bank,
    .KV_FL_POPB_frame, .EG_CLAIM_valid, .EG_CLAIM_prio, .EG_CLAIM_src] :=
  ⟨.ECC_CNT_ce, 1151, sliceUp [(.ECC_CNT_ce, 1151, 2 ^ 32 - 1)],
    by decide +kernel,
    by decide +kernel,
    by decide +kernel,
    by decide +kernel⟩

theorem wit_registerWrite_MemoryEventsComplete : ∃ (r : Fld) (i : Nat) (v : Word) (s : State) (u : State), s.fieldExists r i =
    true ∧ ((r.info.unit = .site → s.coreOff (i / r.info.per) = false)) ∧ s.blockLive r i = true ∧ u = (if r.info.unit = .site
    then run (settle (i / r.info.per)) s else s) ∧ r.info.acc = .rw ∧ (trigger r i).isNone = true ∧ r ∉ [.WIN_CTL_flask,
    .EG_SRC_target, .EG_SRC_prio, .FP_CFG_en, .FAB_CFG_en, .LDL_CH_head] ∧ ((u.fieldBusy r i = false ∨ r.info.cls = .d)) :=
  ⟨.CHG_VEC_repeats, 1151, 2 ^ 64 - 1, site [], _,
    by decide +kernel,
    by decide +kernel,
    by decide +kernel,
    rfl,
    by decide +kernel,
    by decide +kernel,
    by decide +kernel,
    by decide +kernel⟩

theorem wit_registerWriteBusy : ∃ (r : Fld) (i : Nat) (v : Word) (s : State) (u : State), s.fieldExists r i = true ∧ ((r.info.unit
    = .site → s.coreOff (i / r.info.per) = false)) ∧ s.blockLive r i = true ∧ u = (if r.info.unit = .site then run (settle (i /
    r.info.per)) s else s) ∧ r.info.acc = .rw ∧ (trigger r i).isNone = true ∧ u.fieldBusy r i = true :=
  ⟨.CHG_VEC_repeats, 1151, 2 ^ 64 - 1, site [] { vec := some {} }, _,
    by decide +kernel,
    by decide +kernel,
    by decide +kernel,
    rfl,
    by decide +kernel,
    by decide +kernel,
    by decide +kernel⟩

theorem wit_registerWriteReadOnly : ∃ (r : Fld) (i : Nat) (v : Word) (s : State), r.info.unit ≠ .site ∧ ((r.info.acc = .ro ∨
    r.info.acc = .rc)) :=
  ⟨.MC_STAT_inval_busy, 1151, 2 ^ 64 - 1, up,
    by decide +kernel,
    by decide +kernel⟩

theorem wit_registerWriteClearsOnes : ∃ (r : Fld) (i : Nat) (v : Word) (s : State), s.fieldExists r i = true ∧ r.info.unit ≠ .site
    ∧ s.blockLive r i = true ∧ r.info.acc = .w1c :=
  ⟨.KV_FL_STAT_dup_push, 1151, 1, sliceUp [(.KV_FL_STAT_dup_push, 1151, 1)],
    by decide +kernel,
    by decide +kernel,
    by decide +kernel,
    by decide +kernel⟩

/-- The last frame of the stacked memory, as a key and an address, and the one before it in the bank. -/
def key0 : Nat := 1151 * 32768 + 32767
def addr0 : Nat := 1152 * 2 ^ 30 - 32768
def key1 : Nat := key0 - 1

/-- Words as memory. -/
def wordCells (a : Nat) (ws : List Nat) : List (Nat × Byte) := cells a (wordsBytes ws)

/-- A flask's core at site 1151 and one sequence on slice 1151 with one resident page in the last frame. -/
def kvUp (q : SeqSt := {}) (c : CoreSt := {}) (m : List (Nat × Byte) := []) (sl : SliceSt := {}) : State := { site [] c with
  slice := [(1151, { sl with undef := 0 })]
  kv := [(0, { set := true, appSize := 256, attOff := 4096, attSize := 128, swapSlots := 1, mergeBase := 1150 * 2 ^ 30, mergeFrames := 4, reclaimHigh := 1 })]
  seq := [(8191, { q with spreadN := 1, spread := [1151], streams := 1, maxPages := 2, capacity := 1, dk := 32, fmt := 3, stride := 40 })]
  pte := [(8191 * 2 ^ 32, { kind := 1, loc := pfnOfKey key0 })]
  page := [(key0, { refcount := 1, state := 1, owner := 8191 })]
  mem := wordCells addr0 [1 + 3 * 2 ^ 8 + 32 * 2 ^ 18 + 2 ^ 48, 0, 32 + 32 * 2 ^ 16 + 33 * 2 ^ 32 + 40 * 2 ^ 48] ++ m }

/-! ## KvCacheEventsComplete -/

theorem wit_kvFlPop : ∃ (sl : SliceIx) (s : State) (b : Nat) (f : Nat), s.stackHeld (sl / 96) = false ∧ s.popChoice sl = some (b,
    f) :=
  ⟨1151, { sliceUp [(.KV_FL_STAT_next_bank, 1151, 127)] { freeMap := 2 ^ 32767 } with tick := 3 }, 127, 255,
    by decide +kernel,
    by decide +kernel⟩

theorem wit_kvFlPopEmpty : ∃ (sl : SliceIx) (s : State), s.stackHeld (sl / 96) = false ∧ s.popChoice sl = none :=
  ⟨1151, sliceUp [],
    by decide +kernel,
    by decide +kernel⟩

theorem wit_kvFlPopb : ∃ (sl : SliceIx) (s : State) (b : Nat) (f : Nat), s.stackHeld (sl / 96) = false ∧ b = s.reg .KV_FL_CTL_bank
    sl ∧ freeInBank (s.sliceAt sl).freeMap b = some f :=
  ⟨1151, sliceUp [(.KV_FL_CTL_bank, 1151, 127)] { freeMap := 2 ^ 32767 }, _, 255,
    by decide +kernel,
    rfl,
    by decide +kernel⟩

theorem wit_kvFlPush : ∃ (sl : SliceIx) (b : BankIx) (fr : Fin 256) (s : State), s.stackHeld (sl / 96) = false ∧ bit (s.sliceAt
    sl).freeMap (b * 256 + fr) = false :=
  ⟨1151, 127, 255, sliceUp [],
    by decide +kernel,
    by decide +kernel⟩

theorem wit_kvFlPushFree : ∃ (sl : SliceIx) (b : BankIx) (fr : Fin 256) (s : State), s.stackHeld (sl / 96) = false ∧ bit
    (s.sliceAt sl).freeMap (b * 256 + fr) = true :=
  ⟨1151, 127, 255, sliceUp [] { freeMap := 2 ^ 32767 },
    by decide +kernel,
    by decide +kernel⟩

theorem wit_appendRequest : ∃ (n : SiteIx) (s : State) (u : State) (h : Nat) (p : Nat) (k : Nat) (idx : Nat) (fx : Nat) (r :
    AppReq) (q : SeqSt) (rc : List Byte), s.cccLive (n / 12) = true ∧ (s.kvAt ((s.coreFlask n).getD 16)).set = true ∧ 128 ≤
    (s.kvAt ((s.coreFlask n).getD 16)).appSize ∧ s.appNext n = none ∧ h = s.appHeadAt n 1024 ((s.coreAt n).appHead % ((s.kvAt
    ((s.coreFlask n).getD 16)).appSize / 128)) ∧ r = s.appReq n h ∧ r.valid = true ∧ (∀ y ∈ (s.coreAt n).appAside, y.1 ≠ h ∧
    (s.appReq n y.1).seq ≠ r.seq) ∧ (s.seqAt r.seq).state = 1 ∧ s.coreFlask n = some (s.seqAt r.seq).flask ∧ u = run (.seq
    (setCore n (fun c => { c with appHead := (h + s.appEntries r) % ((s.kvAt ((s.coreFlask n).getD 16)).appSize / 128) }))
    (stepBegins (s.runner n) r.seq)) s ∧ u.appReq n h = r ∧ r.bad = false ∧ q = u.seqAt r.seq ∧ q.state = 1 ∧ u.coreFlask n = some
    q.flask ∧ r.stream < q.streams ∧ r.position = u.streamTokens r.seq r.stream ∧ p = r.position / max 1 q.capacity ∧ p <
    q.maxPages ∧ ((q.sliceOf p / 12 = n / 12 ∨ u.cccLive (q.sliceOf p / 12) = true)) ∧ q.cow = false ∧ (u.pteAt r.seq r.stream
    p).kind = 1 ∧ k = (u.pteAt r.seq r.stream p).key ∧ bit (u.sliceAt (k / 32768)).bsuOff (k / 256 % 128) = false ∧ u.bankAssay (k
    / 32768) (k / 256 % 128) = false ∧ (u.ringBytes (ringAddr n (u.kvAt q.flask).appOff (u.kvAt q.flask).appSize) (u.kvAt
    q.flask).appSize h (16 + q.tlen * argWidth r.fmt)).bad = false ∧ appendResult u (addrOfKey k) q.tlen (tokenOf r.fmt q.tlen
    ((u.ringBytes (ringAddr n (u.kvAt q.flask).appOff (u.kvAt q.flask).appSize) (u.kvAt q.flask).appSize h (16 + q.tlen * argWidth
    r.fmt)).data.drop 16)) = (0, idx, rc, fx) :=
  ⟨1151, kvUp { state := 1 } {} (wordCells (csramBase + 95 * 2 ^ 24 + 11 * 256) [2 ^ 63 + 8191]), _, _, _, _, 0, 0, _, _, List.replicate 40 0,
    by decide +kernel,
    by decide +kernel,
    by decide +kernel,
    by decide +kernel,
    rfl,
    rfl,
    by decide +kernel,
    by decide +kernel,
    by decide +kernel,
    by decide +kernel,
    rfl,
    by decide +kernel,
    by decide +kernel,
    rfl,
    by decide +kernel,
    by decide +kernel,
    by decide +kernel,
    by decide +kernel,
    rfl,
    by decide +kernel,
    by decide +kernel,
    by decide +kernel,
    by decide +kernel,
    rfl,
    by decide +kernel,
    by decide +kernel,
    by decide +kernel,
    by decide +kernel⟩

theorem wit_copyOnWrite : ∃ (n : SiteIx) (s : State) (c : Cow) (cs : List Cow), s.cccLive (n / 12) = true ∧ (s.coreAt n).cows = c
    :: cs ∧ (s.bsuBytes (addrOfKey c.src) 32).2 = false :=
  ⟨1151, kvUp { state := 1, cow := true } { cows := [{ q := 8191, src := key0, dst := key1 }] }, { q := 8191, src := key0, dst := key1 }, [],
    by decide +kernel,
    by decide +kernel,
    by decide +kernel⟩

theorem wit_attendRequest : ∃ (n : SiteIx) (s : State) (u : State) (h : Nat) (r : AttReq) (q : SeqSt), s.cccLive (n / 12) = true ∧
    (s.kvAt ((s.coreFlask n).getD 16)).set = true ∧ 128 ≤ (s.kvAt ((s.coreFlask n).getD 16)).attSize ∧ (s.coreAt n).attAside.find?
    (fun y => !s.attBlocked n (s.attReq n y.1)) = none ∧ h = s.attHeadAt n ((s.kvAt ((s.coreFlask n).getD 16)).attSize / 128) 4096
    ((s.coreAt n).attHead % ((s.kvAt ((s.coreFlask n).getD 16)).attSize / 128)) ∧ r = s.attReq n h ∧ r.valid = true ∧ (∀ y ∈
    (s.coreAt n).attAside, y.1 ≠ h) ∧ (∀ a ∈ s.attendsAt (n / 12), ¬(a.site = n.val ∧ a.entry = h)) ∧ (s.seqAt r.seq).state = 1 ∧
    s.coreFlask n = some (s.seqAt r.seq).flask ∧ r.bad = false ∧ u = run (.seq (setCore n (fun c => { c with attHead := (h + 1) %
    ((s.kvAt ((s.coreFlask n).getD 16)).attSize / 128) })) (stepBegins (s.runner n) r.seq)) s ∧ u.attReq n h = r ∧ q = u.seqAt
    r.seq ∧ q.state = 1 ∧ u.coreFlask n = some q.flask ∧ r.stream < q.streams ∧ slotsBad r q = false ∧ r.lo ≤ r.hi ∧ r.hi ≤
    u.streamTokens r.seq r.stream ∧ u.attBlocked n r = false :=
  ⟨1151, kvUp { state := 1 } {} (wordCells (csramBase + 95 * 2 ^ 24 + 4096 + 11 * 128) [2 ^ 63 + 2 ^ 48 + 8191, 0, 0, 1151 * 2 ^ 30]), _, _, _, _,
    by decide +kernel,
    by decide +kernel,
    by decide +kernel,
    by decide +kernel,
    rfl,
    rfl,
    by decide +kernel,
    by decide +kernel,
    by decide +kernel,
    by decide +kernel,
    by decide +kernel,
    by decide +kernel,
    rfl,
    by decide +kernel,
    rfl,
    by decide +kernel,
    by decide +kernel,
    by decide +kernel,
    by decide +kernel,
    by decide +kernel,
    by decide +kernel,
    by decide +kernel⟩

theorem wit_memberMerge : ∃ (n : SiteIx) (s : State) (a : Attend), s.cccLive (n / 12) = true ∧ (s.attendsAt (n / 12)).find? (fun a
    => a.site == n.val) = some a :=
  ⟨1151, { kvUp with attend := [(95, [{ site := 1151, entry := 3 }])] }, { site := 1151, entry := 3 },
    by decide +kernel,
    by decide +kernel⟩

theorem wit_stepEnd : ∃ (q : SeqIx) (s : State), (s.seqAt q).stepOpen = true :=
  ⟨8191, kvUp { stepOpen := true, deferred := [(key1, 0)] },
    by decide +kernel⟩

theorem wit_epochDrain : ∃ (sl : SliceIx) (s : State), s.cccLive (sl / 12) = true ∧ (s.sliceAt sl).heldRel = [] :=
  ⟨1151, { kvUp with page := [(key0, { pend := true, epoch := 65535 })] },
    by decide +kernel,
    by decide +kernel⟩

theorem wit_reclamation : ∃ (sl : SliceIx) (s : State) (q : Nat), s.cccLive (sl / 12) = true ∧ (s.sliceAt sl).reclaim = true ∧
    s.swapRuns sl = false ∧ s.needed sl ≠ 0 ∧ s.victim sl = some q :=
  ⟨1151, kvUp { state := 1 } {} [] { reclaim := true }, 8191,
    by decide +kernel,
    by decide +kernel,
    by decide +kernel,
    by decide +kernel,
    by decide +kernel⟩

theorem wit_reclamationOver : ∃ (sl : SliceIx) (s : State), s.cccLive (sl / 12) = true ∧ (s.sliceAt sl).reclaim = true ∧
    s.swapRuns sl = false ∧ s.needed sl = 0 :=
  ⟨1151, kvUp { state := 1 } {} [] { reclaim := true, freeMap := 1 },
    by decide +kernel,
    by decide +kernel,
    by decide +kernel,
    by decide +kernel⟩

theorem wit_dropEviction : ∃ (q : SeqIx) (sl : SliceIx) (s : State), s.cccLive (sl / 12) = true ∧ (s.sliceAt sl).reclaim = true ∧
    (s.seqAt q).policy = 0 ∧ 0 < s.needed sl ∧ ((s.victim sl = some q.val ∨ (s.victim sl = none ∧ s.waitsIn q sl = true))) :=
  ⟨8191, 1151, kvUp { state := 1 } {} [] { reclaim := true },
    by decide +kernel,
    by decide +kernel,
    by decide +kernel,
    by decide +kernel,
    by decide +kernel⟩

theorem wit_swapEviction : ∃ (q : SeqIx) (s : State), (s.seqAt q).state = 1 ∧ (s.seqAt q).policy = 1 ∧ (∃ sl ∈ (s.seqAt
    q).spread.take (s.seqAt q).spreadN, (s.sliceAt sl).reclaim = true ∧ s.victim sl = some q.val) :=
  ⟨8191, kvUp { state := 1, policy := 1 } {} [] { reclaim := true },
    by decide +kernel,
    by decide +kernel,
    ⟨1151, by decide +kernel, by decide +kernel, by decide +kernel⟩⟩

theorem wit_swapPageDone : ∃ (q : SeqIx) (s : State) (e : Nat × Nat) (i : Nat) (fl : Nat) (k : Nat), s.swapDue q = true ∧
    s.swapNext q = some e ∧ fl = (s.seqAt q).flask ∧ s.freeSlot fl = some i ∧ k = (s.pteAt q e.1 e.2).key ∧ s.slotReached fl i =
    true ∧ (s.bsuBytes (addrOfKey k) 32768).2 = false :=
  ⟨8191, kvUp { state := 3, policy := 1, swapping := true, swapTodo := [(0, 0)] }, (0, 0), 0, _, _,
    by decide +kernel,
    by decide +kernel,
    rfl,
    by decide +kernel,
    rfl,
    by decide +kernel,
    reads_clean rfl rfl rfl (by decide) (by decide +kernel) (by decide +kernel)⟩

theorem wit_pageRestore : ∃ (q : SeqIx) (st : Fin 65536) (p : Fin 65536) (s : State) (sl : Nat) (b : Nat) (f : Nat) (tk : Nat),
    (s.seqAt q).state = 1 ∧ (s.pteAt q st p).kind = 2 ∧ (st.val, p.val) ∈ (s.seqAt q).want ∧ sl = (s.seqAt q).sliceOf p ∧
    s.cccLive (sl / 12) = true ∧ s.popChoice sl = some (b, f) ∧ s.slotReached (s.seqAt q).flask (s.pteAt q st p).slotIx = true ∧
    ((q.val, st.val, p.val), tk) ∈ (s.slotAt (s.seqAt q).flask (s.pteAt q st p).slotIx).holders.zip (s.slotAt (s.seqAt q).flask
    (s.pteAt q st p).slotIx).tokens :=
  ⟨8191, 0, 0, { kvUp { state := 1, want := [(0, 0)] } {} [] { freeMap := 2 ^ 32767 } with
    pte := [(8191 * 2 ^ 32, { kind := 2, loc := 0 })], slot := [(0, { holders := [(8191, 0, 0)], tokens := [1] })], regs := rg [(.KV_FL_STAT_next_bank, 1151, 127)] }, _, 127, 255, 1,
    by decide +kernel,
    by decide +kernel,
    by decide +kernel,
    rfl,
    by decide +kernel,
    by decide +kernel,
    by decide +kernel,
    by decide +kernel⟩

theorem wit_kvStarved : ∃ (q : SeqIx) (sl : SliceIx) (s : State) (fl : Nat), s.waitsIn q sl = true ∧ (s.seqAt q).policy = 1 ∧
    (s.seqAt q).starved = true ∧ fl = (s.seqAt q).flask ∧ fl < 16 ∧ s.flaskExists fl = true ∧ s.fnOn (fl + 1) = true :=
  ⟨8191, 1151, kvUp { state := 1, policy := 1, starved := true, waiting := some 1151 }, _,
    by decide +kernel,
    by decide +kernel,
    by decide +kernel,
    rfl,
    by decide +kernel,
    by decide +kernel,
    by decide +kernel⟩

/-- The module with its last stack and last cluster in states of their own and register fields at values. -/
def planes (st : StackSt) (cl : ClusterSt) (l : List (Fld × Nat × Nat)) : State := { up with stack := [(11, st)], cluster := [(95, cl)], regs := rg l }

/-! ## ResetClockAndNetworkEventsComplete -/

theorem wit_crsRstFp : ∃ (st : StackIx) (s : State), s.misc.phase ≠ 0 ∧ (s.stackAt st).out = false ∧ (s.stackAt st).causes = 0 :=
  ⟨11, planes {} { flask := some 0 } [(.CRS_CAUSE_count, 11, 2 ^ 16 - 1)],
    by decide +kernel,
    by decide +kernel,
    by decide +kernel⟩

theorem wit_crsRstCluster : ∃ (c : ClusterIx) (s : State), s.stackHeld (c / 8) = false ∧ (s.clusterAt c).causes = 0 :=
  ⟨95, planes {} { flask := some 0, zeroed := true } [],
    by decide +kernel,
    by decide +kernel⟩

theorem wit_crsRstClusterMore : ∃ (c : ClusterIx) (s : State), s.stackHeld (c / 8) = false ∧ (s.clusterAt c).causes ≠ 0 :=
  ⟨95, planes {} { causes := 2 } [],
    by decide +kernel,
    by decide +kernel⟩

theorem wit_crsCoreGo : ∃ (n : SiteIx) (s : State), s.coreOff n = false ∧ s.clusterHeld (n / 12) = false :=
  ⟨1151, { site [] { pours := [{}], passes := [{}] } with path := [(1151, { out := [{}] })] },
    by decide +kernel,
    by decide +kernel⟩

theorem wit_resetReleaseCluster : ∃ (c : ClusterIx) (s : State), (s.clusterAt c).causes = 1 :=
  ⟨95, planes {} { causes := 1 } [],
    by decide +kernel⟩

theorem wit_fabricPlaneReturn : ∃ (st : StackIx) (s : State), (s.stackAt st).down = true ∧ (s.stackAt st).causes = 0 ∧ 3 ≤
    s.misc.phase ∧ (¬(0x11 ≤ s.misc.phase ∧ s.misc.phase ≤ 0x16)) :=
  ⟨11, planes { down := true } { causes := 4 } [(.CRS_STAT_self_refresh, 11, 1)],
    by decide +kernel,
    by decide +kernel,
    by decide +kernel,
    by decide +kernel⟩

theorem wit_peerReset : ∃ (c : ClusterIx) (s : State), s.clusterHeld c = true :=
  ⟨95, { planes {} { causes := 1 } [] with path := [(1151, { out := [{}] }), (1247, { out := [{}] })] },
    by decide +kernel⟩

theorem wit_linkDown : ∃ (st : StackIx) (k : Fin 3) (peerLost : Bool) (s : State), s.stackHeld st = false :=
  ⟨11, 2, true, planes {} {} [(.NOC_LINK_up, 35, 1), (.NOC_LINK_up, 2, 1), (.NOC_CTL_auto_en, 11, 1)],
    by decide +kernel⟩

theorem wit_d2dTimeout : ∃ (st : StackIx) (dest : Fin 13) (s : State), s.stackHeld st = false :=
  ⟨11, 12, planes {} {} [(.NOC_STAT_timeouts, 11, 2 ^ 16 - 1)],
    by decide +kernel⟩

theorem wit_d2dLink : ∃ (st : StackIx) (k : Fin 3) (s : State), s.stackHeld st = false ∧ s.linkUp st k = true ∧ ({ cls := 5, id :=
    st.val * 3 + k.val } : UnitId) ∉ s.lasting :=
  ⟨11, 2, planes {} {} [(.NOC_LINK_up, 35, 1)],
    by decide +kernel,
    by decide +kernel,
    by decide +kernel⟩

theorem wit_nocCtlApply : ∃ (st : StackIx) (s : State) (ok : List Nat), s.stackHeld st = false ∧ ok = (List.range 13).filter (fun
    t => s.nextEntry st t != s.entry st t && t != st && (linkOfCode t (s.nextEntry st t)).all (fun k => s.linkUp st k)) :=
  ⟨11, planes {} {} [(.NOC_LINK_up, 35, 1), (.NOC_ROUTE_NEXT_stack, 11, 3)], _,
    by decide +kernel,
    rfl⟩

theorem wit_routeSwitch : ∃ (st : StackIx) (dest : Fin 13) (s : State) (code : Nat), s.stackHeld st = false ∧ code < 4 ∧
    (s.stackAt st).routes.find? (fun r => r.1 == dest.val) = some (dest.val, code) :=
  ⟨11, 12, planes { routes := [(12, 1)] } {} [], 1,
    by decide +kernel,
    by decide +kernel,
    by decide +kernel⟩

/-- The last of the clusters' engines with a channel running a descriptor of 64 bytes between its cluster's SRAM and slice 1151. -/
def engine (x : LadleSt) (l : List (Fld × Nat × Nat) := []) : State := { up with
  cluster := [(95, { flask := some 0 })], ladle := [(95, x)], regs := rg l, owner := [(18431, some 0)], slice := [(1151, { undef := 0 })] }
def copy : LadleRun := { ch := 15, addr := csramBase + 95 * 2 ^ 24, busy := true,
                         words := [csramBase + 96 * 2 ^ 24 - 64, 1152 * 2 ^ 30 - 64, 64, 0, 0, 0, 0, 0] }

/-! ## LadleAndRegulatorEventsComplete -/

theorem wit_ldlChHeadWrite : ∃ (e : EngIx) (ch : Fin 16) (head : BitVec 46) (s : State), s.ladleLive e = true ∧ s.flag
    .LDL_CTL_disable e = false ∧ s.reg .LDL_CH_state (e * 16 + ch) ≠ 1 ∧ s.reg .LDL_CH_state (e * 16 + ch) ≠ 2 :=
  ⟨95, 15, 2 ^ 46 - 64, engine {},
    by decide +kernel,
    by decide +kernel,
    by decide +kernel,
    by decide +kernel⟩

theorem wit_ldlChHeadWriteBusy : ∃ (e : EngIx) (ch : Fin 16) (head : BitVec 46) (s : State), s.ladleLive e = true ∧ s.flag
    .LDL_CTL_disable e = false ∧ ((s.reg .LDL_CH_state (e * 16 + ch) = 1 ∨ s.reg .LDL_CH_state (e * 16 + ch) = 2)) :=
  ⟨95, 15, 2 ^ 46 - 64, engine {} [(.LDL_CH_state, 95 * 16 + 15, 2)],
    by decide +kernel,
    by decide +kernel,
    by decide +kernel⟩

theorem wit_ladleDescriptorStart : ∃ (e : EngIx) (ups : List Upset) (s : State) (ch : Nat) (rest : List Nat), s.ladleLive e = true
    ∧ (s.ladleAt e).run = none ∧ (s.ladleAt e).queue = ch :: rest :=
  ⟨95, [], engine { queue := [15, 3] } [(.LDL_CH_head, 95 * 16 + 15, csramBase + 95 * 2 ^ 24), (.LDL_CH_descs, 95 * 16 + 15, 5)], 15, [3],
    by decide +kernel,
    by decide +kernel,
    by decide +kernel⟩

theorem wit_ladleDescriptorNext : ∃ (e : EngIx) (ups : List Upset) (s : State) (r : LadleRun), s.ladleLive e = true ∧ (s.ladleAt
    e).run = some r ∧ r.busy = false :=
  ⟨95, [], engine { run := some { copy with busy := false } }, { copy with busy := false },
    by decide +kernel,
    by decide +kernel,
    by decide +kernel⟩

theorem wit_ladleDescriptorDone : ∃ (e : EngIx) (s : State) (r : LadleRun) (d : Desc) (rd : Rd), s.ladleLive e = true ∧ (s.ladleAt
    e).run = some r ∧ r.busy = true ∧ d = parseDesc r.words ∧ s.descBad e r.flask d = false ∧ d.srcHost = false ∧ d.dstHost =
    false ∧ d.convert = false ∧ s.farHeld (srcOf (ladleIss e)) (some r.flask) d.src = false ∧ s.farHeld (srcOf (ladleIss e)) (some
    r.flask) d.dst = false ∧ s.goodRun (srcOf (ladleIss e)) r.flask d.src d.len = (d.len, 0) ∧ s.goodRun (srcOf (ladleIss e))
    r.flask d.dst d.len = (d.len, 0) ∧ rd = s.readResult (srcOf (ladleIss e)) true (some r.flask) d.src d.len ∧ rd.bad = false :=
  ⟨95, engine { run := some copy } [(.LDL_CH_descs, 95 * 16 + 15, 2 ^ 24 - 1)], copy, _, _,
    by decide +kernel,
    by decide +kernel,
    by decide +kernel,
    rfl,
    by decide +kernel,
    by decide +kernel,
    by decide +kernel,
    by decide +kernel,
    by decide +kernel,
    by decide +kernel,
    by decide +kernel,
    by decide +kernel,
    rfl,
    by decide +kernel⟩

theorem wit_ladleDescriptorCopies : ∃ (e : EngIx) (s : State) (r : LadleRun) (d : Desc) (rd : Rd), s.ladleLive e = true ∧
    (s.ladleAt e).run = some r ∧ r.busy = true ∧ d = parseDesc r.words ∧ s.descBad e r.flask d = false ∧ d.srcHost = false ∧
    d.dstHost = false ∧ d.convert = false ∧ d.addEn = false ∧ ((d.src + d.len ≤ d.dst ∨ d.dst + d.len ≤ d.src)) ∧ s.farHeld (srcOf
    (ladleIss e)) (some r.flask) d.src = false ∧ s.farHeld (srcOf (ladleIss e)) (some r.flask) d.dst = false ∧ s.goodRun (srcOf
    (ladleIss e)) r.flask d.src d.len = (d.len, 0) ∧ s.goodRun (srcOf (ladleIss e)) r.flask d.dst d.len = (d.len, 0) ∧ ((∀ a,
    d.dst ≤ a → a < d.dst + d.len → a < stackedEnd → bit (s.sliceAt (a / 2 ^ 30)).deadCh (chanOf (a % 2 ^ 30)) = false)) ∧ rd =
    s.readResult (srcOf (ladleIss e)) true (some r.flask) d.src d.len ∧ rd.bad = false :=
  ⟨95, { engine { run := some copy } with mem := cells (csramBase + 96 * 2 ^ 24 - 1) [7] }, copy, _, _,
    by decide +kernel,
    by decide +kernel,
    by decide +kernel,
    rfl,
    by decide +kernel,
    by decide +kernel,
    by decide +kernel,
    by decide +kernel,
    by decide +kernel,
    by decide +kernel,
    by decide +kernel,
    by decide +kernel,
    by decide +kernel,
    by decide +kernel,
    fun a h1 h2 _ => by
      have h1 : 1152 * 2 ^ 30 - 64 ≤ a := h1
      have h2 : a < 1152 * 2 ^ 30 - 64 + 64 := h2
      rw [show a / 2 ^ 30 = 1151 by omega, State.sliceAt]
      simp [engine, Store.get, bit],
    rfl,
    by decide +kernel⟩

theorem wit_ldlCtlDisable : ∃ (e : EngIx) (s : State), s.ladleLive e = true :=
  ⟨95, engine { run := some copy, queue := [3] },
    by decide +kernel⟩

theorem wit_ldlPerfClear : ∃ (e : EngIx) (s : State), s.ladleLive e = true :=
  ⟨95, engine {} [(.LDL_PERF_bytes, 95, 9)],
    by decide +kernel⟩

theorem wit_regulatorReleaseHost : ∃ (fl : FlaskIx) (s : State), s.flag .REG_HOST_en fl = true ∧ s.reg .REG_HOST_rate fl ≠ 0 :=
  ⟨15, { up with regs := rg [(.REG_HOST_en, 15, 1), (.REG_HOST_rate, 15, 1)] },
    by decide +kernel,
    by decide +kernel⟩

theorem wit_regulatorReleaseFar : ∃ (fl : FlaskIx) (s : State), s.flag .REG_FAR_en fl = true ∧ s.reg .REG_FAR_rate fl ≠ 0 :=
  ⟨15, { up with regs := rg [(.REG_FAR_en, 15, 1), (.REG_FAR_rate, 15, 1)] },
    by decide +kernel,
    by decide +kernel⟩

theorem wit_farLinkDown : ∃ (u : Fin 8) (s : State), 0 < s.misc.farCaps.getD u 0 ∧ bit s.misc.farDown u = false :=
  ⟨7, { up with misc := { up.misc with farCaps := List.replicate 8 (2 ^ 30) } },
    by decide +kernel,
    by decide +kernel⟩

/-- Port 59 with its fourth sub-port in a state, in the four-way mode. -/
def port (st : Nat) (l : List (Fld × Nat × Nat) := []) (x : SubSt := {}) : State := { up with
  regs := rg ([(.SP_STAT_state, 239, st), (.FP_CFG_mode, 59, 2)] ++ l), sub := [(239, x)] }

/-! ## PortEventsComplete -/

theorem wit_fpCfgEnWrite : ∃ (p : PortIx) (s : State), s.portLive p = true :=
  ⟨59, port 0,
    by decide +kernel⟩

theorem wit_fpCfgEnWriteOff : ∃ (p : PortIx) (s : State), s.portLive p = true :=
  ⟨59, port 3 [(.FP_CFG_en, 59, 1)],
    by decide +kernel⟩

theorem wit_fpCtlRequal : ∃ (p : PortIx) (s : State), s.portLive p = true :=
  ⟨59, port 3,
    by decide +kernel⟩

theorem wit_fpPerfClear : ∃ (p : PortIx) (s : State), s.portLive p = true :=
  ⟨59, port 3 [(.SP_TXFRM_count, 239, 5), (.FP_LANE_ERR_bits, 479, 3)],
    by decide +kernel⟩

theorem wit_trainingAttemptEnd : ∃ (p : PortIx) (k : SubIx) (s : State), s.portLive p = true ∧ s.subState p k = 1 :=
  ⟨59, 3, port 1,
    by decide +kernel,
    by decide +kernel⟩

theorem wit_trainingAttemptFails : ∃ (p : PortIx) (k : SubIx) (cause : Fin 5) (s : State) (a : Nat), s.portLive p = true ∧
    s.subState p k = 1 ∧ cause.val ≠ 0 ∧ a = min (s.reg .SP_STAT_attempts (p * 4 + k) + 1) 15 :=
  ⟨59, 3, 4, port 1 [(.SP_STAT_attempts, 239, 2)], _,
    by decide +kernel,
    by decide +kernel,
    by decide +kernel,
    rfl⟩

theorem wit_qualificationWindowEnd : ∃ (p : PortIx) (k : SubIx) (corrected : List Nat) (s : State) (x : SubSt), s.managed p = true
    ∧ s.subState p k = 2 ∧ x = s.subAt (p * 4 + k) ∧ ((∀ l ∈ (subLanes (s.ways p) k).zipIdx, rateAbove (corrected.getD l.2 0) (2 ^
    (if x.full then x.qual.getD 1 0 else x.qual.getD 2 0)) (x.qual.getD 5 0) (x.qual.getD 6 0) = false ∧ (x.post = true →
    rateAbove (corrected.getD l.2 0) (2 ^ (if x.full then x.qual.getD 1 0 else x.qual.getD 2 0)) (x.qual.getD 3 0) (x.qual.getD 4
    0) = false))) :=
  ⟨59, 3, [85899, 85899], port 2 [] { qual := [16, 37, 33, 1, 4, 1, 5] }, _,
    by decide +kernel,
    by decide +kernel,
    rfl,
    by decide +kernel⟩

theorem wit_qualificationWindowFails : ∃ (p : PortIx) (k : SubIx) (corrected : List Nat) (uncorr : Nat) (s : State) (x : SubSt),
    s.managed p = true ∧ s.subState p k = 2 ∧ x = s.subAt (p * 4 + k) ∧ x.post = false ∧ (∃ l ∈ (subLanes (s.ways p) k).zipIdx,
    rateAbove (corrected.getD l.2 0) (2 ^ (if x.full then x.qual.getD 1 0 else x.qual.getD 2 0)) (x.qual.getD 5 0) (x.qual.getD 6
    0) = true) :=
  ⟨59, 3, [0, 85900], 0, port 2 [] { full := false, qual := [16, 37, 33, 1, 4, 1, 5] }, _,
    by decide +kernel,
    by decide +kernel,
    rfl,
    by decide +kernel,
    ⟨(7, 1), by decide +kernel, by decide +kernel⟩⟩

theorem wit_portDegrade : ∃ (p : PortIx) (k : SubIx) (lanes : List (Nat × Nat)) (uncorr : Nat) (s : State) (x : SubSt), s.managed
    p = true ∧ x = s.subAt (p * 4 + k) ∧ s.subState p k = 3 ∧ (((∃ l ∈ lanes, rateAbove l.1 l.2 (x.qual.getD 3 1) (x.qual.getD 4
    4) = true) ∨ x.qual.getD 0 16 < uncorr)) :=
  ⟨59, 3, [(1, 10000)], 17, port 3, _,
    by decide +kernel,
    rfl,
    by decide +kernel,
    Or.inr (by decide +kernel)⟩

theorem wit_subportAssayStart : ∃ (p : PortIx) (k : SubIx) (s : State) (r : Report), s.managed p = true ∧ s.subState p k = 4 ∧
    (s.assayerAt (96 + portStack p)).run = some r ∧ r.cls = 6 ∧ r.id = p * 4 + k :=
  ⟨59, 3, { port 4 with assayer := [(107, { run := some { cls := 6, id := 239 } })] }, { cls := 6, id := 239 },
    by decide +kernel,
    by decide +kernel,
    by decide +kernel,
    by decide +kernel,
    by decide +kernel⟩

theorem wit_linkAssayEnd : ∃ (p : PortIx) (k : SubIx) (lasting : Bool) (s : State) (r : Report), s.managed p = true ∧ s.subState p
    k = 5 ∧ (s.assayerAt (96 + portStack p)).run = some r ∧ r.cls = 6 ∧ r.id = p * 4 + k ∧ (s.portAt p).next = none :=
  ⟨59, 3, false, { port 5 with assayer := [(107, { run := some { cls := 6, id := 239 }, second := true })] }, { cls := 6, id := 239 },
    by decide +kernel,
    by decide +kernel,
    by decide +kernel,
    by decide +kernel,
    by decide +kernel,
    by decide +kernel⟩

theorem wit_portDown : ∃ (p : PortIx) (k : SubIx) (fourth : Bool) (s : State), s.managed p = true ∧ ((s.subState p k = 3 ∨
    s.subState p k = 4)) :=
  ⟨59, 3, true, port 4 [(.FP_STAT_link_downs, 59, 2 ^ 16 - 1)],
    by decide +kernel,
    by decide +kernel⟩

theorem wit_failedRetry : ∃ (p : PortIx) (k : SubIx) (s : State), s.managed p = true ∧ s.subState p k = 6 :=
  ⟨59, 3, port 6,
    by decide +kernel,
    by decide +kernel⟩

theorem wit_recalibrationStep : ∃ (p : PortIx) (lane : Fin 8) (up : Bool) (s : State) (e : List Int), s.managed p = true ∧ s.flag
    .FP_CTL_recal_en p = true ∧ s.subCarries p (lane.val * s.ways p / 8) = true ∧ e = ((s.portAt p).eq ++ List.replicate 8 0).take
    8 :=
  ⟨59, 7, false, port 3 [(.FP_CTL_recal_en, 59, 1)], _,
    by decide +kernel,
    by decide +kernel,
    by decide +kernel,
    rfl⟩

theorem wit_lldpSend : ∃ (p : PortIx) (k : SubIx) (s : State), s.managed p = true ∧ s.subState p k = 3 :=
  ⟨59, 3, port 3,
    by decide +kernel,
    by decide +kernel⟩

theorem wit_gratuitousArp : ∃ (p : PortIx) (k : SubIx) (s : State) (a : Nat), s.managed p = true ∧ s.subState p k = 3 ∧ s.v4Of p k
    = some a :=
  ⟨59, 3, { port 3 with cfg := List.replicate 48 0 ++ [1] }, 240,
    by decide +kernel,
    by decide +kernel,
    by decide +kernel⟩

theorem wit_neighborSolicitation : ∃ (p : PortIx) (k : SubIx) (s : State), s.portLive p = true ∧ s.subCarries p k = true :=
  ⟨59, 3, port 4,
    by decide +kernel,
    by decide +kernel⟩

/-- Stack 11 on the fabric: its engine on, sub-port 3 of port 59 ready, a job of flask 0 with peer 5, and connection 65534 to it. -/
def wire (c : Conn) (rx : List RxItem := []) (l : List (Fld × Nat × Nat) := []) : State := { up with
  regs := rg ([(.FAB_CFG_en, 11, 1), (.SP_STAT_state, 239, 3), (.FP_CFG_mode, 59, 2), (.FAB_CFG_retry_max, 11, 8), (.FAB_CFG_mtu, 11, 2)] ++ l)
  cluster := [(95, { flask := some 0 })]
  members := [(0, 5)]
  conn := [(65534, { c with stack := 11, ep := 5 })]
  job := [(0, { on := true, jobMode := true, keys := [(0, [])], ringOff := 128, ringEntries := 2, table := [{ ep := 5 }] })]
  fab := [(11, { rx := rx })]
  fabOp := [(3, { kind := 1, left := 5 })]
  misc := { up.misc with endpoint := some 9, opNext := 4 } }

/-- A frame that the engine holds for the connection. -/
def held (fr : Frame) : RxItem := { conn := some 65534, ep := 5, path := 239, fr := fr }

/-- An open connection. -/
def opened : Conn := { phase := 3, paths := [239] }

/-- An entry of the first command ring. -/
def ringed1 (s : State) (ws : List Nat) : State := { s with mem := cells (csramBase + 95 * 2 ^ 24 + 128) (wordsBytes ws) }

/-! ## FabricEventsComplete -/

theorem wit_frameReceive : ∃ (p : PortIx) (k : SubIx) (fr : Frame) (s : State), s.portLive p = true ∧ s.subCarries p k = true ∧
    fr.fcsOk = true ∧ 64 ≤ fr.len ∧ fr.len ≤ 9216 ∧ fr.dst ≤ 2 ∧ fr.ether ≤ 1 ∧ s.fabLive (portStack p) = true ∧ fr.frag = false ∧
    fr.ptype ≠ 2 ∧ (s.connAt fr.dstConn).phase ≠ 0 ∧ (s.connAt fr.dstConn).stack = portStack p ∧ s.peerKnown (s.connAt fr.dstConn)
    fr = true ∧ drainOk (s.connAt fr.dstConn) fr = true ∧ fr.tagOk = true ∧ s.keyHeld (s.connAt fr.dstConn) fr.phase = true :=
  ⟨59, 3, { dstConn := 65534, psn := 1 }, wire opened,
    by decide +kernel,
    by decide +kernel,
    by decide +kernel,
    by decide +kernel,
    by decide +kernel,
    by decide +kernel,
    by decide +kernel,
    by decide +kernel,
    by decide +kernel,
    by decide +kernel,
    by decide +kernel,
    by decide +kernel,
    by decide +kernel,
    by decide +kernel,
    by decide +kernel,
    by decide +kernel⟩

theorem wit_frameReceiveBad : ∃ (p : PortIx) (k : SubIx) (fr : Frame) (s : State), s.portLive p = true ∧ s.subCarries p k = true ∧
    ((fr.fcsOk = false ∨ fr.len < 64 ∨ 9216 < fr.len)) :=
  ⟨59, 3, { len := 63 }, wire opened,
    by decide +kernel,
    by decide +kernel,
    by decide +kernel⟩

theorem wit_rxPut : ∃ (st : StackIx) (s : State) (n : Nat) (i : Nat) (x : RxItem), RxReady s st 1 n i x :=
  ⟨11, wire { opened with ack := 2 ^ 24 - 1 } [held { op := 1, psn := 0, data := [1] }], 0, 65534, held { op := 1, psn := 0, data := [1] },
    by constructor <;> decide +kernel⟩

theorem wit_rxGet : ∃ (st : StackIx) (s : State) (n : Nat) (i : Nat) (x : RxItem), RxReady s st 2 n i x :=
  ⟨11, wire { opened with ack := 2 ^ 24 - 1 } [held { op := 2, psn := 0, glen := 64, aux := 7 }], 0, 65534, held { op := 2, psn := 0, glen := 64, aux := 7 },
    by constructor <;> decide +kernel⟩

theorem wit_rxAdd : ∃ (st : StackIx) (s : State) (n : Nat) (i : Nat) (x : RxItem), RxReady s st 3 n i x :=
  ⟨11, wire { opened with ack := 2 ^ 24 - 1 } [held { op := 3, psn := 0, value := 7 }], 0, 65534, held { op := 3, psn := 0, value := 7 },
    by constructor <;> decide +kernel⟩

theorem wit_rxSend : ∃ (st : StackIx) (s : State) (n : Nat) (i : Nat) (x : RxItem), RxReady s st 4 n i x :=
  ⟨11, wire { opened with ack := 2 ^ 24 - 1 } [held { op := 4, psn := 0, data := [1] }], 0, 65534, held { op := 4, psn := 0, data := [1] },
    by constructor <;> decide +kernel⟩

theorem wit_rxGetr : ∃ (st : StackIx) (s : State) (n : Nat) (i : Nat) (x : RxItem), RxReady s st 5 n i x :=
  ⟨11, wire { opened with ack := 2 ^ 24 - 1, gets := [(csramBase + 95 * 2 ^ 24, 8, 3)] } [held { op := 5, psn := 0, addr := csramBase + 95 * 2 ^ 24, data := List.replicate 8 7 }], 0, 65534, held { op := 5, psn := 0, addr := csramBase + 95 * 2 ^ 24, data := List.replicate 8 7 },
    by constructor <;> decide +kernel⟩

theorem wit_ackPkt : ∃ (st : StackIx) (s : State) (n : Nat) (i : Nat) (x : RxItem), RxNext s st 1 n x ∧ x.conn = some i :=
  ⟨11, wire { opened with out := [{ psn := 3, op := some 3, code := 1 }, { psn := 5, op := some 3, code := 1 }], psn := 6 } [held { ptype := 1, ack := 3, sack := [] }], 0, 65534, held { ptype := 1, ack := 3, sack := [] },
    by constructor <;> decide +kernel,
    by decide +kernel⟩

theorem wit_ackSend : ∃ (cn : ConnIx) (s : State) (p : Nat), (s.connAt cn).phase = 3 ∧ s.fabLive (s.connAt cn).stack = true ∧ 0 <
    (s.connAt cn).since ∧ s.anyPath (s.connAt cn).stack = some p :=
  ⟨65534, wire { opened with since := 1, stats := [(1, 5)] }, 239,
    by decide +kernel,
    by decide +kernel,
    by decide +kernel,
    by decide +kernel⟩

theorem wit_packetLoss : ∃ (cn : ConnIx) (psn : BitVec 24) (s : State) (p : Pkt), (s.connAt cn).phase = 3 ∧ s.fabLive (s.connAt
    cn).stack = true ∧ (s.connAt cn).out.find? (fun p => p.psn == psn.toNat) = some p ∧ p.resends < s.reg .FAB_CFG_retry_max
    (s.connAt cn).stack ∧ s.connPaths (s.connAt cn) ≠ [] :=
  ⟨65534, 2 ^ 24 - 1, wire { opened with out := [{ psn := 2 ^ 24 - 1, op := some 3, code := 1 }], r := 40, psn := 0 } [] [(.FAB_CC_r_min, 11, 30)], { psn := 2 ^ 24 - 1, op := some 3, code := 1 },
    by decide +kernel,
    by decide +kernel,
    by decide +kernel,
    by decide +kernel,
    by decide +kernel⟩

theorem wit_initPkt : ∃ (st : StackIx) (s : State) (n : Nat) (i : Nat) (ver : Nat) (x : RxItem), RxNext s st 2 n x ∧ s.keyOk
    x.flask x.ep x.fr = true ∧ x.fr.encrypt = (s.jobAt x.flask).encrypt ∧ x.fr.keyMode = b2n (s.jobAt x.flask).jobMode ∧ s.version
    x.fr = some ver ∧ s.connOf st x.flask x.ep = none ∧ s.freeConn = some i :=
  ⟨11, wire { phase := 0 } [{ conn := none, ep := 5, path := 239, fr := { ptype := 2, srcConn := 7, ipsn := 0, paths := [3], keyMode := 1 } }], 0, 0, 3, { conn := none, ep := 5, path := 239, fr := { ptype := 2, srcConn := 7, ipsn := 0, paths := [3], keyMode := 1 } },
    by constructor <;> decide +kernel,
    by decide +kernel,
    by decide +kernel,
    by decide +kernel,
    by decide +kernel,
    by decide +kernel,
    by decide +kernel⟩

theorem wit_initAckPkt : ∃ (st : StackIx) (s : State) (n : Nat) (i : Nat) (x : RxItem), RxNext s st 3 n x ∧ x.conn = some i ∧
    (s.connAt i).phase = 1 ∧ s.keyOk x.flask x.ep x.fr = true ∧ (((s.jobAt x.flask).jobMode = true ∨ x.fr.reportOk = true)) :=
  ⟨11, wire { phase := 1, paths := [239] } [held { ptype := 3, srcConn := 7, verHi := 2, paths := [3] }], 0, 65534, held { ptype := 3, srcConn := 7, verHi := 2, paths := [3] },
    by constructor <;> decide +kernel,
    by decide +kernel,
    by decide +kernel,
    by decide +kernel,
    by decide +kernel⟩

theorem wit_confirmPkt : ∃ (st : StackIx) (s : State) (n : Nat) (i : Nat) (x : RxItem), RxNext s st 4 n x ∧ x.conn = some i ∧
    (s.connAt i).phase = 2 ∧ (((s.jobAt x.flask).jobMode = true ∨ x.fr.reportOk = true)) :=
  ⟨11, wire { phase := 2, paths := [239] } [held { ptype := 4 }], 0, 65534, held { ptype := 4 },
    by constructor <;> decide +kernel,
    by decide +kernel,
    by decide +kernel,
    by decide +kernel⟩

theorem wit_refusePkt : ∃ (st : StackIx) (s : State) (n : Nat) (i : Nat) (x : RxItem), RxNext s st 5 n x ∧ x.conn = some i ∧
    (s.connAt i).phase = 1 :=
  ⟨11, wire { phase := 1, paths := [239] } [held { ptype := 5 }], 0, 65534, held { ptype := 5 },
    by constructor <;> decide +kernel,
    by decide +kernel,
    by decide +kernel⟩

theorem wit_closePkt : ∃ (st : StackIx) (s : State) (n : Nat) (i : Nat) (x : RxItem), RxNext s st 6 n x ∧ x.conn = some i :=
  ⟨11, wire opened [held { ptype := 6 }], 0, 65534, held { ptype := 6 },
    by constructor <;> decide +kernel,
    by decide +kernel⟩

theorem wit_rekeyPkt : ∃ (st : StackIx) (s : State) (n : Nat) (i : Nat) (x : RxItem), RxNext s st 7 n x ∧ x.conn = some i :=
  ⟨11, wire { opened with rxPhase := 1 } [held { ptype := 7, phase := 1 }], 0, 65534, held { ptype := 7, phase := 1 },
    by constructor <;> decide +kernel,
    by decide +kernel⟩

theorem wit_oldPhaseKeyExpiry : ∃ (cn : ConnIx) (s : State), (s.connAt cn).phase ≠ 0 :=
  ⟨65534, wire { opened with rxOld := true },
    by decide +kernel⟩

theorem wit_initResend : ∃ (cn : ConnIx) (s : State), (s.connAt cn).phase = 1 ∧ s.fabLive (s.connAt cn).stack = true :=
  ⟨65534, wire { phase := 1, paths := [239], inits := 1 },
    by decide +kernel,
    by decide +kernel⟩

theorem wit_setupTimeout : ∃ (cn : ConnIx) (s : State), (((s.connAt cn).phase = 1 ∨ (s.connAt cn).phase = 2)) ∧ s.fabLive
    (s.connAt cn).stack = true :=
  ⟨65534, wire { phase := 2 },
    by decide +kernel,
    by decide +kernel⟩

theorem wit_fabConnLost : ∃ (cn : ConnIx) (s : State), (s.connAt cn).phase ≠ 0 ∧ (s.connAt cn).out ≠ [] ∧ s.fabLive (s.connAt
    cn).stack = true :=
  ⟨65534, wire { opened with out := [{ op := some 3 }] } [] [(.FAB_STAT_conn_lost, 11, 2 ^ 16 - 1)],
    by decide +kernel,
    by decide +kernel,
    by decide +kernel⟩

theorem wit_idleClose : ∃ (cn : ConnIx) (s : State), (s.connAt cn).idle = true ∧ s.fabLive (s.connAt cn).stack = true :=
  ⟨65534, wire opened,
    by decide +kernel,
    by decide +kernel⟩

theorem wit_drainWindowEnd : ∃ (fl : FlaskIx) (ep : Fin 262144) (s : State), ep.val ∈ (s.jobAt fl).gone :=
  ⟨0, 5, { wire { opened with drain := true } with job := [(0, { on := true, gone := [5] })] },
    by decide +kernel⟩

theorem wit_congestionTick : ∃ (cn : ConnIx) (s : State) (c : Conn) (g : Rat), (s.connAt cn).phase = 3 ∧ s.fabLive (s.connAt
    cn).stack = true ∧ c = s.connAt cn ∧ g = 1 / (2 ^ s.reg .FAB_CC_g_shift c.stack : Nat) :=
  ⟨65534, wire { opened with r := 10, t := 20, n := 5 } [] [(.FAB_CC_r_ai, 11, 4), (.FAB_CC_g_shift, 11, 4)], _, _,
    by decide +kernel,
    by decide +kernel,
    rfl,
    rfl⟩

theorem wit_putOp : ∃ (c : ClusterIx) (ring : Fin 13) (s : State) (i : Nat) (x : Cmd) (rd : Rd), CommandReady s c ring 1 i x ∧ rd
    = s.readResult (srcOf (ringIss s c ring)) true (some ((s.flaskOf c).getD 16)) x.loc x.len ∧ rd.status = 0 :=
  ⟨95, 0, ringed1 (wire opened) [2 ^ 63 + 2 ^ 59 + 100, csramBase + 95 * 2 ^ 24 + 4096, 5 * 2 ^ 46], 65534, { valid := true, op := 1, len := 100, loc := csramBase + 95 * 2 ^ 24 + 4096, remote := 5 * 2 ^ 46 }, _,
    by constructor <;> decide +kernel,
    rfl,
    by decide +kernel⟩

theorem wit_getOp : ∃ (c : ClusterIx) (ring : Fin 13) (s : State) (i : Nat) (x : Cmd), CommandReady s c ring 2 i x ∧ s.writeStatus
    (srcOf (ringIss s c ring)) true (some ((s.flaskOf c).getD 16)) x.loc x.len = 0 :=
  ⟨95, 0, ringed1 (wire opened) [2 ^ 63 + 2 ^ 60 + 100, csramBase + 95 * 2 ^ 24 + 4096, 5 * 2 ^ 46], 65534, { valid := true, op := 2, len := 100, loc := csramBase + 95 * 2 ^ 24 + 4096, remote := 5 * 2 ^ 46 },
    by constructor <;> decide +kernel,
    by decide +kernel⟩

theorem wit_addOp : ∃ (c : ClusterIx) (ring : Fin 13) (s : State) (i : Nat) (x : Cmd), CommandReady s c ring 3 i x :=
  ⟨95, 0, ringed1 (wire opened) [2 ^ 63 + 2 ^ 60 + 2 ^ 59, 0, 5 * 2 ^ 46], 65534, { valid := true, op := 3, remote := 5 * 2 ^ 46 },
    by constructor <;> decide +kernel⟩

theorem wit_sendOp : ∃ (c : ClusterIx) (ring : Fin 13) (s : State) (i : Nat) (x : Cmd) (rd : Rd), CommandReady s c ring 4 i x ∧
    (¬((s.connAt i).phase = 3 ∧ (s.connAt i).ver = 1)) ∧ rd = s.readResult (srcOf (ringIss s c ring)) true (some ((s.flaskOf
    c).getD 16)) x.loc x.len ∧ rd.status = 0 :=
  ⟨95, 0, ringed1 (wire opened) [2 ^ 63 + 2 ^ 61 + 100, csramBase + 95 * 2 ^ 24 + 4096, 5 * 2 ^ 46 + 15], 65534, { valid := true, op := 4, len := 100, loc := csramBase + 95 * 2 ^ 24 + 4096, remote := 5 * 2 ^ 46 + 15 }, _,
    by constructor <;> decide +kernel,
    by decide +kernel,
    rfl,
    by decide +kernel⟩

theorem wit_operationComplete : ∃ (c : ClusterIx) (ring : Fin 13) (s : State) (id : Nat) (a : Nat) (o : FabOp), s.fabOp.find? (fun
    p => p.2.left == 0 && p.2.ring.any (fun r => r.1 == c.val && r.2.1 == ring.val)) = some (id, o) ∧ a = s.cmdAddr c ring
    (o.ring.elim 0 (·.2.2)) ∧ s.clusterHeld c = false :=
  ⟨95, 12, { wire opened with fabOp := [(3, { kind := 1, ring := some (95, 12, 1), status := 5 })] }, 3, _, { kind := 1, ring := some (95, 12, 1), status := 5 },
    by decide +kernel,
    rfl,
    by decide +kernel⟩

theorem wit_fabCfgEnWrite : ∃ (st : StackIx) (en : Bool) (s : State), s.stackHeld st = false :=
  ⟨11, false, wire opened,
    by decide +kernel⟩

theorem wit_fabPerfClear : ∃ (st : StackIx) (s : State), s.stackHeld st = false :=
  ⟨11, wire opened [] [(.FAB_CE_count, 11, 3)],
    by decide +kernel⟩

theorem wit_pacedTransmission : ∃ (st : StackIx) (s : State) (u : State) (i : Nat) (p : Pkt) (rest : List Pkt), s.fabLive st =
    true ∧ u = run (takeHwAdds st) s ∧ (((u.conn.filter (fun p => p.2.stack == st.val && u.canSend p.2)).map (·.1)).find? (fun i
    => decide ((u.fabAt st).turn ≤ i))).orElse (fun _ => ((u.conn.filter (fun p => p.2.stack == st.val && u.canSend p.2)).map
    (·.1)).head?) = some i ∧ ((u.flag .REG_FAB_en (st * 16 + (u.connAt i).flask) = false ∨ 1 ≤ Store.get 0 u.bucket (32 + 2 * (st
    * 16 + (u.connAt i).flask) + 1))) ∧ (u.connAt i).queue = p :: rest :=
  ⟨11, wire { opened with queue := [{ op := some 3, code := 1 }], psn := 2 ^ 24 - 1 }, _, 65534, { op := some 3, code := 1 }, [],
    by decide +kernel,
    rfl,
    by decide +kernel,
    by decide +kernel,
    by decide +kernel⟩

/-- The module in service with the log ring at the start of slice 1151, a queue of records, and gatherer state. -/
def noted (fifo : List LogItem) (l : List (Fld × Nat × Nat) := []) (g : Store Gath := []) : State := { up with
  fifo := fifo, regs := rg l, gath := g, cluster := [(95, { flask := some 0 })], misc := { up.misc with logBase := 1151 * 2 ^ 30 } }

/-! ## FirmwareLogAndErrorEventsComplete -/

theorem wit_fwHangBoard : ∃ (u : Fin 99) (s : State), s.coreUp u = true ∧ 1 ≤ u.val ∧ u.val < 3 ∧ u.val ∉ s.fw.restarted :=
  ⟨2, up,
    by decide +kernel,
    by decide +kernel,
    by decide +kernel,
    by decide +kernel⟩

theorem wit_fwHangCluster : ∃ (u : Fin 99) (s : State), s.coreUp u = true ∧ 3 ≤ u.val ∧ u.val ∉ s.fw.restarted :=
  ⟨98, up,
    by decide +kernel,
    by decide +kernel,
    by decide +kernel⟩

theorem wit_fwHangSec : ∃ (s : State), s.coreUp 0 = true ∧ s.misc.phase = 0x20 :=
  ⟨up,
    by decide +kernel,
    by decide +kernel⟩

theorem wit_firmwareRestartDone : ∃ (u : Fin 99) (s : State), u.val ∈ s.fw.restarting :=
  ⟨98, { up with cluster := [(95, { causes := 1 })], fw := { up.fw with restarting := [98], restarted := [98] } },
    by decide +kernel⟩

theorem wit_logAppend : ∃ (s : State) (w : List Nat) (rest : List LogItem) (base : Nat) (n : Nat), s.fifo = { err := false, words
    := [w] } :: rest ∧ w.length = 8 ∧ base = s.misc.logBase ∧ n = s.rawWord (base + 8) ∧ s.ringUp base = true :=
  ⟨noted [{ words := [[0, 1, 2, 3, 4, 5, 6, 7]] }, { err := true }], [0, 1, 2, 3, 4, 5, 6, 7], [{ err := true }], _, _,
    by decide +kernel,
    by decide +kernel,
    rfl,
    rfl,
    by decide +kernel⟩

theorem wit_logAppendError : ∃ (s : State) (ws : List (List Nat)) (rest : List LogItem), s.fifo = { err := true, words := ws } ::
    rest ∧ s.ringUp s.misc.logBase = true :=
  ⟨noted [{ err := true, words := [[0, 1, 2, 3, 4, 5, 6, 7], [8]] }, {}], [[0, 1, 2, 3, 4, 5, 6, 7], [8]], [{}],
    by decide +kernel,
    by decide +kernel⟩

theorem wit_tracePoint : ∃ (u : Fin 99) (point : Fin 4096) (payload : List Word) (s : State), s.coreUp u = true ∧ (tracer u
    point).isSome = true ∧ bit s.fw.trace point = true ∧ ((∀ x ∈ s.fw.traced, x.1 = u.val → x.2 < 64)) ∧ s.fifo.length < 1024 :=
  ⟨98, 1280, [5], { noted [] with fw := { up.fw with trace := 2 ^ 1280, traced := [(98, 63)] } },
    by decide +kernel,
    by decide +kernel,
    by decide +kernel,
    by decide +kernel,
    by decide +kernel⟩

theorem wit_bgLate : ∃ (u : Fin 99) (act : Fin 5) (s : State), s.coreUp u = true ∧ runsActivity u act = true ∧ s.fifo.length <
    1024 :=
  ⟨98, 3, noted (List.replicate 1023 {}),
    by decide +kernel,
    by decide +kernel,
    by decide +kernel⟩

theorem wit_telemetry : ∃ (st : StackIx) (s : State), s.pmcLive = true ∧ s.stackHeld st = false ∧ s.fifo.length < 1024 :=
  ⟨11, noted [{ err := true }],
    by decide +kernel,
    by decide +kernel,
    by decide +kernel⟩

theorem wit_tsPair : ∃ (st : StackIx) (s : State), s.pmcLive = true ∧ s.stackHeld st = false ∧ s.fifo.length < 1024 :=
  ⟨11, noted [],
    by decide +kernel,
    by decide +kernel,
    by decide +kernel⟩

theorem wit_dramRecalibrationStep : ∃ (sl : SliceIx) (ch : Fin 8) (s : State), s.cccLive (sl / 12) = true :=
  ⟨1151, 7, { noted [] with slice := [(1151, { recal := 127 })] },
    by decide +kernel⟩

theorem wit_storedSettingsWrite : ∃ (s : State), s.misc.phase = 0x20 :=
  ⟨noted [] [(.TH_RES_temp, 11, 65535)],
    by decide +kernel⟩

theorem wit_flashWearLevelling : ∃ (block : Nat) (fails : Bool) (s : State), s.coreUp 0 = true ∧ block ∉ s.fw.badBlocks :=
  ⟨3, true, { noted [] with fw := { up.fw with erases := [(3, 9)] } },
    by decide +kernel,
    by decide +kernel⟩

theorem wit_egDoorbell : ∃ (g : GathIx) (src : BitVec 10) (s : State), s.gathUp g = true ∧ hostOfSource g src.toNat = none ∧ (if
    g.val = 96 then moduleSource src.toNat else localSource src.toNat) = true :=
  ⟨96, 0x45, noted [],
    by decide +kernel,
    by decide +kernel,
    by decide +kernel⟩

theorem wit_egDoorbellBad : ∃ (g : GathIx) (src : BitVec 10) (s : State), s.gathUp g = true ∧ hostOfSource g src.toNat = none ∧
    (if g.val = 96 then moduleSource src.toNat else localSource src.toNat) = false :=
  ⟨95, 0x3FF, noted [],
    by decide +kernel,
    by decide +kernel,
    by decide +kernel⟩

theorem wit_egClaim : ∃ (g : GathIx) (tg : Fin 3) (s : State) (n : Nat), s.gathUp g = true ∧ targetExists g tg = true ∧
    s.topSource g (s.eligible g tg) = some n :=
  ⟨96, 2, noted [] [(.EG_TGT_mode, 386, 0), (.EG_SRC_target, 96 * 1024 + 0x45, 2), (.EG_SRC_prio, 96 * 1024 + 0x45, 3)] [(96, { pend := [0x45] })], 0x45,
    by decide +kernel,
    by decide +kernel,
    by decide +kernel⟩

theorem wit_egClaimNone : ∃ (g : GathIx) (tg : Fin 3) (s : State), s.gathUp g = true ∧ targetExists g tg = true ∧ s.topSource g
    (s.eligible g tg) = none :=
  ⟨96, 2, noted [] [] [(96, { pend := [0x46] })],
    by decide +kernel,
    by decide +kernel,
    by decide +kernel⟩

theorem wit_egComplete : ∃ (g : GathIx) (tg : Fin 3) (src : BitVec 10) (s : State), s.gathUp g = true ∧ targetExists g tg = true ∧
    s.flag .EG_TGT_mode (g * 4 + tg) = false ∧ src.toNat ∈ (s.gathAt g).act ∧ src.toNat ∉ (s.gathAt g).pend :=
  ⟨96, 2, 0x45, noted [] [(.EG_TGT_mode, 386, 0), (.EG_SRC_target, 96 * 1024 + 0x45, 2)] [(96, { act := [0x45, 0x46] })],
    by decide +kernel,
    by decide +kernel,
    by decide +kernel,
    by decide +kernel,
    by decide +kernel⟩

theorem wit_egCompleteBad : ∃ (g : GathIx) (tg : Fin 3) (src : BitVec 10) (s : State), s.gathUp g = true ∧ targetExists g tg =
    true ∧ s.flag .EG_TGT_mode (g * 4 + tg) = false ∧ src.toNat ∉ (s.gathAt g).act :=
  ⟨96, 2, 0x45, noted [] [(.EG_TGT_mode, 386, 0)] [(96, { act := [0x46] })],
    by decide +kernel,
    by decide +kernel,
    by decide +kernel,
    by decide +kernel⟩

theorem wit_egCompletePoll : ∃ (g : GathIx) (tg : Fin 3) (src : BitVec 10) (s : State), s.gathUp g = true ∧ targetExists g tg =
    true ∧ s.flag .EG_TGT_mode (g * 4 + tg) = true :=
  ⟨95, 0, 0x45, noted [] [(.EG_TGT_mode, 380, 1)] [(95, { pend := [0x45] })],
    by decide +kernel,
    by decide +kernel,
    by decide +kernel⟩

theorem wit_egHcomplete : ∃ (f : FnIx) (kind : Fin 32) (s : State), s.misc.linkUp = true ∧ s.fnOn f = true ∧ hostKind f kind =
    true ∧ hostSource f kind ∉ (s.gathAt 96).pend :=
  ⟨16, 10, noted [] [] [(96, { act := [0x220 + 240 + 10] })],
    by decide +kernel,
    by decide +kernel,
    by decide +kernel,
    by decide +kernel⟩

theorem wit_assayVerdictTransient : ∃ (a : Fin 96) (lanes : Nat) (s : State) (r : Report), s.cccLive a = true ∧ (s.assayerAt
    a).run = some r ∧ (s.assayerAt a).second = false ∧ (∀ q ∈ (s.assayerAt a).queue, ({ cls := q.cls, id := q.id } : UnitId) ∉
    s.lasting) :=
  ⟨95, 0, { noted [] with assayer := [(95, { run := some { kind := 0x10, cls := 0, id := 1151 }, queue := [{ kind := 0x11, cls := 0, id := 1150 }] })] }, { kind := 0x10, cls := 0, id := 1151 },
    by decide +kernel,
    by decide +kernel,
    by decide +kernel,
    by decide +kernel⟩

theorem wit_assayVerdictLasting : ∃ (a : Fin 96) (rows : List Nat) (lanes : Nat) (s : State) (r : Report), s.cccLive a = true ∧
    (s.assayerAt a).run = some r ∧ assayOf r.kind r.cls = 1 :=
  ⟨95, [], 0, { noted [] with assayer := [(95, { run := some { kind := 0x10, cls := 0, id := 1151 } })] }, { kind := 0x10, cls := 0, id := 1151 },
    by decide +kernel,
    by decide +kernel,
    by decide +kernel⟩

theorem wit_errorReport : ∃ (kind : Nat) (u : UnitId) (addr : Nat) (syn : Word) (fl : Nat) (s : State), s.misc.phase ≠ 0 ∧
    unitExists u = true ∧ kindOf kind u.cls = true ∧ (memKind kind && s.granted (addr % 2 ^ 64)) = false ∧ assayOf kind u.cls = 0
    ∧ s.fifo.length < 1024 :=
  ⟨0x22, ⟨2, 9215⟩, 1152 * 2 ^ 30 - 64, 5, 31, noted [],
    by decide +kernel,
    by decide +kernel,
    by decide +kernel,
    by decide +kernel,
    by decide +kernel,
    by decide +kernel⟩

theorem wit_errorReportAssay : ∃ (kind : Nat) (u : UnitId) (addr : Nat) (syn : Word) (fl : Nat) (s : State), s.misc.phase ≠ 0 ∧
    unitExists u = true ∧ kindOf kind u.cls = true ∧ (memKind kind && s.granted (addr % 2 ^ 64)) = false ∧ assayOf kind u.cls ≠ 0
    ∧ u ∉ s.lasting ∧ (s.assayerAt (assayerOf u.cls u.id)).run = none :=
  ⟨0x20, ⟨1, 147455⟩, 1152 * 2 ^ 30 - 64, 5, 31, noted [],
    by decide +kernel,
    by decide +kernel,
    by decide +kernel,
    by decide +kernel,
    by decide +kernel,
    by decide +kernel,
    by decide +kernel⟩

/-- The module with register fields at values and its last stack's thermal record. -/
def warm (l : List (Fld × Nat × Nat)) (x : ThSt := {}) : State := { up with regs := rg ((.TH_LIM_hw_trip, 11, 1000) :: l), th := [(11, x)] }

/-! ## ThermalEventsComplete -/

theorem wit_thConvReq : ∃ (h : ThIx) (s : State), s.misc.phase ≠ 0 ∧ s.flag .TH_CONV_busy h = false :=
  ⟨12, warm [],
    by decide +kernel,
    by decide +kernel⟩

theorem wit_diodeDone : ∃ (h : ThIx) (temp : Int) (watts : Nat) (s : State), s.flag .TH_CONV_busy h = true ∧ signed 16 (s16 temp)
    < signed 16 (s.reg .TH_LIM_hw_trip h) :=
  ⟨12, -8, 65536, warm [(.TH_CONV_busy, 12, 1), (.TH_RES_seq, 12, 65535)],
    by decide +kernel,
    by decide +kernel⟩

theorem wit_diodeDoneTrips : ∃ (st : StackIx) (temp : Int) (watts : Nat) (s : State), s.flag .TH_CONV_busy st = true ∧ signed 16
    (s.reg .TH_LIM_hw_trip st) ≤ signed 16 (s16 temp) ∧ s.flag .TH_STAT_tripped st = false ∧ (s.stackAt st).causes &&& 8 = 0 :=
  ⟨11, 1000, 100, warm [(.TH_CONV_busy, 11, 1)],
    by decide +kernel,
    by decide +kernel,
    by decide +kernel,
    by decide +kernel⟩

theorem wit_conversionWatchdog : ∃ (st : StackIx) (s : State), s.flag .TH_WDOG_armed st = true ∧ s.flag .TH_CONV_busy st = false ∧
    s.flag .TH_STAT_tripped st = false ∧ (s.stackAt st).causes &&& 8 = 0 :=
  ⟨11, warm [(.TH_WDOG_armed, 11, 1)],
    by decide +kernel,
    by decide +kernel,
    by decide +kernel,
    by decide +kernel⟩

theorem wit_conversionWatchdogBusy : ∃ (h : ThIx) (s : State), s.flag .TH_WDOG_armed h = true ∧ s.flag .TH_CONV_busy h = true :=
  ⟨12, warm [(.TH_WDOG_armed, 12, 1), (.TH_CONV_busy, 12, 1)],
    by decide +kernel,
    by decide +kernel⟩

theorem wit_stackTrip : ∃ (st : StackIx) (cause : Fin 16) (s : State), s.misc.powerGood = true ∧ 1 ≤ cause.val ∧ cause.val ≤ 4 ∧
    s.flag .TH_STAT_tripped st = false ∧ (s.stackAt st).causes &&& 8 = 0 :=
  ⟨11, 4, warm [],
    by decide +kernel,
    by decide +kernel,
    by decide +kernel,
    by decide +kernel,
    by decide +kernel⟩

theorem wit_shutdownRecord : ∃ (h : ThIx) (s : State), s.pmcLive = true ∧ (s.thAt h).due = true :=
  ⟨11, warm [] { due := true, words := [1, 2, 3, 4, 5] },
    by decide +kernel,
    by decide +kernel⟩

theorem wit_thCtlTrip : ∃ (st : StackIx) (s : State), s.pmcLive = true ∧ s.flag .TH_STAT_tripped st = false ∧ (s.stackAt
    st).causes &&& 8 = 0 :=
  ⟨11, warm [(.TH_STAT_cause_wr, 11, 4)],
    by decide +kernel,
    by decide +kernel,
    by decide +kernel⟩

theorem wit_thCtlRelease : ∃ (st : StackIx) (s : State), s.pmcLive = true ∧ s.unacked st = none ∧ (s.thAt st).due = false ∧ s.flag
    .TH_STAT_tripped st = true :=
  ⟨11, { warm [(.TH_STAT_tripped, 11, 1)] with stack := [(11, { causes := 8 })] },
    by decide +kernel,
    by decide +kernel,
    by decide +kernel,
    by decide +kernel⟩

theorem wit_iodTrip : ∃ (cause : Fin 16) (s : State), s.misc.powerGood = true ∧ s.misc.iodOff = false ∧ 1 ≤ cause.val ∧ cause.val
    ≤ 4 :=
  ⟨1, up,
    by decide +kernel,
    by decide +kernel,
    by decide +kernel,
    by decide +kernel⟩

theorem wit_trayRead : ∃ (y : Tray) (s : State), s.pmcLive = true ∧ s.misc.trayRole = false :=
  ⟨⟨200, 240, 900, 0, 0⟩, up,
    by decide +kernel,
    by decide +kernel⟩

theorem wit_trayReadFails : ∃ (s : State), s.pmcLive = true :=
  ⟨{ up with therm := { up.therm with fails := 2 } },
    by decide +kernel⟩

theorem wit_trayIbi : ∃ (s : State), s.misc.phase ≠ 0 :=
  ⟨up,
    by decide +kernel⟩

theorem wit_coolantAlarm : ∃ (s : State), s.pmcLive = true ∧ s.coolantBad = true ∧ s.therm.alarm = false :=
  ⟨{ warm [] { warming := true } with therm := { up.therm with tray := some ⟨321, 240, 900, 0, 0⟩ } },
    by decide +kernel,
    by decide +kernel,
    by decide +kernel⟩

theorem wit_coolantAlarmClear : ∃ (s : State), s.pmcLive = true ∧ s.coolantBad = false ∧ s.therm.alarm = true :=
  ⟨{ warm [] with therm := { up.therm with alarm := true, tray := some ⟨320, 400, 900, 0, 0⟩ } },
    by decide +kernel,
    by decide +kernel,
    by decide +kernel⟩

theorem wit_powerInterval : ∃ (input : Nat) (iod : Nat) (perStack : List Nat) (s : State), s.pmcLive = true :=
  ⟨4400, 65536, [1, 2, 3], up,
    by decide +kernel⟩

/-- The module at a point of its bring-up. -/
def phased (p : Nat) : State := { up with misc := { up.misc with phase := p } }

/-! ## BringUpAndModuleEventsComplete -/

theorem wit_coldBoot : ∃ (s : State), s.misc.powerGood = true ∧ s.misc.iodOff = false :=
  ⟨{ up with sec := { up.sec with boot := 2 ^ 32 - 1 } },
    by decide +kernel,
    by decide +kernel⟩

theorem wit_coldPhaseOne : ∃ (r : PhaseIn) (s : State), s.misc.phase = 1 :=
  ⟨{}, phased 1,
    by decide +kernel⟩

theorem wit_coldPhaseTwo : ∃ (r : PhaseIn) (s : State), s.misc.phase = 2 ∧ (s.imgBank s.fw.preferred).trial = false ∧ s.bankOk
    s.fw.preferred (if s.fw.preferred = 0 then r.bankA else r.bankB) = true :=
  ⟨{}, phased 2,
    by decide +kernel,
    by decide +kernel,
    by rw [State.bankOk, decide_eq_true (show (phased 2).sec.floor ≤ _ from Nat.zero_le _)]; rfl⟩

theorem wit_coldPhaseNoImage : ∃ (r : PhaseIn) (s : State), s.misc.phase = 2 ∧ (s.imgBank s.fw.preferred).trial = false ∧
    s.bootChoice r.bankA r.bankB = none :=
  ⟨{ bankA := { keyHash := false }, bankB := { keyHash := false } }, phased 2,
    by decide +kernel,
    by decide +kernel,
    by decide +kernel⟩

theorem wit_coldPhases : ∃ (r : PhaseIn) (s : State), 3 ≤ s.misc.phase ∧ s.misc.phase ≤ 6 :=
  ⟨{}, phased 6,
    by decide +kernel,
    by decide +kernel⟩

theorem wit_coldPhaseSeven : ∃ (r : PhaseIn) (s : State), s.misc.phase = 7 ∧ s.portsDone = true :=
  ⟨{}, phased 7,
    by decide +kernel,
    by decide +kernel⟩

theorem wit_fabricPhaseTimeout : ∃ (s : State), s.misc.phase = 7 :=
  ⟨phased 7,
    by decide +kernel⟩

theorem wit_warmReentry : ∃ (s : State), (s.misc.phase = 0x20 ∨ s.misc.phase = 7) :=
  ⟨{ phased 0x20 with stack := [(11, { causes := 1 })] },
    by decide +kernel⟩

theorem wit_warmReentryEarly : ∃ (s : State), 1 ≤ s.misc.phase ∧ s.misc.phase ≤ 6 :=
  ⟨phased 6,
    by decide +kernel,
    by decide +kernel⟩

theorem wit_warmStepEnd : ∃ (r : PhaseIn) (s : State), ((s.misc.phase = 0x11 ∨ (0x13 ≤ s.misc.phase ∧ s.misc.phase ≤ 0x16))) :=
  ⟨{}, phased 0x16,
    by decide +kernel⟩

theorem wit_warmStepLast : ∃ (r : PhaseIn) (s : State), s.misc.phase = 0x17 :=
  ⟨{}, phased 0x17,
    by decide +kernel⟩

theorem wit_resetN : ∃ (us : Nat) (s : State), s.misc.powerGood = true ∧ 10 ≤ us :=
  ⟨10, { up with misc := { up.misc with iodOff := true } },
    by decide +kernel,
    by decide +kernel⟩

theorem wit_powerUp : ∃ (mv : Nat) (s : State), s.misc.powerGood = false ∧ 43000 ≤ mv ∧ mv < 58000 ∧ ((s.misc.overVolt = true → mv
    ≤ 56500)) :=
  ⟨56500, { phased 0 with misc := { (phased 0).misc with powerGood := false, overVolt := true } },
    by decide +kernel,
    by decide +kernel,
    by decide +kernel,
    by decide +kernel⟩

theorem wit_powerLoss : ∃ (mv : Nat) (s : State), s.misc.powerGood = true ∧ ((mv ≤ 41000 ∨ 58000 ≤ mv)) :=
  ⟨41000, up,
    by decide +kernel,
    by decide +kernel⟩

theorem wit_i3cRoleRequest : ∃ (s : State), s.pmcLive = true :=
  ⟨up,
    by decide +kernel⟩

theorem wit_configBlockWrite : ∃ (block : List Byte) (s : State), s.misc.trayRole = true ∧ block.length = 4096 :=
  ⟨List.replicate 4096 7, { up with misc := { up.misc with trayRole := true } },
    by decide +kernel,
    by decide +kernel⟩

theorem wit_debugToken : ∃ (token : List Byte) (s : State), s.coreUp 0 = true :=
  ⟨[], up,
    by decide +kernel⟩

theorem wit_controllerRoleReturn : ∃ (s : State), s.misc.trayRole = true :=
  ⟨{ up with misc := { up.misc with trayRole := true } },
    by decide +kernel⟩

/-! ## StoresReachOnlyTheirAddresses -/

theorem wit_agAccessLoad : ∃ (n : SiteIx) (g : Fin 8) (ups : List Upset) (s : State), s.flag .CHG_AG_dir (n * 8 + g) = false :=
  ⟨1151, 7, [], ringed [(.CHG_AG_q, 1151 * 8 + 7, 2), (.CHG_AG_len, 1151 * 8 + 7, 64)] {} [] [(1151 * 8 + 7, { run := some {} })],
    by decide +kernel⟩

theorem wit_agAccessStore : ∃ (n : SiteIx) (g : Fin 8) (ups : List Upset) (s : State), s.flag .CHG_AG_dir (n * 8 + g) = true ∧
    s.reg .CHG_AG_q (n * 8 + g) ≠ 16 :=
  ⟨1151, 7, [], ringed [(.CHG_AG_dir, 1151 * 8 + 7, 1), (.CHG_AG_len, 1151 * 8 + 7, 128)] {} [(1151 * 16, { count := 1 })] [(1151 * 8 + 7, { run := some {} })],
    by decide +kernel,
    by decide +kernel⟩

theorem wit_agAccessStoreSums : ∃ (n : SiteIx) (g : Fin 8) (ups : List Upset) (s : State), s.flag .CHG_AG_dir (n * 8 + g) = true ∧
    s.reg .CHG_AG_q (n * 8 + g) = 16 ∧ (∀ e, (s.accAt n e).v.length ≤ 64) :=
  ⟨1151, 7, [], { ringed [(.CHG_AG_dir, 1151 * 8 + 7, 1), (.CHG_AG_q, 1151 * 8 + 7, 16)] { order := [2047] } [] [(1151 * 8 + 7, { run := some {} })] with
    acc := [(1151 * 2048 + 2047, { st := .committed, v := List.replicate 64 1 })] },
    by decide +kernel,
    by decide +kernel,
    fun e => by
      rw [State.accAt, Store.get]
      show (if 1151 * 2048 + 2047 = 1151 * 2048 + e % 2048 then _ else _ : AccEnt).v.length ≤ 64
      split
      · decide
      · exact Nat.zero_le _⟩

/-! ## RegisterAccessesChangeOneField -/

theorem wit_registerWrite_RegisterAccessesChangeOneField : ∃ (r : Fld) (i : Nat) (v : Word) (s : State) (u : State), s.fieldExists
    r i = true ∧ ((r.info.unit = .site → s.coreOff (i / r.info.per) = false)) ∧ s.blockLive r i = true ∧ u = (if r.info.unit =
    .site then run (settle (i / r.info.per)) s else s) ∧ r.info.acc = .rw ∧ (trigger r i).isNone = true ∧ r ∉ [.CT_value,
    .MC_CFG_cache_en, .MC_CFG_refresh, .KV_FL_CTL_low, .CRS_CLK_core0_mhz, .CRS_CLK_core1_mhz, .REG_FAR_rate, .REG_FAR_burst,
    .REG_FAR_en, .REG_HOST_rate, .REG_HOST_burst, .REG_HOST_en, .REG_D2D_rate, .REG_D2D_burst, .REG_D2D_en, .REG_FAB_rate,
    .REG_FAB_burst, .REG_FAB_en, .WIN_CTL_flask, .EG_SRC_target, .EG_SRC_prio, .EG_HCTL_poll, .EG_HCTL_thresh, .EG_HVEC_prio,
    .EG_HVEC_vector, .MSIX_mask, .TH_CTL_fast_en, .FP_CFG_en, .FAB_CFG_en, .LDL_CH_head] ∧ (¬(r.info.width = 13 ∧ blockOf r i =
    some 10)) ∧ ((u.fieldBusy r i = false ∨ r.info.cls = .d)) :=
  ⟨.ECC_SCRUB_period, 1151, 2 ^ 64 - 1, sliceUp [], _,
    by decide +kernel,
    by decide +kernel,
    by decide +kernel,
    rfl,
    by decide +kernel,
    by decide +kernel,
    by decide +kernel,
    by decide +kernel,
    by decide +kernel⟩

theorem wit_registerWriteShadowed : ∃ (r : Fld) (i : Nat) (v : Word) (s : State) (u : State), s.fieldExists r i = true ∧
    ((r.info.unit = .site → s.coreOff (i / r.info.per) = false)) ∧ s.blockLive r i = true ∧ u = (if r.info.unit = .site then run
    (settle (i / r.info.per)) s else s) ∧ r.info.acc = .rw ∧ (trigger r i).isNone = true ∧ r.info.cls = .s ∧ u.fieldBusy r i =
    true :=
  ⟨.CHG_VEC_repeats, 1151, 2 ^ 64 - 1, site [] { vec := some {} }, _,
    by decide +kernel,
    by decide +kernel,
    by decide +kernel,
    rfl,
    by decide +kernel,
    by decide +kernel,
    by decide +kernel,
    by decide +kernel⟩

theorem wit_registerWriteLocked : ∃ (r : Fld) (i : Nat) (v : Word) (s : State) (u : State), s.fieldExists r i = true ∧
    ((r.info.unit = .site → s.coreOff (i / r.info.per) = false)) ∧ s.blockLive r i = true ∧ u = (if r.info.unit = .site then run
    (settle (i / r.info.per)) s else s) ∧ r.info.acc = .rw ∧ (trigger r i).isNone = true ∧ r.info.cls = .l ∧ u.fieldBusy r i =
    true :=
  ⟨.SEQ_LIST_addr, 1151, 2 ^ 64 - 1, site [(.SEQ_STATUS_state, 1151, 1)], _,
    by decide +kernel,
    by decide +kernel,
    by decide +kernel,
    rfl,
    by decide +kernel,
    by decide +kernel,
    by decide +kernel,
    by decide +kernel⟩

theorem wit_readClearCounter_RegisterAccessesChangeOneField : ∃ (r : Fld) (i : Nat) (s : State), s.fieldExists r i = true ∧
    s.blockLive r i = true ∧ r.info.acc = .rc ∧ r ∉ [.KV_FL_POP_valid, .KV_FL_POP_bank, .KV_FL_POP_frame, .KV_FL_POPB_valid,
    .KV_FL_POPB_bank, .KV_FL_POPB_frame, .EG_CLAIM_valid, .EG_CLAIM_prio, .EG_CLAIM_src] :=
  ⟨.ECC_CNT_ce, 1151, sliceUp [(.ECC_CNT_ce, 1151, 2 ^ 32 - 1)],
    by decide +kernel,
    by decide +kernel,
    by decide +kernel,
    by decide +kernel⟩

theorem wit_registerWriteIgnored : ∃ (r : Fld) (i : Nat) (v : Word) (s : State), s.fieldExists r i = false :=
  ⟨.ECC_SCRUB_period, 1152, 2 ^ 64 - 1, sliceUp [],
    by decide +kernel⟩

/-! ## WritesStayWithinTheFlask -/

theorem wit_writesStayWithinTheFlask : ∃ (iss : Issuer) (addr : Nat) (hint : Fin 4) (data : List Byte) (ups : List Upset) (s :
    State), issChecked iss = true :=
  ⟨.core 1151, 0, 0, [1], [], site [],
    by decide +kernel⟩

/-! ## ReadsShowOnlyTheFlasksMemory -/

theorem wit_readsShowOnlyTheFlasksMemory : ∃ (iss : Issuer) (addr : Nat) (len : Nat) (hint : Fin 4) (ups : List Upset) (s : State)
    (m : Store Byte), issChecked iss = true ∧ ((∀ fl b, s.issFlask iss = some fl → s.memOwner (b / 64 * 64) = some fl → Store.get
    0 m b = s.byteAt b)) :=
  ⟨.core 1151, 0, 64, 0, [], site [], [(0, 5)],
    by decide +kernel,
    fun fl b h1 h2 => by
      by_cases e : b = 0
      · subst e
        rw [show (site []).memOwner (0 / 64 * 64) = none by decide +kernel] at h2
        cases h2
      · rw [Store.get, if_neg (Ne.symm e)]; rfl⟩

/-! ## ReadAfterWriteReturnsTheWord -/

theorem wit_readAfterWriteReturnsTheWord : ∃ (iss : Issuer) (iss' : Issuer) (addr : Nat) (hint : Fin 4) (hint' : Fin 4) (data :
    List Byte) (flips : BitVec 80) (s : State), addr % 8 = 0 ∧ addr < stackedEnd ∧ data.length = 8 ∧ s.judge (srcOf iss)
    (issChecked iss) (s.issFlask iss) (addr / 64) = .ok ∧ s.judge (srcOf iss') (issChecked iss') (s.issFlask iss') (addr / 64) =
    .ok ∧ bit (s.sliceAt (addr / 2 ^ 30)).deadCh (chanOf (addr % 2 ^ 30)) = false ∧ ((∀ b, s.staleBytes (addr / 64) = some b →
    b.length = 64)) ∧ popcount flips.toNat 80 ≤ 2 :=
  ⟨.core 1151, .ladle 95, 1152 * 2 ^ 30 - 8, 3, 3, [1, 2, 3, 4, 5, 6, 7, 8], 2 ^ 79 + 1, { site [] with owner := [(18431, some 0)], ladle := [(95, { run := some {} })] },
    by decide +kernel,
    by decide +kernel,
    by decide +kernel,
    by decide +kernel,
    by decide +kernel,
    by decide +kernel,
    by decide +kernel,
    by decide +kernel⟩

/-! ## ComparatorsHoldByTheirRelation -/

theorem wit_comparatorsHoldByTheirRelation : ∃ (s : State) (n : Nat) (m : Nat) (d : Int), d = signed 32 (wrap 32 ((s.reg .CT_value
    (n * 8 + s.reg .CM_ct (n * 4 + m)) : Int) - s.reg .CM_value (n * 4 + m))) :=
  ⟨site [], 1151, 3, _,
    rfl⟩

/-! ## FramesAreTheirOffsetBits -/

theorem wit_start : ∃ (n : Nat) (b : Nat) (f : Nat), n < 1152 ∧ b < 128 ∧ f < 256 :=
  ⟨1151, 127, 255,
    by decide +kernel,
    by decide +kernel,
    by decide +kernel⟩

theorem wit_shared : ∃ (a : Nat) (c : Nat), a < stackedEnd ∧ a / 2 ^ 15 = c / 2 ^ 15 :=
  ⟨1152 * 2 ^ 30 - 1, 1152 * 2 ^ 30 - 32768,
    by decide +kernel,
    by decide +kernel⟩

/-! ## SpecialValuesConvert -/

theorem wit_negativeZero : ∃ (a : Nat) (b : Nat) (sat : Bool), a < 8 ∧ b < 8 :=
  ⟨7, 0, true,
    by decide +kernel,
    by decide +kernel⟩

theorem wit_negativeZeroInteger : ∃ (a : Nat) (b : Nat) (sat : Bool), a < 8 ∧ fmtIsInt b = true :=
  ⟨7, 10, true,
    by decide +kernel,
    by decide +kernel⟩

theorem wit_nan : ∃ (b : Nat) (sat : Bool), 5 ≤ b ∧ b ≤ 10 :=
  ⟨10, true,
    by decide +kernel,
    by decide +kernel⟩

/-! ## ClaimsTakeTheHighestSource -/

theorem wit_claim : ∃ (g : GathIx) (tg : Fin 3) (s : State), s.gathUp g = true ∧ targetExists g tg = true ∧ s.eligible g tg ≠ []
    :=
  ⟨96, 2, noted [] [(.EG_TGT_mode, 386, 0), (.EG_SRC_target, 96 * 1024 + 0x45, 2), (.EG_SRC_prio, 96 * 1024 + 0x45, 3)] [(96, { pend := [0x45] })],
    by decide +kernel,
    by decide +kernel,
    by decide +kernel⟩

theorem wit_claimNone : ∃ (g : GathIx) (tg : Fin 3) (s : State), s.gathUp g = true ∧ targetExists g tg = true ∧ s.eligible g tg =
    [] :=
  ⟨96, 2, noted [] [] [(96, { pend := [0x46] })],
    by decide +kernel,
    by decide +kernel,
    by decide +kernel⟩

theorem wit_complete : ∃ (g : GathIx) (tg : Fin 3) (src : BitVec 10) (s : State), s.gathUp g = true ∧ targetExists g tg = true ∧
    s.flag .EG_TGT_mode (g * 4 + tg) = false ∧ src.toNat ∈ (s.gathAt g).act ∧ hostOfSource g src.toNat = none :=
  ⟨96, 2, 0x45, noted [] [(.EG_TGT_mode, 386, 0)] [(96, { act := [0x45, 0x46] })],
    by decide +kernel,
    by decide +kernel,
    by decide +kernel,
    by decide +kernel,
    by decide +kernel⟩

theorem wit_completeHost : ∃ (tg : Fin 3) (src : BitVec 10) (s : State) (h : Nat × Nat), s.gathUp 96 = true ∧ targetExists 96 tg =
    true ∧ s.flag .EG_TGT_mode (96 * 4 + tg) = false ∧ src.toNat ∈ (s.gathAt 96).act ∧ hostOfSource 96 src.toNat = some h :=
  ⟨2, 0x20A, noted [] [(.EG_TGT_mode, 386, 0)] [(96, { act := [0x20A, 0x46], pend := [0x20A] })], (0, 10),
    by decide +kernel,
    by decide +kernel,
    by decide +kernel,
    by decide +kernel,
    by decide +kernel⟩

theorem wit_completeBad : ∃ (g : GathIx) (tg : Fin 3) (src : BitVec 10) (s : State), s.gathUp g = true ∧ targetExists g tg = true
    ∧ s.flag .EG_TGT_mode (g * 4 + tg) = false ∧ src.toNat ∉ (s.gathAt g).act :=
  ⟨96, 2, 0x45, noted [] [(.EG_TGT_mode, 386, 0)] [(96, { act := [0x46] })],
    by decide +kernel,
    by decide +kernel,
    by decide +kernel,
    by decide +kernel⟩

/-! ## SourcesAreEligible -/

theorem wit_sourcesAreEligible : ∃ (s : State) (g : Nat) (t : Nat) (n : Nat), s.flag .EG_TGT_mode (g * 4 + t) = false :=
  ⟨noted [] [(.EG_TGT_mode, 386, 0)] [(96, { pend := [0x45] })], 96, 2, 0x45,
    by decide +kernel⟩

/-! ## ConversionsRoundToNearest -/

theorem wit_conversionsRoundToNearest : ∃ (fmt : _) (sat : Bool) (neg : _) (m : _) (e : _), fmt ≤ 10 ∧ (toFmt fmt sat (.fin neg m
    e)).2 = 0 :=
  ⟨10, true, true, 1, 0,
    by decide +kernel,
    by decide +kernel⟩

/-! ## CodesSurviveFP32 -/

theorem wit_codesSurviveFP32 : ∃ (fmt : _) (sat : Bool) (c : Nat), fmt ≤ 10 ∧ c < 2 ^ fmtWidth fmt ∧ ofFmt fmt c ≠ .nan :=
  ⟨7, true, 15,
    by decide +kernel,
    by decide +kernel,
    by decide +kernel⟩

/-! ## ArithmeticRoundsOnce -/

theorem wit_add : ∃ (a : Nat) (b : Nat), (ofFmt 0 a).finite = true ∧ (ofFmt 0 b).finite = true ∧ (add32 a b).2 = 0 :=
  ⟨0x3F800000, 0x80000001,
    by decide +kernel,
    by decide +kernel,
    by decide +kernel⟩

theorem wit_sub : ∃ (a : Nat) (b : Nat), (ofFmt 0 a).finite = true ∧ (ofFmt 0 b).finite = true ∧ (sub32 a b).2 = 0 :=
  ⟨0x3F800000, 0x80000001,
    by decide +kernel,
    by decide +kernel,
    by decide +kernel⟩

theorem wit_mul : ∃ (a : Nat) (b : Nat), (ofFmt 0 a).finite = true ∧ (ofFmt 0 b).finite = true ∧ (mul32 a b).2 = 0 :=
  ⟨0x3F800000, 0x80000001,
    by decide +kernel,
    by decide +kernel,
    by decide +kernel⟩

theorem wit_fma : ∃ (a : Nat) (b : Nat) (c : Nat), (ofFmt 0 a).finite = true ∧ (ofFmt 0 b).finite = true ∧ (ofFmt 0 c).finite =
    true ∧ (fma32 a b c).2 = 0 :=
  ⟨0x3F800000, 0x80000001, 0x3F800000,
    by decide +kernel,
    by decide +kernel,
    by decide +kernel,
    by decide +kernel⟩

/-! ## ReleasedRegionsAreZero -/

theorem wit_releasedRegionsAreZero : ∃ (f : FnIx) (s : State) (r : Nat), r < 18432 + 65536 :=
  ⟨16, up, 83967,
    by decide +kernel⟩

/-! ## FabricPlaneResetGivesDefaultRoutes -/

theorem wit_fabricPlane : ∃ (st : StackIx) (s : State), s.misc.phase ≠ 0 ∧ (s.stackAt st).out = false ∧ (s.stackAt st).causes = 0
    :=
  ⟨11, planes {} {} [(.NOC_ROUTE_iod, 11, 3)],
    by decide +kernel,
    by decide +kernel,
    by decide +kernel⟩

/-! ## WorkQueueTailsAreChecked -/

theorem wit_accepted : ∃ (f : FnIx) (slot : Fin 256) (tail : BitVec 32) (s : State) (q : WqSt), q = s.wqAt (wqKey f slot) ∧
    s.misc.linkUp = true ∧ s.fnOn f = true ∧ q.on = true ∧ q.dying = false ∧ 0 ≤ signed 32 (wrap 32 ((tail.toNat : Int) - q.tail))
    ∧ (wrap 32 ((tail.toNat : Int) - q.completed) ≤ 2 ^ q.log2) :=
  ⟨16, 255, 2, { up with wq := [(wqKey 16 255, { on := true, log2 := 4, tail := 2 ^ 32 - 1, started := 2 ^ 32 - 14, completed := 2 ^ 32 - 14 })] }, _,
    rfl,
    by decide +kernel,
    by decide +kernel,
    by decide +kernel,
    by decide +kernel,
    by decide +kernel,
    by decide +kernel⟩

theorem wit_refused : ∃ (f : FnIx) (slot : Fin 256) (tail : BitVec 32) (s : State) (q : WqSt), q = s.wqAt (wqKey f slot) ∧
    s.misc.linkUp = true ∧ s.fnOn f = true ∧ q.on = true ∧ q.dying = false ∧ ((signed 32 (wrap 32 ((tail.toNat : Int) - q.tail)) <
    0 ∨ 2 ^ q.log2 < wrap 32 ((tail.toNat : Int) - q.completed))) :=
  ⟨16, 255, 3, { up with wq := [(wqKey 16 255, { on := true, log2 := 4, tail := 2 ^ 32 - 1, started := 2 ^ 32 - 14, completed := 2 ^ 32 - 14 })] }, _,
    rfl,
    by decide +kernel,
    by decide +kernel,
    by decide +kernel,
    by decide +kernel,
    by decide +kernel⟩

theorem wit_noQueue : ∃ (f : FnIx) (slot : Fin 256) (tail : BitVec 32) (s : State), (s.wqAt (wqKey f slot)).on = false :=
  ⟨16, 255, 3, up,
    by decide +kernel⟩

theorem wit_created : ∃ (f : FnIx) (s : State) (r : Req) (q : Nat) (k : Nat), RequestDue s f 0x0112 r ∧ field r.body 0 8 % 4096 =
    0 ∧ 4 ≤ field r.body 8 1 ∧ field r.body 8 1 ≤ 16 ∧ r.ctx ≠ 0xFFFF ∧ findNat (fun q => !(s.wqAt (wqKey f q)).on) 256 0 = some q
    ∧ findNat (fun k => !(s.wq.any (fun p => p.2.on && p.2.num == k))) 4096 0 = some k :=
  ⟨1, { asked 1 (asks 0x0112 (leBytes 4096 8 ++ [16]) 0 255) with ctx := [(255, { on := true, fn := 1 })] }, asks 0x0112 (leBytes 4096 8 ++ [16]) 0 255, 0, 0,
    due_of (by decide +kernel),
    by decide +kernel,
    by decide +kernel,
    by decide +kernel,
    by decide +kernel,
    by decide +kernel,
    by decide +kernel⟩

/-! ## CoreResetsEmptyQueues -/

theorem wit_coreReset : ∃ (n : SiteIx) (s : State), s.coreOff n = false ∧ s.clusterHeld (n / 12) = false :=
  ⟨1151, ringed [] {} [(1151 * 16 + 15, { count := 3 })],
    by decide +kernel,
    by decide +kernel⟩

theorem wit_flush : ∃ (n : SiteIx) (m : BitVec 16) (s : State), s.coreLive n = true ∧ ((s.seqState n = 0 ∨ s.seqState n = 6 ∨
    s.seqState n = 7)) :=
  ⟨1151, 0x8000, ringed [(.SEQ_STATUS_state, 1151, 6)] {} [(1151 * 16 + 15, { count := 3 })],
    by decide +kernel,
    by decide +kernel⟩

theorem wit_ignored : ∃ (n : SiteIx) (m : BitVec 16) (s : State), s.seqState n ≠ 0 ∧ s.seqState n ≠ 6 ∧ s.seqState n ≠ 7 :=
  ⟨1151, 0x8000, ringed [(.SEQ_STATUS_state, 1151, 2)] {} [(1151 * 16 + 15, { count := 3 })],
    by decide +kernel,
    by decide +kernel,
    by decide +kernel⟩

/-! ## StepRunsTheFrontCommand -/

theorem wit_stepRunsTheFrontCommand : ∃ (s : State) (c : Instr) (rest : List Instr), s.pending = c :: rest :=
  ⟨{ up with pending := [.fabricPhaseTimeout, .coldBoot] }, .fabricPhaseTimeout, [.coldBoot],
    by decide +kernel⟩

/-! ## StepIdlesOnAnEmptyQueue -/

theorem wit_stepIdlesOnAnEmptyQueue : ∃ (s : State), s.pending = [] :=
  ⟨up,
    by decide +kernel⟩

/-! ## StepKeepsCanonicalForm -/

theorem wit_stepKeepsCanonicalForm : ∃ (s : State) (t : State), s.Canonical ∧ step s = .next t :=
  ⟨{ State.reset with pending := [.fabricPhaseTimeout] }, State.reset,
    by constructor <;> first | rfl | exact ⟨rfl, by simp [State.reset]⟩,
    rfl⟩

/-! ## StepKeepsRegistersWithinTheirFields -/

theorem wit_stepKeepsRegistersWithinTheirFields : ∃ (s : State) (t : State), s.Fit ∧ step s = .next t :=
  ⟨{ State.reset with pending := [.fabricPhaseTimeout] }, State.reset,
    ⟨State.reset_fit.1, State.reset_fit.2⟩,
    rfl⟩

/-! ## RegistersResetToTheirTables -/

theorem wit_zero : ∃ (r : Fld) (i : Nat), r ∉ [.CM_true, .NOC_ROUTE_stack, .NOC_ROUTE_NEXT_stack, .MC_CFG_keep_max,
    .MC_CFG_cache_en, .MC_CFG_refresh, .MC_STAT_refresh, .ECC_SCRUB_period, .ECC_SCRUB_en, .BSU_CAP_streams,
    .NOC_CTL_retry_thresh, .NOC_CTL_auto_en, .CRS_CLK_core1_mhz, .CRS_CLK_core0_mhz, .REG_FAR_burst, .REG_HOST_burst,
    .FP_CFG_an_en, .FP_QUAL_uc_max, .FP_QUAL_win_full, .FP_QUAL_win_short, .FP_QUAL_deg_mant, .FP_QUAL_deg_exp,
    .FP_QUAL_qual_mant, .FP_QUAL_qual_exp, .FP_CTL_recal_en, .FAB_CFG_udp_port, .FAB_CFG_retry_max, .FAB_CFG_paths, .FAB_CFG_mtu,
    .FAB_TIME_setup_ms, .FAB_TIME_drain_ms, .FAB_TIME_idle_s, .FAB_TIME_ack_us, .FAB_TIME_rto_min_us, .FAB_CC_r_init,
    .FAB_CC_r_ai, .FAB_CC_r_min, .FAB_CC_g_shift, .REG_D2D_burst, .REG_FAB_burst, .EG_TGT_mode, .EG_HCTL_poll, .EG_HVEC_prio,
    .TH_LIM_hw_trip, .TH_CTL_fast_en, .TH_FAST_limit_w, .MSIX_mask] :=
  ⟨.SEQ_STATUS_state, 1151,
    by decide +kernel⟩

/-! ## SuppressedAccessesReadZeros -/

theorem wit_read : ∃ (iss : Issuer) (addr : Nat) (len : Nat) (hint : Fin 4) (s : State), 0 < len ∧ ((∀ l ∈ linesOf addr len,
    s.judge (srcOf iss) (issChecked iss) (s.issFlask iss) l = .unmapped ∨ s.judge (srcOf iss) (issChecked iss) (s.issFlask iss) l
    = .protection)) :=
  ⟨.core 1151, 1152 * 2 ^ 30 - 32, 64, 0, site [],
    by decide +kernel,
    by decide +kernel⟩

theorem wit_write : ∃ (iss : Issuer) (addr : Nat) (hint : Fin 4) (data : List Byte) (s : State), data ≠ [] ∧ ((∀ l ∈ linesOf addr
    data.length, s.judge (srcOf iss) (issChecked iss) (s.issFlask iss) l = .unmapped ∨ s.judge (srcOf iss) (issChecked iss)
    (s.issFlask iss) l = .protection)) :=
  ⟨.core 1151, 1152 * 2 ^ 30 - 32, 0, List.replicate 64 7, site [],
    by decide +kernel,
    by decide +kernel⟩

theorem wit_unmapped : ∃ (s : State) (src : Nat) (chk : Bool) (fl : Option Nat) (l : Nat), s.target (l * 64) = .none :=
  ⟨up, 0, true, some 0, 18 * 2 ^ 30,
    by decide +kernel⟩

theorem wit_foreign : ∃ (s : State) (src : Nat) (fl : Option Nat) (l : Nat), s.target (l * 64) ≠ .none ∧ s.unreachable (l * 64) =
    false ∧ s.pathUp src (s.homeOf (l * 64)) = true :=
  ⟨up, 0, some 0, 0,
    by decide +kernel,
    by decide +kernel,
    by decide +kernel⟩

end Sys2Proof.Tests
end

section
/-! SUPPORT. Rounding to nearest with ties to even, as a fact about rationals, and what the model's rounding functions
`rneShift`, `rneInt` and `roundTo` give (R56). -/
namespace Sys2Proof.Machine

/-- An integer is a number rounded to nearest, and it is even where the number lies half-way between two integers. -/
def RoundsTo (n : Int) (y : Rat) : Prop := 2 * |(n : Rat) - y| ≤ 1 ∧ (2 * |(n : Rat) - y| = 1 → Even n)

/-- The factor of a sign bit. -/
def sgn (neg : Bool) : Int := if neg then -1 else 1

theorem abs_sgn (s : Bool) : |(sgn s : Rat)| = 1 := by cases s <;> simp [sgn]

theorem even_sgn_mul (s : Bool) (n : Int) : Even (sgn s * n) ↔ Even n := by cases s <;> simp [sgn]

theorem RoundsTo.sgn_mul {n : Int} {y : Rat} (h : RoundsTo n y) (s : Bool) : RoundsTo (sgn s * n) (sgn s * y) := by
  have he : |((sgn s * n : Int) : Rat) - sgn s * y| = |(n : Rat) - y| := by
    rw [Int.cast_mul, ← mul_sub, abs_mul, abs_sgn, one_mul]
  rw [RoundsTo, he, even_sgn_mul]
  exact h

theorem roundsTo_intCast (n : Int) : RoundsTo n n := by simp [RoundsTo]

/-- A number that is no farther from `y` than the rounded one is the rounded one, or the two tie and that one is even. -/
theorem RoundsTo.eq_or_even {n z : Int} {y : Rat} (h : RoundsTo n y) (hz : |(z : Rat) - y| ≤ |(n : Rat) - y|) :
    n = z ∨ (|(z : Rat) - y| = |(n : Rat) - y| ∧ Even n) := by
  obtain ⟨hle, heven⟩ := h
  by_cases hnz : n = z
  · exact .inl hnz
  · have hgap : (1 : Rat) ≤ |(n : Rat) - z| := by exact_mod_cast Int.one_le_abs (sub_ne_zero.mpr hnz)
    have htri := abs_sub_le (n : Rat) y z
    rw [abs_sub_comm y] at htri
    exact .inr ⟨by linarith, heven (by linarith)⟩

theorem RoundsTo.abs_sub_le {n : Int} {y : Rat} (h : RoundsTo n y) (z : Int) : |(n : Rat) - y| ≤ |(z : Rat) - y| := by
  rcases le_total |(n : Rat) - y| |(z : Rat) - y| with hle | hle
  · exact hle
  · rcases h.eq_or_even hle with rfl | ⟨he, -⟩
    · exact le_rfl
    · exact he.ge

theorem RoundsTo.le_intCast {n b : Int} {y : Rat} (h : RoundsTo n y) (hy : y ≤ b) : n ≤ b := by
  have hn := (abs_le.mp (show |(n : Rat) - y| ≤ 1 / 2 by linarith [h.1])).2
  have : (n : Rat) < ((b + 1 : Int) : Rat) := by push_cast; linarith
  exact Int.lt_add_one_iff.mp (by exact_mod_cast this)

theorem RoundsTo.intCast_le {n b : Int} {y : Rat} (h : RoundsTo n y) (hy : b ≤ y) : b ≤ n := by
  have hn := (abs_le.mp (show |(n : Rat) - y| ≤ 1 / 2 by linarith [h.1])).1
  have : ((b : Int) : Rat) < ((n + 1 : Int) : Rat) := by push_cast; linarith
  exact Int.lt_add_one_iff.mp (by exact_mod_cast this)

/-- What lies nearer to zero than an integer bound that `y` reaches is strictly farther from `y` than the rounded one: the
bound itself lies between the two. -/
theorem RoundsTo.abs_lt_of_abs_lt {n b : Int} {v y : Rat} (h : RoundsTo n y) (hv : |v| < b) (hb : b ≤ |y|) :
    |(n : Rat) - y| < |v - y| := by
  obtain ⟨hv1, hv2⟩ := abs_lt.mp hv
  rcases le_total 0 y with hy | hy
  · rw [abs_of_nonneg hy] at hb
    have hle := h.abs_sub_le b
    rw [abs_of_nonpos (by linarith : (b : Rat) - y ≤ 0)] at hle
    rw [abs_of_neg (by linarith : v - y < 0)]
    linarith
  · rw [abs_of_nonpos hy] at hb
    have hle := h.abs_sub_le (-b)
    rw [Int.cast_neg, abs_of_nonneg (by linarith : 0 ≤ -(b : Rat) - y)] at hle
    rw [abs_of_pos (by linarith : 0 < v - y)]
    linarith

theorem roundsTo_div {n : Int} {m d : Nat} (hd : 0 < d) (hle : 2 * |n * d - m| ≤ d)
    (heven : 2 * |n * d - m| = (d : Int) → Even n) : RoundsTo n ((m : Rat) / d) := by
  have hd' : (0 : Rat) < d := by exact_mod_cast hd
  have habs : 2 * |(n : Rat) - m / d| = ((2 * |n * d - m| : Int) : Rat) / d := by
    push_cast
    rw [mul_div_assoc, ← abs_of_pos hd', ← abs_div, abs_of_pos hd', sub_div, mul_div_cancel_right₀ _ hd'.ne']
  rw [RoundsTo, habs, div_le_one hd', div_eq_one_iff_eq hd'.ne']
  exact ⟨by exact_mod_cast hle, fun h => heven (by exact_mod_cast h)⟩

theorem roundsTo_rneShift (m k : Nat) : RoundsTo (rneShift m k) ((m : Rat) / 2 ^ k) := by
  have hm : (m : Int) = (m / 2 ^ k : Nat) * (2 ^ k : Nat) + (m % 2 ^ k : Nat) := by exact_mod_cast (Nat.div_add_mod' m _).symm
  have hr := Nat.mod_lt m (Nat.two_pow_pos k)
  have hone : k = 0 → 2 ^ k = 1 := by rintro rfl; rfl
  rw [← Nat.cast_two, ← Nat.cast_pow]
  simp only [rneShift, gt_iff_lt, Bool.or_eq_true, decide_eq_true_eq, Bool.and_eq_true, beq_iff_eq, bne_iff_ne]
  generalize m / 2 ^ k = q at *
  generalize m % 2 ^ k = r at *
  split
  case isTrue hup =>
    have hdist : ((q + 1 : Nat) : Int) * (2 ^ k : Nat) - m = (2 ^ k : Nat) - r := by rw [hm]; push_cast; ring
    apply roundsTo_div (Nat.two_pow_pos k) <;> rw [hdist, abs_of_nonneg (by omega)]
    · omega
    · exact fun htie => (Int.even_coe_nat _).mpr (Nat.even_iff.mpr (by omega))
  case isFalse hdown =>
    have hdist : (q : Int) * (2 ^ k : Nat) - m = -(r : Int) := by rw [hm]; ring
    apply roundsTo_div (Nat.two_pow_pos k) <;> rw [hdist, abs_neg, Nat.abs_cast]
    · omega
    · exact fun htie => (Int.even_coe_nat _).mpr (Nat.even_iff.mpr (by omega))

/-- A whole number times a power of two, rounded to an integer: exact where the power is whole. -/
def scaleRound (m : Nat) (d : Int) : Nat := if 0 ≤ d then m * 2 ^ d.toNat else rneShift m (-d).toNat

theorem roundsTo_scaleRound (m : Nat) (d : Int) : RoundsTo (scaleRound m d) (m * 2 ^ d) := by
  unfold scaleRound
  split
  case isTrue hd =>
    obtain ⟨k, rfl⟩ := Int.eq_ofNat_of_zero_le hd
    simpa using roundsTo_intCast (m * 2 ^ k)
  case isFalse hd =>
    obtain ⟨k, hk⟩ := Int.eq_ofNat_of_zero_le (show 0 ≤ -d by omega)
    obtain rfl : d = -k := by omega
    simpa [zpow_neg, div_eq_mul_inv] using roundsTo_rneShift m k

theorem rneInt_eq (neg : Bool) (m : Nat) (e : Int) : rneInt neg m e = sgn neg * scaleRound m e := by
  by_cases he : 0 ≤ e <;> cases neg <;> simp [rneInt, scaleRound, sgn, he]

theorem roundsTo_rneInt (neg : Bool) (m : Nat) (e : Int) : RoundsTo (rneInt neg m e) (sgn neg * (m * 2 ^ e)) := by
  rw [rneInt_eq]
  exact (roundsTo_scaleRound m e).sgn_mul neg

/-- What `roundTo` answers: it rounds to the quantum `2 ^ q`, the least one or one that leaves the value at least `2 ^ p`
quanta, and moves a result of `2 ^ (p + 1)` to the next quantum. -/
theorem roundTo_cases (p : Nat) (qmin : Int) (m : Nat) (e : Int) : ∃ (q : Int) (n : Nat),
    RoundsTo n (m * 2 ^ (e - q)) ∧ qmin ≤ q ∧ (q = qmin ∨ 2 ^ p ≤ (m : Rat) * 2 ^ (e - q)) ∧ n ≤ 2 ^ (p + 1) ∧
      roundTo p qmin m e = if n = 2 ^ (p + 1) then (2 ^ p, q + 1) else (n, q) := by
  rcases Nat.eq_zero_or_pos m with rfl | hm
  · refine ⟨qmin, 0, ?_, le_rfl, .inl rfl, Nat.zero_le _, ?_⟩
    · simpa using roundsTo_intCast 0
    · simp [roundTo, (Nat.two_pow_pos _).ne]
  · obtain ⟨q, hq⟩ : ∃ q, q = max (e + Nat.log2 m - p) qmin := ⟨_, rfl⟩
    have hround := roundsTo_scaleRound m (e - q)
    have hlow : (2 : Rat) ^ ((Nat.log2 m : Int) + (e - q)) ≤ m * 2 ^ (e - q) := by
      rw [zpow_add₀ two_ne_zero, zpow_natCast]
      gcongr
      exact_mod_cast Nat.log2_self_le hm.ne'
    have hhigh : (m : Rat) * 2 ^ (e - q) ≤ ((2 ^ (p + 1) : Nat) : Int) := by
      calc (m : Rat) * 2 ^ (e - q) ≤ 2 ^ (Nat.log2 m + 1) * 2 ^ (e - q) := by
            gcongr; exact_mod_cast Nat.lt_log2_self.le
        _ = 2 ^ ((Nat.log2 m + 1 : Nat) + (e - q)) := by rw [zpow_add₀ two_ne_zero, zpow_natCast]
        _ ≤ 2 ^ ((p + 1 : Nat) : Int) := zpow_le_zpow_right₀ one_le_two (by omega)
        _ = ((2 ^ (p + 1) : Nat) : Int) := by rw [zpow_natCast]; push_cast; rfl
    refine ⟨q, _, hround, by omega, ?_, by exact_mod_cast hround.le_intCast hhigh, ?_⟩
    · refine (show q = qmin ∨ (p : Int) ≤ Nat.log2 m + (e - q) by omega).imp_right fun h => le_trans ?_ hlow
      rw [← zpow_natCast]
      exact zpow_le_zpow_right₀ one_le_two h
    · simp only [roundTo, hm.ne', if_false, ← hq, scaleRound, sub_nonneg, neg_sub]

end Sys2Proof.Machine
end

section
/-! SUPPORT. The float formats: what a code made by `pack` decodes to, and which values `decode` gives (R48). -/
namespace Sys2Proof.Machine

/-- The least quantum of a float format. -/
def FloatFmt.qmin (f : FloatFmt) : Int := 1 - f.bias - f.mb

/-- A float format as R48 lists them: E4M3 is the only one whose top exponent holds numbers and a NaN. -/
structure FloatFmt.Listed (f : FloatFmt) : Prop where
  eb : 2 ≤ f.eb
  mb : 1 ≤ f.mb
  e4m3 : f.top = .e4m3 → f = ⟨4, 3, 7, .e4m3⟩

theorem floatFmt_listed {fmt : Nat} {f : FloatFmt} (h : floatFmt fmt = some f) : f.Listed ∧ fmtWidth fmt = f.eb + f.mb + 1 := by
  unfold floatFmt at h
  split at h <;> cases h <;> exact ⟨⟨by decide, by decide, by decide⟩, rfl⟩

/-- A significand and a quantum that some code of the format stands for. -/
structure FloatFmt.Holds (f : FloatFmt) (m : Nat) (q : Int) : Prop where
  sig : m < 2 ^ (f.mb + 1)
  quantum : f.qmin ≤ q
  subnormal : m < 2 ^ f.mb → q = f.qmin
  fits : ¬(q > f.maxFin.2 ∨ (q = f.maxFin.2 ∧ m > f.maxFin.1))

/-- The three fields of a code (R49). -/
theorem FloatFmt.fields (f : FloatFmt) (hf : f.Listed) (s : Bool) {e m : Nat} (he : e < 2 ^ f.eb) (hm : m < 2 ^ f.mb) :
    bit (f.signBit s + (e * 2 ^ f.mb + m)) (f.eb + f.mb) = s ∧
      bits (f.signBit s + (e * 2 ^ f.mb + m)) (f.eb + f.mb - 1) f.mb = e ∧
      (f.signBit s + (e * 2 ^ f.mb + m)) % 2 ^ f.mb = m := by
  have hs : f.signBit s = s.toNat * 2 ^ f.eb * 2 ^ f.mb := by cases s <;> simp [signBit, pow_add]
  have hcode : f.signBit s + (e * 2 ^ f.mb + m) = m + 2 ^ f.mb * (e + 2 ^ f.eb * s.toNat) := by rw [hs]; ring
  have hdiv : (m + 2 ^ f.mb * (e + 2 ^ f.eb * s.toNat)) / 2 ^ f.mb = e + 2 ^ f.eb * s.toNat := by
    rw [Nat.add_mul_div_left _ _ (Nat.two_pow_pos _), Nat.div_eq_of_lt hm, Nat.zero_add]
  rw [hcode]
  refine ⟨?_, ?_, ?_⟩
  · rw [bit, Nat.add_comm f.eb, Nat.pow_add, ← Nat.div_div_eq_div_mul, hdiv, Nat.add_mul_div_left _ _ (Nat.two_pow_pos _),
      Nat.div_eq_of_lt he]
    cases s <;> rfl
  · rw [bits, hdiv, show f.eb + f.mb - 1 + 1 - f.mb = f.eb by have := hf.eb; omega, Nat.add_mul_mod_self_left,
      Nat.mod_eq_of_lt he]
  · rw [Nat.add_mul_mod_self_left, Nat.mod_eq_of_lt hm]

/-- The exponent field of a number that the format holds is no infinity's and no NaN's. -/
theorem FloatFmt.top_exponent {f : FloatFmt} (hf : f.Listed) {m x : Nat} {q : Int} (h : f.Holds m q) (hx : q + f.bias + f.mb = x) :
    x < 2 ^ f.eb ∧ (f.top = .ieee → x ≠ 2 ^ f.eb - 1) ∧ (f.top = .e4m3 → x = 15 → m - 2 ^ f.mb ≠ 7) := by
  have hfits := h.fits
  have hcast : ((2 ^ f.eb : Nat) : Int) = 2 ^ f.eb := by push_cast; rfl
  have heb : 2 ^ 2 ≤ 2 ^ f.eb := Nat.pow_le_pow_right two_pos hf.eb
  unfold maxFin at hfits
  cases ht : f.top with
  | ieee => simp only [ht, ← hcast] at hfits; exact ⟨by omega, fun _ => by omega, nofun⟩
  | none => simp only [ht, ← hcast] at hfits; exact ⟨by omega, nofun, nofun⟩
  | e4m3 =>
    obtain rfl := hf.e4m3 ht
    simp only at hx hfits ⊢
    exact ⟨by omega, nofun, fun _ _ => by omega⟩

theorem FloatFmt.decode_pack {f : FloatFmt} (hf : f.Listed) (s : Bool) {m : Nat} {q : Int} (h : f.Holds m q) :
    f.decode (f.pack s m q) = .fin s m q := by
  obtain ⟨hsig, hquantum, hsub, hfits⟩ := h
  have htwo := Nat.pow_succ 2 f.mb
  have heb : 2 ^ 2 ≤ 2 ^ f.eb := Nat.pow_le_pow_right two_pos hf.eb
  by_cases hm : m < 2 ^ f.mb
  · obtain ⟨hs, he, hfrac⟩ := f.fields hf s (e := 0) (by omega) hm
    rw [zero_mul, zero_add] at hs he hfrac
    rw [pack, if_pos hm, decode, hs, he, hfrac, hsub hm]
    have hieee : ¬(f.top = .ieee ∧ 0 = 2 ^ f.eb - 1) := fun h => by omega
    have he4m3 : ¬(f.top = .e4m3 ∧ 0 = 15 ∧ m = 7) := fun h => by omega
    simp only [if_neg hieee, if_neg he4m3, if_true, qmin]
  · obtain ⟨x, hx⟩ := Int.eq_ofNat_of_zero_le (show 0 ≤ q + f.bias + f.mb by rw [qmin] at hquantum; omega)
    have hx0 : x ≠ 0 := by rw [qmin] at hquantum; omega
    obtain ⟨hlt, hieee, he4m3⟩ := top_exponent hf ⟨hsig, hquantum, hsub, hfits⟩ hx
    obtain ⟨hs, he, hfrac⟩ := f.fields hf s hlt (m := m - 2 ^ f.mb) (by omega)
    rw [pack, if_neg hm, hx, Int.toNat_natCast, decode, hs, he, hfrac]
    simp only [if_neg (not_and.mpr hieee), if_neg (not_and.mpr fun ht => not_and.mpr (he4m3 ht)), if_neg hx0]
    congr 1 <;> omega

theorem FloatFmt.decode_fin {f : FloatFmt} {c : Nat} {s : Bool} {m : Nat} {q : Int} (h : f.decode c = .fin s m q) :
    m < 2 ^ (f.mb + 1) ∧ f.qmin ≤ q := by
  have hfrac := Nat.mod_lt c (Nat.two_pow_pos f.mb)
  have htwo := Nat.pow_succ 2 f.mb
  simp only [decode] at h
  split_ifs at h with h1 h2 h3 h4 <;> cases h <;> simp only [qmin] <;> omega

theorem FloatFmt.pack_mod_two {f : FloatFmt} (hf : f.Listed) (s : Bool) (m : Nat) (q : Int) : f.pack s m q % 2 = m % 2 := by
  have heven : 2 ∣ 2 ^ f.mb := dvd_pow_self 2 (by have := hf.mb; omega)
  have hs : 2 ∣ f.signBit s := by
    cases s
    · simp [signBit]
    · exact dvd_pow_self 2 (by have := hf.mb; omega)
  have he : 2 ∣ (q + f.bias + f.mb).toNat * 2 ^ f.mb := heven.mul_left _
  unfold pack
  split <;> omega

theorem FloatFmt.holds_roundTo {f : FloatFmt} {m : Nat} {e : Int} {r : Nat × Int} (hr : roundTo f.mb f.qmin m e = r)
    (hfits : ¬(r.2 > f.maxFin.2 ∨ (r.2 = f.maxFin.2 ∧ r.1 > f.maxFin.1))) : f.Holds r.1 r.2 := by
  obtain ⟨q, n, hround, hq, hbig, hn, hcases⟩ := roundTo_cases f.mb f.qmin m e
  rw [← hr, hcases] at hfits ⊢
  split_ifs at hfits ⊢ with hcarry
  · exact ⟨Nat.pow_lt_pow_right one_lt_two (Nat.lt_succ_self _), by omega, fun h => absurd h (lt_irrefl _), hfits⟩
  · refine ⟨hn.lt_of_ne hcarry, hq, fun hlt => ?_, hfits⟩
    refine hbig.resolve_right fun hle => ?_
    have hge := hround.intCast_le (b := (2 ^ f.mb : Nat)) (by push_cast; exact hle)
    have hlt : n < 2 ^ f.mb := hlt
    omega

theorem FloatFmt.encode_fin {f : FloatFmt} {sat s : Bool} {m : Nat} {e : Int} (h : (f.encode sat (.fin s m e)).2 = 0) :
    ∃ r, roundTo f.mb f.qmin m e = r ∧ f.Holds r.1 r.2 ∧ f.encode sat (.fin s m e) = (f.pack s r.1 r.2, 0) := by
  have hr : roundTo f.mb (1 - f.bias - f.mb) m e = roundTo f.mb f.qmin m e := rfl
  refine ⟨_, rfl, ?_⟩
  simp only [encode, hr] at h ⊢
  split_ifs at h ⊢ with hbig
  · cases h
  · cases h
  · exact ⟨f.holds_roundTo rfl hbig, rfl⟩

end Sys2Proof.Machine
end

section
/-! SUPPORT. The numbers that values and codes stand for, and when a code is the nearest one of its format (R48, R56). -/
namespace Sys2Proof.Machine

theorem ratPow2_eq (e : Int) : ratPow2 e = 2 ^ e := by
  unfold ratPow2
  split
  case isTrue he =>
    obtain ⟨k, rfl⟩ := Int.eq_ofNat_of_zero_le he
    simp
  case isFalse he =>
    obtain ⟨k, hk⟩ := Int.eq_ofNat_of_zero_le (show 0 ≤ -e by omega)
    obtain rfl : e = -k := by omega
    simp

theorem ratDist_eq (x y : Rat) : ratDist x y = |x - y| := by
  unfold ratDist
  split
  case isTrue h => rw [abs_of_nonpos (by linarith)]; ring
  case isFalse h => rw [abs_of_nonneg (by linarith)]

theorem FV.rat_fin (s : Bool) (m : Nat) (e : Int) : (FV.fin s m e).rat = sgn s * m * 2 ^ e := by
  cases s <;> simp [FV.rat, ratPow2_eq, sgn]

/-- The same number counted in quanta of `2 ^ q`. -/
theorem FV.rat_fin_quantum (s : Bool) (m : Nat) (e q : Int) : (FV.fin s m e).rat = sgn s * (m * 2 ^ (e - q)) * 2 ^ q := by
  rw [FV.rat_fin, mul_assoc, mul_assoc, mul_assoc, ← zpow_add₀ two_ne_zero, sub_add_cancel]

/-- A code is the nearest of its format when it is the number rounded to a quantum, and every other code of the format is a
whole number of quanta or farther away. -/
theorem nearest_of_quantum {fmt c : Nat} {x y : Rat} {n q : Int} (hx : x = y * 2 ^ q) (hround : RoundsTo n y)
    (hfin : (ofFmt fmt c).finite = true) (hc : (ofFmt fmt c).rat = n * 2 ^ q) (heven : Even n → c % 2 = 0)
    (hcodes : ∀ k, (ofFmt fmt k).finite = true →
      ∃ w : Rat, (ofFmt fmt k).rat = w * 2 ^ q ∧ ((∃ z : Int, w = z) ∨ |(n : Rat) - y| < |w - y|)) : Nearest fmt x c := by
  have hq : (0 : Rat) < 2 ^ q := by positivity
  have hdist : ∀ w : Rat, ratDist (w * 2 ^ q) x = |w - y| * 2 ^ q := fun w => by
    rw [ratDist_eq, hx, ← sub_mul, abs_mul, abs_of_pos hq]
  refine ⟨hfin, fun k _ hk => ?_, fun k _ hk htie => ?_⟩ <;> obtain ⟨w, hw, hcase⟩ := hcodes k hk
  · rw [hc, hw, hdist, hdist]
    refine mul_le_mul_of_nonneg_right ?_ hq.le
    rcases hcase with ⟨z, rfl⟩ | hlt
    · exact hround.abs_sub_le z
    · exact hlt.le
  · rw [hc, hw, hdist, hdist, mul_left_inj' hq.ne'] at htie
    rcases hcase with ⟨z, rfl⟩ | hlt
    · exact (hround.eq_or_even htie.ge).imp (fun hz => by rw [hc, hw, hz]) fun h => heven h.2
    · exact absurd htie hlt.ne

theorem FV.finite_iff {v : FV} : v.finite = true ↔ ∃ s m e, v = .fin s m e := by cases v <;> simp [FV.finite]

theorem ofFmt_float {fmt : Nat} {f : FloatFmt} (h : floatFmt fmt = some f) (c : Nat) : ofFmt fmt c = f.decode c := by
  rw [ofFmt, h]

theorem toFmt_float {fmt : Nat} {f : FloatFmt} (h : floatFmt fmt = some f) (sat : Bool) (v : FV) :
    toFmt fmt sat v = f.encode sat v := by rw [toFmt, h]

/-- A value of a float format is a whole number of quanta, or lies below the numbers that are rounded to a quantum above
the least one. -/
theorem FloatFmt.quanta_or_farther {f : FloatFmt} {c : Nat} {s : Bool} {m : Nat} {e q n : Int} {y : Rat}
    (hdec : f.decode c = .fin s m e) (hround : RoundsTo n y) (hq : q = f.qmin ∨ 2 ^ f.mb ≤ |y|) :
    (∃ z : Int, (sgn s : Rat) * (m * 2 ^ (e - q)) = z) ∨ |(n : Rat) - y| < |sgn s * (m * 2 ^ (e - q)) - y| := by
  obtain ⟨hm, he⟩ := decode_fin hdec
  rcases le_or_gt q e with hqe | hqe
  · obtain ⟨k, hk⟩ := Int.eq_ofNat_of_zero_le (show 0 ≤ e - q by omega)
    exact .inl ⟨sgn s * (m * 2 ^ k), by rw [hk]; push_cast; simp⟩
  · refine .inr (hround.abs_lt_of_abs_lt (b := 2 ^ f.mb) ?_ (by push_cast; exact hq.resolve_left (by omega)))
    rw [abs_mul, abs_sgn, one_mul, abs_of_nonneg (by positivity)]
    calc (m : Rat) * 2 ^ (e - q) < 2 ^ (f.mb + 1) * 2 ^ (e - q) := by gcongr; exact_mod_cast hm
      _ ≤ 2 ^ (f.mb + 1) * 2 ^ (-1 : Int) := by gcongr; exacts [one_le_two, by omega]
      _ = ((2 ^ f.mb : Int) : Rat) := by push_cast; rw [pow_succ]; simp

/-- A conversion to a float format that sets no flag gives the nearest code. -/
theorem nearest_encode {fmt : Nat} {f : FloatFmt} (hfmt : floatFmt fmt = some f) {sat s : Bool} {m : Nat} {e : Int}
    (h : (f.encode sat (.fin s m e)).2 = 0) : Nearest fmt (FV.fin s m e).rat (f.encode sat (.fin s m e)).1 := by
  obtain ⟨hf, -⟩ := floatFmt_listed hfmt
  obtain ⟨r, hr, hholds, henc⟩ := f.encode_fin h
  obtain ⟨q, n, hround, hq, hbig, hn, hcases⟩ := roundTo_cases f.mb f.qmin m e
  have hdec : ofFmt fmt (f.pack s r.1 r.2) = .fin s r.1 r.2 := by rw [ofFmt_float hfmt, f.decode_pack hf s hholds]
  have hval : (r.1 : Rat) * 2 ^ r.2 = n * 2 ^ q ∧ (Even n → Even r.1) := by
    rw [← hr, hcases]
    split_ifs with hcarry
    · subst hcarry
      refine ⟨?_, fun _ => even_two.pow_of_ne_zero (by have := hf.mb; omega)⟩
      push_cast
      rw [zpow_add_one₀ two_ne_zero, pow_succ]; ring
    · exact ⟨rfl, id⟩
  obtain ⟨hsame, hpar⟩ := hval
  rw [henc]
  refine nearest_of_quantum (FV.rat_fin_quantum s m e q) (hround.sgn_mul s) (by rw [hdec]; rfl) ?_ (fun hev => ?_) fun k hk => ?_
  · rw [hdec, FV.rat_fin, mul_assoc, hsame]; push_cast; ring
  · rw [even_sgn_mul, Int.even_coe_nat] at hev
    rw [FloatFmt.pack_mod_two hf, Nat.even_iff.mp (hpar hev)]
  · obtain ⟨t, m', e', hk⟩ := FV.finite_iff.mp hk
    refine ⟨_, by rw [hk, FV.rat_fin_quantum t m' e' q], ?_⟩
    rw [ofFmt_float hfmt] at hk
    refine FloatFmt.quanta_or_farther hk (hround.sgn_mul s) (hbig.imp_right fun hle => ?_)
    rw [abs_mul, abs_sgn, one_mul]
    exact hle.trans (le_abs_self _)

end Sys2Proof.Machine
end

section
/-! SUPPORT. The integer formats (R46, R58). -/
namespace Sys2Proof.Machine

theorem signed_wrap {w : Nat} (hw : 1 ≤ w) {x : Int} (hlo : -2 ^ (w - 1) ≤ x) (hhi : x < 2 ^ (w - 1)) :
    signed w (wrap w x) = x := by
  obtain ⟨k, rfl⟩ := Nat.exists_eq_add_of_le' hw
  rw [Nat.add_sub_cancel] at hlo hhi
  have hk : ((2 ^ k : Nat) : Int) = 2 ^ k := by push_cast; rfl
  have hpow : (2 : Int) ^ (k + 1) = 2 ^ k * 2 := pow_succ 2 k
  rw [← hk] at hlo hhi hpow
  unfold signed wrap bit
  rw [Nat.add_sub_cancel, hpow]
  have hmod : x % ((2 ^ k : Nat) * 2 : Int) = if x < 0 then x + (2 ^ k : Nat) * 2 else x := by
    split
    · rw [← Int.add_emod_right, Int.emod_eq_of_lt] <;> omega
    · rw [Int.emod_eq_of_lt] <;> omega
  rw [hmod]
  split
  case isTrue hneg =>
    have hdiv : (x + (2 ^ k : Nat) * 2).toNat / 2 ^ k = 1 := by
      rw [Nat.div_eq_iff (Nat.two_pow_pos k)]; omega
    rw [hdiv]; simp; omega
  case isFalse hneg =>
    have hdiv : x.toNat / 2 ^ k = 0 := Nat.div_eq_of_lt (by omega)
    rw [hdiv]; simp; omega

theorem wrap_mod_two {w : Nat} (hw : 1 ≤ w) (x : Int) : ((wrap w x : Nat) : Int) % 2 = x % 2 := by
  rw [wrap, Int.toNat_of_nonneg (Int.emod_nonneg _ (by positivity)), Int.emod_emod_of_dvd _ (dvd_pow_self 2 (by omega))]

theorem rat_intFV (x : Int) : (intFV x).rat = x := by
  rw [intFV, FV.rat_fin, zpow_zero, mul_one, sgn]
  have := Nat.cast_natAbs (α := Rat) x
  by_cases h : x < 0
  · simp [h, this, abs_of_neg]
  · simp [h, this, abs_of_nonneg (not_lt.mp h)]

theorem fmtIsInt_floatFmt {fmt : Nat} (h : fmtIsInt fmt = true) : floatFmt fmt = none ∧ 1 ≤ fmtWidth fmt := by
  simp only [fmtIsInt, Bool.or_eq_true, beq_iff_eq] at h
  obtain (rfl | rfl) | rfl := h <;> decide

theorem ofFmt_int {fmt : Nat} (h : fmtIsInt fmt = true) (c : Nat) : ofFmt fmt c = intFV (signed (fmtWidth fmt) c) := by
  rw [ofFmt, (fmtIsInt_floatFmt h).1]
  exact if_pos h

theorem toFmt_int {fmt : Nat} (h : fmtIsInt fmt = true) (sat : Bool) (v : FV) : toFmt fmt sat v = intEncode (fmtWidth fmt) v := by
  rw [toFmt, (fmtIsInt_floatFmt h).1]

theorem intEncode_fin {w : Nat} {s : Bool} {m : Nat} {e : Int} (h : (intEncode w (.fin s m e)).2 = 0) :
    -2 ^ (w - 1) ≤ rneInt s m e ∧ rneInt s m e < 2 ^ (w - 1) ∧ intEncode w (.fin s m e) = (wrap w (rneInt s m e), 0) := by
  simp only [intEncode] at h ⊢
  split_ifs at h ⊢ with hhi hlo
  · cases h
  · cases h
  · exact ⟨by omega, by omega, rfl⟩

/-- A conversion to an integer format that sets no flag gives the nearest code. -/
theorem nearest_intEncode {fmt : Nat} (hfmt : fmtIsInt fmt = true) {s : Bool} {m : Nat} {e : Int}
    (h : (intEncode (fmtWidth fmt) (.fin s m e)).2 = 0) :
    Nearest fmt (FV.fin s m e).rat (intEncode (fmtWidth fmt) (.fin s m e)).1 := by
  obtain ⟨-, hw⟩ := fmtIsInt_floatFmt hfmt
  obtain ⟨hlo, hhi, henc⟩ := intEncode_fin h
  have hdec : ofFmt fmt (wrap (fmtWidth fmt) (rneInt s m e)) = intFV (rneInt s m e) := by
    rw [ofFmt_int hfmt, signed_wrap hw hlo hhi]
  rw [henc]
  refine nearest_of_quantum (q := 0) (by rw [FV.rat_fin_quantum s m e 0, sub_zero]) (roundsTo_rneInt s m e)
    (by rw [hdec]; rfl) ?_ (fun hev => ?_) fun k _ => ?_
  · rw [hdec, rat_intFV, zpow_zero, mul_one]
  · have := wrap_mod_two hw (rneInt s m e)
    have := Int.even_iff.mp hev
    omega
  · exact ⟨_, by rw [ofFmt_int hfmt, rat_intFV, zpow_zero, mul_one], .inl ⟨_, rfl⟩⟩

end Sys2Proof.Machine
end

section
/-! PROOFS. Conversions between the number formats (02_number_formats.md). -/
namespace Sys2Proof.Machine

/-- The codes of the float formats. -/
theorem floatFmt_of_lt {fmt : Nat} (h : fmt < 8) : ∃ f, floatFmt fmt = some f := by
  interval_cases fmt <;> exact ⟨_, rfl⟩

theorem floatFmt_or_fmtIsInt {fmt : Nat} (h : fmt ≤ 10) : (∃ f, floatFmt fmt = some f) ∨ fmtIsInt fmt = true := by
  rcases lt_or_ge fmt 8 with hlt | hge
  · exact .inl (floatFmt_of_lt hlt)
  · right; interval_cases fmt <;> rfl

/-- Settles O43: a float format and an integer format each round to a quantum of their own, and every code of the format is
a whole number of those quanta or farther away. -/
theorem conversionsRoundToNearest : Obligations.ConversionsRoundToNearest := by
  intro fmt sat neg m e hfmt hflags
  rcases floatFmt_or_fmtIsInt hfmt with ⟨f, hf⟩ | hint
  · rw [toFmt_float hf] at hflags ⊢
    exact nearest_encode hf hflags
  · rw [toFmt_int hint] at hflags ⊢
    exact nearest_intEncode hint hflags

theorem FloatFmt.holds_zero {f : FloatFmt} (hf : f.Listed) : f.Holds 0 f.qmin := by
  refine ⟨Nat.two_pow_pos _, le_rfl, fun _ => rfl, ?_⟩
  have heb : (2 : Int) ^ 2 ≤ 2 ^ f.eb := pow_le_pow_right₀ one_le_two hf.eb
  unfold maxFin qmin
  cases ht : f.top with
  | ieee => simp; omega
  | none => simp; omega
  | e4m3 => rw [hf.e4m3 ht]; simp

theorem FloatFmt.pack_zero (f : FloatFmt) (s : Bool) (q : Int) : f.pack s 0 q = f.signBit s := by
  rw [pack, if_pos (Nat.two_pow_pos _), Nat.add_zero]

theorem FloatFmt.encode_zero {f : FloatFmt} (hf : f.Listed) (sat s : Bool) (e : Int) :
    f.encode sat (.fin s 0 e) = (f.signBit s, 0) := by
  have hround : roundTo f.mb (1 - f.bias - f.mb) 0 e = (0, f.qmin) := if_pos rfl
  rw [encode, hround]
  simp only [if_neg (holds_zero hf).fits, pack_zero]

theorem intEncode_zero {w : Nat} (s : Bool) (e : Int) : intEncode w (.fin s 0 e) = (0, 0) := by
  have hzero : rneInt s 0 e = 0 := by
    have hround := roundsTo_rneInt s 0 e
    rw [Nat.cast_zero, zero_mul, mul_zero] at hround
    exact le_antisymm (hround.le_intCast (by simp)) (hround.intCast_le (by simp))
  have hpow : (0 : Int) < 2 ^ (w - 1) := by positivity
  have hhi : ¬((0 : Int) > 2 ^ (w - 1) - 1) := by omega
  have hlo : ¬((0 : Int) < -2 ^ (w - 1)) := by omega
  simp only [intEncode, hzero, if_neg hhi, if_neg hlo, wrap, Int.zero_emod, Int.toNat_zero]

theorem signBit_true {fmt : Nat} {f : FloatFmt} (h : floatFmt fmt = some f) : f.signBit true = 2 ^ (fmtWidth fmt - 1) := by
  rw [(floatFmt_listed h).2]; rfl

theorem ofFmt_negZero {fmt : Nat} (h : fmt < 8) : ∃ e, ofFmt fmt (2 ^ (fmtWidth fmt - 1)) = .fin true 0 e := by
  obtain ⟨f, hf⟩ := floatFmt_of_lt h
  obtain ⟨hlisted, -⟩ := floatFmt_listed hf
  rw [← signBit_true hf, ← f.pack_zero true f.qmin, ofFmt_float hf]
  exact ⟨f.qmin, f.decode_pack hlisted true (f.holds_zero hlisted)⟩

theorem toFmt_nan_of_noNaN {fmt : Nat} (sat : Bool) (h1 : 5 ≤ fmt) (h2 : fmt ≤ 10) : (toFmt fmt sat .nan).1 = 0 := by
  interval_cases fmt <;> rfl

/-- Settles O40: the code of a negative zero is a sign bit alone, whose value each format's encoder takes to its own zero. -/
theorem specialValuesConvert : Obligations.SpecialValuesConvert := by
  refine ⟨fun a b sat ha hb => ?_, fun a b sat ha hb => ?_, fun b sat => toFmt_nan_of_noNaN sat, fun fmt c => if_pos rfl⟩
  · obtain ⟨e, he⟩ := ofFmt_negZero ha
    obtain ⟨f, hf⟩ := floatFmt_of_lt hb
    rw [he, toFmt_float hf, f.encode_zero (floatFmt_listed hf).1, signBit_true hf]
  · obtain ⟨e, he⟩ := ofFmt_negZero ha
    rw [he, toFmt_int hb, intEncode_zero]

end Sys2Proof.Machine
end

section
/-! SUPPORT. The programmed comparators (R120). -/
namespace Sys2Proof.Machine

/-- The difference *d* of R120: comparator m's counter less its value, as a signed 32-bit number. -/
def State.cmDiff (s : State) (n m : Nat) : Int :=
  signed 32 (wrap 32 ((s.reg .CT_value (n * 8 + s.reg .CM_ct (n * 4 + m)) : Int) - s.reg .CM_value (n * 4 + m)))

variable {s : State} {n m : Nat}

theorem State.cmTrue_ge (h : s.reg .CM_rel (n * 4 + m) = 0) : s.cmTrue n m = true ↔ 0 ≤ s.cmDiff n m := by
  simp only [cmTrue, h, cmDiff, decide_eq_true_iff]

theorem State.cmTrue_eq (h : s.reg .CM_rel (n * 4 + m) = 1) : s.cmTrue n m = true ↔ s.cmDiff n m = 0 := by
  simp only [cmTrue, h, cmDiff, beq_iff_eq]

theorem State.cmTrue_lt (h : s.reg .CM_rel (n * 4 + m) = 2) : s.cmTrue n m = true ↔ s.cmDiff n m < 0 := by
  simp only [cmTrue, h, cmDiff, decide_eq_true_iff]

theorem State.cmTrue_ne (h : s.reg .CM_rel (n * 4 + m) = 3) : s.cmTrue n m = true ↔ s.cmDiff n m ≠ 0 := by
  simp only [cmTrue, h, cmDiff, bne_iff_ne]

end Sys2Proof.Machine
end

section
/-! PROOFS. Charge records (04_charge_records.md). -/
namespace Sys2Proof.Machine

/-- Settles O38: the difference is `State.cmDiff`, and each relation code has its lemma. -/
theorem comparatorsHoldByTheirRelation : Obligations.ComparatorsHoldByTheirRelation := by
  rintro s n m d rfl
  exact ⟨State.cmTrue_ge, State.cmTrue_eq, State.cmTrue_lt, State.cmTrue_ne⟩

end Sys2Proof.Machine
end

section
/-! SUPPORT. A core's queues: what emptying some of them leaves (R151), and what a core reset leaves of their rings (R371). -/
namespace Sys2Proof.Machine

theorem queueAt_qEmpty (n p q : Nat) (s : State) :
    (run (qEmpty n p) s).queueAt n q = if q = p then {} else s.queueAt n q := by
  split_ifs with h
  · rw [h]; exact queueAt_same s n p {}
  · simp only [qEmpty, run_upd, State.queueAt, applyUpd_queue_self]
    exact Store.get_set_other _ _ _ (by omega)

theorem queueAt_each_qEmpty (n : Nat) (l : List Nat) (q : Nat) (s : State) :
    (run (Eff.each l (fun p => qEmpty n p)) s).queueAt n q = if q ∈ l then {} else s.queueAt n q := by
  induction l generalizing s with
  | nil => rfl
  | cons p l ih =>
    calc (run (Eff.each l fun p => qEmpty n p) (run (qEmpty n p) s)).queueAt n q
      _ = if q ∈ l then {} else if q = p then {} else s.queueAt n q := by rw [ih, queueAt_qEmpty]
      _ = if q ∈ p :: l then {} else s.queueAt n q := by simp only [List.mem_cons, or_comm (a := q = p), ite_or]

theorem reg_clearRegs (p : Nat → Bool) (s : State) (r : Fld) (i : Nat) :
    (applyUpd (.clearRegs p) s).reg r i = if p (regKey r i) then regDflt r i else s.reg r i :=
  Store.get_clear _ _ _ _

theorem keyFld_regKey (r : Fld) (i : Nat) : keyFld (regKey r i) = r := by
  have hr : regKey r i % 512 = r.ctorIdx := by have := fld_ctorIdx_lt r; unfold regKey; omega
  rw [keyFld, hr, Fld.ofNat_ctorIdx]

theorem keyInst_regKey (r : Fld) (i : Nat) : keyInst (regKey r i) = i := by
  have := fld_ctorIdx_lt r
  unfold keyInst regKey
  omega

theorem regsWhere_regKey (d : Dom) (o : Own) (p : Nat → Bool) (r : Fld) (i : Nat) :
    regsWhere d o p (regKey r i) = (r.info.dom == d && r.info.unit == o && p (i / r.info.per)) := by
  rw [regsWhere, keyFld_regKey, keyInst_regKey]

/-- Every ring field is a core's own, of 13 bits, and resets to 0 (R140). -/
theorem ringFld_info (q : Nat) : (ringFld q).info = ⟨13, .rw, 0, .l, .site, 1, .core⟩ := by
  unfold ringFld; split <;> rfl

theorem regDflt_ringFld (q i : Nat) : regDflt (ringFld q) i = 0 := by
  unfold ringFld; split <;> rfl

theorem reg_clearWhere_ringFld (n q : Nat) (s : State) :
    (run (clearWhere .core .site (· == n)) s).reg (ringFld q) n = 0 := by
  have hpick : regsWhere .core .site (· == n) (regKey (ringFld q) n) = true := by
    rw [regsWhere_regKey, ringFld_info]
    simp
  rw [clearWhere, run_upd, reg_clearRegs, if_pos hpick, regDflt_ringFld]

theorem State.ring_eq_none {s : State} {n q : Nat} (h : s.reg (ringFld q) n = 0) : s.ring n q = none := by
  simp only [State.ring, h, Nat.zero_mod, if_pos]

variable {n q : Nat}

/-- The other updates of a core reset are of other tables. -/
theorem queueAt_resetCore (hq : q < 16) (s : State) : (run (resetCore n) s).queueAt n q = {} := by
  simp [resetCore, setAg, queueAt_each_qEmpty, hq]

/-- The ring fields are cleared with the core's registers, and a core reset writes no register after that. -/
theorem reg_resetCore_ringFld (s : State) : (run (resetCore n) s).reg (ringFld q) n = 0 := by
  simp [resetCore, setAg, qEmpty, reg_clearWhere_ringFld]

section
variable {s : State} (hon : s.coreOff n = false) (hheld : s.clusterHeld (n / 12) = false)
include hon hheld

/-- A core reset takes effect on an enabled site that no wider reset holds. -/
theorem run_holdCore :
    run (holdCore n) s = run (setCluster (n / 12) fun x => { x with coreRst := setBit x.coreRst (n % 12) true })
      (run (resetCore n) s) := by
  simp only [holdCore, run_get, run_when, hon, hheld, Bool.not_false, Bool.and_self, if_true, run_seq]

theorem queueAt_holdCore (hq : q < 16) : (run (holdCore n) s).queueAt n q = {} := by
  rw [run_holdCore hon hheld, (setCluster_may (mk := maySetCluster) rfl _ _).queueAt rfl rfl, queueAt_resetCore hq]

theorem ring_holdCore : (run (holdCore n) s).ring n q = none := by
  apply State.ring_eq_none
  rw [run_holdCore hon hheld, run_setCluster, reg_applyUpd_frame _ _ _ _ rfl, reg_resetCore_ringFld]

end

/-- The three states are IDLE, PAUSED and ERROR (R151). -/
theorem queueAt_qFlush {bitmap : Nat} {s : State} (hstop : s.seqState n = 0 ∨ s.seqState n = 6 ∨ s.seqState n = 7)
    (hq : q < 16) : (run (qFlush n bitmap) s).queueAt n q = if bit bitmap q then {} else s.queueAt n q := by
  have hstop' : (s.seqState n == 0 || s.seqState n == 6 || s.seqState n == 7) = true := by simpa [or_assoc] using hstop
  simp only [qFlush, run_get, run_when, if_pos hstop', queueAt_each_qEmpty, List.mem_filter, List.mem_range, hq, true_and]

theorem run_qFlush_running {bitmap : Nat} {s : State} (hidle : s.seqState n ≠ 0) (hpaused : s.seqState n ≠ 6)
    (herror : s.seqState n ≠ 7) : run (qFlush n bitmap) s = s := by
  simp [qFlush, hidle, hpaused, herror]

theorem exec_crsCoreGo (n : SiteIx) (s : State) : exec (.crsCoreGo n) s = .next (run (holdCore n) s) := rfl

theorem exec_qCtlFlush (n : SiteIx) (m : BitVec 16) (s : State) :
    exec (.qCtlFlush n m) s = .next (if s.coreLive n then run (qFlush n m.toNat) s else s) := by
  rw [← run_when]
  rfl

end Sys2Proof.Machine
end

section
/-! PROOFS. Queues and address generation (05_queues_and_address_generation.md). -/
namespace Sys2Proof.Machine

/-- Settles O50: a core reset clears the ring fields with the core's registers and empties every queue, and a flush empties
the queues of its bitmap, unless the sequencer is in a running state. -/
theorem coreResetsEmptyQueues : Obligations.CoreResetsEmptyQueues := by
  refine ⟨fun n s hon hheld => ?_, fun n m s hlive hstop => ?_, fun n m s hidle hpaused herror => ?_⟩
  case refine_1 => exact ⟨_, exec_crsCoreGo n s, fun q hq => ⟨queueAt_holdCore hon hheld hq, ring_holdCore hon hheld⟩⟩
  case refine_2 =>
    rw [exec_qCtlFlush, if_pos hlive]
    exact ⟨_, rfl, fun q hq => queueAt_qFlush hstop hq⟩
  case refine_3 => rw [exec_qCtlFlush, run_qFlush_running hidle hpaused herror, ite_self]

end Sys2Proof.Machine
end

section
/-! SUPPORT. Frames of stacked memory: the slice, bank and frame fields of an address, and the key made of them (R187, R188). -/
namespace Sys2Proof.Machine

theorem bankOf_lt (off : Nat) : bankOf off < 128 := by
  unfold bankOf; omega

theorem frameOf_lt (off : Nat) : frameOf off < 256 := Nat.mod_lt _ (by decide)

section
variable (a : Nat)

/-- The bank's fields lie below the slice's. -/
@[simp] theorem bankOf_offset : bankOf (a % 2 ^ 30) = bankOf a := by
  unfold bankOf; omega

@[simp] theorem frameOf_offset : frameOf (a % 2 ^ 30) = frameOf a := by
  unfold frameOf; omega

theorem keyOfAddr_eq : keyOfAddr a = frameKey (a / 2 ^ 30) (bankOf a) (frameOf a) := by
  rw [keyOfAddr, bankOf_offset, frameOf_offset]

/-- The three fields name every bit of an address from bit 15 up (R187). -/
theorem frameAddr_fields : frameAddr (a / 2 ^ 30) (bankOf a) (frameOf a) = a / 2 ^ 15 * 2 ^ 15 := by
  have hlayer : bankOf a / 16 = a / 2 ^ 15 % 8 := by unfold bankOf; omega
  have hinLayer : bankOf a % 16 = a / 2 ^ 18 % 16 := by unfold bankOf; omega
  rw [frameAddr, frameOf, hlayer, hinLayer]
  omega

end

section
variable {n b f : Nat} (hb : b < 128)
include hb

theorem bankOf_frameAddr : bankOf (frameAddr n b f) = b := by
  have hlayer : frameAddr n b f / 2 ^ 15 % 8 = b / 16 := by unfold frameAddr; omega
  have habove : frameAddr n b f / 2 ^ 18 = n * 2 ^ 12 + f * 2 ^ 4 + b % 16 := by unfold frameAddr; omega
  have hinLayer : frameAddr n b f / 2 ^ 18 % 16 = b % 16 := by rw [habove]; omega
  rw [bankOf, hlayer, hinLayer, Nat.div_add_mod']

variable (hf : f < 256)
include hf

theorem frameAddr_slice : frameAddr n b f / 2 ^ 30 = n := by
  unfold frameAddr; omega

theorem frameOf_frameAddr : frameOf (frameAddr n b f) = f := by
  have habove : frameAddr n b f / 2 ^ 22 = n * 2 ^ 8 + f := by unfold frameAddr; omega
  rw [frameOf, habove]
  omega

theorem addrOfKey_frameKey : addrOfKey (frameKey n b f) = frameAddr n b f := by
  have hn : frameKey n b f / 32768 = n := by unfold frameKey; omega
  have hbank : frameKey n b f / 256 % 128 = b := by unfold frameKey; omega
  have hframe : frameKey n b f % 256 = f := by unfold frameKey; omega
  rw [addrOfKey, hn, hbank, hframe]

end

/-- A frame is aligned to its 32 KiB. -/
theorem frameAddr_aligned (n b f : Nat) : frameAddr n b f % 2 ^ 15 = 0 := by
  unfold frameAddr; omega

theorem addrOfKey_keyOfAddr (a : Nat) : addrOfKey (keyOfAddr a) = a / 2 ^ 15 * 2 ^ 15 := by
  rw [keyOfAddr_eq, addrOfKey_frameKey (bankOf_lt a) (frameOf_lt a), frameAddr_fields]

/-- Each field of the key is a field of the address from bit 15 up. -/
theorem keyOfAddr_congr {a c : Nat} (h : a / 2 ^ 15 = c / 2 ^ 15) : keyOfAddr a = keyOfAddr c := by
  have hslice : a / 2 ^ 30 = c / 2 ^ 30 := by omega
  have hbank : bankOf a = bankOf c := by unfold bankOf; omega
  have hframe : frameOf a = frameOf c := by unfold frameOf; omega
  rw [keyOfAddr_eq, keyOfAddr_eq, hslice, hbank, hframe]

end Sys2Proof.Machine
end

section
/-! PROOFS. Stacked memory (07_stacked_memory.md). -/
namespace Sys2Proof.Machine

/-- Settles O39: the fields read from a frame's address are those it was made of, and an address's key depends on its bits
from 15 up, which it gives back. -/
theorem framesAreTheirOffsetBits : Obligations.FramesAreTheirOffsetBits := by
  refine ⟨fun n b f _ hb hf => ⟨rfl, frameAddr_slice hb hf, ?_, ?_, frameAddr_aligned n b f⟩,
    fun a c _ hac => ⟨keyOfAddr_congr hac, addrOfKey_keyOfAddr a⟩⟩
  · rw [bankOf_offset, bankOf_frameAddr hb]
  · rw [frameOf_offset, frameOf_frameAddr hb hf]

end Sys2Proof.Machine
end

section
/-! SUPPORT. Default routes (R350): the digits of the route field's reset value, and that a fabric-plane reset leaves every
register field of the stack at its reset value (R371). -/
namespace Sys2Proof.Machine

theorem reg_reset (r : Fld) (i : Nat) : State.reset.reg r i = regDflt r i := rfl

/-- The reset value of the route field spells one base-4 digit for each stack. -/
theorem defaultRoutes_digit : ∀ st d : Fin 12, defaultRoutes st / 4 ^ d.val % 4 = defaultRoute st d := by decide

theorem routeOf_of_regDflt {s : State} {st : StackIx} (h : s.reg .NOC_ROUTE_stack st = regDflt .NOC_ROUTE_stack st)
    (d : Fin 12) : s.routeOf st d = defaultRoute st d := by
  rw [State.routeOf, h]
  exact defaultRoutes_digit st d

theorem reg_clearWhere (d : Dom) (o : Own) (p : Nat → Bool) (s : State) (r : Fld) (i : Nat) :
    (run (clearWhere d o p) s).reg r i =
      if r.info.dom == d && r.info.unit == o && p (i / r.info.per) then regDflt r i else s.reg r i := by
  rw [clearWhere, run_upd, reg_clearRegs, regsWhere_regKey]

/-- The field is one of a stack's own registers, and in its fabric-plane domain (R371). -/
structure PlaneFld (r : Fld) : Prop where
  dom : r.info.dom = .fp
  unit : r.info.unit = .stack
  per : r.info.per = 1

theorem planeFld_NOC_ROUTE_stack : PlaneFld .NOC_ROUTE_stack := ⟨rfl, rfl, rfl⟩
theorem planeFld_NOC_ROUTE_iod : PlaneFld .NOC_ROUTE_iod := ⟨rfl, rfl, rfl⟩

namespace PlaneFld
variable {r : Fld} (hr : PlaneFld r)
include hr

theorem sparesReg_of_unit {q : Fld} (hq : q.info.unit ≠ .stack) (i j v : Nat) : Upd.sparesReg r i (.reg q j v) :=
  fun h => hq (h.1 ▸ hr.unit)

theorem reg_doorbell (g src i : Nat) (s : State) : (run (doorbell g src) s).reg r i = s.reg r i :=
  reg_run _ _ _ _ (doorbell_only _ g src (fun _ => trivial) (hr.sparesReg_of_unit (by decide) _ _ _))

theorem reg_hostRing (f kind param i : Nat) (s : State) : (run (hostRing f kind param) s).reg r i = s.reg r i :=
  reg_run _ _ _ _ (hostRing_only _ f kind param (fun _ => trivial) (fun _ => trivial)
    (fun _ _ => hr.sparesReg_of_unit (by decide) _ _ _) (fun _ => trivial) (fun _ _ => trivial)
    (fun _ => hr.sparesReg_of_unit (by decide) _ _ _) (hr.sparesReg_of_unit (by decide) _ _ _))

theorem reg_clearWhere_stack (st : Nat) (s : State) : (run (clearWhere .fp .stack (· == st)) s).reg r st = regDflt r st := by
  simp [reg_clearWhere, hr.dom, hr.unit, hr.per]

theorem reg_clearWhere_port (p : Nat → Bool) (i : Nat) (s : State) :
    (run (clearWhere .fp .port p) s).reg r i = s.reg r i := by
  simp [reg_clearWhere, hr.unit]

/-- What a fabric-plane reset does after it clears the stack's registers writes none of them. -/
theorem reg_resetFp (st : Nat) (s : State) : (run (resetFp st) s).reg r st = regDflt r st := by
  have hbuckets (l : List Nat) (t : State) :
      (run (Eff.each l fun k => .upd (.bucket (32 + 32 * st + k) 0)) t).reg r st = t.reg r st :=
    reg_run _ _ _ _ (by simp)
  simp only [resetFp, run_all_cons, run_all_nil]
  rw [hr.reg_hostRing, hr.reg_doorbell, hbuckets, hr.reg_clearWhere_port, hr.reg_clearWhere_stack]

/-- The first cause to hold a stack's fabric plane resets it (R374). -/
theorem reg_holdFp (st cause : Nat) {s : State} (h : (s.stackAt st).causes = 0) :
    (run (holdFp st cause) s).reg r st = regDflt r st := by
  simp only [holdFp, run_get, run_seq, run_when, h, beq_self_eq_true, if_true, run_all_cons, run_all_nil, hr.reg_resetFp]

end PlaneFld

theorem exec_crsRstFp (st : StackIx) (s : State) :
    exec (.crsRstFp st) s = .next (if decide (s.misc.phase ≠ 0) && !(s.stackAt st).out then run (holdFp st 1) s else s) := by
  rw [← run_when]
  rfl

end Sys2Proof.Machine
end

section
/-! PROOFS. The on-package network (13_on_package_network.md). -/
namespace Sys2Proof.Machine

/-- Settles O48: a module reset and a fabric-plane reset leave both route fields at their reset values, whose base-4 digits
are the default routes. -/
theorem fabricPlaneResetGivesDefaultRoutes : Obligations.FabricPlaneResetGivesDefaultRoutes := by
  refine ⟨fun st d => ⟨reg_reset _ _, routeOf_of_regDflt (reg_reset _ _) d⟩, fun st s hphase hout hcauses => ?_⟩
  rw [exec_crsRstFp, if_pos (by simp [hphase, hout])]
  exact ⟨_, rfl, planeFld_NOC_ROUTE_iod.reg_holdFp st 1 hcauses,
    routeOf_of_regDflt (planeFld_NOC_ROUTE_stack.reg_holdFp st 1 hcauses)⟩

end Sys2Proof.Machine
end

section
/-! SUPPORT. The event gatherers: which source a claim takes (R535), and what sending a function's host kinds leaves pending
and active (R538). -/
namespace Sys2Proof.Machine

/-- The source is one of the list's, of their highest priority, and the lowest number of those that share it (R535). -/
def State.IsTopSource (s : State) (g : Nat) (l : List Nat) (n : Nat) : Prop :=
  n ∈ l ∧ ∀ k ∈ l, s.srcPrio g k ≤ s.srcPrio g n ∧ (s.srcPrio g k = s.srcPrio g n → n ≤ k)

section
variable {s : State} {g : Nat} {l : List Nat} {m n : Nat}

@[simp] theorem State.topSource_nil : s.topSource g [] = none := rfl

theorem State.topSource_concat_of_none (h : s.topSource g l = none) : s.topSource g (l ++ [n]) = some n := by
  rw [topSource] at h ⊢
  rw [List.foldl_append, h]
  rfl

theorem State.topSource_concat_of_some (h : s.topSource g l = some m) : s.topSource g (l ++ [n]) =
    if s.srcPrio g m < s.srcPrio g n ∨ (s.srcPrio g n = s.srcPrio g m ∧ n < m) then some n else some m := by
  rw [topSource] at h ⊢
  rw [List.foldl_append, h]
  rfl

theorem State.isTopSource_singleton : s.IsTopSource g [n] n := by
  simp [IsTopSource]

/-- One more source either goes before the top of the others, or leaves it the top. -/
theorem State.IsTopSource.concat (h : s.IsTopSource g l m) :
    s.IsTopSource g (l ++ [n])
      (if s.srcPrio g m < s.srcPrio g n ∨ (s.srcPrio g n = s.srcPrio g m ∧ n < m) then n else m) := by
  obtain ⟨hm, htop⟩ := h
  split_ifs with hn
  case pos =>
    refine ⟨by simp, fun k hk => ?_⟩
    rcases List.mem_append.mp hk with hk | hk
    · have := htop k hk
      omega
    · simp [List.mem_singleton.mp hk]
  case neg =>
    refine ⟨by simp [hm], fun k hk => ?_⟩
    rcases List.mem_append.mp hk with hk | hk
    · exact htop k hk
    · obtain rfl := List.mem_singleton.mp hk
      omega

/-- Of a list that is not empty, `topSource` takes the top (R535). -/
theorem State.topSource_spec (hl : l ≠ []) : ∃ n, s.topSource g l = some n ∧ s.IsTopSource g l n := by
  induction l using List.reverseRecOn with
  | nil => exact absurd rfl hl
  | append_singleton l n ih =>
    rcases eq_or_ne l [] with rfl | hne
    · exact ⟨n, topSource_concat_of_none topSource_nil, isTopSource_singleton⟩
    · obtain ⟨m, hm, htop⟩ := ih hne
      exact ⟨_, by rw [topSource_concat_of_some hm, apply_ite some], htop.concat⟩

end

/-! Claims and completions. -/

section
variable {g t n src : Nat} {s : State}

theorem run_egClaim_of_none (h : s.topSource g (s.eligible g t) = none) :
    run (egClaim g t) s = { s with rsp := leBytes 0 4 } := by
  simp only [egClaim, run_get, h]
  rfl

theorem run_egClaim_of_some (h : s.topSource g (s.eligible g t) = some n) :
    run (egClaim g t) s = run (setGath g fun x =>
        { pend := x.pend.filter (· != n), act := if n ∈ x.act then x.act else x.act ++ [n] })
      { s with rsp := leBytes (2 ^ 31 + s.srcPrio g n * 2 ^ 16 + n) 4 } := by
  simp only [egClaim, run_get, h]
  rfl

theorem run_egComplete_active (hmode : s.flag .EG_TGT_mode (g * 4 + t) = false) (hact : src ∈ (s.gathAt g).act) :
    run (egComplete g t src) s = run (Eff.opt (hostOfSource g src) fun h => hostSend h.1)
      (run (setGath g fun x => { x with act := x.act.filter (· != src) }) s) := by
  simp [egComplete, hmode, hact]

theorem run_egComplete_inactive (hmode : s.flag .EG_TGT_mode (g * 4 + t) = false) (hact : src ∉ (s.gathAt g).act) :
    run (egComplete g t src) s = applyUpd (.reg .EG_STAT_bad_complete g 1) s := by
  simp [egComplete, hmode, hact]

end

section
variable {g : GathIx} {t : Fin 3} {s : State} (hup : s.gathUp g = true) (ht : targetExists g t = true)
include hup ht

theorem exec_egClaim_of_up : exec (.egClaim g t) s = .next (run (egClaim g t) s) := by
  rw [show exec (.egClaim g t) s = execEgClaim g t s from rfl, execEgClaim, finish_next, run_when, hup, ht]
  rfl

theorem exec_egComplete_of_up (src : BitVec 10) :
    exec (.egComplete g t src) s = .next (run (egComplete g t src.toNat) s) := by
  rw [show exec (.egComplete g t src) s = execEgComplete g t src s from rfl, execEgComplete, finish_next, run_when, hup, ht]
  rfl

end

/-! Host kinds. -/

section
variable {α : Type} {before : α → α → Bool} {a b : α} {l : List α}

theorem mem_insertBy : a ∈ insertBy before b l ↔ a = b ∨ a ∈ l := by
  induction l with
  | nil => simp [insertBy]
  | cons c l ih =>
    rw [insertBy]
    split
    · exact List.mem_cons
    · rw [List.mem_cons, ih, List.mem_cons, or_left_comm]

theorem mem_sortBy : a ∈ sortBy before l ↔ a ∈ l := by
  induction l using List.reverseRecOn with
  | nil => rfl
  | append_singleton l b ih =>
    rw [sortBy, List.foldl_append, ← sortBy, List.foldl_cons, List.foldl_nil, mem_insertBy, ih, List.mem_append,
      List.mem_singleton, or_comm]

end

/-- The module sources of a function's host kinds that R538 lets go. -/
def State.dueSources (s : State) (f : Nat) : List Nat := (s.hostDue f).map (hostSource f)

/-- Only what is pending is sent (R538). -/
theorem State.pend_of_mem_dueSources {s : State} {f n : Nat} (h : n ∈ s.dueSources f) : n ∈ (s.gathAt 96).pend := by
  obtain ⟨k, hk, rfl⟩ := List.mem_map.mp h
  unfold hostDue at hk
  split_ifs at hk
  · exact absurd hk List.not_mem_nil
  · simp only [mem_sortBy, List.mem_filter, Bool.and_eq_true, decide_eq_true_eq] at hk
    obtain ⟨-, ⟨⟨-, hpend⟩, -⟩, -⟩ := hk
    exact hpend

/-- The sending of one host kind (R538). -/
def hostSendKind (f k : Nat) : Eff := .get fun s =>
  .seq (setGath 96 fun x => { x with pend := x.pend.filter (· != hostSource f k), act := x.act ++ [hostSource f k] })
    (sendMsix f (s.reg .EG_HVEC_vector (f * 32 + k)))

theorem run_hostSend (f : Nat) (s : State) : run (hostSend f) s = run (Eff.each (s.hostDue f) (hostSendKind f)) s := rfl

theorem gathAt_hostSendKind (f k : Nat) (s : State) : (run (hostSendKind f k) s).gathAt 96 =
    { pend := (s.gathAt 96).pend.filter (· != hostSource f k), act := (s.gathAt 96).act ++ [hostSource f k] } := by
  rw [hostSendKind, run_get, run_seq, run_setGath, gathAt_run, gathAt_same]
  exact sendMsix_only _ _ _ (fun _ => rfl) (fun _ _ => rfl) (fun _ => rfl)

theorem gathAt_each_hostSendKind (f : Nat) (l : List Nat) (s : State) :
    (run (Eff.each l (hostSendKind f)) s).gathAt 96 =
      { pend := (s.gathAt 96).pend.filter (· ∉ l.map (hostSource f)),
        act := (s.gathAt 96).act ++ l.map (hostSource f) } := by
  induction l generalizing s with
  | nil => simp [Eff.each]
  | cons k l ih =>
    have hcons : run (Eff.each (k :: l) (hostSendKind f)) s = run (Eff.each l (hostSendKind f)) (run (hostSendKind f k) s) :=
      rfl
    rw [hcons, ih, gathAt_hostSendKind]
    simp [List.filter_filter, Bool.and_comm, bne, beq_eq_decide]

/-- The due kinds are no longer pending, and active (R538). -/
theorem gathAt_hostSend (f : Nat) (s : State) : (run (hostSend f) s).gathAt 96 =
    { pend := (s.gathAt 96).pend.filter (· ∉ s.dueSources f), act := (s.gathAt 96).act ++ s.dueSources f } :=
  gathAt_each_hostSendKind f (s.hostDue f) s

/-- A source that sending made active was pending and no longer is. -/
theorem pend_of_act_hostSend {f n : Nat} {s : State} (hn : n ∉ (s.gathAt 96).act)
    (h : n ∈ ((run (hostSend f) s).gathAt 96).act) :
    n ∈ (s.gathAt 96).pend ∧ n ∉ ((run (hostSend f) s).gathAt 96).pend := by
  rw [gathAt_hostSend] at h ⊢
  have hdue : n ∈ s.dueSources f := (List.mem_append.mp h).resolve_left hn
  exact ⟨State.pend_of_mem_dueSources hdue, by simp [hdue]⟩

/-- A host kind is active after its completion only if it was pending and has been sent (R538). -/
theorem pend_of_act_egComplete_host {t src : Nat} {h : Nat × Nat} {s : State}
    (hmode : s.flag .EG_TGT_mode (96 * 4 + t) = false) (hact : src ∈ (s.gathAt 96).act) (hhost : hostOfSource 96 src = some h)
    (hsent : src ∈ ((run (egComplete 96 t src) s).gathAt 96).act) :
    src ∈ (s.gathAt 96).pend ∧ src ∉ ((run (egComplete 96 t src) s).gathAt 96).pend := by
  rw [run_egComplete_active hmode hact, hhost, run_opt_some, run_setGath] at hsent ⊢
  have hnew := pend_of_act_hostSend (by simp) hsent
  rwa [gathAt_same] at hnew

end Sys2Proof.Machine
end

section
/-! PROOFS. The event gatherers (22_event_gatherer.md). -/
namespace Sys2Proof.Machine

/-- Settles O41: a claim takes the top of the eligible sources, and a completion ends the active state, which for a host kind
only a new sending can give back. -/
theorem claimsTakeTheHighestSource : Obligations.ClaimsTakeTheHighestSource := by
  refine ⟨fun g tg s hup htg hne => ?claim, fun g tg s hup htg hnil => ?claimNone,
    fun g tg src s hup htg hmode hact hhost => ?complete, fun tg src s h hup htg hmode hact hhost => ?completeHost,
    fun g tg src s hup htg hmode hact => ?completeBad⟩
  case claim =>
    obtain ⟨n, hn, hmem, htop⟩ := State.topSource_spec (s := s) (g := g) hne
    refine ⟨n, hmem, htop, _, exec_egClaim_of_up hup htg, ?_⟩
    rw [run_egClaim_of_some hn, run_setGath, gathAt_same]
    refine ⟨rfl, rfl, ?_⟩
    dsimp only
    split_ifs with hact
    · exact hact
    · exact List.mem_append_right _ (List.mem_singleton_self n)
  case claimNone =>
    rw [exec_egClaim_of_up hup htg, run_egClaim_of_none (by rw [hnil, State.topSource_nil])]
  case complete =>
    refine ⟨_, exec_egComplete_of_up hup htg src, ?_⟩
    rw [run_egComplete_active hmode hact, hhost, run_opt_none, run_setGath, gathAt_same]
  case completeHost =>
    exact ⟨_, exec_egComplete_of_up (g := 96) hup htg src, pend_of_act_egComplete_host hmode hact hhost⟩
  case completeBad =>
    refine ⟨_, exec_egComplete_of_up hup htg src, ?_⟩
    rw [run_egComplete_inactive hmode hact]
    exact ⟨applyUpd_gath _ s rfl, reg_applyUpd_same ..⟩

end Sys2Proof.Machine
end

section
/-! PROOFS. The step's own rule, and what every step keeps (95_what_each_step_holds.md). -/
namespace Sys2Proof.Machine

/-- Settles O51. -/
theorem stepRunsTheFrontCommand : Obligations.StepRunsTheFrontCommand := by
  intro s c rest h
  simp only [step, h]

/-- Settles O52. -/
theorem stepIdlesOnAnEmptyQueue : Obligations.StepIdlesOnAnEmptyQueue := by
  intro s h
  simp only [step, h]

/-- Settles O55. -/
theorem resetIsCanonical : Obligations.ResetIsCanonical := State.reset_canonical

/-- Settles O58: no row of the table has bits. -/
theorem theTableSpellsNoWord : Obligations.TheTableSpellsNoWord := fun _ _ _ => ⟨rfl, rfl⟩

/-- What every primitive update leaves alone, every effect leaves alone. -/
theorem run_fixes {α : Type} (g : State → α) (hg : ∀ u s, g (applyUpd u s) = g s) (e : Eff) (s : State) :
    g (run e s) = g s :=
  run_relates (R := fun s t => g t = g s) (fun _ => rfl) (fun _ _ _ hab hbc => hbc.trans hab) hg e s

/-- Settles O53: every command is an effect, and each of these holds of every primitive update. -/
theorem everyCommandCompletes : Obligations.EveryCommandCompletes := by
  intro c s
  obtain ⟨e, he⟩ := exec_run c s
  refine ⟨_, he, run_fixes _ applyUpd_pending e s, run_fixes _ applyUpd_fuse e s, ?out, ?tick⟩
  case out =>
    exact run_relates (R := fun s t => s.out <+: t.out) (fun _ => List.prefix_rfl) (fun _ _ _ => List.IsPrefix.trans)
      applyUpd_out_prefix e s
  case tick =>
    exact run_relates (R := fun s t => s.tick ≤ t.tick) (fun _ => le_rfl) (fun _ _ _ => le_trans) applyUpd_tick_le e s

/-- Settles O56: every primitive update writes a register field within its width. -/
theorem stepKeepsRegistersWithinTheirFields : Obligations.StepKeepsRegistersWithinTheirFields := by
  intro s t hfit hstep
  rcases step_cases hstep with ⟨-, ho⟩ | ⟨c, cs, e, -, -, ho⟩
  · cases ho
    exact hfit
  · cases ho
    exact run_keeps applyUpd_fit e _ hfit

end Sys2Proof.Machine
end

section
/-! PROOFS. The frames: what each command may change, `mayOf`, lies within the lists its statement gives. -/
set_option exponentiation.threshold 1000
set_option maxRecDepth 20000
namespace Sys2Proof.Machine

/-- Settles O23: the set of every command of this family is within its lists. -/
theorem requestFrames : Obligations.RequestFrames := by
  unfold Obligations.RequestFrames
  and_intros
  all_goals
    intros
    exact exec_framed _ _ _ _ (by dsimp only [mayOf]; rfl) (by decide)

/-- Settles O24: the set of every command of this family is within its lists. -/
theorem hostAndSchedulerFrames : Obligations.HostAndSchedulerFrames := by
  unfold Obligations.HostAndSchedulerFrames
  and_intros
  all_goals
    intros
    exact exec_framed _ _ _ _ (by dsimp only [mayOf]; rfl) (by decide)

/-- Settles O25: the set of every command of this family is within its lists. -/
theorem coreFrames : Obligations.CoreFrames := by
  unfold Obligations.CoreFrames
  and_intros
  all_goals
    intros
    exact exec_framed _ _ _ _ (by dsimp only [mayOf]; rfl) (by decide)

/-- Settles O26: the set of every command of this family is within its lists. -/
theorem bankAndMemoryFrames : Obligations.BankAndMemoryFrames := by
  unfold Obligations.BankAndMemoryFrames
  and_intros
  all_goals
    intros
    exact exec_framed _ _ _ _ (by dsimp only [mayOf]; rfl) (by decide)

/-- Settles O27: the set of every command of this family is within its lists. -/
theorem kvCacheFrames : Obligations.KvCacheFrames := by
  unfold Obligations.KvCacheFrames
  and_intros
  all_goals
    intros
    exact exec_framed _ _ _ _ (by dsimp only [mayOf]; rfl) (by decide)

/-- Settles O28: the set of every command of this family is within its lists. -/
theorem networkAndPortFrames : Obligations.NetworkAndPortFrames := by
  unfold Obligations.NetworkAndPortFrames
  and_intros
  all_goals
    intros
    exact exec_framed _ _ _ _ (by dsimp only [mayOf]; rfl) (by decide)

/-- Settles O29: the set of every command of this family is within its lists. -/
theorem fabricFrames : Obligations.FabricFrames := by
  unfold Obligations.FabricFrames
  and_intros
  all_goals
    intros
    exact exec_framed _ _ _ _ (by dsimp only [mayOf]; rfl) (by decide)

/-- Settles O30: the set of every command of this family is within its lists. -/
theorem serviceFrames : Obligations.ServiceFrames := by
  unfold Obligations.ServiceFrames
  and_intros
  all_goals
    intros
    exact exec_framed _ _ _ _ (by dsimp only [mayOf]; rfl) (by decide)

end Sys2Proof.Machine
end

section
/-! SUPPORT. Memory accesses: what judging a line and delivering a word read of the state (R34, R39, R220). -/
namespace Sys2Proof.Machine

/-- Upsets change marks alone, and do so whatever memory holds. -/
theorem run_applyUpsets (ups : List Upset) (s : State) :
    ∃ ms, ∀ m, run (applyUpsets ups) { s with mem := m } = { s with marks := ms, mem := m } := by
  induction ups generalizing s with
  | nil => exact ⟨s.marks, fun _ => rfl⟩
  | cons u us ih =>
    obtain ⟨ms, h⟩ := ih (applyUpd (.mark u.word { s.markAt u.word with flips := (s.markAt u.word).flips ^^^ u.flips }) s)
    exact ⟨ms, h⟩

theorem issFlask_mark (s : State) (ms : Store Mark) (m : Store Byte) (iss : Issuer) :
    { s with marks := ms, mem := m }.issFlask iss = s.issFlask iss := by
  cases iss <;> rfl

/-! Lines and words of a range. -/

section
variable {a len l w : Nat}

theorem mem_linesOf (h : 0 < len) : l ∈ linesOf a len ↔ a / 64 ≤ l ∧ l ≤ (a + len - 1) / 64 := by
  have hle : a / 64 ≤ (a + len - 1) / 64 := Nat.div_le_div_right (by omega)
  simp only [linesOf, if_neg h.ne', List.mem_map, List.mem_range]
  exact ⟨by rintro ⟨k, hk, rfl⟩; omega, fun ⟨h1, h2⟩ => ⟨l - a / 64, by omega, by omega⟩⟩

theorem linesOf_ne_nil (h : 0 < len) : linesOf a len ≠ [] :=
  List.ne_nil_of_mem ((mem_linesOf h).mpr ⟨le_rfl, Nat.div_le_div_right (by omega)⟩)

/-- The words a range of bytes touches. -/
def wordsIn (a len : Nat) : List Nat :=
  if len = 0 then [] else (List.range ((a + len - 1) / 8 - a / 8 + 1)).map (· + a / 8)

theorem mem_wordsIn (h : 0 < len) : w ∈ wordsIn a len ↔ a / 8 ≤ w ∧ w ≤ (a + len - 1) / 8 := by
  have hle : a / 8 ≤ (a + len - 1) / 8 := Nat.div_le_div_right (by omega)
  simp only [wordsIn, if_neg h.ne', List.mem_map, List.mem_range]
  exact ⟨by rintro ⟨k, hk, rfl⟩; omega, fun ⟨h1, h2⟩ => ⟨w - a / 8, by omega, by omega⟩⟩

theorem div_mem_linesOf (hw : w ∈ wordsIn a len) : w / 8 ∈ linesOf a len := by
  rcases Nat.eq_zero_or_pos len with rfl | h
  · exact absurd hw (by simp [wordsIn])
  · have := (mem_wordsIn h).mp hw
    exact (mem_linesOf h).mpr ⟨by omega, by omega⟩

/-- The bytes of a range, cut out of the bytes of its words. -/
theorem drop_take_words (f : Nat → Byte) (h : 0 < len) :
    (((wordsIn a len).flatMap fun w => (List.range 8).map fun k => f (w * 8 + k)).drop (a % 8)).take len =
      (List.range len).map fun k => f (a + k) := by
  have hwords : ∀ n b, ((List.range n).map (· + b)).flatMap (fun w => (List.range 8).map fun k => f (w * 8 + k)) =
      (List.range (n * 8)).map fun k => f (b * 8 + k) := fun n b => by
    induction n with
    | zero => simp
    | succ n ih =>
      rw [List.range_succ (n := n), List.map_append, List.flatMap_append, ih, Nat.succ_mul, List.range_add, List.map_append,
        List.map_map]
      simp [Nat.add_mul, Function.comp_def, Nat.add_assoc, Nat.add_left_comm]
  have hle : a / 8 ≤ (a + len - 1) / 8 := Nat.div_le_div_right (by omega)
  rw [wordsIn, if_neg h.ne', hwords]
  refine List.ext_getElem ?_ fun k h1 h2 => ?_
  · simp; omega
  · simp; congr 1; omega

end

/-! Judging. -/

section
variable {s : State} {src l : Nat} {chk : Bool} {fl : Option Nat}

theorem State.judge_eq_unmapped (h : s.target (l * 64) = .none) : s.judge src chk fl l = .unmapped := by
  simp only [judge, h]

/-- A mapped line that answers is judged by its owner alone (R39). -/
theorem State.judge_of_reached (ht : s.target (l * 64) ≠ .none) (hu : s.unreachable (l * 64) = false)
    (hp : s.pathUp src (s.homeOf (l * 64)) = true) :
    s.judge src chk fl l = if chk && !(fl.isSome && s.memOwner (l * 64) == fl) then .protection else .ok := by
  unfold judge
  cases htarget : s.target (l * 64)
  case none => exact absurd htarget ht
  all_goals simp only [hu, hp, Bool.not_true, Bool.or_self, Bool.false_eq_true, if_false]

/-- A checked line passes only to the flask that owns it (R39). -/
theorem State.memOwner_of_judge_ok (h : s.judge src true fl l = .ok) : ∃ f, fl = some f ∧ s.memOwner (l * 64) = some f := by
  unfold judge at h
  dsimp only at h
  split at h
  · cases h
  · split_ifs at h with hlost hown
    simp only [Bool.true_and, Bool.not_eq_true', Bool.not_eq_false, Bool.and_eq_true, beq_iff_eq] at hown
    obtain ⟨hsome, howner⟩ := hown
    obtain ⟨f, rfl⟩ := Option.isSome_iff_exists.mp hsome
    exact ⟨f, rfl, howner⟩

end

/-! Reading. -/

section
variable (s : State) (src : Nat) (chk : Bool) (fl : Option Nat)

/-- What a read gives for a word: its bytes, and 1 when it is lost (R34, R224). -/
def State.readWord (w : Nat) : List Byte × Nat :=
  if s.judge src chk fl (w / 8) = .ok then
    (let r := s.deliver w
     if r.verdict < 3 then (wordBytes r.data, 0) else (List.replicate 8 (0xFF : Byte), 1))
  else (List.replicate 8 (0 : Byte), 0)

theorem State.readResult_eq (a len : Nat) : s.readResult src chk fl a len =
    { data := (((wordsIn a len).flatMap fun w => (s.readWord src chk fl w).1).drop (a % 8)).take len
      bad := (wordsIn a len).any fun w => (s.readWord src chk fl w).2 == 1
      status :=
        if (linesOf a len).any fun l => s.judge src chk fl l == .unmapped || s.judge src chk fl l == .protection then stDenied
        else if (linesOf a len).any fun l => s.judge src chk fl l == .lost then stTargetLost
        else if (wordsIn a len).any fun w => (s.readWord src chk fl w).2 == 1 then stUncorrectable else 0 } := by
  simp only [readResult, List.any_map, List.flatMap_map]
  rfl

end

section
variable {s : State} {m : Store Byte} {w : Nat}

theorem State.rawWord_congr (h : ∀ k < 8, Store.get 0 m (w * 8 + k) = s.byteAt (w * 8 + k)) :
    { s with mem := m }.rawWord (w * 8) = s.rawWord (w * 8) := by
  have hbytes : { s with mem := m }.rawBytes (w * 8) 8 = s.rawBytes (w * 8) 8 :=
    List.map_congr_left fun k hk => h k (List.mem_range.mp hk)
  rw [rawWord, rawWord, hbytes]

/-- Of the bytes of memory, what a read delivers for a word depends on the word's own. -/
theorem State.deliver_congr (h : ∀ k < 8, Store.get 0 m (w * 8 + k) = s.byteAt (w * 8 + k)) :
    { s with mem := m }.deliver w = s.deliver w := by
  simp only [deliver, decodeWord, rawWord_congr h]
  rfl

variable {src : Nat} {chk : Bool} {fl : Option Nat}

/-- Of the bytes of memory, a read's result depends on those of the lines that pass its checks. -/
theorem State.readResult_congr {a len : Nat} (h : ∀ b, s.judge src chk fl (b / 64) = .ok → Store.get 0 m b = s.byteAt b) :
    { s with mem := m }.readResult src chk fl a len = s.readResult src chk fl a len := by
  have hword : { s with mem := m }.readWord src chk fl = s.readWord src chk fl := funext fun w => by
    by_cases hok : s.judge src chk fl (w / 8) = .ok
    · rw [readWord, deliver_congr fun k hk => h _ (by rwa [show (w * 8 + k) / 64 = w / 8 by omega])]
      rfl
    · exact (if_neg hok).trans (if_neg hok).symm
  rw [readResult_eq, readResult_eq, hword]
  rfl

end
end Sys2Proof.Machine
end

section
/-! SUPPORT. What a read gives when all its lines are suppressed (R34, R39) or all its words are good (R220). -/
set_option exponentiation.threshold 1000
namespace Sys2Proof.Machine

theorem leBytes_leNat (d : List Byte) : leBytes (leNat d) d.length = d := by
  induction d with
  | nil => rfl
  | cons b bs ih =>
    have hb := b.isLt
    have hhead : BitVec.ofNat 8 (b.toNat + 256 * leNat bs) = b := by
      apply BitVec.eq_of_toNat_eq
      rw [BitVec.toNat_ofNat]
      omega
    have htail : (b.toNat + 256 * leNat bs) / 256 = leNat bs := by omega
    rw [leNat, List.length_cons, leBytes, hhead, htail, ih]

theorem leNat_lt (d : List Byte) : leNat d < 256 ^ d.length := by
  induction d with
  | nil => simp [leNat]
  | cons b bs ih =>
    have hb := b.isLt
    rw [leNat, List.length_cons, Nat.pow_succ]
    omega

theorem wordBytes_leNat {d : List Byte} (h : d.length = 8) : wordBytes (BitVec.ofNat 64 (leNat d)) = d := by
  have hlt : leNat d < 2 ^ 64 := by simpa [h] using leNat_lt d
  rw [wordBytes, BitVec.toNat_ofNat, Nat.mod_eq_of_lt hlt, ← h, leBytes_leNat]

theorem State.length_rawBytes (s : State) (a n : Nat) : (s.rawBytes a n).length = n := by
  simp [rawBytes]

theorem State.wordBytes_rawWord (s : State) (a : Nat) : wordBytes (BitVec.ofNat 64 (s.rawWord a)) = s.rawBytes a 8 :=
  wordBytes_leNat (s.length_rawBytes a 8)

section
variable {s : State} {src : Nat} {chk : Bool} {fl : Option Nat} {a len : Nat}

/-- A line that is suppressed (R34, R39). -/
def LineClass.suppressed (c : LineClass) : Prop := c = .unmapped ∨ c = .protection

theorem LineClass.suppressed.ne_ok {c : LineClass} (h : c.suppressed) : c ≠ .ok := by
  rintro rfl
  rcases h with h | h <;> cases h

theorem any_denied_of_suppressed (hlen : 0 < len) (h : ∀ l ∈ linesOf a len, (s.judge src chk fl l).suppressed) :
    ((linesOf a len).any fun l => s.judge src chk fl l == .unmapped || s.judge src chk fl l == .protection) = true := by
  obtain ⟨l, hl⟩ := List.exists_mem_of_ne_nil _ (linesOf_ne_nil hlen (a := a))
  refine List.any_eq_true.mpr ⟨l, hl, ?_⟩
  rcases h l hl with hj | hj <;> rw [hj] <;> rfl

/-- The data of a read, byte by byte. -/
theorem State.readResult_data (f : Nat → Byte) (hlen : 0 < len)
    (h : ∀ w ∈ wordsIn a len, (s.readWord src chk fl w).1 = (List.range 8).map fun k => f (w * 8 + k)) :
    (s.readResult src chk fl a len).data = (List.range len).map fun k => f (a + k) := by
  rw [readResult_eq, ← drop_take_words f hlen]
  exact congrArg (fun l => (l.drop (a % 8)).take len) (List.flatMap_congr h)

/-- A read suppressed throughout gives zeros and DENIED (R34, R39). -/
theorem State.readResult_suppressed (hlen : 0 < len) (h : ∀ l ∈ linesOf a len, (s.judge src chk fl l).suppressed) :
    (s.readResult src chk fl a len).status = stDenied ∧ (s.readResult src chk fl a len).data = List.replicate len 0 := by
  constructor
  · rw [readResult_eq]
    exact if_pos (any_denied_of_suppressed hlen h)
  · rw [readResult_data (fun _ => 0) hlen fun w hw => congrArg Prod.fst (if_neg (h _ (div_mem_linesOf hw)).ne_ok)]
    simp

/-- A word is delivered as it is stored. -/
def State.Good (s : State) (w : Nat) : Prop := (s.deliver w).verdict < 3 ∧ wordBytes (s.deliver w).data = s.rawBytes (w * 8) 8

/-- A read whose words are all good gives the bytes stored (R220). -/
theorem State.readResult_good (hlen : 0 < len) (h : ∀ l ∈ linesOf a len, s.judge src chk fl l = .ok)
    (hw : ∀ w ∈ wordsIn a len, s.Good w) :
    (s.readResult src chk fl a len).status = 0 ∧ (s.readResult src chk fl a len).data = s.rawBytes a len := by
  have hword : ∀ w ∈ wordsIn a len, s.readWord src chk fl w = (s.rawBytes (w * 8) 8, 0) := fun w hmem => by
    obtain ⟨hverdict, hdata⟩ := hw w hmem
    rw [readWord, if_pos (h _ (div_mem_linesOf hmem))]
    simp only [if_pos hverdict, hdata]
  constructor
  · have hdenied : ((linesOf a len).any fun l => s.judge src chk fl l == .unmapped || s.judge src chk fl l == .protection) = false :=
      List.any_eq_false.mpr fun l hl => by rw [h l hl]; decide
    have hlost : ((linesOf a len).any fun l => s.judge src chk fl l == .lost) = false :=
      List.any_eq_false.mpr fun l hl => by rw [h l hl]; decide
    have hbad : ((wordsIn a len).any fun w => (s.readWord src chk fl w).2 == 1) = false :=
      List.any_eq_false.mpr fun w hmem => by simp [hword w hmem]
    simp only [readResult_eq, hdenied, hlost, hbad, Bool.false_eq_true, if_false]
  · exact readResult_data s.byteAt hlen fun w hmem => by rw [hword w hmem]; rfl

theorem State.writeStatus_suppressed (hlen : 0 < len) (h : ∀ l ∈ linesOf a len, (s.judge src chk fl l).suppressed) :
    s.writeStatus src chk fl a len = stDenied := by
  simp only [writeStatus, List.any_map]
  exact if_pos (any_denied_of_suppressed hlen h)

theorem State.writeStatus_ok (h : ∀ l ∈ linesOf a len, s.judge src chk fl l = .ok) :
    s.writeStatus src chk fl a len = 0 := by
  have hcls : (linesOf a len).map (s.judge src chk fl) = (linesOf a len).map fun _ => .ok := List.map_congr_left h
  simp only [writeStatus, hcls]
  simp

end

/-! Commands. -/

theorem run_memoryWriteEff (iss : Issuer) (addr : Nat) (hint : Fin 4) (data : List Byte) (ups : List Upset) (s : State) :
    ∃ ms, run (memoryWriteEff iss addr hint data ups) s =
      run (writeMem iss (issChecked iss) (s.issFlask iss) addr (hintOf iss hint) data fun st => .upd (.rsp (leBytes st 4)))
        { s with marks := ms } := by
  obtain ⟨ms, h⟩ := run_applyUpsets ups s
  refine ⟨ms, ?_⟩
  rw [memoryWriteEff, run_seq, show run (applyUpsets ups) s = { s with marks := ms } from h s.mem, run_get]
  rw [show ({ s with marks := ms } : State).issFlask iss = s.issFlask iss from issFlask_mark s ms s.mem iss]

/-- What an issuer reads. -/
def State.readBy (s : State) (iss : Issuer) (addr len : Nat) : Rd :=
  s.readResult (srcOf iss) (issChecked iss) (s.issFlask iss) addr len

theorem State.readBy_mark (s : State) (ms : Store Mark) (m : Store Byte) (iss : Issuer) (addr len : Nat) :
    { s with marks := ms, mem := m }.readBy iss addr len =
      { s with marks := ms, mem := m }.readResult (srcOf iss) (issChecked iss) (s.issFlask iss) addr len := by
  rw [readBy, issFlask_mark]

theorem rsp_memoryReadEff (iss : Issuer) (addr len : Nat) (hint : Fin 4) (ups : List Upset) (s : State) :
    (run (memoryReadEff iss addr len hint ups) s).rsp =
      leBytes ((run (applyUpsets ups) s).readBy iss addr len).status 4 ++
        ((run (applyUpsets ups) s).readBy iss addr len).data := rfl

theorem rsp_memoryWriteEff (iss : Issuer) (addr : Nat) (hint : Fin 4) (data : List Byte) (ups : List Upset) (s : State) :
    (run (memoryWriteEff iss addr hint data ups) s).rsp =
      let u := run (applyUpsets ups) s
      leBytes (u.writeStatus (srcOf iss) (issChecked iss) (u.issFlask iss) addr data.length) 4 := rfl

theorem line_of_piece {a : Nat} {d : List Byte} {p : Nat × List Byte} (h : p ∈ pieces a d) : p.1 / 64 ∈ linesOf a d.length := by
  obtain ⟨h1, -, h2, h3⟩ := splitLines_mem _ _ _ _ h
  exact (mem_linesOf (by omega)).mpr ⟨by omega, by omega⟩

/-- A write suppressed throughout stores nothing (R34, R39). -/
theorem mem_memoryWriteEff_suppressed {iss : Issuer} {addr : Nat} {hint : Fin 4} {data : List Byte} {s : State}
    (h : ∀ l ∈ linesOf addr data.length, (s.judge (srcOf iss) (issChecked iss) (s.issFlask iss) l).suppressed) :
    (run (memoryWriteEff iss addr hint data []) s).mem = s.mem := by
  have hnone : (pieces addr data).filter (fun p => s.judge (srcOf iss) (issChecked iss) (s.issFlask iss) (p.1 / 64) == .ok) = [] :=
    List.filter_eq_nil_iff.mpr fun p hp => by simpa using (h _ (line_of_piece hp)).ne_ok
  have hrec := accessRecords_may (mk := mayAccessRecords ||| mayAccessCharge) rfl
  have hchg := accessCharge_may (mk := mayAccessRecords ||| mayAccessCharge) rfl
  simp only [memoryWriteEff, applyUpsets, Eff.each, List.map_nil, run_seq, run_all_nil, run_get, writeMem, run_all_cons, hnone,
    run_upd]
  rw [applyUpd_mem _ _ (by simp), (hchg _ _ _ _).mem rfl rfl, (hrec _ _ _ _).mem rfl rfl]

end Sys2Proof.Machine
end

section
/-! PROOFS. Flask protection of memory accesses (01_module_hierarchy.md). -/
set_option exponentiation.threshold 1000
namespace Sys2Proof.Machine

/-- Settles O35: a write stores only to lines that pass its checks, and a checked line passes only to its owner. -/
theorem writesStayWithinTheFlask : Obligations.WritesStayWithinTheFlask := by
  intro iss addr hint data ups s hchk
  refine ⟨_, rfl, fun b hb => ?_⟩
  obtain ⟨ms, h⟩ := run_memoryWriteEff iss addr hint data ups s
  rw [h, hchk]
  refine writeMem_judged _ _ _ _ _ _ _ _ _ (fun hok => ?_) fun st t => rfl
  obtain ⟨f, hf, howner⟩ := State.memOwner_of_judge_ok hok
  exact hb f hf howner

/-- Settles O36: the lines a checked read delivers are the flask's own, and the state but for memory's bytes is the same. -/
theorem readsShowOnlyTheFlasksMemory : Obligations.ReadsShowOnlyTheFlasksMemory := by
  intro iss addr len hint ups s m hchk hm
  refine ⟨_, _, rfl, rfl, ?_⟩
  obtain ⟨ms, h⟩ := run_applyUpsets ups s
  have hsame : { s with marks := ms, mem := m }.readBy iss addr len = { s with marks := ms, mem := s.mem }.readBy iss addr len := by
    rw [State.readBy_mark, State.readBy_mark, hchk]
    refine State.readResult_congr (s := { s with marks := ms }) fun b hok => ?_
    obtain ⟨f, hf, howner⟩ := State.memOwner_of_judge_ok hok
    exact hm f b hf howner
  rw [rsp_memoryReadEff, rsp_memoryReadEff, h m, hsame, ← h s.mem]

/-- Settles O59. -/
theorem suppressedAccessesReadZeros : Obligations.SuppressedAccessesReadZeros := by
  refine ⟨fun iss addr len hint s hlen h => ?read, fun iss addr hint data s hdata h => ?write,
    fun s src chk fl l => State.judge_eq_unmapped, fun s src fl l ht hu hp => ?foreign⟩
  case read =>
    obtain ⟨hstatus, hdata⟩ := State.readResult_suppressed hlen h
    refine ⟨_, rfl, ?_, ?_⟩
    · rw [rsp_memoryReadEff, ← hstatus, ← hdata]
      rfl
    · exact (memoryReadEff_may (mk := mayMemoryReadEff) rfl iss addr len hint []).mem rfl rfl s
  case write =>
    refine ⟨_, rfl, ?_, mem_memoryWriteEff_suppressed h⟩
    rw [rsp_memoryWriteEff, ← State.writeStatus_suppressed (List.length_pos_iff.mpr hdata) h]
    rfl
  case foreign =>
    rw [State.judge_of_reached ht hu hp]
    cases fl <;> simp

end Sys2Proof.Machine
end

section
/-! SUPPORT. What the map of memory, its checks and its routes read of the state, and the effects that leave all of it alone. -/
set_option exponentiation.threshold 1000
namespace Sys2Proof.Machine

/-- What an address names, who owns it and how it is reached is the same in two states. -/
structure State.SameMap (s t : State) : Prop where
  slice : t.slice = s.slice
  cluster : t.cluster = s.cluster
  stack : t.stack = s.stack
  owner : t.owner = s.owner
  misc : t.misc = s.misc
  fuse : t.fuse = s.fuse
  members : t.members = s.members
  ladle : t.ladle = s.ladle
  up : ∀ i, t.reg .NOC_LINK_up i = s.reg .NOC_LINK_up i
  toStack : ∀ i, t.reg .NOC_ROUTE_stack i = s.reg .NOC_ROUTE_stack i
  toIod : ∀ i, t.reg .NOC_ROUTE_iod i = s.reg .NOC_ROUTE_iod i
  window : ∀ i, t.reg .WIN_CTL_flask i = s.reg .WIN_CTL_flask i

/-- The parts and fields that `SameMap` names. -/
def mapSet : Nat := mps [.slice, .cluster, .stack, .owner, .misc, .members, .ladle, .regs] ||| 2 ^ 79 |||
  mrs [.NOC_LINK_up, .NOC_ROUTE_stack, .NOC_ROUTE_iod, .WIN_CTL_flask]

theorem testBit_eq_false_of_and {m k x : Nat} (h : m &&& x = 0) (hk : x.testBit k = true) : m.testBit k = false := by
  have := congrArg (Nat.testBit · k) h
  simpa [hk] using this

theorem May.sameMap {m : Nat} {e : Eff} (he : May m e) (h : m &&& mapSet = 0) (s : State) : s.SameMap (run e s) := by
  have hbit : ∀ k, mapSet.testBit k = true → m.testBit k = false := fun k => testBit_eq_false_of_and h
  have h79 := hbit 79 rfl
  have hregs := hbit Part.regs.ctorIdx rfl
  exact {
    slice := he.slice (hbit _ rfl) h79 s
    cluster := he.cluster (hbit _ rfl) h79 s
    stack := he.stack (hbit _ rfl) h79 s
    owner := he.owner (hbit _ rfl) h79 s
    misc := he.misc (hbit _ rfl) h79 s
    fuse := run_fixes _ applyUpd_fuse e s
    members := he.members (hbit _ rfl) h79 s
    ladle := he.ladle (hbit _ rfl) h79 s
    up := fun i => he.reg _ i (hbit _ rfl) hregs h79 s
    toStack := fun i => he.reg _ i (hbit _ rfl) hregs h79 s
    toIod := fun i => he.reg _ i (hbit _ rfl) hregs h79 s
    window := fun i => he.reg _ i (hbit _ rfl) hregs h79 s }

theorem State.SameMap.trans {s t u : State} (h : s.SameMap t) (h' : t.SameMap u) : s.SameMap u where
  slice := h'.slice.trans h.slice
  cluster := h'.cluster.trans h.cluster
  stack := h'.stack.trans h.stack
  owner := h'.owner.trans h.owner
  misc := h'.misc.trans h.misc
  fuse := h'.fuse.trans h.fuse
  members := h'.members.trans h.members
  ladle := h'.ladle.trans h.ladle
  up i := (h'.up i).trans (h.up i)
  toStack i := (h'.toStack i).trans (h.toStack i)
  toIod i := (h'.toIod i).trans (h.toIod i)
  window i := (h'.window i).trans (h.window i)

namespace State.SameMap
variable {s t : State} (h : s.SameMap t)
include h

theorem sliceAt (n : Nat) : t.sliceAt n = s.sliceAt n := by rw [State.sliceAt, h.slice]; rfl
theorem clusterAt (n : Nat) : t.clusterAt n = s.clusterAt n := by rw [State.clusterAt, h.cluster]; rfl
theorem stackAt (n : Nat) : t.stackAt n = s.stackAt n := by rw [State.stackAt, h.stack]; rfl
theorem coreOff (n : Nat) : t.coreOff n = s.coreOff n := by rw [State.coreOff, h.clusterAt]; rfl
theorem flaskOf (c : Nat) : t.flaskOf c = s.flaskOf c := by rw [State.flaskOf, h.clusterAt]; rfl
theorem coreFlask (n : Nat) : t.coreFlask n = s.coreFlask n := h.flaskOf _
theorem stackHeld (n : Nat) : t.stackHeld n = s.stackHeld n := by simp only [State.stackHeld, h.stackAt, h.misc]
theorem clusterHeld (n : Nat) : t.clusterHeld n = s.clusterHeld n := by
  simp only [State.clusterHeld, h.clusterAt, h.stackHeld]

theorem farSize : t.farSize = s.farSize := by rw [State.farSize, h.misc]; rfl
theorem farLicensed : t.farLicensed = s.farLicensed := by rw [State.farLicensed, h.misc]; rfl
theorem interleaved : t.interleaved = s.interleaved := by rw [State.interleaved, h.misc, h.fuse]; rfl
theorem farUnit (off : Nat) : t.farUnit off = s.farUnit off := by simp only [State.farUnit, h.interleaved, h.misc]
theorem flaskExists (fl : Nat) : t.flaskExists fl = s.flaskExists fl := by
  simp only [State.flaskExists, h.flaskOf, h.owner]
theorem fnFlask (f : Nat) : t.fnFlask f = s.fnFlask f := by simp only [State.fnFlask, h.window, h.flaskExists]

theorem target (a : Nat) : t.target a = s.target a := by
  simp only [State.target, h.sliceAt, h.farSize, h.farLicensed, h.coreOff]

theorem memOwner (a : Nat) : t.memOwner a = s.memOwner a := by
  simp only [State.memOwner, h.target, State.ownerAt, h.owner, h.flaskOf, h.coreFlask]

theorem unreachable (a : Nat) : t.unreachable a = s.unreachable a := by
  simp only [State.unreachable, h.target, h.stackHeld, h.clusterHeld, h.misc, h.farUnit]

theorem homeOf (a : Nat) : t.homeOf a = s.homeOf a := by
  simp only [State.homeOf, h.target]

theorem linkUp (st k : Nat) : t.linkUp st k = s.linkUp st k := by
  simp only [State.linkUp, State.flag, h.up]

theorem ringTo (k dst fuel st : Nat) : t.ringTo k dst fuel st = s.ringTo k dst fuel st := by
  induction fuel generalizing st with
  | zero => rfl
  | succ fuel ih => simp only [State.ringTo, h.linkUp, ih]

theorem pathUp (src dst : Nat) : t.pathUp src dst = s.pathUp src dst := by
  simp only [State.pathUp, State.switchTo, State.routeOf, h.linkUp, h.ringTo, h.toIod, h.toStack]

theorem judge (src : Nat) (chk : Bool) (fl : Option Nat) (l : Nat) : t.judge src chk fl l = s.judge src chk fl l := by
  simp only [State.judge, h.target, h.unreachable, h.pathUp, h.homeOf, h.memOwner]

theorem issFlask (iss : Issuer) : t.issFlask iss = s.issFlask iss := by
  cases iss <;> simp only [State.issFlask, h.coreFlask, State.ladleFlask, State.ladleAt, h.ladle, h.fnFlask, h.members]

theorem undefPlace (w : Nat) : t.undefPlace w = s.undefPlace w := by
  simp only [State.undefPlace, h.sliceAt, h.misc]

end State.SameMap
end Sys2Proof.Machine
end

section
/-! SUPPORT. A word stored in stacked memory and read back (R199, R214-R216, R220, R223). -/
set_option exponentiation.threshold 1000
namespace Sys2Proof.Machine

/-! What the standing of a line in its cache leaves of its unfenced copy (R200). -/

/-- The unfenced bytes of a line in a set: those of its first copy. -/
def oldIn (line : Nat) (l : List CLine) : Option (List Byte) := (l.find? fun c => c.line == line).bind (·.old)

section
variable (k line : Nat) (l : List CLine)

theorem oldIn_map {f : CLine → CLine} (hline : ∀ c, (f c).line = c.line) (hold : ∀ c, (f c).old = c.old) :
    oldIn line (l.map f) = oldIn line l := by
  have hf : (fun c => c.line == line) ∘ f = fun c => c.line == line := funext fun c => by simp [hline]
  rw [oldIn, List.find?_map, hf, Option.bind_map, oldIn]
  exact congrArg (Option.bind _) (funext hold)

theorem find?_never (l : List CLine) : l.find? (fun _ => false) = none := by
  simp

theorem oldIn_touch : oldIn line (touch line l) = oldIn line l := by
  simp [oldIn, touch, List.find?_filter, find?_never, beq_eq_decide]

theorem oldIn_sink : oldIn line (sink line l) = oldIn line l := by
  simp [oldIn, sink, List.find?_filter, find?_never, beq_eq_decide]

theorem oldIn_dropKeep : oldIn line (dropKeep l) = oldIn line l := by
  unfold dropKeep
  split
  · rfl
  · exact oldIn_map _ _ (fun c => by split <;> rfl) (fun c => by split <;> rfl)

theorem oldIn_setKeep (x : Nat) : oldIn line (setKeep k x l) = oldIn line l := by
  unfold setKeep
  split_ifs
  · rfl
  · rfl
  · exact (oldIn_map _ _ (fun c => by split <;> rfl) (fun c => by split <;> rfl)).trans (oldIn_dropKeep ..)
  · exact oldIn_map _ _ (fun c => by split <;> rfl) (fun c => by split <;> rfl)

theorem oldIn_evict_of_none (h : l.find? (fun c => c.line == line) = none) : (evict l).find? (fun c => c.line == line) = none := by
  rw [List.find?_eq_none] at h ⊢
  unfold evict
  split_ifs
  · exact h
  · split
    · exact h
    · exact fun c hc => h c (List.mem_filter.mp hc).1

/-- A line allocated anew has no unfenced bytes. -/
theorem oldIn_alloc (h : l.find? (fun c => c.line == line) = none) :
    oldIn line ({ line := line } :: evict l) = none ∧ oldIn line (evict l ++ [{ line := line }]) = none := by
  have hevict := oldIn_evict_of_none line l h
  constructor <;> simp [oldIn, hevict]

/-- No access moves or changes the unfenced bytes of a line. -/
theorem oldIn_cacheStep (hint : Nat) (write full : Bool) : oldIn line (cacheStep k hint write full line l) = oldIn line l := by
  unfold cacheStep
  split
  · split
    · exact oldIn_touch ..
    · exact (oldIn_setKeep ..).trans (oldIn_touch ..)
    · split
      · rfl
      · exact (oldIn_sink ..).trans (oldIn_map _ _ (fun c => by split <;> rfl) (fun c => by split <;> rfl))
    · rfl
  · rename_i hsome
    have hnone : l.find? (fun c => c.line == line) = none := by simpa using hsome
    obtain ⟨hfront, hback⟩ := oldIn_alloc line l hnone
    have hold : oldIn line l = none := by rw [oldIn, hnone]; rfl
    rw [hold]
    dsimp only
    split
    · exact hfront
    · exact hback
    · exact (oldIn_setKeep ..).trans hfront
    · split
      · exact hfront
      · exact hold
    · split
      · exact (oldIn_setKeep ..).trans hfront
      · exact hold
    · exact hold

end

theorem State.staleBytes_eq (s : State) (line : Nat) :
    s.staleBytes line = if line * 64 < stackedEnd then oldIn line (s.cacheSet line) else none := by
  rw [staleBytes, cached]
  split_ifs <;> rfl

theorem State.staleBytes_congr {s t : State} (h : t.cache = s.cache) (line : Nat) : t.staleBytes line = s.staleBytes line := by
  simp only [staleBytes, cached, cacheSet, h]

theorem staleBytes_cache (line : Nat) (l : List CLine) (s : State) :
    (applyUpd (.cache (cacheKey line) l) s).staleBytes line = if line * 64 < stackedEnd then oldIn line l else none := by
  rw [State.staleBytes_eq, State.cacheSet, applyUpd_cache_self, Store.get_set_same]

theorem staleBytes_cacheEff (hint : Nat) (write full alloc : Bool) (line : Nat) (s : State) :
    (run (cacheEff hint write full alloc line) s).staleBytes line = s.staleBytes line := by
  rw [cacheEff, run_get]
  dsimp only
  split_ifs
  · rw [run_upd, staleBytes_cache, oldIn_cacheStep, ← State.staleBytes_eq]
  · rfl

/-! A store of a whole word. -/

section
variable {a : Nat} {d : List Byte} (ha : a % 8 = 0) (hd : d.length = 8)

section
include ha

theorem linesOf_word : linesOf a 8 = [a / 64] := by
  have : (a + 7) / 64 - a / 64 = 0 := by omega
  simp [linesOf, this]

theorem wordsIn_word : wordsIn a 8 = [a / 8] := by
  have : (a + 7) / 8 - a / 8 = 0 := by omega
  simp [wordsIn, this]

end

include ha hd

theorem pieces_word : pieces a d = [(a, d)] := by
  have hne : d ≠ [] := by rintro rfl; simp at hd
  have hlen : d.length ≤ 64 - a % 64 := by omega
  simp [pieces, splitLines, hne, List.take_of_length_le hlen, List.drop_of_length_le hlen]

theorem splitWords_word : splitWords 9 a d = [(a / 8, 0, d)] := by
  have hne : d ≠ [] := by rintro rfl; simp at hd
  have hlen : d.length ≤ 8 - a % 8 := by omega
  simp [splitWords, hne, ha, List.take_of_length_le (hd.le : d.length ≤ 8), List.drop_of_length_le (hd.le : d.length ≤ 8)]

end

/-- The unfenced bytes of a line take the bytes written (R199). -/
def staleWrite (a : Nat) (d : List Byte) : Eff := .get fun s => Eff.opt (s.staleBytes (a / 64)) fun b =>
  .upd (.cache (cacheKey (a / 64)) ((s.cacheSet (a / 64)).map
    (fun c => if c.line == a / 64 then { c with old := some (b.take (a % 64) ++ d ++ b.drop (a % 64 + d.length)) } else c)))

/-- What a store of a whole word to a line of stacked memory does before the word is stored. -/
def beforeWord (a : Nat) : Eff := .seq (addReg .MC_PERF_wr_lines (a / 2 ^ 30) 1) (openRow (a / 64))

/-- What a write does after its words are stored. -/
def afterWord (iss : Issuer) (fl : Option Nat) (a : Nat) : Eff := .seq (accessCharge iss fl a 8) (.upd (.rsp (leBytes 0 4)))

theorem run_writeLine_word {a : Nat} {d : List Byte} {s : State} (ha : a % 8 = 0) (hstacked : a < stackedEnd)
    (hd : d.length = 8) (hlive : bit (s.sliceAt (a / 2 ^ 30)).deadCh (chanOf (a % 2 ^ 30)) = false) (fl hint : Nat) :
    run (writeLine fl hint a d) s = run (cacheEff hint true false true (a / 64))
      (run (staleWrite a d) (run (putWord (a / 8) d false) (run (beforeWord a) s))) := by
  simp only [writeLine, run_get, if_pos hstacked, hlive, Bool.false_eq_true, if_false, splitWords_word ha hd, run_all_cons,
    run_all_nil, Eff.each, List.map_cons, List.map_nil, writeWord, hd, beforeWord, run_seq, staleWrite]
  rfl

/-- A write whose lines all pass its checks (R34, R39). -/
theorem run_memoryWriteEff_ok {iss : Issuer} {a : Nat} {hint : Fin 4} {d : List Byte} {s : State}
    (h : ∀ l ∈ linesOf a d.length, s.judge (srcOf iss) (issChecked iss) (s.issFlask iss) l = .ok) :
    run (memoryWriteEff iss a hint d []) s = run (.upd (.rsp (leBytes 0 4))) (run (accessCharge iss (s.issFlask iss) a d.length)
      (run (Eff.each (pieces a d) fun p => writeLine ((s.issFlask iss).getD 31) (hintOf iss hint) p.1 p.2) s)) := by
  have hnone : ∀ c : LineClass, c ≠ .ok →
      (linesOf a d.length).filter (fun l => s.judge (srcOf iss) (issChecked iss) (s.issFlask iss) l == c) = [] := fun c hc =>
    List.filter_eq_nil_iff.mpr fun l hl => by simpa [h l hl] using hc.symm
  have hpieces : (pieces a d).filter (fun p => s.judge (srcOf iss) (issChecked iss) (s.issFlask iss) (p.1 / 64) == .ok) = pieces a d :=
    List.filter_eq_self.mpr fun p hp => by simp [h _ (line_of_piece hp)]
  have hskip : run (applyUpsets []) s = s := rfl
  simp only [memoryWriteEff, run_seq, hskip, run_get, writeMem, run_all_cons, run_all_nil, hnone .unmapped nofun,
    hnone .protection nofun, hpieces, State.writeStatus_ok h]
  rfl

/-- A word written to a line of stacked memory that passes its checks (R199, R223). -/
theorem run_memoryWriteEff_word {iss : Issuer} {a : Nat} {hint : Fin 4} {d : List Byte} {s : State} (ha : a % 8 = 0)
    (hstacked : a < stackedEnd) (hd : d.length = 8)
    (hok : s.judge (srcOf iss) (issChecked iss) (s.issFlask iss) (a / 64) = .ok)
    (hlive : bit (s.sliceAt (a / 2 ^ 30)).deadCh (chanOf (a % 2 ^ 30)) = false) :
    run (memoryWriteEff iss a hint d []) s = run (afterWord iss (s.issFlask iss) a)
      (run (cacheEff (hintOf iss hint) true false true (a / 64))
        (run (staleWrite a d) (run (putWord (a / 8) d false) (run (beforeWord a) s)))) := by
  rw [run_memoryWriteEff_ok (by simpa [hd, linesOf_word ha] using hok), pieces_word ha hd, hd]
  simp only [Eff.each, List.map_cons, List.map_nil, run_all_cons, run_all_nil, run_writeLine_word ha hstacked hd hlive, afterWord,
    run_seq]

theorem beforeWord_may (a : Nat) : May (mayOpenRow ||| mr .MC_PERF_wr_lines) (beforeWord a) :=
  .seq (.add rfl) (openRow_may rfl _)

theorem staleWrite_may (a : Nat) (d : List Byte) : May (mp .cache) (staleWrite a d) :=
  .get fun _ => .opt fun _ => .upd (show (mp .cache).testBit Part.cache.ctorIdx = true from rfl)

theorem afterWord_may (iss : Issuer) (fl : Option Nat) (a : Nat) : May (mayAccessCharge ||| mp .rsp) (afterWord iss fl a) :=
  .seq (accessCharge_may rfl ..) (.upd rfl)

/-! What a word's store leaves. -/

section
variable (w : Nat) (d : List Byte) (p : Bool) (s : State)

theorem run_putWord : ∃ wb, run (putWord w d p) s =
    { s with mem := putBytes s.mem (w * 8) d, marks := Store.set {} w { cleanMark s w with poison := p } s.marks, wb := wb } := by
  simp only [putWord, run_get, run_all_cons, run_all_nil]
  split_ifs
  · exact ⟨_, rfl⟩
  · exact ⟨_, rfl⟩

end

section
variable (a : Nat) (d : List Byte) (s : State)

theorem staleBytes_staleWrite : (run (staleWrite a d) s).staleBytes (a / 64) =
    (s.staleBytes (a / 64)).map fun b => b.take (a % 64) ++ d ++ b.drop (a % 64 + d.length) := by
  rw [staleWrite, run_get]
  cases h : s.staleBytes (a / 64) with
  | none => exact h
  | some b =>
    rw [State.staleBytes_eq] at h
    split_ifs at h with hstacked
    obtain ⟨c, hfind, hold⟩ := Option.bind_eq_some_iff.mp h
    rw [run_opt_some, run_upd, staleBytes_cache, if_pos hstacked, oldIn, List.find?_map]
    have hcomp : ((fun c : CLine => c.line == a / 64) ∘ fun c => if (c.line == a / 64) = true then
        { c with old := some (b.take (a % 64) ++ d ++ b.drop (a % 64 + d.length)) } else c) = fun c => c.line == a / 64 :=
      funext fun c => by dsimp only [Function.comp]; split <;> rfl
    have hc : c.line = a / 64 := by simpa using List.find?_some hfind
    rw [hcomp, hfind]
    simp [hc]

end

/-- A whole word written to stacked memory stands there with a clean codeword, and in the line's unfenced bytes if it has any
(R199, R216, R223). -/
theorem memoryWriteEff_word {iss : Issuer} {a : Nat} {hint : Fin 4} {d : List Byte} {s t : State} (ha : a % 8 = 0)
    (hstacked : a < stackedEnd) (hd : d.length = 8)
    (hok : s.judge (srcOf iss) (issChecked iss) (s.issFlask iss) (a / 64) = .ok)
    (hlive : bit (s.sliceAt (a / 2 ^ 30)).deadCh (chanOf (a % 2 ^ 30)) = false)
    (ht : t = run (memoryWriteEff iss a hint d []) s) :
    s.SameMap t ∧ t.rawBytes a 8 = d ∧ t.markAt (a / 8) = { known := s.undefPlace (a / 8) } ∧
      t.staleBytes (a / 64) = (s.staleBytes (a / 64)).map fun b => b.take (a % 64) ++ d ++ b.drop (a % 64 + 8) := by
  obtain ⟨s1, hs1⟩ : ∃ s1, s1 = run (beforeWord a) s := ⟨_, rfl⟩
  obtain ⟨s2, hs2⟩ : ∃ s2, s2 = run (putWord (a / 8) d false) s1 := ⟨_, rfl⟩
  obtain ⟨s3, hs3⟩ : ∃ s3, s3 = run (staleWrite a d) s2 := ⟨_, rfl⟩
  have hbefore := beforeWord_may a
  have hput := putWord_may (mk := mayPutWord) rfl (a / 8) d false
  have hstale := staleWrite_may a d
  have hcacheEff := cacheEff_may (mk := mayCacheEff) rfl (hintOf iss hint) true false true (a / 64)
  have hafter := afterWord_may iss (s.issFlask iss) a
  obtain ⟨s4, hs4⟩ : ∃ s4, s4 = run (cacheEff (hintOf iss hint) true false true (a / 64)) s3 := ⟨_, rfl⟩
  rw [run_memoryWriteEff_word ha hstacked hd hok hlive, ← hs1, ← hs2, ← hs3, ← hs4] at ht
  obtain ⟨wb, hwb⟩ := run_putWord (a / 8) d false s1
  have hmap1 : s.SameMap s1 := hs1 ▸ hbefore.sameMap rfl s
  have hmap3 : s1.SameMap s3 := hs3 ▸ hs2 ▸ (hput.sameMap rfl s1).trans (hstale.sameMap rfl _)
  have hmap4 : s3.SameMap t := ht ▸ hs4 ▸ (hcacheEff.sameMap rfl s3).trans (hafter.sameMap rfl _)
  refine ⟨hmap1.trans (hmap3.trans hmap4), ?data, ?mark, ?stale⟩
  case data =>
    have hmem : t.mem = (applyUpd (.bytes a d) s1).mem := by
      rw [ht, hafter.mem rfl rfl, hs4, hcacheEff.mem rfl rfl, hs3, hstale.mem rfl rfl, hs2, hwb, Nat.div_mul_cancel (Nat.dvd_of_mod_eq_zero ha)]
      rfl
    calc t.rawBytes a 8
      _ = (applyUpd (.bytes a d) s1).rawBytes a 8 := by simp only [State.rawBytes, State.byteAt, hmem]
      _ = d := by rw [rawBytes_bytes a d s1 8 hd.ge, ← hd, List.take_length]
  case mark =>
    rw [ht, hafter.markAt rfl rfl, hs4, hcacheEff.markAt rfl rfl, hs3, hstale.markAt rfl rfl, hs2, hwb, State.markAt, Store.get_set_same, cleanMark, hmap1.undefPlace]
  case stale =>
    have hcache : s2.cache = s.cache := by rw [hs2, hput.cache rfl rfl, hs1, hbefore.cache rfl rfl]
    rw [ht, State.staleBytes_congr (hafter.cache rfl rfl _), hs4, staleBytes_cacheEff, hs3, staleBytes_staleWrite,
      State.staleBytes_congr hcache, hd]

/-! A word read under failing bits. -/

theorem State.sameMap_mark (s : State) (w : Nat) (m : Mark) : s.SameMap (applyUpd (.mark w m) s) :=
  ⟨rfl, rfl, rfl, rfl, rfl, rfl, rfl, rfl, fun _ => rfl, fun _ => rfl, fun _ => rfl, fun _ => rfl⟩

/-- A codeword of the model's own with two or fewer failed bits is delivered as it was (R216). -/
theorem State.decodeWord_correctable {s : State} {w : Nat} {k : Bool} {flips : BitVec 80} (hstacked : w * 8 < stackedEnd)
    (hlive : bit (s.sliceAt (w * 8 / 2 ^ 30)).deadCh (chanOf (w * 8 % 2 ^ 30)) = false)
    (hmark : s.markAt w = { known := k, flips := flips }) (hknown : s.undefPlace w = true → k = true)
    (hflips : popcount flips.toNat 80 ≤ 2) :
    (s.decodeWord w).verdict < 3 ∧ (s.decodeWord w).data = BitVec.ofNat 64 (s.rawWord (w * 8)) := by
  have hfar : ¬(farBase ≤ w * 8 ∧ w * 8 < csramBase) := by
    simp only [stackedEnd, farBase] at hstacked ⊢
    omega
  have hdef : s.undefWord w = false := by
    rw [undefWord, hmark]
    cases hplace : s.undefPlace w
    · rfl
    · simp [hknown hplace]
  simp only [decodeWord, if_neg hfar, hlive, Bool.and_false, Bool.false_eq_true, if_false, hdef, hmark, decodeCoded]
  by_cases h0 : popcount flips.toNat 80 = 0
  · simp only [h0, if_true]
    exact ⟨Nat.zero_lt_succ _, trivial⟩
  · simp only [if_neg h0, if_pos (hflips.trans (by decide : 2 ≤ 3))]
    exact ⟨Nat.lt_succ_of_le hflips, trivial⟩

theorem State.good_of_decode {s : State} {w : Nat}
    (hdecode : (s.decodeWord w).verdict < 3 ∧ (s.decodeWord w).data = BitVec.ofNat 64 (s.rawWord (w * 8)))
    (hstale : ∀ b, s.staleBytes (w / 8) = some b → (b.drop (w % 8 * 8)).take 8 = s.rawBytes (w * 8) 8) : s.Good w := by
  obtain ⟨hverdict, hdata⟩ := hdecode
  simp only [Good, deliver]
  split
  case h_1 => exact ⟨hverdict, by rw [hdata, wordBytes_rawWord]⟩
  case h_2 c hcached =>
    split
    case h_1 b hold =>
      have hb := hstale b (by rw [staleBytes, hcached]; exact hold)
      exact ⟨Nat.zero_lt_succ _, by rw [hb, wordBytes_leNat (s.length_rawBytes ..)]⟩
    case h_2 =>
      rw [if_neg (by omega)]
      exact ⟨Nat.zero_lt_succ _, wordBytes_rawWord ..⟩

end Sys2Proof.Machine
end

section
/-! PROOFS. Error correction (08_error_correction.md). -/
set_option exponentiation.threshold 1000
namespace Sys2Proof.Machine

/-- Settles O37: the word's codeword is clean when the bits fail, and what the line's cached copy delivers is the word too. -/
theorem readAfterWriteReturnsTheWord : Obligations.ReadAfterWriteReturnsTheWord := by
  intro iss iss' a hint hint' d flips s ha hstacked hd hok hok' hlive hbytes hflips
  refine ⟨_, _, rfl, rfl, ?_⟩
  obtain ⟨t, ht⟩ : ∃ t, t = run (memoryWriteEff iss a hint d []) s := ⟨_, rfl⟩
  obtain ⟨hmap, hdata, hmark, hstale⟩ := memoryWriteEff_word ha hstacked hd hok hlive ht
  rw [← ht, rsp_memoryReadEff]
  obtain ⟨u, hu⟩ : ∃ u, u = applyUpd (.mark (a / 8) { known := s.undefPlace (a / 8), flips := flips }) t := ⟨_, rfl⟩
  have hrun : run (applyUpsets [⟨a / 8, flips⟩]) t = u := by
    rw [hu]
    simp [applyUpsets, Eff.each, hmark]
  have hword : a / 8 * 8 = a := Nat.div_mul_cancel (Nat.dvd_of_mod_eq_zero ha)
  have hmapu : s.SameMap u := hmap.trans (hu ▸ t.sameMap_mark _ _)
  have hdatau : u.rawBytes a 8 = d := by
    rw [← hdata, hu]
    rfl
  have hdecode := State.decodeWord_correctable (s := u) (w := a / 8) (k := s.undefPlace (a / 8)) (flips := flips) (by rwa [hword])
    (by rw [hword, hmapu.sliceAt]; exact hlive) (by rw [hu]; exact Store.get_set_same ..) (fun h => by rwa [← hmapu.undefPlace])
    hflips
  have hgood : u.Good (a / 8) := State.good_of_decode hdecode fun b hb => by
    have hline : a / 8 / 8 = a / 64 := Nat.div_div_eq_div_mul a 8 8
    have hoff : a / 8 % 8 * 8 = a % 64 := by omega
    have hcache : u.cache = t.cache := by rw [hu]; rfl
    rw [hline, State.staleBytes_congr hcache, hstale] at hb
    obtain ⟨b0, hb0, rfl⟩ := Option.map_eq_some_iff.mp hb
    have hlen : (b0.take (a % 64)).length = a % 64 := by
      rw [List.length_take, hbytes b0 hb0]
      omega
    rw [hword, hdatau, hoff, List.append_assoc, List.drop_append_of_le_length hlen.ge, List.drop_of_length_le hlen.le, List.nil_append, ← hd, List.take_left]
  obtain ⟨hstatus, hread⟩ := State.readResult_good (s := u) (src := srcOf iss') (chk := issChecked iss') (fl := s.issFlask iss')
    (a := a) (len := 8) (by decide) (by simpa [linesOf_word ha, hmapu.judge] using hok') (by simpa [wordsIn_word ha] using hgood)
  rw [hrun, State.readBy, hmapu.issFlask, hstatus, hread, hdatau]

end Sys2Proof.Machine
end

section
/-! SUPPORT. What lowers no fused count: an effect that writes no security state, or writes it upwards
(26_security_and_licences.md). -/
set_option exponentiation.threshold 1000
set_option maxRecDepth 20000
namespace Sys2Proof.Machine

/-- No fused count of `a` is above `b`'s: the floor, the two thermometers, the LIC counter (R614, R617). -/
def SecSt.Le (a b : SecSt) : Prop :=
  a.floor ≤ b.floor ∧ a.bootBurnt ≤ b.bootBurnt ∧ a.licBurnt ≤ b.licBurnt ∧ a.lic ≤ b.lic

theorem SecSt.Le.refl (a : SecSt) : a.Le a := ⟨le_rfl, le_rfl, le_rfl, le_rfl⟩

theorem SecSt.Le.trans {a b c : SecSt} (h : a.Le b) (k : b.Le c) : a.Le c :=
  ⟨h.1.trans k.1, h.2.1.trans k.2.1, h.2.2.1.trans k.2.2.1, h.2.2.2.trans k.2.2.2⟩

/-- Checkpoint bits are only ever burnt. -/
theorem le_burn (b v : Nat) : b ≤ burn b v := by
  unfold burn
  split <;> omega

/-- An effect that lowers no fused count, in any state. -/
def Eff.Raises (e : Eff) : Prop := ∀ s : State, s.sec.Le (run e s).sec

/-- The set of everything but the security state. -/
def allButSec : Nat := mayAll ^^^ 2 ^ Part.sec.ctorIdx

/-- An update of anything else keeps the fused counts; a module reset keeps them too (R371). -/
theorem sec_le_applyUpd (u : Upd) (s : State) (hu : u.bit ≠ Part.sec.ctorIdx) : s.sec.Le (applyUpd u s).sec := by
  cases u
  case sec => exact absurd rfl hu
  all_goals exact SecSt.Le.refl _

theorem Eff.Raises.seq {a b : Eff} (ha : a.Raises) (hb : b.Raises) : (Eff.seq a b).Raises := fun s => (ha s).trans (hb _)

theorem Eff.Raises.get {f : State → Eff} (h : ∀ s, (f s).Raises) : (Eff.get f).Raises := fun s => h s s

theorem Eff.Raises.skip : Eff.skip.Raises := fun _ => SecSt.Le.refl _

theorem Eff.Raises.nil : (Eff.all []).Raises := Eff.Raises.skip

theorem Eff.Raises.cons {e : Eff} {es : List Eff} (h : e.Raises) (hs : (Eff.all es).Raises) : (Eff.all (e :: es)).Raises :=
  h.seq hs

theorem Eff.Raises.when {b : Bool} {e : Eff} (h : e.Raises) : (Eff.when b e).Raises := by
  cases b
  exacts [Eff.Raises.skip, h]

/-- What writes no security state lowers no count. -/
theorem May.raises {m : Nat} {e : Eff} (h : May m e) (hm : m.testBit Part.sec.ctorIdx = false) : e.Raises := by
  have hu := h.only
  clear h
  induction e with
  | skip => exact .skip
  | upd u =>
    refine fun s => sec_le_applyUpd u s fun hb => ?_
    rw [Eff.Only, hb, hm] at hu
    cases hu
  | seq a b iha ihb => exact (iha hu.1).seq (ihb hu.2)
  | get f ih => exact .get fun s => ih s (hu s)

theorem Eff.Raises.other {e : Eff} (h : May allButSec e) : e.Raises := h.raises rfl

theorem setSec_raises {f : SecSt → SecSt} (h : ∀ x : SecSt, x.Le (f x)) : (setSec f).Raises := fun s => h s.sec

theorem Eff.Raises.opt {α : Type} {o : Option α} {f : α → Eff} (h : ∀ a, (f a).Raises) : (Eff.opt o f).Raises := by
  cases o
  exacts [Eff.Raises.skip, h _]

theorem fresh_raises {k : Nat → Eff} (h : ∀ v, (k v).Raises) : (fresh k).Raises :=
  .get fun _ => .seq (fun _ => SecSt.Le.refl _) (h _)

/-! The operations that write the security state. -/

theorem signReport_raises (fl : Nat) : (signReport fl).Raises := .get fun _ => .when (setSec_raises fun _ => .refl _)

theorem respond_raises (st i ver : Nat) (x : RxItem) (queue : List Pkt) : (respond st i ver x queue).Raises :=
  fresh_raises fun _ => .get fun _ => .cons (fun _ => SecSt.Le.refl _) <| .cons (.when (.other (enterV1_may rfl _))) <|
    .cons (.other (countConns_may rfl _)) <| .cons (signReport_raises _) <| .cons (.other (initAck_may rfl _)) .nil

theorem initPkt_raises (st : Nat) (x : RxItem) : (initPkt st x).Raises := by
  refine .get fun s => ?_
  dsimp only
  have hr (k : Nat) : (refuse x k).Raises := .other (refuse_may rfl x k)
  have hi (i : Nat) : (initAck i).Raises := .other (initAck_may rfl i)
  split
  · exact .other (authFail_may rfl _ _ _)
  split
  · exact hr _
  split
  · exact hr _
  split
  · split
    · exact hi _
    split
    · split
      · exact .skip
      · exact respond_raises _ _ _ _ _
    · exact .seq (.other (connLost_may rfl _)) (respond_raises _ _ _ _ _)
  · split
    · exact hr _
    · exact respond_raises _ _ _ _ _

theorem initAckPkt_raises (i : Nat) (x : RxItem) : (initAckPkt i x).Raises := by
  refine .get fun s => ?_
  dsimp only
  split
  · exact .skip
  split
  · exact .other (authFail_may rfl _ _ _)
  · exact .cons (.other (setConn_may rfl _ _)) <| .cons (.when (.other (enterV1_may rfl _))) <|
      .cons (.other (clampRate_may rfl _)) <| .cons (signReport_raises _) <| .cons (.other (sendControl_may rfl _ _)) .nil

/-- A frame is taken without a write of the security state. -/
theorem rxType_raises (st t : Nat) {k : RxItem → Eff} (hk : ∀ x, (k x).Raises) : (rxType st t k).Raises := by
  refine .get fun s => ?_
  split
  · exact .skip
  split
  · exact .skip
  · exact .seq (.other (setFab_may rfl _ _)) (hk _)

theorem withReq_raises (f op : Nat) {k : Req → Eff} (hk : ∀ r, (k r).Raises) : (withReq f op k).Raises := by
  have ha (st : Nat) : (answer f st).Raises := .other (answer_may rfl f st)
  refine .get fun s => ?_
  split
  · exact .skip
  split
  · exact .skip
  · repeat' first | exact .skip | exact ha _ | exact hk _ | split

theorem hostIn_raises (f addr len : Nat) {k : List Byte → Eff} (hk : ∀ d, (k d).Raises) : (hostIn f addr len k).Raises := by
  refine .get fun s => ?_
  split
  · exact hk _
  · exact .other (answer_may rfl f _)

theorem licenceInstall_raises (f : Nat) (r : Req) : (licenceInstall f r).Raises := by
  have ha (st : Nat) : (answer f st).Raises := .other (answer_may rfl f st)
  unfold licenceInstall
  extract_lets n
  split
  · exact ha _
  refine hostIn_raises _ _ _ fun d => .get fun s => ?_
  dsimp only
  split
  · exact ha _
  split
  · exact ha _
  · exact .cons (setSec_raises fun x => ⟨le_rfl, le_rfl, le_burn _ _, Nat.le_succ _⟩) <| .cons (.other (setMisc_may rfl _)) <|
      .cons (.get fun _ => (.other (respond'_may rfl _ _ _))) .nil

theorem attest_raises (f : Nat) (r : Req) : (attest f r).Raises := by
  refine .get fun s => ?_
  dsimp only
  split
  · exact .other (respond'_may rfl _ _ _)
  · exact .seq (setSec_raises fun _ => .refl _) (.other (respond'_may rfl _ _ _))

theorem confirmBank_raises : confirmBank.Raises :=
  .get fun _ => .when <| .cons (setSec_raises fun _ => ⟨le_max_left _ _, le_rfl, le_rfl, le_rfl⟩) <|
    .cons (.other (setImgBank_may rfl _ _)) <| .cons (.other (imageLog_may rfl)) .nil

theorem inService_raises (code : Nat) : (inService code).Raises :=
  .cons (.other (setMisc_may rfl _)) <| .cons (.other (setFw_may rfl _)) <| .cons (.other (bootLog_may rfl _)) <|
    .cons confirmBank_raises <| .cons (.other (storeSettings_may rfl)) .nil

/-! Bring-up and re-entry, whose last step confirms the bank. -/

theorem coldPhase_raises (r : PhaseIn) : (coldPhase r).Raises := by
  refine .get fun s => ?_
  have he (p : Nat) : May allButSec (enterPhase p) := enterPhase_may rfl p
  split
  · exact .seq (.other (.each fun _ => .cons (.set rfl) (.cons (.set rfl) (.cons (.set rfl) .nil)))) (.other (he _))
  · exact .other (loadImages_may rfl _ _)
  · exact .other (.cons (testUnits_may rfl _ _ _) (.cons (assignRoles_may rfl) (.cons (he _) .nil)))
  · exact .other (.cons (testUnits_may rfl _ _ _) (.cons (he _) .nil))
  · exact .other (.cons (trainAll_may rfl _) (.cons (he _) .nil))
  · refine .seq (.other (initMemory_may rfl _)) (.get fun s => ?_)
    split
    · exact .other (.seq (he _) (startPorts_may rfl _))
    · exact inService_raises _
  · exact .when (inService_raises _)
  · exact .skip

theorem iodReset_raises : iodReset.Raises :=
  .get fun _ => .cons (.other (.each fun _ => stepEnd_may rfl _)) <| .cons (.other (resetIod_may rfl)) <|
    .cons (.other (setFw_may rfl _)) <| .cons (setSec_raises fun _ => .refl _) .nil

theorem warmReentry_raises : warmReentry.Raises := by
  refine .get fun s => ?_
  have he (p : Nat) : May allButSec (enterPhase p) := enterPhase_may rfl p
  dsimp only
  split
  · exact .skip
  split
  · exact .cons iodReset_raises (.other (.cons (.each fun _ => .seq (releaseFp_may rfl _ _) (setStack_may rfl _ _)) (.cons (he _) .nil)))
  split
  · exact .seq iodReset_raises (.other (.seq (setFw_may rfl _) (.get fun _ => .ite (he _) (he _))))
  · exact .seq iodReset_raises (.other (he _))

theorem warmStep_raises (r : PhaseIn) : (warmStep r).Raises := by
  refine .get fun s => ?_
  have he (p : Nat) : May allButSec (enterPhase p) := enterPhase_may rfl p
  have hu (us cls k) : May allButSec (testUnits us cls k) := testUnits_may rfl us cls k
  have hg : May allButSec gradeCheck := gradeCheck_may rfl
  split
  · exact .other (.seq (.each fun _ => releaseFp_may rfl _ _) (he _))
  · exact .other (loadImages_may rfl _ _)
  · exact .other (.cons (hu _ _ _) (.cons (assignRoles_may rfl) (.cons hg (.cons (he _) .nil))))
  · exact .other (.cons (hu _ _ _) (.cons hg (.cons (.each fun _ => setStack_may rfl _ _) (.cons (he _) .nil))))
  · exact .other (.cons (trainAll_may rfl _) (.cons (he _) .nil))
  · exact .other (.cons (.each fun _ => endGrant_may rfl _) (.cons (.each fun _ => fpReturn_may rfl _ _ .skip)
      (.cons (.each fun _ => syncTokens_may rfl _) (.cons (startGather_may rfl _) (.cons (he _) (.cons (startPorts_may rfl _) .nil))))))
  · exact inService_raises _
  · exact .skip

theorem fwHang_raises (u : Nat) : (fwHang u).Raises := by
  refine fresh_raises fun v => .get fun s => ?_
  have hh : May allButSec (hangRecords u) := hangRecords_may rfl u
  have hf (g) : May allButSec (setFw g) := setFw_may rfl g
  have hc (c k) : May allButSec (holdCluster c k) := holdCluster_may rfl c k
  dsimp only
  split
  · exact .seq warmReentry_raises (.other hh)
  split
  · split
    · exact .seq warmReentry_raises (.other hh)
    · exact .other (.cons hh (.cons (doorbell_may rfl _ _) (.cons (hf _) .nil)))
  split
  · exact .other (.cons hh (.cons (hc _ _) (.cons (hostRing_may rfl _ _ _) .nil)))
  · exact .other (.cons hh (.cons (hf _) (.cons (hc _ _) .nil)))

/-! Module resets, trips and the cold boot. -/

/-- An update of another part lies within the set of everything but the security state. -/
theorem upd_may {u : Upd} (p : Part) (hb : u.bit = p.ctorIdx) (hp : allButSec.testBit p.ctorIdx = true) :
    May allButSec (.upd u) := .upd (by rw [hb, hp])

theorem moduleReset_may (p : Nat) : May allButSec (moduleReset p) :=
  .get fun _ => .cons (.upd (by dsimp only [Upd.bit]; rfl)) <| .cons (.each fun _ => upd_may .slice rfl rfl) <|
    .cons (.each fun _ => .cons (upd_may .fab rfl rfl) <| .cons (.set rfl) <| .cons (.set rfl) <| .cons (upd_may .th rfl rfl) <| .cons (.when (setStack_may rfl _ _)) .nil) .nil

theorem coldBoot_raises : coldBoot.Raises :=
  .cons (.other (moduleReset_may _)) <| .cons (setSec_raises fun _ => ⟨le_rfl, le_burn _ _, le_rfl, le_rfl⟩) <|
    .cons (.other (bootLog_may rfl _)) .nil

theorem powerLossEff_may (mv : Nat) : May allButSec (powerLossEff mv) :=
  .cons (moduleReset_may _) <| .cons (.get fun _ => .each fun _ => upd_may .slice rfl rfl) <| .cons (.upd rfl) <| .cons (.upd rfl) <|
    .cons (setMisc_may rfl _) .nil

theorem tripIod_may (cause : Nat) : May allButSec (tripIod cause) :=
  .cons (setTherm_may rfl _) <| .cons (setMisc_may rfl _) <| .cons (moduleReset_may _) .nil

theorem tripUnit_may (t cause : Nat) : May allButSec (tripUnit t cause) := .ite (tripIod_may _) (tripStack_may rfl _ _)

theorem pmcTrip_may (t : Nat) : May allButSec (pmcTrip t) := .get fun _ => tripUnit_may _ _

theorem pmcResult_may (st : Nat) (valid : Bool) (temp : Int) (watts : Nat) : May allButSec (pmcResult st valid temp watts) :=
  .get fun _ => .cons (setTh_may rfl _ _) <| .cons (setRefresh_may rfl _ _) <|
    .cons (.ite (.seq (.set rfl) (pmcTrip_may _)) (.ite (.seq (.set rfl) (pmcTrip_may _))
      (.seq (actBand_may rfl _ _ _) (keepWarm_may rfl _ _ _)))) .nil

theorem iodResult_may (valid : Bool) (temp : Int) (watts : Nat) : May allButSec (iodResult valid temp watts) :=
  .get fun _ => .seq (setTh_may rfl _ _) (.when (.seq (.set rfl) (pmcTrip_may _)))

theorem diodeDone_may (t : Nat) (valid : Bool) (temp : Int) (watts : Nat) : May allButSec (diodeDone t valid temp watts) :=
  .fresh rfl fun _ => .get fun _ => .cons (.set rfl) <| .cons (.add rfl) <| .cons (.set rfl) <| .cons (.set rfl) <|
    .cons (showPower_may rfl _ _) <| .cons (.set rfl) <| .cons (doorbell_may rfl _ _) <|
    .cons (.ite (tripUnit_may _ _) (.ite (tripUnit_may _ _)
      (.get fun _ => .when (.ite (iodResult_may _ _ _) (.when (pmcResult_may _ _ _ _)))))) .nil

/-! Register accesses. -/

/-- The field of a register has a place in the set of everything but the security state. -/
theorem testBit_allButSec (r : Fld) : allButSec.testBit (80 + r.ctorIdx) = true := by
  have hr := fld_ctorIdx_lt r
  have hs : Part.sec.ctorIdx < 80 := by decide
  rw [allButSec, mayAll, Nat.testBit_xor, Nat.testBit_two_pow_sub_one, Nat.testBit_two_pow_of_ne (by omega),
    decide_eq_true (by omega)]
  rfl

theorem setReg_may (r : Fld) (i v : Nat) : May allButSec (setReg r i v) := .set (testBit_allButSec r)

theorem trigger_may (r : Fld) (i : Nat) : ∀ e ∈ trigger r i, May allButSec e := by
  intro e he
  unfold trigger at he
  split at he
  all_goals cases he
  · exact seqGo_may rfl _
  · exact seqCtlStopEff_may rfl _
  · exact seqPause_may rfl _
  · exact arrPerfClear_may rfl _
  · exact vecPerfClear_may rfl _
  · exact invalSlice_may rfl _
  · exact mcPerfClear_may rfl _
  · exact .get fun _ => fillStart_may rfl _ _
  · exact .get fun _ => .when (twRead_may rfl _)
  · exact .get fun _ => .when (twWrite_may rfl _)
  · exact bsuPerfClear_may rfl _
  · exact applyRoutes_may rfl _
  · exact .get fun _ => .when (holdFp_may rfl _ _)
  · exact holdCore_may rfl _
  · exact ldlPerfClear_may rfl _
  · exact .seq (.set rfl) (ladleAbort_may rfl _)
  · exact requal_may rfl _
  · exact fpPerfClear_may rfl _
  · exact fabPerfClear_may rfl _
  · exact .get fun _ => mbPost_may rfl _ _
  · exact convReq_may rfl _
  · exact .get fun _ => .when (pmcTrip_may _)
  · exact thRelease_may rfl _

theorem writeWo_may (r : Fld) (i v : Nat) : May allButSec (writeWo r i v) := by
  unfold writeWo
  split
  · exact qFlush_may rfl _ _
  · exact flPush_may rfl _ _ _
  · exact flPush_may rfl _ _ _
  · exact .each fun _ => .get fun _ => .when (holdCluster_may rfl _ _)
  · exact wqTail_may rfl _ _ _
  · exact egDoorbell_may rfl _ _
  · exact egComplete_may rfl _ _ _
  · exact .when (.seq (setGath_may rfl _ _) (hostSend_may rfl _))
  · exact .skip

theorem bucketWrite_may (k : Nat) (burst en r : Fld) (i v : Nat) : May allButSec (bucketWrite k burst en r i v) :=
  .get fun _ => .seq (setReg_may r i v) (.get fun _ => .ite (upd_may .bucket rfl rfl) (.when (upd_may .bucket rfl rfl)))

theorem writeLive_may (r : Fld) (i v : Nat) : May allButSec (writeLive r i v) := by
  have hset {r : Fld} {j : Nat} {e : Eff} (he : May allButSec e) : May allButSec (.seq (setReg r i j) e) := .seq (setReg_may r i j) he
  refine .get fun s => ?_
  split
  · exact hset (.set rfl)
  · exact hset (.when (invalSlice_may rfl _))
  · exact hset (.when (setSlice_may rfl _ _))
  · exact hset (.when (checkLow_may rfl _ _))
  · exact hset (showSlew_may rfl _)
  · exact hset (showSlew_may rfl _)
  iterate 12 exact bucketWrite_may _ _ _ _ _ _
  iterate 3 exact .when (setReg_may _ i v)
  iterate 2 exact hset (hostSend_may rfl _)
  iterate 2 exact hset (hostSend_may rfl _)
  · exact hset (.when (.seq (.set rfl) (sendMsix_may rfl _ _)))
  · exact hset (.when (.set rfl))
  · exact portEnable_may rfl _ _
  · exact fabEnable_may rfl _ _
  · exact ladleEnable_may rfl _
  · exact ladleHead_may rfl _ _ _
  · exact .ite (.seq (.when (.each fun _ => qEmpty_may rfl _ _)) (setReg_may _ i v)) (setReg_may _ i v)

theorem lockFlag_may (r : Fld) (i : Nat) : May allButSec (lockFlag r i) := by
  unfold lockFlag
  split
  · exact setReg_may _ _ _
  · exact .set rfl
  · exact .set rfl
  · exact .skip

theorem writeRw_may (r : Fld) (i v : Nat) : May allButSec (writeRw r i v) :=
  .get fun _ => .ite (upd_may .shad rfl rfl) (.ite (lockFlag_may r i) (writeLive_may r i v))

theorem writeField'_may (r : Fld) (i v : Nat) : May allButSec (writeField' r i v) := by
  refine .get fun s => ?_
  have ht := trigger_may r i
  split
  · exact .skip
  · exact .skip
  · exact setReg_may _ _ _
  · split
    · exact .when (ht _ (by assumption))
    · exact writeWo_may _ _ _
  · split
    · exact .ite (ht _ (by assumption)) (writeRw_may _ _ _)
    · exact writeRw_may _ _ _

theorem registerWrite_may (r : Fld) (i v : Nat) : May allButSec (registerWrite r i v) :=
  .get fun _ => .ite .skip (.ite (.get fun _ => report_may rfl _ _ _ _ _ _ _ _)
    (.when (.seq (.when (settle_may rfl _)) (writeField'_may r i v))))

theorem readClear_may (r : Fld) (i : Nat) : May allButSec (readClear r i) := by
  refine .get fun s => ?_
  split
  iterate 3 exact flPop_may rfl _ _ fun _ => upd_may .rsp rfl rfl
  iterate 3 exact flPopB_may rfl _ _ _ fun _ => upd_may .rsp rfl rfl
  iterate 3 exact egClaim_may rfl _ _
  · exact .when (.seq (upd_may .rsp rfl rfl) (setReg_may r i 0))

/-! The commands. -/

/-- Every command is an effect that lowers no fused count: those that write the security state one by one, and the others,
whose set it is not in. -/
theorem exec_raises (c : Instr) (s : State) : ∃ e, exec c s = .next (run e s) ∧ e.Raises := by
  cases c
  case attest => exact ⟨_, rfl, withReq_raises _ _ (attest_raises _)⟩
  case licenceInstall => exact ⟨_, rfl, withReq_raises _ _ (licenceInstall_raises _)⟩
  case initPkt => exact ⟨_, rfl, .when (rxType_raises _ _ (initPkt_raises _))⟩
  case initAckPkt => exact ⟨_, rfl, .when (rxType_raises _ _ fun x => .opt fun i => initAckPkt_raises i x)⟩
  case fwHang => exact ⟨_, rfl, .when (fwHang_raises _)⟩
  case coldPhaseEnd => exact ⟨_, rfl, coldPhase_raises _⟩
  case fabricPhaseTimeout => exact ⟨_, rfl, .when (inService_raises _)⟩
  case warmReentry => exact ⟨_, rfl, warmReentry_raises⟩
  case warmStepEnd => exact ⟨_, rfl, warmStep_raises _⟩
  case debugToken => exact ⟨_, rfl, .when (setSec_raises fun _ => .refl _)⟩
  case coldBoot => exact ⟨_, rfl, .when coldBoot_raises⟩
  case resetN => exact ⟨_, rfl, .when (.seq (.other (setMisc_may rfl _)) coldBoot_raises)⟩
  case powerUp => exact ⟨_, rfl, .when (.seq (.other (setMisc_may rfl _)) coldBoot_raises)⟩
  case powerLoss => exact ⟨_, rfl, .other (.when (powerLossEff_may _))⟩
  case diodeDone => exact ⟨_, rfl, .other (.when (diodeDone_may _ _ _ _))⟩
  case conversionWatchdog => exact ⟨_, rfl, .other (.when (.seq (.set rfl) (.when (tripUnit_may _ _))))⟩
  case thCtlTrip => exact ⟨_, rfl, .other (.when (pmcTrip_may _))⟩
  case iodTrip => exact ⟨_, rfl, .other (.when (tripIod_may _))⟩
  case readClearCounter => exact ⟨_, rfl, .other (.when (readClear_may _ _))⟩
  case registerWrite => exact ⟨_, rfl, .other (registerWrite_may _ _ _)⟩
  all_goals
    obtain ⟨e, he, hm⟩ := exec_may _ s
    exact ⟨e, he, hm.raises (by dsimp only [mayOf]; rfl)⟩

/-- Settles O46: every command is an effect that lowers no fused count, and no primitive update changes a fuse. -/
theorem fusedCountsNeverFall : Obligations.FusedCountsNeverFall := by
  intro c s
  obtain ⟨e, he, hr⟩ := exec_raises c s
  exact ⟨_, he, run_fixes _ applyUpd_fuse e s, hr s⟩

end Sys2Proof.Machine
end

section
/-! PROOFS. A region that a deferred request takes from its flask is zeroed before it is unowned (R41, R505). -/
set_option exponentiation.threshold 1000
namespace Sys2Proof.Machine

/-- What an effect for each item of a list keeps, item by item. -/
theorem run_each_keeps {α : Type} {P : State → Prop} {l : List α} {f : α → Eff} (h : ∀ a ∈ l, ∀ t, P t → P (run (f a) t))
    (s : State) (hs : P s) : P (run (Eff.each l f) s) := by
  rw [run_each]
  exact List.foldlRecOn l (fun t a => run (f a) t) hs fun t ht a ha => h a ha t ht

/-- A region that no flask owns holds zeros. -/
def State.FreeZero (s : State) (r : Nat) : Prop :=
  s.ownerAt r = none → ∀ b, regionAddr r ≤ b → b < regionAddr r + 2 ^ 26 → s.byteAt b = 0

/-- Zeroing a region gives zeros in it and keeps every other byte. -/
theorem byteAt_zeroOwned (r : Nat) (s : State) (b : Nat) : (run (zeroOwned r) s).byteAt b =
    if regionAddr r ≤ b ∧ b < regionAddr r + 2 ^ 26 then 0 else s.byteAt b := by
  unfold zeroOwned
  split
  case isTrue h =>
    have hr : r / 16 * 2 ^ 30 + r % 16 * 2 ^ 26 = regionAddr r := by
      rw [regionAddr, if_pos h]
      omega
    rw [byteAt_zeroRegion, hr]
  case isFalse =>
    simp only [zeroRange, run_all_cons, run_all_nil, run_upd]
    rw [byteAt_frame _ _ _ (by simp), byteAt_frame _ _ _ (by simp), byteAt_zero]

/-- Taking a region from its flask: it is zeroed first, and no other region's zeros are written over. -/
theorem freeZero_take (r' r : Nat) (s : State) (h : s.FreeZero r) :
    (run (.seq (zeroOwned r') (.upd (.owner r' none))) s).FreeZero r := by
  intro hn b hlo hhi
  rw [run_seq, run_upd, byteAt_frame _ _ _ (by simp), byteAt_zeroOwned]
  split
  · rfl
  · rename_i hout
    refine h ?_ b hlo hhi
    have hne : r' ≠ r := fun he => hout (he ▸ ⟨hlo, hhi⟩)
    rw [run_seq, run_upd, ownerAt_other _ _ _ _ hne] at hn
    rwa [(zeroOwned_may (mk := mayZeroOwned) rfl r').ownerAt rfl rfl] at hn

/-- A SET takes no region from a flask. -/
theorem owned_doFlaskSet (fl : Nat) (cs rs : List Nat) (r : Nat) (s : State) (h : s.ownerAt r ≠ none) :
    (run (doFlaskSet fl cs rs) s).ownerAt r ≠ none := by
  simp only [doFlaskSet, run_all_cons, run_all_nil]
  rw [(show May (maySetCluster ||| mayZeroCluster ||| mayRespare) _ from .each fun c => .get fun _ =>
    .cons (.when (zeroCluster_may rfl _)) (.cons (setCluster_may rfl _ _) (.cons (respare_may rfl _) .nil))).ownerAt rfl rfl]
  refine run_each_keeps (P := fun t => t.ownerAt r ≠ none) (fun a _ t ht => ?_) _ ?_
  · rw [run_get, run_when]
    split
    · rw [run_seq, run_upd]
      rcases eq_or_ne a r with rfl | hne
      · rw [ownerAt_same]
        exact Option.some_ne_none _
      · rwa [ownerAt_other _ _ _ _ hne, (show May mayZeroOwned _ from .when (zeroOwned_may rfl a)).ownerAt rfl rfl]
    · exact ht
  · rwa [run_get, (show May mayNewFlask _ from .when (newFlask_may rfl fl)).ownerAt rfl rfl,
      (endGrants_may (mk := mayEndGrants) rfl fl).ownerAt rfl rfl]

/-- A REMOVE zeroes the regions it takes. -/
theorem freeZero_doFlaskRemove (fl : Nat) (cs rs : List Nat) (r : Nat) (s : State) (h : s.ownerAt r ≠ none) :
    (run (doFlaskRemove fl cs rs) s).FreeZero r := by
  simp only [doFlaskRemove, run_all_cons, run_all_nil]
  refine run_each_keeps (P := fun t => t.FreeZero r) (fun a _ t ht => freeZero_take a r t ht) _ (fun hn => absurd hn ?_)
  rwa [(show May (mayResetCluster ||| maySetCluster ||| mayClusterReturn ||| mayRespare) _ from .each fun c =>
      .cons (resetCluster_may rfl _ _) (.cons (setCluster_may rfl _ _) (.cons (clusterReturn_may rfl _)
        (.cons (respare_may rfl _) .nil)))).ownerAt rfl rfl,
    (endGrants_may (mk := mayEndGrants) rfl fl).ownerAt rfl rfl]

/-- The work of a deferred request leaves a region that it takes from its flask zeroed. -/
theorem freeZero_doWork (w : Work) (r : Nat) (s : State) (h : s.ownerAt r ≠ none) : (run (doWork w) s).FreeZero r := by
  have hkeep {m : Nat} {e : Eff} (he : May m e) (hb : m.testBit Part.owner.ctorIdx = false) (h79 : m.testBit 79 = false) :
      (run e s).FreeZero r := fun hn => absurd hn (by rwa [he.ownerAt hb h79])
  cases w with
  | flaskSet fl cs rs => exact fun hn => absurd hn (owned_doFlaskSet fl cs rs r s h)
  | flaskRemove fl cs rs => exact freeZero_doFlaskRemove fl cs rs r s h
  | done => exact hkeep (m := 0) .skip rfl rfl
  | flaskReset => exact hkeep (m := 0) .skip rfl rfl
  | jobLeave => exact hkeep (m := 0) .skip rfl rfl
  | ctxDestroy x => exact hkeep (freeCtx_may (mk := mayFreeCtx) rfl x) rfl rfl
  | queueDestroy k => exact hkeep (m := mp .wq) (.upd (by dsimp only [Upd.bit]; rfl)) rfl rfl
  | pageRetire ks => exact hkeep (m := mayRetireFrame) (.each fun k => retireFrame_may rfl k) rfl rfl
  | seqEvict q begun => exact hkeep (m := mayEvictNamed) (.when (evictNamed_may rfl q)) rfl rfl

/-- What touches neither memory nor owners keeps it. -/
theorem May.freeZero {m : Nat} {e : Eff} (he : May m e) (ho : m.testBit Part.owner.ctorIdx = false)
    (hb : m.testBit Part.mem.ctorIdx = false) (h79 : m.testBit 79 = false) (r : Nat) (s : State) (h : s.FreeZero r) :
    (run e s).FreeZero r := by
  intro hn b hlo hhi
  rw [he.ownerAt ho h79] at hn
  rw [he.byteAt hb h79]
  exact h hn b hlo hhi

/-- Settles O47: the work is the only part of the request that changes owners or memory. -/
theorem releasedRegionsAreZero : Obligations.ReleasedRegionsAreZero := by
  intro f s r _
  refine ⟨_, rfl, fun hown hfree => ?_⟩
  suffices h : (run (Eff.when (s.fwUp && !decide (2 ∈ s.fw.restarting)) (deferredCompletion f)) s).FreeZero r from h hfree
  have hid : s.FreeZero r := fun hn => absurd hn hown
  rw [run_when, deferredCompletion, run_get]
  split
  · dsimp only
    split
    · exact hid
    · rename_i d i _
      rw [run_seq]
      have hw := freeZero_doWork d.work r s hown
      rw [run_get]
      split
      · exact (setFn_may (mk := maySetFn) rfl _ _).freeZero rfl rfl rfl r _ hw
      · exact May.freeZero (m := maySetFn ||| mp .mbox ||| mayHostRing)
          (.cons (setFn_may rfl _ _) (.cons (.upd (by dsimp only [Upd.bit]; rfl)) (.cons (hostRing_may rfl _ _ _) .nil))) rfl rfl rfl r _ hw
  · exact hid

end Sys2Proof.Machine
end

section
/-! PROOFS. Which sources are eligible (R534), and which work-queue tails are accepted (R501). -/
set_option exponentiation.threshold 1000
namespace Sys2Proof.Machine

/-- A running maximum is below a bound when its start and every item are. -/
theorem foldl_max_lt {l : List Nat} {g : Nat → Nat} {a x : Nat} :
    l.foldl (fun m n => max m (g n)) a < x ↔ a < x ∧ ∀ n ∈ l, g n < x := by
  induction l generalizing a with
  | nil => simp
  | cons n l ih => simp only [List.foldl_cons, ih, Nat.max_lt, List.forall_mem_cons, and_assoc]

/-- The running level is below a priority above 0 when every active source of the target is (R534). -/
theorem runningLevel_lt (s : State) (g t x : Nat) :
    s.runningLevel g t < x ↔ 0 < x ∧ ∀ k ∈ (s.gathAt g).act, s.srcTarget g k = t → s.srcPrio g k < x := by
  simp only [State.runningLevel, foldl_max_lt, List.mem_filter, beq_iff_eq, and_imp]

/-- Settles O42. -/
theorem sourcesAreEligible : Obligations.SourcesAreEligible := by
  intro s g t n hmode
  have hsig : n ∈ s.signalling g t ↔
      n ∈ (s.gathAt g).pend ∧ s.srcTarget g n = t ∧ s.reg .EG_TGT_thresh (g * 4 + t) < s.srcPrio g n := by
    simp only [State.signalling, List.mem_filter, Bool.and_eq_true, beq_iff_eq, decide_eq_true_eq]
  rw [State.eligible, hmode, if_neg Bool.false_ne_true, List.mem_filter, hsig, decide_eq_true_eq, runningLevel_lt, and_assoc, and_assoc]
  refine and_congr_right fun _ => and_congr_right fun _ => and_congr_right fun hthresh => and_iff_right ?_
  exact Nat.zero_lt_of_lt hthresh

/-- A host doorbell's note is in the ring, and the counter stands one further (R538, R541). -/
theorem run_hostRing_note (f kind param : Nat) (s : State) (h : s.fnOn f = true) :
    (run (hostRing f kind param) s).reg .EG_HNOTE_wr_seq f = (s.reg .EG_HNOTE_wr_seq f + 1) % 2 ^ Fld.EG_HNOTE_wr_seq.info.width ∧
    Store.get 0 (run (hostRing f kind param) s).note (f * 128 + s.reg .EG_HNOTE_wr_seq f % 128) =
      param % 2 ^ 32 + kind * 2 ^ 32 + s.reg .EG_HNOTE_wr_seq f * 2 ^ 64 := by
  have hd : May (mayDoorbell ||| mayHostSend) (Eff.all [doorbell 96 (hostSource f kind), hostSend f]) :=
    .cons (doorbell_may rfl _ _) (.cons (hostSend_may rfl _) .nil)
  rw [hostRing, run_get, if_pos h, run_all_cons, run_all_cons, hd.reg _ _ rfl rfl rfl, hd.note rfl rfl]
  simp

/-- Settles O49. -/
theorem workQueueTailsAreChecked : Obligations.WorkQueueTailsAreChecked := by
  refine ⟨?accepted, ?refused, ?noQueue, ?created⟩
  case accepted =>
    intro f slot tail s q hq hlink hfn hon hdying hback hroom
    subst hq
    have he : run (wqTail f slot tail.toNat) s = run (Eff.all [
        Eff.when (!s.ctxReady (s.wqAt (wqKey f slot)).ctx && decide (tail.toNat ≠ (s.wqAt (wqKey f slot)).tail))
          (beginWait (s.wqAt (wqKey f slot)).ctx),
        setWq (wqKey f slot) (fun q => { q with tail := tail.toNat }), doorbell 96 (0xA0 + f)]) s := by
      rw [wqTail, run_get]
      dsimp only
      rw [hlink, hfn, hon, hdying, if_neg (by simp), if_pos ⟨hback, hroom⟩]
    have hw : May mayBeginWait (Eff.when (!s.ctxReady (s.wqAt (wqKey f slot)).ctx && decide (tail.toNat ≠ (s.wqAt (wqKey f slot)).tail))
        (beginWait (s.wqAt (wqKey f slot)).ctx)) := .when (beginWait_may rfl _)
    refine ⟨_, rfl, ?_, ?_⟩
    · rw [he, run_all_cons, run_all_cons, run_all_cons, run_all_nil, (doorbell_may (mk := mayDoorbell) rfl _ _).wqAt rfl rfl, run_setWq,
        wqAt_same, hw.wqAt rfl rfl]
    · rw [he]
      exact May.note (m := mayBeginWait ||| maySetWq ||| mayDoorbell)
        (.cons (.when (beginWait_may rfl _)) (.cons (setWq_may rfl _ _) (.cons (doorbell_may rfl _ _) .nil))) rfl rfl s
  case refused =>
    intro f slot tail s q hq hlink hfn hon hdying hbad
    subst hq
    have he : run (wqTail f slot tail.toNat) s = run (hostRing f 3 (s.wqAt (wqKey f slot)).num) s := by
      rw [wqTail, run_get]
      dsimp only
      rw [hlink, hfn, hon, hdying, if_neg (by simp), if_neg (by omega)]
    refine ⟨_, rfl, ?_⟩
    rw [he]
    exact ⟨(hostRing_may (mk := mayHostRing) rfl _ _ _).wq rfl rfl s, run_hostRing_note f 3 _ s hfn⟩
  case noQueue =>
    intro f slot tail s hoff
    have he : run (wqTail f slot tail.toNat) s = s := by
      rw [wqTail, run_get]
      dsimp only
      rw [hoff, if_pos (by simp), run_skip]
    exact congrArg _ he
  case created =>
    intro f s r q k hr hbase hlo hhi hctx hq hk
    have he : run (withReq f 0x0112 (queueCreate f)) s = run (.seq
        (.upd (.wq (wqKey f q) { on := true, num := k, ctx := r.ctx, base := field r.body 0 8, log2 := field r.body 8 1 }))
        (respond' f 0 (leBytes q 2 ++ leBytes k 2))) s := by
      rw [run_withReq hr rfl, queueCreate, run_get]
      dsimp only
      rw [if_neg (by omega), if_neg hctx, hq, hk]
    refine ⟨_, rfl, ?_⟩
    rw [he, run_seq, run_upd, (respond'_may (mk := mayRespond') rfl _ _ _).wqAt rfl rfl, wqAt_same]

end Sys2Proof.Machine
end

section
/-! PROOFS. Register accesses that act on nothing else (R20-R23). -/
set_option exponentiation.threshold 1000
set_option maxRecDepth 20000
namespace Sys2Proof.Machine

/-- A write that stores and acts on nothing else changes one field (R20). -/
theorem setReg_changesOne (r : Fld) (i v : Nat) (s : State) :
    (run (setReg r i v) s).reg r i = v % 2 ^ r.info.width ∧ (∀ j, j ≠ i → (run (setReg r i v) s).reg r j = s.reg r j) ∧
      OnlyChanges [] [r] s (run (setReg r i v) s) := by
  refine ⟨reg_applyUpd_same .., fun j hj => reg_applyUpd_other _ _ fun h => hj h.2.symm, ?_⟩
  exact May.framed (m := mr r) (.set (by simp [mr])) [] [r] (by simp [mps, mrs]) (by simp) s

/-- Fields whose live write does more than store, or stores another value. -/
def actingFields : List Fld := [.CT_value, .MC_CFG_cache_en, .MC_CFG_refresh, .KV_FL_CTL_low, .CRS_CLK_core0_mhz,
  .CRS_CLK_core1_mhz, .REG_FAR_rate, .REG_FAR_burst, .REG_FAR_en, .REG_HOST_rate, .REG_HOST_burst, .REG_HOST_en, .REG_D2D_rate,
  .REG_D2D_burst, .REG_D2D_en, .REG_FAB_rate, .REG_FAB_burst, .REG_FAB_en, .WIN_CTL_flask, .EG_SRC_target, .EG_SRC_prio,
  .EG_HCTL_poll, .EG_HCTL_thresh, .EG_HVEC_prio, .EG_HVEC_vector, .MSIX_mask, .TH_CTL_fast_en, .FP_CFG_en, .FAB_CFG_en,
  .LDL_CH_head]

/-- A live write of any other field stores, unless the field is a queue's ring. -/
theorem run_writeLive_plain {r : Fld} {i : Nat} (v : Nat) (s : State) (ht : (trigger r i).isNone = true) (hr : r ∉ actingFields)
    (hq : ¬(r.info.width = 13 ∧ blockOf r i = some 10)) : run (writeLive r i v) s = run (setReg r i v) s := by
  rw [writeLive, run_get]
  split
  case h_30 => cases ht
  case h_32 => rw [if_neg hq]
  all_goals exact absurd (by decide) hr

/-- What REGISTER_WRITE comes to on a read-write field of a block that answers, once shadow values due are settled (R22). -/
theorem run_registerWrite_rw {r : Fld} {i v : Nat} {s u : State} (he : s.fieldExists r i = true)
    (hon : r.info.unit = .site → s.coreOff (i / r.info.per) = false) (hl : s.blockLive r i = true)
    (hu : u = if r.info.unit = .site then run (settle (i / r.info.per)) s else s) (ha : r.info.acc = .rw)
    (ht : (trigger r i).isNone = true) : run (registerWrite r i v) s = run (writeRw r i v) u := by
  have hsettle : run (Eff.when (r.info.unit == .site) (settle (i / r.info.per))) s = u := by
    rw [hu, run_when]
    simp only [beq_iff_eq]
  rw [registerWrite, run_get, he, hl, if_neg (by simp), if_neg (by rintro ⟨hs, hoff⟩; simp [hon hs] at hoff), run_when, if_pos rfl,
    run_seq, hsettle, writeField', run_get, ha]
  rw [Option.isNone_iff_eq_none.mp ht]

/-- The write-while-locked flag is all that a locked write changes (R22). -/
theorem lockFlag_only (r : Fld) (i : Nat) :
    May (mrs [.ARR_ERR_wlocked, .SEQ_STATUS_wlocked, .FP_STAT_wlocked, .FAB_STAT_wlocked]) (lockFlag r i) := by
  unfold lockFlag
  split
  · exact .set (by split <;> rfl)
  · exact .set rfl
  · exact .set rfl
  · exact .skip

/-- A read of a counter that clears: the value goes out and the counter is 0 (R21). -/
theorem run_readClear_plain {r : Fld} (i : Nat) (s : State) (ha : r.info.acc = .rc)
    (hr : r ∉ [Fld.KV_FL_POP_valid, .KV_FL_POP_bank, .KV_FL_POP_frame, .KV_FL_POPB_valid, .KV_FL_POPB_bank, .KV_FL_POPB_frame,
      .EG_CLAIM_valid, .EG_CLAIM_prio, .EG_CLAIM_src]) :
    run (readClear r i) s = run (.seq (.upd (.rsp (leBytes (s.reg r i) 8))) (setReg r i 0)) s := by
  rw [readClear, run_get]
  split
  case h_10 =>
    rw [ha]
    rfl
  all_goals exact absurd (by decide) hr

/-- Settles O33. -/
theorem registerAccessesChangeOneField : Obligations.RegisterAccessesChangeOneField := by
  refine ⟨?registerWrite, ?shadowed, ?locked, ?readClear, ?ignored⟩
  case registerWrite =>
    intro r i v s u he hon hl hu ha ht hr hq hbusy
    have hrun : run (registerWrite r i v.toNat) s = run (setReg r i v.toNat) u := by
      have hs : ¬(r.info.cls = .s ∧ u.fieldBusy r i = true) := by
        rintro ⟨hc, hb⟩
        rcases hbusy with h | h <;> simp_all
      have hlk : ¬(r.info.cls = .l ∧ u.fieldBusy r i = true) := by
        rintro ⟨hc, hb⟩
        rcases hbusy with h | h <;> simp_all
      rw [run_registerWrite_rw he hon hl hu ha ht, writeRw, run_get, if_neg hs, if_neg hlk, run_writeLive_plain _ _ ht hr hq]
    exact ⟨_, rfl, hrun ▸ setReg_changesOne r i v.toNat u⟩
  case shadowed =>
    intro r i v s u he hon hl hu ha ht hc hb
    have hrun : run (registerWrite r i v.toNat) s = run (.upd (.shad r i v.toNat)) u := by
      rw [run_registerWrite_rw he hon hl hu ha ht, writeRw, run_get, if_pos ⟨hc, hb⟩]
    refine ⟨_, rfl, ?_⟩
    rw [hrun]
    exact ⟨shadow_applyUpd_same .., May.framed (m := mp .shad) (.upd (by dsimp only [Upd.bit]; rfl)) [.shad] [] rfl (by simp) u⟩
  case locked =>
    intro r i v s u he hon hl hu ha ht hc hb
    have hrun : run (registerWrite r i v.toNat) s = run (lockFlag r i) u := by
      rw [run_registerWrite_rw he hon hl hu ha ht, writeRw, run_get, if_neg (by simp [hc]), if_pos ⟨hc, hb⟩]
    exact ⟨_, rfl, hrun ▸ (lockFlag_only r i).framed [] _ rfl (by simp) u⟩
  case readClear =>
    intro r i s he hl ha hr
    refine ⟨_, rfl, ?_⟩
    rw [he, hl, run_when, Bool.and_self, if_pos rfl, run_readClear_plain i s ha hr, run_seq, run_upd]
    obtain ⟨h0, hother, -⟩ := setReg_changesOne r i 0 (applyUpd (.rsp (leBytes (s.reg r i) 8)) s)
    refine ⟨h0, fun j hj => hother j hj, ?_⟩
    exact May.framed (m := mp .rsp ||| mr r) (.seq (.upd (by simp [Upd.bit, mp])) (.set (by simp [mr]))) [.rsp] [r]
      (by simp [mps, mrs]) (by simp) s
  case ignored =>
    intro r i v s he
    have hrun : run (registerWrite r i v.toNat) s = s := by rw [registerWrite, run_get, he, Bool.not_false, if_pos rfl, run_skip]
    exact congrArg _ hrun

end Sys2Proof.Machine
end

section
/-! SUPPORT. What a write stores, piece by piece (R199, R223), and words decoded while other words change. -/
set_option exponentiation.threshold 1000
namespace Sys2Proof.Machine

/-! Bytes of memory side by side. -/

theorem State.rawBytes_add (s : State) (a m n : Nat) : s.rawBytes a (m + n) = s.rawBytes a m ++ s.rawBytes (a + m) n := by
  simp only [rawBytes, List.range_add, List.map_append, List.map_map]
  congr 1
  exact List.map_congr_left fun k _ => by simp [Nat.add_assoc]

theorem State.rawBytes_slice (s : State) (a i n j : Nat) :
    s.rawBytes (a + i) n = ((s.rawBytes a (i + n + j)).drop i).take n := by
  have hi : (s.rawBytes a i).length = i := s.length_rawBytes a i
  have hn : (s.rawBytes (a + i) n).length = n := s.length_rawBytes (a + i) n
  rw [rawBytes_add, rawBytes_add, List.append_assoc, List.drop_left' hi, List.take_left' hn]

theorem rawBytes_spared {e : Eff} {a n : Nat} (h : ∀ b, a ≤ b → b < a + n → Eff.Only (Spares b) e) (s : State) :
    (run e s).rawBytes a n = s.rawBytes a n :=
  List.map_congr_left fun k hk => spares_run (h _ (by omega) (by have := List.mem_range.mp hk; omega)) s

/-- Bytes stored in two steps, of which the second spares what the first stored. -/
theorem rawBytes_append {x y : List Byte} {a : Nat} {s : State} {e : Eff} (hx : s.rawBytes a x.length = x)
    (hy : (run e s).rawBytes (a + x.length) y.length = y) (hspare : ∀ b, a ≤ b → b < a + x.length → Eff.Only (Spares b) e) :
    (run e s).rawBytes a (x ++ y).length = x ++ y := by
  rw [List.length_append, State.rawBytes_add, rawBytes_spared hspare, hx, hy]

/-! A word, a line, a write. -/

theorem rawBytes_putWord (w : Nat) (d : List Byte) (p : Bool) (s : State) : (run (putWord w d p) s).rawBytes (w * 8) d.length = d := by
  obtain ⟨wb, h⟩ := run_putWord w d p s
  rw [h]
  exact (rawBytes_bytes (w * 8) d s d.length le_rfl).trans List.take_length

/-- A write within one word stores its bytes, merged or not (R223). -/
theorem rawBytes_writeWord (fl w off : Nat) (d : List Byte) (s : State) (h : off + d.length ≤ 8) :
    (run (writeWord fl w off d) s).rawBytes (w * 8 + off) d.length = d := by
  rw [writeWord, run_get]
  split
  case isTrue h8 =>
    obtain rfl : off = 0 := by omega
    exact rawBytes_putWord w d false s
  case isFalse =>
    simp only [run_all_cons, run_all_nil]
    generalize hold : wordBytes (s.decodeWord w).data = old
    have holdlen : old.length = 8 := by rw [← hold]; rfl
    have hoff : (old.take off).length = off := by rw [List.length_take]; omega
    have hnew : (old.take off ++ d ++ old.drop (off + d.length)).length = off + d.length + (8 - (off + d.length)) := by
      simp only [List.length_append, hoff, List.length_drop, holdlen]
    rw [State.rawBytes_slice _ _ _ _ (8 - (off + d.length)), ← hnew, rawBytes_putWord, List.append_assoc, List.drop_left' hoff,
      List.take_left' rfl]

/-- A first piece stored, and the rest after it; where the piece is not full there is no rest. -/
theorem rawBytes_cons {n a : Nat} {d : List Byte} {s : State} {e : Eff} (hfirst : s.rawBytes a (d.take n).length = d.take n)
    (hnone : d.drop n = [] → run e s = s) (hrest : (run e s).rawBytes (a + n) (d.drop n).length = d.drop n)
    (hspare : ∀ b, a ≤ b → b < a + n → Eff.Only (Spares b) e) : (run e s).rawBytes a d.length = d := by
  by_cases hn : d.length ≤ n
  · rw [hnone (List.drop_of_length_le hn)]
    rwa [List.take_of_length_le hn] at hfirst
  · have hlen : (d.take n).length = n := List.length_take_of_le (by omega)
    have := rawBytes_append (y := d.drop n) hfirst (by rwa [hlen]) (by rwa [hlen])
    rwa [List.take_append_drop] at this

/-- Pieces written word by word store the whole. -/
theorem rawBytes_splitWords {g : Nat × Nat × List Byte → Eff}
    (hstore : ∀ p s, p.2.1 + p.2.2.length ≤ 8 → (run (g p) s).rawBytes (p.1 * 8 + p.2.1) p.2.2.length = p.2.2)
    (hspare : ∀ p b, p.2.1 + p.2.2.length ≤ 8 → b < p.1 * 8 → Eff.Only (Spares b) (g p)) (k a : Nat) (d : List Byte) (s : State)
    (h : a % 8 + d.length ≤ 8 * k) : (run (Eff.each (splitWords k a d) g) s).rawBytes a d.length = d := by
  induction k generalizing a d s with
  | zero =>
    obtain rfl : d = [] := List.eq_nil_of_length_eq_zero (by omega)
    rfl
  | succ k ih =>
    unfold splitWords
    split
    case isTrue hd => rw [hd]; rfl
    case isFalse hd =>
      rw [Eff.each, List.map_cons, run_all_cons]
      refine rawBytes_cons (n := 8 - a % 8) ?_ (fun hnil => ?_) (ih _ _ _ (by rw [List.length_drop]; omega)) fun b _ hhi => ?_
      · have := hstore (a / 8, a % 8, d.take (8 - a % 8)) s (by dsimp only; rw [List.length_take]; omega)
        rwa [show a / 8 * 8 + a % 8 = a by omega] at this
      · rw [hnil]
        cases k <;> rfl
      · exact (only_each _ _ _).mpr fun p hp => by
          obtain ⟨hword, hwithin, -, -, -⟩ := splitWords_mem _ _ _ _ hp
          exact hspare p b hwithin (by omega)

/-- Pieces written line by line store the whole, where every line's write stores its piece. -/
theorem rawBytes_splitLines {P : State → Prop} {g : Nat × List Byte → Eff} (k a : Nat) (d : List Byte) (s : State)
    (hkeep : ∀ p s, P s → P (run (g p) s))
    (hstore : ∀ p ∈ splitLines k a d, ∀ s, P s → (run (g p) s).rawBytes p.1 p.2.length = p.2)
    (hspare : ∀ p b, b < p.1 / 64 * 64 → Eff.Only (Spares b) (g p))
    (h : a % 64 + d.length ≤ 64 * k) (hs : P s) : (run (Eff.each (splitLines k a d) g) s).rawBytes a d.length = d := by
  induction k generalizing a d s with
  | zero =>
    obtain rfl : d = [] := List.eq_nil_of_length_eq_zero (by omega)
    rfl
  | succ k ih =>
    unfold splitLines at hstore ⊢
    split
    case isTrue hd => rw [hd]; rfl
    case isFalse hd =>
      rw [if_neg hd] at hstore
      rw [Eff.each, List.map_cons, run_all_cons]
      refine rawBytes_cons (n := 64 - a % 64) (hstore _ (List.mem_cons_self ..) s hs) (fun hnil => ?_)
        (ih _ _ _ (fun p hp => hstore p (List.mem_cons_of_mem _ hp)) (by rw [List.length_drop]; omega) (hkeep _ _ hs)) fun b _ hhi => ?_
      · rw [hnil]
        cases k <;> rfl
      · exact (only_each _ _ _).mpr fun p hp => by
          obtain ⟨hstart, -, -, -⟩ := splitLines_mem _ _ _ _ hp
          exact hspare p b (by omega)

/-- No channel of the stacked memory of a range is dead. -/
def State.ChannelsLive (s : State) (a len : Nat) : Prop := ∀ b, a ≤ b → b < a + len → b < stackedEnd →
  bit (s.sliceAt (b / 2 ^ 30)).deadCh (chanOf (b % 2 ^ 30)) = false

/-- A write of part of a line stores its bytes (R199). -/
theorem rawBytes_writeLine (fl hint a : Nat) (d : List Byte) (s : State) (hd : a % 64 + d.length ≤ 64)
    (hlive : a < stackedEnd → bit (s.sliceAt (a / 2 ^ 30)).deadCh (chanOf (a % 2 ^ 30)) = false) :
    (run (writeLine fl hint a d) s).rawBytes a d.length = d := by
  have hwords (t : State) : (run (Eff.each (splitWords 9 a d) fun p => writeWord fl p.1 p.2.1 p.2.2) t).rawBytes a d.length = d :=
    rawBytes_splitWords (fun p s hp => rawBytes_writeWord fl p.1 p.2.1 p.2.2 s hp)
      (fun p b hp hb => writeWord_spares fl b p.1 p.2.1 p.2.2 hp (.inl hb)) 9 a d t (by omega)
  rw [writeLine, run_get]
  dsimp only
  split
  case isTrue hstacked =>
    rw [hlive hstacked, if_neg Bool.false_ne_true]
    simp only [run_all_cons, run_all_nil]
    have hstale := staleWrite_may a d
    have hcache := cacheEff_may (mk := mayCacheEff) rfl hint true (decide (d.length = 64)) true (a / 64)
    rw [rawBytes_spared fun b _ _ => hcache.spares rfl rfl b]
    exact (rawBytes_spared (e := staleWrite a d) (fun b _ _ => hstale.spares rfl rfl b) _).trans (hwords _)
  case isFalse =>
    split
    · refine rawBytes_splitWords (fun p s hp => ?_) (fun p b hp hb => ?_) 9 a d s (by omega)
      · split
        · rw [show p.2.1 = 0 by omega]
          exact rawBytes_putWord p.1 p.2.2 false s
        · exact (rawBytes_bytes _ _ _ _ le_rfl).trans List.take_length
      · split
        · exact putWord_spares _ _ _ _ (.inl hb)
        · exact spares_bytes (.inl (by omega))
    · exact hwords s

/-- A write whose lines all pass its checks stores its bytes (R199). -/
theorem rawBytes_memoryWriteEff {iss : Issuer} {a : Nat} {hint : Fin 4} {d : List Byte} {s : State}
    (h : ∀ l ∈ linesOf a d.length, s.judge (srcOf iss) (issChecked iss) (s.issFlask iss) l = .ok)
    (hlive : s.ChannelsLive a d.length) : (run (memoryWriteEff iss a hint d []) s).rawBytes a d.length = d := by
  have hcharge := accessCharge_may (mk := mayAccessCharge) rfl iss (s.issFlask iss) a d.length
  rw [run_memoryWriteEff_ok h, rawBytes_spared fun b _ _ => (show May (mp .rsp) _ from .upd rfl).spares rfl rfl b,
    rawBytes_spared fun b _ _ => hcharge.spares rfl rfl b]
  refine rawBytes_splitLines (P := fun t => t.slice = s.slice) _ a d s (fun p t ht => ?_) (fun p hp t ht => ?_)
    (fun p b hb => writeLine_spares _ _ _ _ _ (.inl (by omega))) (by omega) rfl
  · rw [(writeLine_may (mk := mayWriteLine) rfl _ _ _ _).slice rfl rfl, ht]
  · obtain ⟨hlo, hline, hhi, hpos⟩ := splitLines_mem _ _ _ _ hp
    refine rawBytes_writeLine _ _ _ _ _ hline fun hstacked => ?_
    rw [State.sliceAt, ht]
    exact hlive p.1 hlo (by omega) hstacked

end Sys2Proof.Machine
end

section
/-! PROOFS. Stacked memory: write-backs, refresh, scrubbing, fills and raw codewords (07_stacked_memory.md,
08_error_correction.md). -/
set_option exponentiation.threshold 1000
namespace Sys2Proof.Machine

theorem State.SameMap.refl (s : State) : s.SameMap s :=
  ⟨rfl, rfl, rfl, rfl, rfl, rfl, rfl, rfl, fun _ => rfl, fun _ => rfl, fun _ => rfl, fun _ => rfl⟩

/-! Write-backs (R221). -/

/-- A word decodes alike in states that agree on its bytes, its mark, the map and the count of free values. -/
theorem State.decodeWord_congr {s t : State} {w : Nat} (hmap : s.SameMap t) (htick : t.tick = s.tick)
    (hmark : t.markAt w = s.markAt w) (hbytes : t.rawBytes (w * 8) 8 = s.rawBytes (w * 8) 8) : t.decodeWord w = s.decodeWord w := by
  have hraw : t.rawWord (w * 8) = s.rawWord (w * 8) := congrArg leNat hbytes
  simp only [decodeWord, undefWord, hmark, hraw, htick, hmap.sliceAt, hmap.undefPlace]
  rfl

/-- A word put where no write-back waits. -/
theorem run_putWord_quiet {w : Nat} {s : State} (d : List Byte) (p : Bool) (h : Store.get 0 s.wb (w / 8) = 0) :
    run (putWord w d p) s = { s with mem := putBytes s.mem (w * 8) d, marks := Store.set {} w { cleanMark s w with poison := p } s.marks } := by
  have hbit : bit 0 (w % 8) = false := by rw [bit_testBit, Nat.zero_testBit]
  simp only [putWord, run_get, run_all_cons, run_all_nil, run_upd]
  rw [if_neg (by simp [h, hbit])]
  rfl

/-- Write back one word if it decodes with a correction (R221). -/
def writeBackWord (w : Nat) : Eff := .get fun s =>
  Eff.when ((s.decodeWord w).verdict == 1 || (s.decodeWord w).verdict == 2) (putWord w (wordBytes (s.decodeWord w).data) false)

theorem wb_writeBackWord {line v : Nat} {t : State} (hv : v / 8 = line) (h : Store.get 0 t.wb line = 0) :
    Store.get 0 (run (writeBackWord v) t).wb line = 0 := by
  rw [writeBackWord, run_get, run_when]
  split
  · rwa [run_putWord_quiet _ _ (by rw [hv, h])]
  · exact h

/-- What the write-back of other words of a line keeps. -/
structure WordKept (line w : Nat) (s t : State) : Prop where
  wb : Store.get 0 t.wb line = 0
  map : s.SameMap t
  tick : t.tick = s.tick
  mark : t.markAt w = s.markAt w
  bytes : t.rawBytes (w * 8) 8 = s.rawBytes (w * 8) 8

theorem WordKept.writeBackWord {line w v : Nat} {s t : State} (h : WordKept line w s t) (hv : v / 8 = line) (hne : v ≠ w) :
    WordKept line w s (run (writeBackWord v) t) := by
  have hwb := wb_writeBackWord hv h.wb
  rw [Machine.writeBackWord, run_get, run_when] at hwb ⊢
  split
  · have hput := putWord_may (mk := mayPutWord) rfl v (wordBytes (t.decodeWord v).data) false
    have hq := run_putWord_quiet (s := t) (w := v) (wordBytes (t.decodeWord v).data) false (by rw [hv, h.wb])
    refine ⟨by rwa [if_pos (by assumption)] at hwb, h.map.trans (hput.sameMap rfl t), (hput.tick rfl rfl t).trans h.tick, ?_, ?_⟩
    · rw [hq, ← h.mark]
      exact Store.get_set_other _ _ _ hne
    · rw [← h.bytes]
      refine rawBytes_spared (fun b _ _ => putWord_spares b v _ false ?_) t
      have hlen : (wordBytes (t.decodeWord v).data).length = 8 := rfl
      omega
  · exact h

/-- A word with a correction stands clean and corrected after its write-back. -/
theorem writeBackWord_clean {w : Nat} {s : State} (h : (s.decodeWord w).verdict = 1 ∨ (s.decodeWord w).verdict = 2) :
    ((run (writeBackWord w) s).markAt w).flips = 0 ∧
      (run (writeBackWord w) s).rawBytes (w * 8) 8 = wordBytes (s.decodeWord w).data := by
  have hcond : ((s.decodeWord w).verdict == 1 || (s.decodeWord w).verdict == 2) = true := by simpa using h
  rw [writeBackWord, run_get, run_when, if_pos hcond]
  obtain ⟨wb, hwb⟩ := run_putWord w (wordBytes (s.decodeWord w).data) false s
  refine ⟨?_, rawBytes_putWord w (wordBytes (s.decodeWord w).data) false s⟩
  rw [hwb, State.markAt, Store.get_set_same]
  rfl

theorem writeBackWord_may (w : Nat) : May mayPutWord (writeBackWord w) := .get fun _ => .when (putWord_may rfl _ _ _)

/-- Of the words of a line written back in turn, each that has a correction stands clean and corrected. -/
theorem run_writeBackWords {line k : Nat} {l : List Nat} {s : State} (hl : l.Nodup) (hlt : ∀ j ∈ l, j < 8) (hk : k ∈ l)
    (hwb : Store.get 0 s.wb line = 0)
    (h : (s.decodeWord (line * 8 + k)).verdict = 1 ∨ (s.decodeWord (line * 8 + k)).verdict = 2) :
    ((run (Eff.each l fun j => writeBackWord (line * 8 + j)) s).markAt (line * 8 + k)).flips = 0 ∧
      (run (Eff.each l fun j => writeBackWord (line * 8 + j)) s).rawBytes ((line * 8 + k) * 8) 8 =
        wordBytes (s.decodeWord (line * 8 + k)).data := by
  obtain ⟨l₁, l₂, rfl⟩ := List.append_of_mem hk
  have hk8 := hlt k hk
  obtain ⟨hnd₁, hnd₂, hdisj⟩ := List.nodup_append.mp hl
  have hne₁ : ∀ j ∈ l₁, j ≠ k := fun j hj => hdisj j hj k (List.mem_cons_self ..)
  have hne₂ : ∀ j ∈ l₂, j ≠ k := fun j hj he => (List.nodup_cons.mp hnd₂).1 (he ▸ hj)
  have hskip {u t : State} (l' : List Nat) (hmem : ∀ j ∈ l', j ∈ l₁ ++ k :: l₂) (hne : ∀ j ∈ l', j ≠ k)
      (hu : WordKept line (line * 8 + k) u t) :
      WordKept line (line * 8 + k) u (run (Eff.each l' fun j => writeBackWord (line * 8 + j)) t) :=
    run_each_keeps (P := WordKept line (line * 8 + k) u) (fun j hj v hv => by
      have := hlt j (hmem j hj)
      have := hne j hj
      exact hv.writeBackWord (by omega) (by omega)) t hu
  have hrefl {t : State} (ht : Store.get 0 t.wb line = 0) : WordKept line (line * 8 + k) t t := ⟨ht, State.SameMap.refl t, rfl, rfl, rfl⟩
  have hbefore := hskip l₁ (fun j hj => List.mem_append_left _ hj) hne₁ (hrefl hwb)
  have hsplit : run (Eff.each (l₁ ++ k :: l₂) fun j => writeBackWord (line * 8 + j)) s =
      run (Eff.each l₂ fun j => writeBackWord (line * 8 + j)) (run (writeBackWord (line * 8 + k))
        (run (Eff.each l₁ fun j => writeBackWord (line * 8 + j)) s)) := by
    simp only [run_each, List.foldl_append, List.foldl_cons]
  have hdecode := State.decodeWord_congr hbefore.map hbefore.tick hbefore.mark hbefore.bytes
  obtain ⟨hflips, hbytes⟩ := writeBackWord_clean (hdecode ▸ h)
  have hquiet := wb_writeBackWord (v := line * 8 + k) (by omega) hbefore.wb
  have hafter := hskip l₂ (fun j hj => List.mem_append_right _ (List.mem_cons_of_mem _ hj)) hne₂ (hrefl hquiet)
  rw [hsplit, hafter.mark, hafter.bytes, hflips, hbytes, hdecode]
  exact ⟨rfl, rfl⟩


/-- The pending write-back of a line (R221). -/
theorem run_writeBack {line : Nat} {s : State} (h : Store.get 0 s.wb line ≠ 0) : run (writeBack line) s =
    run (if Store.get 0 s.wb line % 256 = 0 then Eff.when (decide (line * 64 < stackedEnd)) (addReg .ECC_WB_skipped (line / 2 ^ 24) 1)
      else .seq (Eff.each ((List.range 8).filter fun k => bit (Store.get 0 s.wb line) k) fun k => writeBackWord (line * 8 + k))
        (Eff.when (decide (line * 64 < stackedEnd)) (addReg .ECC_WB_done (line / 2 ^ 24) 1))) (applyUpd (.wb line 0) s) := by
  rw [writeBack, run_get, if_neg h, run_all_cons, run_all_cons]
  split <;> rfl

/-- A write-back stores the corrected words clean and counts itself done, or skipped when every word was left out (R221). -/
theorem writeBack_completes {line : Nat} {s : State} (h : Store.get 0 s.wb line ≠ 0) :
    Store.get 0 (run (writeBack line) s).wb line = 0 ∧
    (∀ k < 8, bit (Store.get 0 s.wb line) k = true →
      (s.decodeWord (line * 8 + k)).verdict = 1 ∨ (s.decodeWord (line * 8 + k)).verdict = 2 →
      ((run (writeBack line) s).markAt (line * 8 + k)).flips = 0 ∧
      (run (writeBack line) s).rawBytes ((line * 8 + k) * 8) 8 = wordBytes (s.decodeWord (line * 8 + k)).data) ∧
    (line * 64 < stackedEnd → Store.get 0 s.wb line % 256 = 0 →
      (run (writeBack line) s).reg .ECC_WB_skipped (line / 2 ^ 24) = (s.reg .ECC_WB_skipped (line / 2 ^ 24) + 1) % 2 ^ 32) ∧
    (line * 64 < stackedEnd → Store.get 0 s.wb line % 256 ≠ 0 →
      (run (writeBack line) s).reg .ECC_WB_done (line / 2 ^ 24) = (s.reg .ECC_WB_done (line / 2 ^ 24) + 1) % 2 ^ 32) := by
  rw [run_writeBack h]
  generalize line / 2 ^ 24 = sl
  generalize Store.get 0 s.wb line = m
  obtain ⟨u, hu⟩ : ∃ u, u = applyUpd (.wb line 0) s := ⟨_, rfl⟩
  have hget : Store.get 0 u.wb line = 0 := by rw [hu, applyUpd_wb_self, Store.get_set_same]
  have hdecode (w : Nat) : u.decodeWord w = s.decodeWord w := by rw [hu]; rfl
  have hreg (r : Fld) (i : Nat) : u.reg r i = s.reg r i := by rw [hu]; rfl
  rw [← hu]
  by_cases h256 : m % 256 = 0
  · rw [if_pos h256]
    have hadd : May (mr .ECC_WB_skipped) (Eff.when (decide (line * 64 < stackedEnd)) (addReg .ECC_WB_skipped sl 1)) := .when (.add rfl)
    refine ⟨by rw [hadd.wb rfl rfl, hget], fun k hk hbit => ?_, fun hdram _ => ?_, fun _ hne => absurd h256 hne⟩
    · have hlow : (m % 2 ^ 8).testBit k = m.testBit k := by rw [Nat.testBit_mod_two_pow, decide_eq_true hk, Bool.true_and]
      rw [bit_testBit, ← hlow, show m % 2 ^ 8 = 0 from h256, Nat.zero_testBit] at hbit
      cases hbit
    · rw [decide_eq_true hdram, run_when, if_pos rfl, run_addReg, reg_applyUpd_same, hreg]
      rfl
  · rw [if_neg h256, run_seq]
    obtain ⟨l, hl⟩ : ∃ l, l = (List.range 8).filter fun k => bit m k := ⟨_, rfl⟩
    have hmem (k : Nat) : k ∈ l ↔ k < 8 ∧ bit m k = true := by rw [hl, List.mem_filter, List.mem_range]
    have hnodup : l.Nodup := hl ▸ List.nodup_range.filter _
    rw [← hl]
    have hwords : May mayPutWord (Eff.each l fun k => writeBackWord (line * 8 + k)) := .each fun k => writeBackWord_may _
    have hadd : May (mr .ECC_WB_done) (Eff.when (decide (line * 64 < stackedEnd)) (addReg .ECC_WB_done sl 1)) := .when (.add rfl)
    refine ⟨?_, fun k hk hbit hverdict => ?_, fun _ h0 => absurd h0 h256, fun hdram _ => ?_⟩
    · rw [hadd.wb rfl rfl]
      exact run_each_keeps (P := fun t => Store.get 0 t.wb line = 0) (fun k hk t ht => wb_writeBackWord (by
        have := ((hmem k).mp hk).1
        omega) ht) u hget
    · obtain ⟨hflips, hbytes⟩ := run_writeBackWords (s := u) hnodup (fun j hj => ((hmem j).mp hj).1) ((hmem k).mpr ⟨hk, hbit⟩) hget
        (by rwa [hdecode])
      rw [hadd.markAt rfl rfl, rawBytes_spared fun b _ _ => hadd.spares rfl rfl b, hflips, hbytes, hdecode]
      exact ⟨rfl, rfl⟩
    · rw [decide_eq_true hdram, run_when, if_pos rfl, run_addReg, reg_applyUpd_same, hwords.reg _ _ rfl rfl rfl, hreg]
      rfl

/-! Scrubbing of cluster and core SRAM (R233). -/

/-- Marking corrected words leaves the marks of a line's others, and sets their own. -/
theorem bit_foldl_setBit (l : List (Nat × WordRead)) (m k : Nat) :
    bit (l.foldl (fun m x => setBit m (x.1 % 8) true) m) k = (bit m k || l.any fun x => x.1 % 8 == k) := by
  induction l generalizing m with
  | nil => simp
  | cons x l ih =>
    rw [List.foldl_cons, ih, bit_setBit, List.any_cons]
    by_cases h : x.1 % 8 = k
    · simp [h]
    · simp [h, beq_false_of_ne h]

/-- The corrected words of a line. -/
def correctedOf (rs : List (Nat × WordRead)) : List (Nat × WordRead) := rs.filter fun x => x.2.verdict == 1 || x.2.verdict == 2

/-- What the errors of a line mark for write-back: its corrected words (R221). -/
theorem wb_lineErrors {line : Nat} (rs : List (Nat × WordRead)) (riser : Bool) (fl : Nat) (s : State)
    (hfar : ¬(farBase ≤ line * 64 ∧ line * 64 < csramBase)) : (run (lineErrors riser fl line rs) s).wb =
      if (correctedOf rs).isEmpty then s.wb
      else Store.set 0 line ((correctedOf rs).foldl (fun m x => setBit m (x.1 % 8) true) (Store.get 0 s.wb line)) s.wb := by
  obtain ⟨e, he, hrun⟩ : ∃ e, May (mayReport ||| mr .ECC_CNT_ce ||| mr .ECC_CNT_poison ||| mr .ECC_CNT_ue) e ∧
      run (lineErrors riser fl line rs) s = run (Eff.when (rs.any fun x => s.undefWord x.1) (.upd .tick))
        (run (Eff.when (!(correctedOf rs).isEmpty && !(decide (farBase ≤ line * 64) && decide (line * 64 < csramBase))) (.get fun s =>
          .upd (.wb line ((correctedOf rs).foldl (fun m x => setBit m (x.1 % 8) true) (Store.get 0 s.wb line))))) (run e s)) := by
    refine ⟨Eff.all [_, _, _, _, _, _], ?_, rfl⟩
    exact .cons (.opt fun _ => report_may rfl _ _ _ _ _ _ _ _) <| .cons (.opt fun _ => report_may rfl _ _ _ _ _ _ _ _) <|
      .cons (.opt fun _ => report_may rfl _ _ _ _ _ _ _ _) <| .cons (.when (.sat rfl)) <| .cons (.when (.sat rfl)) <|
      .cons (.when (.sat rfl)) .nil
  have hout : line * 64 < farBase ∨ csramBase ≤ line * 64 := by omega
  rw [hrun, (show May (mp .tick) _ from .when (.upd rfl)).wb rfl rfl, run_when, run_get, run_upd]
  cases (correctedOf rs).isEmpty
  · rw [if_pos (by simpa using hout), applyUpd_wb_self, he.wb rfl rfl, if_neg Bool.false_ne_true]
  · rw [if_neg (by simp), he.wb rfl rfl, if_pos rfl]

theorem wb_lineErrors_other {line k : Nat} (rs : List (Nat × WordRead)) (riser : Bool) (fl : Nat) (s : State)
    (hfar : ¬(farBase ≤ line * 64 ∧ line * 64 < csramBase)) (hk : line ≠ k) :
    Store.get 0 (run (lineErrors riser fl line rs) s).wb k = Store.get 0 s.wb k := by
  rw [wb_lineErrors rs riser fl s hfar]
  split
  · rfl
  · exact Store.get_set_other _ _ _ hk

/-- A corrected word of a line read by a scrub is marked for write-back. -/
theorem bit_wb_lineErrors {w : Nat} {u s : State} (riser : Bool) (fl : Nat) (hfar : ¬(farBase ≤ w / 8 * 64 ∧ w / 8 * 64 < csramBase))
    (h : (u.decodeWord w).verdict = 1 ∨ (u.decodeWord w).verdict = 2) :
    bit (Store.get 0 (run (lineErrors riser fl (w / 8) (u.lineWords (w / 8))) s).wb (w / 8)) (w % 8) = true := by
  have hmem : (w, u.decodeWord w) ∈ correctedOf (u.lineWords (w / 8)) := by
    refine List.mem_filter.mpr ⟨List.mem_map.mpr ⟨w % 8, List.mem_range.mpr (Nat.mod_lt _ (by decide)), ?_⟩, by simpa using h⟩
    rw [Nat.div_add_mod']
  have hne : ¬(correctedOf (u.lineWords (w / 8))).isEmpty = true := by simpa using List.ne_nil_of_mem hmem
  rw [wb_lineErrors _ riser fl s hfar, if_neg hne, Store.get_set_same, bit_foldl_setBit, List.any_eq_true.mpr, Bool.or_true]
  exact ⟨_, hmem, beq_self_eq_true _⟩

/-- A scrub of one unit of SRAM marks each corrected word for write-back (R233). -/
theorem bit_wb_sramScrubRead {addr w : Nat} {ups : List Upset} {s u : State} (hu : u = run (applyUpsets ups) s)
    (ht : (∃ c, u.target addr = .csram c) ∨ ∃ n, u.target addr = .scratch n) (hw : w / 16 = addr / 128)
    (h : (u.decodeWord w).verdict = 1 ∨ (u.decodeWord w).verdict = 2) :
    bit (Store.get 0 (run (sramScrubReadEff addr ups) s).wb (w / 8)) (w % 8) = true := by
  have hsram : csramBase ≤ addr := by
    have hbase : csramBase ≤ scratchBase := by decide
    unfold State.target at ht
    split_ifs at ht with _ _ _ hcsram hscratch <;> simp at ht
    · exact hcsram.1
    · exact hbase.trans hscratch.1
  have hfar (k : Nat) : ¬(farBase ≤ (addr / 128 * 2 + k) * 64 ∧ (addr / 128 * 2 + k) * 64 < csramBase) := by
    simp only [csramBase, farBase] at hsram ⊢
    omega
  obtain ⟨fl, hrun⟩ : ∃ fl, run (sramScrubReadEff addr ups) s =
      run (lineErrors false fl (addr / 128 * 2 + 1) (u.lineWords (addr / 128 * 2 + 1)))
        (run (lineErrors false fl (addr / 128 * 2) (u.lineWords (addr / 128 * 2))) u) := by
    refine ⟨(u.memOwner addr).getD 31, ?_⟩
    rw [sramScrubReadEff, run_seq, ← hu, run_get]
    rcases ht with ⟨c, hc⟩ | ⟨n, hn⟩
    · simp only [hc]
      rfl
    · simp only [hn]
      rfl
  rw [hrun]
  rcases (by omega : w / 8 = addr / 128 * 2 ∨ w / 8 = addr / 128 * 2 + 1) with hl | hl
  · rw [wb_lineErrors_other _ _ _ _ (hfar 1) (by omega), ← hl]
    exact bit_wb_lineErrors _ _ (hl ▸ hfar 0) h
  · rw [← hl]
    exact bit_wb_lineErrors _ _ (hl ▸ hfar 1) h

/-- A scrub moves on by one line, and counts a pass at the last (R229). -/
theorem scrub_advances (sl : Nat) (s : State) :
    (run (scrub sl) s).reg .ECC_SCRUB_pos sl = (s.reg .ECC_SCRUB_pos sl + 1) % 2 ^ 24 ∧
    ((s.reg .ECC_SCRUB_pos sl + 1) % 2 ^ 24 = 0 →
      (run (scrub sl) s).reg .ECC_SCRUB_passes sl = (s.reg .ECC_SCRUB_passes sl + 1) % 2 ^ 16) := by
  obtain ⟨e, he, hrun⟩ : ∃ e, May (mayOpenRow ||| mayLineErrors) e ∧ run (scrub sl) s =
      run (Eff.when ((s.reg .ECC_SCRUB_pos sl + 1) % 2 ^ 24 == 0) (addReg .ECC_SCRUB_passes sl 1))
        (run (setReg .ECC_SCRUB_pos sl ((s.reg .ECC_SCRUB_pos sl + 1) % 2 ^ 24)) (run e s)) :=
    ⟨Eff.when _ (.seq (openRow _) (lineErrors false _ _ _)), .when (.seq (openRow_may rfl _) (lineErrors_may rfl _ _ _ _)), rfl⟩
  have hpasses := he.reg .ECC_SCRUB_passes sl rfl rfl rfl s
  have hlt : (s.reg .ECC_SCRUB_pos sl + 1) % 2 ^ 24 < 2 ^ 24 := Nat.mod_lt _ (by decide)
  rw [hrun]
  generalize (s.reg .ECC_SCRUB_pos sl + 1) % 2 ^ 24 = next at hlt
  have hnext : next % 2 ^ 24 = next := Nat.mod_eq_of_lt hlt
  by_cases h0 : next = 0
  · simp [h0, hpasses, reg_applyUpd, Fld.info]
  · rw [beq_false_of_ne h0]
    exact ⟨(reg_applyUpd_same ..).trans hnext, fun h => absurd h h0⟩

/-! Fills (R226, R228). -/

theorem initKept_zeroRegion (sl r k : Nat) (s : State) (h : bit (s.reg .ECC_INIT_regions sl) k = true) (hk : k < 16) :
    bit ((run (zeroRegion sl r) s).reg .ECC_INIT_regions sl) k = true := by
  have hcache : May (mp .cache) (Eff.each (List.range 512) fun k => .get fun s => .upd (.cache (sl * 512 + k)
      ((Store.get [] s.cache (sl * 512 + k)).filter fun c => c.line * 64 / 2 ^ 26 != sl * 16 + r))) :=
    .each fun _ => .get fun _ => .upd (by dsimp only [Upd.bit]; rfl)
  simp only [zeroRegion, run_all_cons, run_all_nil, run_get, run_setReg, reg_applyUpd_same]
  rw [(setSlice_may (mk := maySetSlice) rfl _ _).reg _ _ rfl rfl rfl, hcache.reg _ _ rfl rfl rfl,
    (zeroRange_may (mk := mayZeroRange) rfl _ _).reg _ _ rfl rfl rfl, bit_testBit, Nat.testBit_mod_two_pow, ← bit_testBit,
    bit_setBit, h, ite_self]
  simp [Fld.info, hk]

/-- A region that a fill has reached: initialised, and zero throughout. -/
def State.Filled (s : State) (sl r : Nat) : Prop :=
  bit (s.reg .ECC_INIT_regions sl) r = true ∧ ∀ j < 2 ^ 26, s.byteAt (sl * 2 ^ 30 + r * 2 ^ 26 + j) = 0

theorem filled_zeroRegion (sl : Nat) {r : Nat} (hr : r < 16) (s : State) : (run (zeroRegion sl r) s).Filled sl r :=
  ⟨init_zeroRegion sl r hr s, fun j hj => by rw [byteAt_zeroRegion, if_pos (by omega)]⟩

theorem State.Filled.zeroRegion {s : State} {sl r : Nat} (h : s.Filled sl r) (hr : r < 16) (k : Nat) :
    (run (Machine.zeroRegion sl k) s).Filled sl r := by
  obtain ⟨hinit, hzero⟩ := h
  refine ⟨initKept_zeroRegion sl k r s hinit hr, fun j hj => ?_⟩
  rw [byteAt_zeroRegion, hzero j hj, ite_self]

theorem filled_each {sl r : Nat} {l : List Nat} (hr : r < 16) (h : r ∈ l) (s : State) : (run (Eff.each l (zeroRegion sl)) s).Filled sl r := by
  obtain ⟨l₁, l₂, rfl⟩ := List.append_of_mem h
  rw [run_each, List.foldl_append, List.foldl_cons, ← run_each (f := zeroRegion sl), ← run_each (f := zeroRegion sl)]
  exact run_each_keeps (P := fun t => t.Filled sl r) (fun k _ t ht => ht.zeroRegion hr k) _ (filled_zeroRegion sl hr _)

/-- A field written with one value in several instances holds it in each. -/
theorem reg_each_setReg {α : Type} (r : Fld) (g : α → Nat) (v : Nat) {l : List α} {a : α} (h : a ∈ l) (s : State) :
    (run (Eff.each l fun k => setReg r (g k) v) s).reg r (g a) = v % 2 ^ r.info.width := by
  obtain ⟨l₁, l₂, rfl⟩ := List.append_of_mem h
  rw [run_each, List.foldl_append, List.foldl_cons, ← run_each (f := fun k => setReg r (g k) v),
    ← run_each (f := fun k => setReg r (g k) v)]
  refine run_each_keeps (P := fun t => t.reg r (g a) = v % 2 ^ r.info.width) (fun k _ t ht => ?_) _ (reg_applyUpd_same ..)
  rw [run_setReg, reg_applyUpd]
  split
  · rfl
  · exact ht

/-! Raw codewords (R235). -/

theorem rawLoad_leaves (sl data check verdict syn : Nat) (b : Bool) (s : State) {t : State}
    (ht : t = run (Eff.all [setReg .ECC_TW_DATA_data sl data, setReg .ECC_TW_CHK_check sl check, setReg .ECC_TW_CHK_verdict sl verdict,
      setReg .ECC_TW_CHK_syndrome sl syn, Eff.when b (.upd .tick)]) s) :
    t.reg .ECC_TW_DATA_data sl = data % 2 ^ 64 ∧ t.reg .ECC_TW_CHK_check sl = check % 2 ^ 16 ∧
      t.reg .ECC_TW_CHK_verdict sl = verdict % 2 ^ 3 ∧ t.reg .ECC_TW_CHK_syndrome sl = syn % 2 ^ 16 := by
  simp only [run_all_cons, run_all_nil] at ht
  cases b <;> simp [ht, reg_applyUpd, Fld.info]

/-- What a raw store leaves: data and mark as given, and the line out of its cache. -/
theorem rawStore_leaves (w : Nat) (d : List Byte) (m : Mark) {e : Eff} (he : May (mp .wb) e) (s : State) {t : State}
    (ht : t = run (Eff.all [.upd (.bytes (w * 8) d), .upd (.mark w m), invalLine (w / 8), e]) s) :
    t.rawBytes (w * 8) d.length = d ∧ t.markAt w = m ∧ ∀ c ∈ t.cacheSet (w / 8), c.line ≠ w / 8 := by
  have hinval := invalLine_may (mk := mayInvalLine) rfl (w / 8)
  rw [ht, run_all_cons, run_all_cons, run_all_cons, run_all_cons, run_all_nil, run_upd, run_upd]
  refine ⟨?_, ?_, ?_⟩
  · rw [rawBytes_spared fun b _ _ => he.spares rfl rfl b, rawBytes_spared fun b _ _ => hinval.spares rfl rfl b]
    exact (rawBytes_bytes (w * 8) d s d.length le_rfl).trans List.take_length
  · rw [he.markAt rfl rfl, hinval.markAt rfl rfl, markAt_same]
  · rw [State.cacheSet, he.cache rfl rfl, invalLine, run_get, run_upd, applyUpd_cache_self, Store.get_set_same]
    exact fun c hc => by simpa using (List.mem_filter.mp hc).2

/-- Settles O9. -/
theorem stackedMemoryEventsComplete : Obligations.StackedMemoryEventsComplete := by
  refine ⟨?memoryRead, ?memoryReadClean, ?memoryWrite, ?memoryWriteStores, ?eccWriteBack, ?refreshSlot, ?selfRefreshEntry,
    ?selfRefreshExit, ?scrubRead, ?sramScrubRead, ?eccFillStart, ?fillEngineDone, ?eccTwRead, ?eccTwWrite, ?mcCtlInval,
    ?invalidationComplete, ?mcPerfClear⟩
  case memoryRead =>
    intro iss addr len hint ups s u r hu hr
    subst hu hr
    exact ⟨_, rfl, rsp_memoryReadEff iss addr len hint ups s⟩
  case memoryReadClean =>
    intro iss addr len hint s hlen hok hwords
    refine ⟨_, rfl, ?_⟩
    have hskip : run (applyUpsets []) s = s := rfl
    have hgood (w : Nat) (hw : w ∈ wordsIn addr len) : s.Good w := by
      obtain ⟨hlo, hhi⟩ := (mem_wordsIn hlen).mp hw
      rw [State.Good, hwords w hlo hhi]
      exact ⟨Nat.zero_lt_succ _, s.wordBytes_rawWord _⟩
    obtain ⟨hstatus, hdata⟩ := State.readResult_good hlen hok hgood
    rw [rsp_memoryReadEff, hskip, State.readBy, hstatus, hdata]
  case memoryWrite =>
    intro iss addr hint data ups s u hu
    subst hu
    exact ⟨_, rfl, rsp_memoryWriteEff iss addr hint data ups s⟩
  case memoryWriteStores =>
    intro iss addr hint data s hok hlive
    exact ⟨_, rfl, by rw [run_memoryWriteEff_ok hok]; rfl, rawBytes_memoryWriteEff hok hlive⟩
  case eccWriteBack =>
    intro line s hne
    exact ⟨_, rfl, writeBack_completes hne⟩
  case refreshSlot =>
    intro sl b s hup
    refine ⟨_, rfl, ?_⟩
    simp only [hup, Bool.not_false, run_when, if_true, refreshSlot, run_get, run_all_cons, run_all_nil]
    split
    case isTrue hall => simp [hall, reg_applyUpd, Fld.info, addReg]
    case isFalse hall => simp [show setBit (s.sliceAt sl).slots b true ≠ 340282366920938463463374607431768211455 from hall, reg_applyUpd, Fld.info, addReg]
  case selfRefreshEntry =>
    intro st s hheld
    refine ⟨_, rfl, ?_⟩
    rw [hheld, run_when, if_pos rfl]
    exact reg_applyUpd_same ..
  case selfRefreshExit =>
    intro st s hup hself
    refine ⟨_, rfl, ?_⟩
    rw [hup, hself, Bool.not_false, Bool.and_self, run_when, if_pos rfl, selfRefreshExitEff, run_seq, run_setReg]
    have hsr : May (mr .MC_STAT_sr) (Eff.each (List.range 96) fun k => setReg .MC_STAT_sr (st * 96 + k) 1) := .each fun k => .set rfl
    refine ⟨by rw [hsr.reg _ _ rfl rfl rfl]; exact reg_applyUpd_same .., fun k hk => ?_⟩
    exact reg_each_setReg .MC_STAT_sr (fun k => st * 96 + k) 1 (List.mem_range.mpr hk) _
  case scrubRead =>
    intro sl ups s hen hup hin
    refine ⟨_, rfl, ?_⟩
    rw [hen, hup, hin, Bool.not_false, Bool.and_self, Bool.and_self, run_when, if_pos rfl, run_seq]
    have hups := applyUpsets_may (mk := mayApplyUpsets) rfl ups
    have hpos := hups.reg .ECC_SCRUB_pos sl rfl rfl rfl s
    have hpasses := hups.reg .ECC_SCRUB_passes sl rfl rfl rfl s
    generalize run (applyUpsets ups) s = u at hpos hpasses
    rw [← hpos, ← hpasses]
    exact scrub_advances sl u
  case sramScrubRead =>
    intro addr ups s u w hu ht hw h
    exact ⟨_, rfl, bit_wb_sramScrubRead hu ht hw h⟩
  case eccFillStart =>
    intro sl regions s hup hidle
    refine ⟨_, rfl, ?_⟩
    simp only [hup, Bool.not_false, run_when, if_true, fillStart, run_get, hidle, Bool.false_eq_true, if_false, run_all_cons,
      run_all_nil]
    have hlt := regions.isLt
    simp [reg_applyUpd, Fld.info, Nat.mod_eq_of_lt hlt]
  case fillEngineDone =>
    intro sl s hbusy
    refine ⟨_, rfl, ?_⟩
    simp only [hbusy, run_when, if_true, fillDone, run_get, run_all_cons, run_all_nil, run_setReg, run_setSlice]
    refine ⟨by simp, by simp, fun r hr hbit => ?_⟩
    have hfilled := filled_each (sl := sl) hr (List.mem_filter.mpr ⟨List.mem_range.mpr hr, hbit⟩) s
    simpa [State.Filled, reg_applyUpd] using hfilled
  case eccTwRead =>
    intro sl s w hgrant hw
    refine ⟨_, rfl, ?_⟩
    rw [hgrant, run_when, if_pos rfl, twRead, run_get]
    extract_lets w' r u d
    obtain rfl : w = w' := hw
    have hr : s.decodeWord w' = r := rfl
    have hu : s.undefWord w' = u := rfl
    have hd : BitVec.ofNat 64 (s.rawWord (w' * 8)) ^^^ BitVec.ofNat 64 (s.markAt w').flips.toNat = d := rfl
    rw [hr, hu, hd]
    clear_value d r u
    generalize ht : run (Eff.all _) s = t
    obtain ⟨hdata, hcheck, hverdict, hsyn⟩ := rawLoad_leaves _ _ _ _ _ _ s ht.symm
    refine ⟨fun hdef => ⟨?_, ?_⟩, hverdict, hsyn⟩
    · rw [hdata, hdef, if_neg Bool.false_ne_true]
      exact Nat.mod_eq_of_lt d.isLt
    · rw [hcheck, hdef, if_neg Bool.false_ne_true]
      exact Nat.mod_eq_of_lt (s.rawCheck w').isLt
  case eccTwWrite =>
    intro sl s w hgrant hw
    refine ⟨_, rfl, ?_⟩
    rw [hgrant, run_when, if_pos rfl, twWrite, run_get]
    extract_lets w'
    obtain rfl : w = w' := hw
    obtain ⟨hbytes, hmark, hline⟩ := rawStore_leaves w' (leBytes (s.reg .ECC_TW_DATA_data sl) 8)
      { cleanMark s w' with raw := some (BitVec.ofNat 16 (s.reg .ECC_TW_CHK_check sl)) }
      (e := .get fun s => let m := Store.get 0 s.wb (w' / 8)
        if bit m (w' % 8) then .upd (.wb (w' / 8) (setBit (setBit m (w' % 8) false) (8 + w' % 8) true)) else .skip)
      (.get fun _ => .ite (.upd (by dsimp only [Upd.bit]; rfl)) .skip) s rfl
    exact ⟨hbytes, congrArg Mark.raw hmark, hline⟩
  case mcCtlInval =>
    intro sl s hup
    refine ⟨_, rfl, ?_⟩
    simp only [hup, Bool.not_false, run_when, if_true, invalSlice, run_seq, run_upd, run_setReg]
    refine ⟨by simp [Fld.info], fun k hk => ?_⟩
    rw [applyUpd_cache _ _ rfl, applyUpd_clearCache_cache, Store.get_clear, if_pos (by simpa using congrArg Fin.val hk)]
  case invalidationComplete =>
    exact fun sl s => ⟨_, rfl, reg_applyUpd_same ..⟩
  case mcPerfClear =>
    intro sl s hup
    refine ⟨_, rfl, ?_⟩
    simp only [hup, Bool.not_false, run_when, if_true, mcPerfClear, Eff.each, List.map_cons, List.map_nil, run_all_cons, run_all_nil]
    simp [reg_applyUpd]

end Sys2Proof.Machine
end

section
/-! PROOFS. FP32 arithmetic rounds once (R75). -/
namespace Sys2Proof.Machine

/-- An exact finite result rounded to FP32 with no flag is the nearest code. -/
theorem nearest_rnd32 {v : FV} (hv : v.finite = true) (h : (rnd32 (v, 0)).2 = 0) : Nearest 0 v.rat (rnd32 (v, 0)).1 := by
  obtain ⟨s, m, e, rfl⟩ := FV.finite_iff.mp hv
  have hflag : fxOr 0 (toF32 (.fin s m e)).2 = (toF32 (.fin s m e)).2 := by simp [fxOr]
  exact nearest_encode (fmt := 0) rfl (hflag ▸ h)

/-- An integer count of quanta as a value. -/
theorem rat_fin_int (z : Int) (g : Int) : (FV.fin (decide (z < 0)) z.natAbs g).rat = z * 2 ^ g := by
  have := rat_intFV z
  rw [intFV, FV.rat_fin, zpow_zero, mul_one] at this
  rw [FV.rat_fin, this]

/-- The sum of two finite values is exact. -/
theorem FV.add_exact {a b : FV} (ha : a.finite = true) (hb : b.finite = true) :
    ∃ v, a.add b = (v, 0) ∧ v.finite = true ∧ v.rat = a.rat + b.rat := by
  obtain ⟨s, m, e, rfl⟩ := FV.finite_iff.mp ha
  obtain ⟨t, n, f, rfl⟩ := FV.finite_iff.mp hb
  have hquanta (s : Bool) (m : Nat) {e g : Int} (hg : g ≤ e) :
      (((if s then -((m * 2 ^ (e - g).toNat : Nat) : Int) else ((m * 2 ^ (e - g).toNat : Nat) : Int) : Int) : Rat)) * 2 ^ g =
        (FV.fin s m e).rat := by
    obtain ⟨k, hk⟩ := Int.eq_ofNat_of_zero_le (show 0 ≤ e - g by omega)
    rw [FV.rat_fin_quantum s m e g, hk, Int.toNat_natCast]
    cases s <;> simp [sgn]
  rw [FV.add]
  split
  case isTrue hzero => exact ⟨_, rfl, rfl, by simp [FV.rat_fin, hzero]⟩
  case isFalse =>
    refine ⟨_, rfl, rfl, ?_⟩
    rw [rat_fin_int, Int.cast_add, add_mul, hquanta s m (min_le_left e f), hquanta t n (min_le_right e f)]

/-- The product of two finite values is exact. -/
theorem FV.mul_exact {a b : FV} (ha : a.finite = true) (hb : b.finite = true) :
    ∃ v, a.mul b = (v, 0) ∧ v.finite = true ∧ v.rat = a.rat * b.rat := by
  obtain ⟨s, m, e, rfl⟩ := FV.finite_iff.mp ha
  obtain ⟨t, n, f, rfl⟩ := FV.finite_iff.mp hb
  refine ⟨_, rfl, rfl, ?_⟩
  have hsgn : (sgn (s != t) : Rat) = sgn s * sgn t := by cases s <;> cases t <;> simp [sgn]
  rw [FV.rat_fin, FV.rat_fin, FV.rat_fin, hsgn, zpow_add₀ two_ne_zero]
  push_cast
  ring

theorem FV.neg_exact {a : FV} (ha : a.finite = true) : a.neg.finite = true ∧ a.neg.rat = -a.rat := by
  obtain ⟨s, m, e, rfl⟩ := FV.finite_iff.mp ha
  refine ⟨rfl, ?_⟩
  rw [FV.neg, FV.rat_fin, FV.rat_fin]
  cases s <;> simp [sgn]

/-- Settles O45: the exact result is finite and sets no flag, and it is rounded once. -/
theorem arithmeticRoundsOnce : Obligations.ArithmeticRoundsOnce := by
  refine ⟨fun a b ha hb h => ?_, fun a b ha hb h => ?_, fun a b ha hb h => ?_, fun a b c ha hb hc h => ?_⟩
  · obtain ⟨v, hv, hfin, hrat⟩ := FV.add_exact ha hb
    rw [add32, hv] at h ⊢
    exact hrat ▸ nearest_rnd32 hfin h
  · obtain ⟨hneg, hnegrat⟩ := FV.neg_exact hb
    obtain ⟨v, hv, hfin, hrat⟩ := FV.add_exact ha hneg
    rw [sub32, hv] at h ⊢
    rw [sub_eq_add_neg, ← hnegrat, ← hrat]
    exact nearest_rnd32 hfin h
  · obtain ⟨v, hv, hfin, hrat⟩ := FV.mul_exact ha hb
    rw [mul32, hv] at h ⊢
    exact hrat ▸ nearest_rnd32 hfin h
  · obtain ⟨p, hp, hpfin, hprat⟩ := FV.mul_exact ha hb
    obtain ⟨v, hv, hfin, hrat⟩ := FV.add_exact hpfin hc
    have hfma : fma32 a b c = rnd32 (v, 0) := by
      rw [fma32, hp]
      dsimp only
      rw [hv, fxOr, Nat.zero_or]
    rw [hfma] at h ⊢
    rw [← hprat, ← hrat]
    exact nearest_rnd32 hfin h

end Sys2Proof.Machine
end


section
/-! SUPPORT. Values that a float format holds exactly: rounding gives them back, and FP32 holds every value of the other
formats (R53, R57). -/
namespace Sys2Proof.Machine

/-- A number of whole quanta rounds to that number. -/
theorem RoundsTo.eq_of_intCast {n z : Int} (h : RoundsTo n z) : n = z :=
  le_antisymm (h.le_intCast le_rfl) (h.intCast_le le_rfl)

/-- Rounding loses nothing of a value of no more significant bits than it keeps and no finer quantum than it allows: it
writes it with a finer quantum, or the same. -/
theorem roundTo_whole {p m m' : Nat} {qmin q e : Int} (hm : m < 2 ^ (p + 1)) (hq : qmin ≤ q)
    (hv : (m' : Rat) * 2 ^ e = m * 2 ^ q) : ∃ (x : Int) (k : Nat), q = x + k ∧ qmin ≤ x ∧ (x = qmin ∨ 2 ^ p ≤ m * 2 ^ k) ∧
      m * 2 ^ k ≤ 2 ^ (p + 1) ∧ roundTo p qmin m' e = if m * 2 ^ k = 2 ^ (p + 1) then (2 ^ p, x + 1) else (m * 2 ^ k, x) := by
  obtain ⟨x, n, hround, hx, hbig, hn, hcases⟩ := roundTo_cases p qmin m' e
  have hscaled : (m' : Rat) * 2 ^ (e - x) = m * 2 ^ (q - x) := by
    rw [zpow_sub₀ two_ne_zero, zpow_sub₀ two_ne_zero, ← mul_div_assoc, hv, mul_div_assoc]
  rw [hscaled] at hround hbig
  have hle : x ≤ q := by
    rcases hbig with rfl | hbig
    · exact hq
    · by_contra hlt
      have : (m : Rat) * 2 ^ (q - x) < 2 ^ p := by
        calc (m : Rat) * 2 ^ (q - x) ≤ m * 2 ^ (-1 : Int) := by gcongr; exacts [one_le_two, by omega]
          _ < 2 ^ (p + 1) * 2 ^ (-1 : Int) := by gcongr; exact_mod_cast hm
          _ = 2 ^ p := by rw [pow_succ]; simp
      linarith
  obtain ⟨k, hk⟩ := Int.eq_ofNat_of_zero_le (show 0 ≤ q - x by omega)
  rw [hk, zpow_natCast] at hround hbig
  have hnk : n = m * 2 ^ k := by
    have hint : RoundsTo n ((m * 2 ^ k : Nat) : Int) := by push_cast; exact hround
    exact_mod_cast hint.eq_of_intCast
  exact ⟨x, k, by omega, hx, hbig.imp_right fun h => by exact_mod_cast h, hnk ▸ hn, hnk ▸ hcases⟩

/-- A value that the format holds is rounded to its own significand and quantum, however it is written. -/
theorem FloatFmt.roundTo_of_holds {f : FloatFmt} {m m' : Nat} {q e : Int} (h : f.Holds m q)
    (hv : (m' : Rat) * 2 ^ e = m * 2 ^ q) : roundTo f.mb f.qmin m' e = (m, q) := by
  obtain ⟨hsig, hquantum, hsub, -⟩ := h
  obtain ⟨x, k, rfl, hx, -, hle, hround⟩ := roundTo_whole hsig hquantum hv
  have htwo := Nat.pow_succ 2 f.mb
  rw [hround]
  rcases k with - | k
  · rw [pow_zero, mul_one, if_neg hsig.ne, Int.ofNat_zero, add_zero]
  · have hge : 2 ^ f.mb ≤ m := by
      by_contra hlt
      have := hsub (by omega)
      omega
    have hpos := Nat.two_pow_pos k
    have hk : m * 2 ^ (k + 1) = m * 2 ^ k * 2 := by rw [pow_succ, mul_assoc]
    have hmk : m ≤ m * 2 ^ k := Nat.le_mul_of_pos_right m hpos
    obtain rfl : k = 0 := by
      by_contra hk0
      have : 2 ≤ 2 ^ k := Nat.le_self_pow hk0 2
      have : m * 2 ≤ m * 2 ^ k := Nat.mul_le_mul_left m this
      have := Nat.two_pow_pos f.mb
      omega
    have heq : m * 2 ^ (0 + 1) = 2 ^ (f.mb + 1) := by omega
    rw [if_pos heq]
    exact Prod.ext (by simp only; omega) (by simp)

/-- A value that the format holds is encoded as itself, however it is written. -/
theorem FloatFmt.encode_of_holds {f : FloatFmt} {m m' : Nat} {q e : Int} (h : f.Holds m q) (sat s : Bool)
    (hv : (m' : Rat) * 2 ^ e = m * 2 ^ q) : f.encode sat (.fin s m' e) = (f.pack s m q, 0) := by
  have hround : roundTo f.mb (1 - f.bias - f.mb) m' e = (m, q) := f.roundTo_of_holds h hv
  simp only [encode, hround, if_neg h.fits]

/-- FP32 as R48 lists it. -/
def fp32 : FloatFmt := ⟨8, 23, 127, .ieee⟩

theorem fp32_listed : fp32.Listed := (floatFmt_listed (fmt := 0) rfl).1

/-- FP32 holds every value of 24 significant bits whose quantum and magnitude it reaches. -/
theorem exists_holds_fp32 {m : Nat} {q : Int} (hm : m < 2 ^ 24) (hq : -149 ≤ q) (hv : (m : Rat) * 2 ^ q < 2 ^ 128) :
    ∃ M Q, fp32.Holds M Q ∧ (M : Rat) * 2 ^ Q = m * 2 ^ q := by
  obtain ⟨x, k, hqx, hx, hbig, hle, hround⟩ := roundTo_whole (p := 23) (qmin := -149) hm hq rfl
  obtain ⟨r, hr⟩ : ∃ r, r = roundTo 23 (-149) m q := ⟨_, rfl⟩
  have hval : (m : Rat) * 2 ^ q = (m * 2 ^ k : Nat) * 2 ^ x := by
    rw [hqx, zpow_add₀ two_ne_zero, zpow_natCast]
    push_cast
    ring
  have hsame : (r.1 : Rat) * 2 ^ r.2 = m * 2 ^ q ∧ (r.2 = -149 ∨ 2 ^ 23 ≤ r.1) ∧ r.1 < 2 ^ 24 := by
    rw [hr, hround, hval]
    split
    case isTrue h =>
      rw [h]
      refine ⟨?_, .inr le_rfl, by norm_num⟩
      push_cast
      rw [zpow_add_one₀ two_ne_zero]
      ring
    case isFalse h => exact ⟨rfl, hbig, lt_of_le_of_ne hle h⟩
  obtain ⟨hsame, hnorm, hlt⟩ := hsame
  refine ⟨r.1, r.2, FloatFmt.holds_roundTo (f := fp32) hr.symm ?_, hsame⟩
  have hexp : r.2 ≤ 104 := by
    by_contra hbigger
    have h23 : (2 ^ 23 : Nat) ≤ r.1 := hnorm.resolve_left (by omega)
    have : (2 : Rat) ^ 128 ≤ r.1 * 2 ^ r.2 := by
      calc (2 : Rat) ^ 128 = (2 : Rat) ^ 23 * 2 ^ (105 : Int) := by norm_num
        _ ≤ (r.1 : Rat) * 2 ^ r.2 := by gcongr; exacts [by exact_mod_cast h23, one_le_two, by omega]
    rw [hsame] at this
    linarith
  have hmax : fp32.maxFin = (2 ^ 24 - 1, 104) := by decide
  rw [hmax]
  simp only
  omega

/-- Widening to FP32 is exact (R53). -/
theorem toF32_exact (s : Bool) {m : Nat} {q : Int} (hm : m < 2 ^ 24) (hq : -149 ≤ q) (hv : (m : Rat) * 2 ^ q < 2 ^ 128) :
    ∃ c M Q, toF32 (.fin s m q) = (c, 0) ∧ ofFmt 0 c = .fin s M Q ∧ (M : Rat) * 2 ^ Q = m * 2 ^ q := by
  obtain ⟨M, Q, hholds, hsame⟩ := exists_holds_fp32 hm hq hv
  exact ⟨_, M, Q, fp32.encode_of_holds hholds false s hsame.symm, fp32.decode_pack fp32_listed s hholds, hsame⟩

/-! Codes. -/

/-- A code is its three fields (R49). -/
theorem FloatFmt.code_fields (f : FloatFmt) (hf : f.Listed) {c : Nat} (hc : c < 2 ^ (f.eb + f.mb + 1)) :
    c = f.signBit (bit c (f.eb + f.mb)) + (bits c (f.eb + f.mb - 1) f.mb * 2 ^ f.mb + c % 2 ^ f.mb) ∧
      bits c (f.eb + f.mb - 1) f.mb < 2 ^ f.eb := by
  have hwidth : f.eb + f.mb - 1 + 1 - f.mb = f.eb := by have := hf.eb; omega
  have hbits : bits c (f.eb + f.mb - 1) f.mb = c / 2 ^ f.mb % 2 ^ f.eb := by rw [bits, hwidth]
  have htop : c / 2 ^ f.mb / 2 ^ f.eb < 2 := by
    rw [Nat.div_div_eq_div_mul, ← Nat.pow_add, Nat.div_lt_iff_lt_mul (Nat.two_pow_pos _), Nat.add_comm f.mb, ← Nat.pow_succ']
    exact hc
  have hsign : f.signBit (bit c (f.eb + f.mb)) = c / 2 ^ f.mb / 2 ^ f.eb * 2 ^ f.eb * 2 ^ f.mb := by
    rw [bit, Nat.add_comm f.eb, Nat.pow_add, ← Nat.div_div_eq_div_mul, signBit, Nat.pow_add, Nat.mul_comm (2 ^ f.eb)]
    generalize c / 2 ^ f.mb / 2 ^ f.eb = b at htop
    interval_cases b <;> simp [Nat.mul_comm]
  rw [hbits, hsign]
  refine ⟨?_, Nat.mod_lt _ (Nat.two_pow_pos _)⟩
  rw [← Nat.add_assoc, ← Nat.add_mul, Nat.div_add_mod', Nat.div_add_mod']

/-- A code that decodes to a finite value is the code of its significand and quantum, and the format holds them. -/
theorem FloatFmt.pack_decode {f : FloatFmt} (hf : f.Listed) {c : Nat} (hc : c < 2 ^ (f.eb + f.mb + 1)) {s : Bool} {m : Nat} {q : Int}
    (h : f.decode c = .fin s m q) : f.Holds m q ∧ f.pack s m q = c := by
  obtain ⟨hcode, hexp⟩ := f.code_fields hf hc
  have hfrac := Nat.mod_lt c (Nat.two_pow_pos f.mb)
  have htwo := Nat.pow_succ 2 f.mb
  have hcast : ((2 ^ f.eb : Nat) : Int) = 2 ^ f.eb := by push_cast; rfl
  have heb : 2 ^ 2 ≤ 2 ^ f.eb := Nat.pow_le_pow_right two_pos hf.eb
  simp only [decode] at h
  generalize bits c (f.eb + f.mb - 1) f.mb = x at *
  generalize c % 2 ^ f.mb = y at *
  split_ifs at h with hinf _ hnan h0
  case pos =>
    cases h
    have hfits : ¬(1 - f.bias - f.mb > f.maxFin.2 ∨ (1 - f.bias - f.mb = f.maxFin.2 ∧ m > f.maxFin.1)) := by
      unfold maxFin
      cases ht : f.top with
      | ieee => simp only [← hcast]; omega
      | none => simp only [← hcast]; omega
      | e4m3 => rw [hf.e4m3 ht]; simp
    refine ⟨⟨by omega, le_rfl, fun _ => rfl, hfits⟩, ?_⟩
    rw [h0, Nat.zero_mul, Nat.zero_add] at hcode
    rw [pack, if_pos hfrac]
    exact hcode.symm
  case neg =>
    cases h
    have hfits : ¬((x : Int) - f.bias - f.mb > f.maxFin.2 ∨ ((x : Int) - f.bias - f.mb = f.maxFin.2 ∧ 2 ^ f.mb + y > f.maxFin.1)) := by
      unfold maxFin
      cases ht : f.top with
      | ieee =>
        have hx : x ≠ 2 ^ f.eb - 1 := fun hx => hinf ⟨ht, hx⟩
        simp only [← hcast]
        omega
      | none => simp only [← hcast]; omega
      | e4m3 =>
        have hxy : ¬(x = 15 ∧ y = 7) := fun h => hnan ⟨ht, h⟩
        obtain rfl := hf.e4m3 ht
        norm_num at hexp hfrac ⊢
        omega
    refine ⟨⟨by omega, by rw [qmin]; omega, fun hlt => by omega, hfits⟩, ?_⟩
    have hx : ((x : Int) - f.bias - f.mb + f.bias + f.mb).toNat = x := by omega
    rw [pack, if_neg (by omega), hx, Nat.add_sub_cancel_left]
    exact hcode.symm

/-- A code that decodes to an infinity is the infinity's. -/
theorem FloatFmt.infCode_decode {f : FloatFmt} (hf : f.Listed) {c : Nat} (hc : c < 2 ^ (f.eb + f.mb + 1)) {s : Bool}
    (h : f.decode c = .inf s) : f.top = .ieee ∧ f.infCode s = c := by
  obtain ⟨hcode, -⟩ := f.code_fields hf hc
  simp only [decode] at h
  split_ifs at h with hinf hzero
  cases h
  rw [hinf.2, hzero, Nat.add_zero] at hcode
  exact ⟨hinf.1, hcode.symm⟩

theorem FloatFmt.decode_infCode {f : FloatFmt} (hf : f.Listed) (ht : f.top = .ieee) (s : Bool) : f.decode (f.infCode s) = .inf s := by
  have heb : 0 < 2 ^ f.eb := Nat.two_pow_pos _
  obtain ⟨hs, he, hfrac⟩ := f.fields hf s (e := 2 ^ f.eb - 1) (m := 0) (by omega) (Nat.two_pow_pos _)
  rw [Nat.add_zero] at hs he hfrac
  simp only [decode, infCode, hs, he, hfrac, ht, and_self, if_true]

end Sys2Proof.Machine
end

section
/-! PROOFS. Widening to FP32 and back (R53, R57). -/
namespace Sys2Proof.Machine

/-- A format no finer and no wider than FP32: its significands, its least quantum and its largest value are within
FP32's. -/
structure FloatFmt.WithinFP32 (f : FloatFmt) : Prop where
  sig : f.mb + 1 ≤ 24
  quantum : -149 ≤ f.qmin
  largest : f.mb + 1 + f.maxFin.2 ≤ 128

theorem floatFmt_withinFP32 {fmt : Nat} {f : FloatFmt} (h : floatFmt fmt = some f) : f.WithinFP32 := by
  unfold floatFmt at h
  split at h <;> cases h <;> exact ⟨by decide, by decide, by decide⟩

/-- A value that such a format holds is below 2^128. -/
theorem FloatFmt.Holds.lt_two_pow {f : FloatFmt} {m : Nat} {q : Int} (h : f.Holds m q) (hf : f.WithinFP32) :
    (m : Rat) * 2 ^ q < 2 ^ 128 := by
  have hq : q ≤ f.maxFin.2 := by have := h.fits; omega
  have hsum : ((f.mb + 1 : Nat) : Int) + q ≤ 128 := by have := hf.largest; push_cast; omega
  calc (m : Rat) * 2 ^ q < 2 ^ (f.mb + 1) * 2 ^ q := by gcongr; exact_mod_cast h.sig
    _ = 2 ^ (((f.mb + 1 : Nat) : Int) + q) := by rw [zpow_add₀ two_ne_zero, zpow_natCast]
    _ ≤ 2 ^ (128 : Int) := zpow_le_zpow_right₀ one_le_two hsum
    _ = 2 ^ 128 := by norm_num

/-- A code of a float format that is no NaN returns from FP32 as it was. -/
theorem FloatFmt.widen_back {f : FloatFmt} (hf : f.Listed) (hw : f.WithinFP32) (sat : Bool) {c : Nat} (hc : c < 2 ^ (f.eb + f.mb + 1))
    (hnan : f.decode c ≠ .nan) : (toF32 (f.decode c)).2 = 0 ∧ f.encode sat (ofFmt 0 (toF32 (f.decode c)).1) = (c, 0) := by
  cases hv : f.decode c with
  | nan => exact absurd hv hnan
  | inf s =>
    obtain ⟨htop, hcode⟩ := infCode_decode hf hc hv
    have hwide : toF32 (.inf s) = (fp32.infCode s, 0) := rfl
    have hback : ofFmt 0 (fp32.infCode s) = .inf s := decode_infCode fp32_listed rfl s
    rw [hwide, hback, encode, if_pos htop, hcode]
    exact ⟨rfl, rfl⟩
  | fin s m q =>
    obtain ⟨hholds, hcode⟩ := pack_decode hf hc hv
    obtain ⟨c', M, Q, hwide, hback, hsame⟩ := toF32_exact s (hholds.sig.trans_le (Nat.pow_le_pow_right two_pos hw.sig))
      (hw.quantum.trans hholds.quantum) (hholds.lt_two_pow hw)
    rw [hwide, hback, encode_of_holds hholds sat s hsame, hcode]
    exact ⟨rfl, rfl⟩

/-- A two's complement code is the code of its integer (R46). -/
theorem wrap_signed {w c : Nat} (hc : c < 2 ^ w) : wrap w (signed w c) = c := by
  have hmod : signed w c % (2 ^ w : Int) = c := by
    have hself : (c : Int) % 2 ^ w = c := by exact_mod_cast Nat.mod_eq_of_lt hc
    unfold signed
    split
    · rw [Int.sub_emod_right, hself]
    · exact hself
  rw [wrap, hmod, Int.toNat_natCast]

/-- The integers of w bits in two's complement. -/
theorem signed_bounds {w c : Nat} (hw : 0 < w) (hc : c < 2 ^ w) : -(2 ^ (w - 1)) ≤ signed w c ∧ signed w c ≤ 2 ^ (w - 1) - 1 := by
  obtain ⟨v, rfl⟩ := Nat.exists_eq_succ_of_ne_zero hw.ne'
  simp only [Nat.succ_eq_add_one] at hc ⊢
  have htwo := Nat.pow_succ 2 v
  have hcast : ((2 ^ v : Nat) : Int) = 2 ^ v := by push_cast; rfl
  have hcast' : ((2 ^ (v + 1) : Nat) : Int) = 2 ^ (v + 1) := by push_cast; rfl
  rw [signed, Nat.add_sub_cancel, ← hcast, ← hcast', bit]
  rcases lt_or_ge c (2 ^ v) with hlow | hhigh
  · rw [Nat.div_eq_of_lt hlow, if_neg (by decide)]
    omega
  · rw [Nat.div_eq_of_lt_le (k := 1) (by omega) (by omega), if_pos (by decide)]
    omega

theorem sgn_mul_natAbs (x : Int) : sgn (decide (x < 0)) * (x.natAbs : Int) = x := by
  rcases lt_or_ge x 0 with h | h
  · rw [sgn, if_pos (decide_eq_true h)]
    omega
  · rw [sgn, if_neg (by simpa using h)]
    omega

/-- An integer of up to 24 bits returns from FP32 as it was. -/
theorem intEncode_widened {w : Nat} {x : Int} (hlo : -(2 ^ (w - 1)) ≤ x) (hhi : x ≤ 2 ^ (w - 1) - 1) (hx : x.natAbs < 2 ^ 24) :
    (toF32 (intFV x)).2 = 0 ∧ intEncode w (ofFmt 0 (toF32 (intFV x)).1) = (wrap w x, 0) := by
  obtain ⟨c, M, Q, hwide, hback, hsame⟩ := toF32_exact (decide (x < 0)) (q := 0) hx (by norm_num)
    (by rw [zpow_zero, mul_one]; exact_mod_cast hx.trans (by norm_num))
  have hround : rneInt (decide (x < 0)) M Q = x := by
    refine RoundsTo.eq_of_intCast ?_
    have hvalue : sgn (decide (x < 0)) * ((M : Rat) * 2 ^ Q) = (x : Rat) := by
      rw [hsame, zpow_zero, mul_one, ← Int.cast_natCast, ← Int.cast_mul, sgn_mul_natAbs]
    exact hvalue ▸ roundsTo_rneInt _ M Q
  rw [intFV, hwide, hback, intEncode]
  simp only [hround, if_neg (not_lt.mpr hlo), if_neg (not_lt.mpr hhi), gt_iff_lt, and_self]

/-- Settles O44: FP32 holds every value of the float formats and every integer of the integer formats, so widening is exact,
and a value that a format holds is rounded to itself. -/
theorem codesSurviveFP32 : Obligations.CodesSurviveFP32 := by
  intro fmt sat c hfmt hc hnan
  rcases floatFmt_or_fmtIsInt hfmt with ⟨f, hf⟩ | hint
  · obtain ⟨hlisted, hwidth⟩ := floatFmt_listed hf
    rw [hwidth] at hc
    have hof : ofFmt fmt c = f.decode c := by simp only [ofFmt, hf]
    rw [hof] at hnan ⊢
    simp only [toFmt, hf]
    exact f.widen_back hlisted (floatFmt_withinFP32 hf) sat hc hnan
  · have hwidth : 0 < fmtWidth fmt ∧ fmtWidth fmt ≤ 8 := by
      unfold fmtIsInt at hint
      interval_cases fmt <;> simp_all [fmtWidth]
    obtain ⟨hlo, hhi⟩ := signed_bounds hwidth.1 hc
    have hpow : (2 : Int) ^ (fmtWidth fmt - 1) ≤ 2 ^ 7 := pow_le_pow_right₀ one_le_two (by omega)
    rw [ofFmt_int hint, toFmt_int hint]
    obtain ⟨hflags, hback⟩ := intEncode_widened hlo hhi (by omega)
    exact ⟨hflags, hback.trans (by rw [wrap_signed hc])⟩

end Sys2Proof.Machine
end

section
/-! SUPPORT. What an effect keeps: a reading of the state that every step of the effect leaves as it was. -/
set_option exponentiation.threshold 1000
namespace Sys2Proof.Machine

/-- The effect leaves the reading as it was, from any state. -/
def Eff.Keeps {α : Type} (g : State → α) (e : Eff) : Prop := ∀ s, g (run e s) = g s

namespace Eff.Keeps

variable {α β : Type} {g : State → α} {a b e : Eff}

theorem skip : Eff.skip.Keeps g := fun _ => rfl

theorem upd {u : Upd} (h : ∀ s, g (applyUpd u s) = g s) : (Eff.upd u).Keeps g := h

theorem seq (ha : a.Keeps g) (hb : b.Keeps g) : (Eff.seq a b).Keeps g := fun s => (hb _).trans (ha s)

theorem get {f : State → Eff} (h : ∀ s, (f s).Keeps g) : (Eff.get f).Keeps g := fun s => h s s

theorem nil : (Eff.all []).Keeps g := skip

theorem cons {es : List Eff} (h : e.Keeps g) (hs : (Eff.all es).Keeps g) : (Eff.all (e :: es)).Keeps g := seq h hs

theorem when {c : Bool} (h : c = true → e.Keeps g) : (Eff.when c e).Keeps g := by
  cases c
  · exact skip
  · exact h rfl

theorem ite {p : Prop} [Decidable p] (ha : p → a.Keeps g) (hb : ¬p → b.Keeps g) : (if p then a else b).Keeps g := by
  split
  · exact ha ‹_›
  · exact hb ‹_›

theorem opt {o : Option β} {f : β → Eff} (h : ∀ x ∈ o, (f x).Keeps g) : (Eff.opt o f).Keeps g := by
  cases o
  · exact skip
  · exact h _ rfl

theorem each {l : List β} {f : β → Eff} (h : ∀ x ∈ l, (f x).Keeps g) : (Eff.each l f).Keeps g := fun s =>
  run_each_keeps (P := fun t => g t = g s) (fun x hx t ht => (h x hx t).trans ht) s rfl

end Eff.Keeps

/-- What an effect for each item of a list brings about: the effect for one of the items does, and the others keep it. -/
theorem run_each_reaches {α : Type} {P : State → Prop} {l : List α} {f : α → Eff} {a : α} (ha : a ∈ l)
    (hreach : ∀ t, P (run (f a) t)) (hkeep : ∀ b ∈ l, ∀ t, P t → P (run (f b) t)) (s : State) : P (run (Eff.each l f) s) := by
  induction l generalizing s with
  | nil => exact absurd ha List.not_mem_nil
  | cons b l ih =>
    change P (run (Eff.each l f) (run (f b) s))
    rcases List.mem_cons.mp ha with rfl | ha
    · exact run_each_keeps (fun b hb => hkeep b (List.mem_cons_of_mem _ hb)) _ (hreach s)
    · exact ih ha (fun b hb => hkeep b (List.mem_cons_of_mem _ hb)) _

/-- The effect changes the reading in one way, whatever else it does. -/
def Eff.Maps {α : Type} (g : State → α) (h : α → α) (e : Eff) : Prop := ∀ s, g (run e s) = h (g s)

namespace Eff.Maps

variable {α β : Type} {g : State → α} {h : α → α} {a b e : Eff} {es : List Eff}

theorem seq_first (ha : a.Maps g h) (hb : b.Keeps g) : (Eff.seq a b).Maps g h := fun s => (hb _).trans (ha s)

theorem seq_second (ha : a.Keeps g) (hb : b.Maps g h) : (Eff.seq a b).Maps g h := fun s => (hb _).trans (congrArg h (ha s))

theorem head (he : e.Maps g h) (hs : (Eff.all es).Keeps g) : (Eff.all (e :: es)).Maps g h := seq_first he hs

theorem tail (he : e.Keeps g) (hs : (Eff.all es).Maps g h) : (Eff.all (e :: es)).Maps g h := seq_second he hs

/-- What comes before an effect that settles the reading does not matter. -/
theorem tail_const {v : α} (hs : (Eff.all es).Maps g fun _ => v) : (Eff.all (e :: es)).Maps g fun _ => v := fun s => hs (run e s)

/-- An effect for each item of a list without repetition changes a reading as the effect for one item does, when the other
items' effects keep the reading. -/
theorem each {l : List β} {f : β → Eff} {x : β} (hl : l.Nodup) (hx : x ∈ l) (hone : (f x).Maps g h)
    (hother : ∀ y ∈ l, y ≠ x → (f y).Keeps g) : (Eff.each l f).Maps g h := by
  obtain ⟨l₁, l₂, rfl⟩ := List.append_of_mem hx
  have hfresh : x ∉ l₁ ∧ x ∉ l₂ := by
    have := List.nodup_middle.mp hl
    simpa using List.nodup_cons.mp this |>.1
  have hbefore : (Eff.each l₁ f).Keeps g := .each fun y hy => hother y (by simp [hy]) fun he => hfresh.1 (he ▸ hy)
  have hafter : (Eff.each l₂ f).Keeps g := .each fun y hy => hother y (by simp [hy]) fun he => hfresh.2 (he ▸ hy)
  intro s
  have hsplit : run (Eff.each (l₁ ++ x :: l₂) f) s = run (Eff.each l₂ f) (run (f x) (run (Eff.each l₁ f) s)) := by
    simp only [run_each, List.foldl_append, List.foldl_cons]
  rw [hsplit, hafter, hone, hbefore]

end Eff.Maps

end Sys2Proof.Machine
end

section
/-! SUPPORT. Resets and clocks: which causes hold a stack or a cluster, and what a reset leaves of them (R371, R374). -/
set_option exponentiation.threshold 1000
namespace Sys2Proof.Machine

/-! Updates of every part but one, and of every register field but one. -/

/-- Every update but those of a part and a module reset. -/
def butPart (p : Part) : Nat := mayAll ^^^ 2 ^ p.ctorIdx ^^^ 2 ^ 79

/-- Every update but a register field's and those that clear register fields. -/
def butReg (r : Fld) : Nat := mayAll ^^^ 2 ^ (80 + r.ctorIdx) ^^^ 2 ^ Part.regs.ctorIdx ^^^ 2 ^ 79

section
variable {e : Eff} (i : Nat)

theorem May.keepsCluster {α : Type} (h : May (butPart .cluster) e) (g : ClusterSt → α) : e.Keeps fun s => g (s.clusterAt i) :=
  fun s => congrArg g (h.clusterAt rfl rfl s i)

theorem May.keepsStack {α : Type} (h : May (butPart .stack) e) (g : StackSt → α) : e.Keeps fun s => g (s.stackAt i) :=
  fun s => congrArg g (h.stackAt rfl rfl s i)

theorem setCluster_keeps {α : Type} (c : Nat) {f : ClusterSt → ClusterSt} {g : ClusterSt → α} (h : ∀ x, g (f x) = g x) :
    (setCluster c f).Keeps fun s => g (s.clusterAt i) := by
  intro s
  rcases eq_or_ne c i with rfl | hne
  · simp only [run_setCluster, clusterAt_same, h]
  · simp only [run_setCluster, clusterAt_other _ _ _ _ hne]

theorem setStack_keeps {α : Type} (n : Nat) {f : StackSt → StackSt} {g : StackSt → α} (h : ∀ x, g (f x) = g x) :
    (setStack n f).Keeps fun s => g (s.stackAt i) := by
  intro s
  rcases eq_or_ne n i with rfl | hne
  · simp only [run_setStack, stackAt_same, h]
  · simp only [run_setStack, stackAt_other _ _ _ _ hne]

end

/-! The causes that hold a cluster, and a field of another domain, in a cluster's reset. -/

theorem resetCluster_keeps_causes (c i : Nat) (stack : Bool) : (resetCluster c stack).Keeps fun s => (s.clusterAt i).causes :=
  .cons (May.keepsCluster i (loseItems_may rfl _) _) <|
  .cons (May.keepsCluster i (dropAssays_may rfl _ _) _) <|
  .cons (.each fun _ _ => .seq (May.keepsCluster i (dropCows_may rfl _) _) (May.keepsCluster i (resetCore_may rfl _) _)) <|
  .cons (.each fun _ _ => May.keepsCluster i (setCore_may rfl _ _) _) <|
  .cons (May.keepsCluster i (ladleAbort_may rfl _) _) <|
  .cons (May.keepsCluster i (clearWhere_may rfl _ _ _) _) <|
  .cons (May.keepsCluster i (clearWhere_may rfl _ _ _) _) <|
  .cons (May.keepsCluster i (setGath_may rfl _ _) _) <|
  .cons (May.keepsCluster i (setPath_may rfl _ _) _) <|
  .cons (fun _ => rfl) <|
  .cons (setCluster_keeps i c fun _ => rfl) .nil

/-- A register field of the module's own domain that nothing in a fabric-plane reset writes. -/
structure ModuleFld (r : Fld) : Prop where
  dom : r.info.dom = .modl
  spared : mayResetFp.testBit (80 + r.ctorIdx) = false

/-- The updates of a fabric-plane reset but those that clear register fields. -/
def planeWrites : Nat := mayResetFp ^^^ 2 ^ Part.regs.ctorIdx

namespace ModuleFld
variable {r : Fld} (hr : ModuleFld r) (i : Nat)
include hr

theorem keeps {e : Eff} (h : May planeWrites e) : e.Keeps (·.reg r i) := by
  have hbit : planeWrites.testBit (80 + r.ctorIdx) = false := by
    have hne : (2 ^ Part.regs.ctorIdx).testBit (80 + r.ctorIdx) = false := Nat.testBit_two_pow_of_ne (by simp [Part.ctorIdx]; omega)
    rw [planeWrites, Nat.testBit_xor, hr.spared, hne, Bool.xor_false]
  exact h.reg r i hbit rfl rfl

theorem clearWhere_keeps {d : Dom} (hd : .modl ≠ d) (o : Own) (p : Nat → Bool) : (clearWhere d o p).Keeps (·.reg r i) := by
  intro s
  simp [reg_clearWhere, hr.dom, hd]

theorem resetCore_keeps (n : Nat) : (resetCore n).Keeps (·.reg r i) :=
  .cons (hr.clearWhere_keeps i (by decide) _ _) <|
  .cons (.each fun _ _ => hr.keeps i (qEmpty_may rfl _ _)) <|
  .cons (.each fun _ _ => hr.keeps i (setAg_may rfl _ _ _)) <|
  .cons (fun _ => rfl) <|
  .cons (hr.keeps i (setCore_may rfl _ _)) <|
  .cons (hr.keeps i (setPath_may rfl _ _)) .nil

theorem resetCluster_keeps (c : Nat) (stack : Bool) : (resetCluster c stack).Keeps (·.reg r i) :=
  .cons (hr.keeps i (loseItems_may rfl _)) <|
  .cons (hr.keeps i (dropAssays_may rfl _ _)) <|
  .cons (.each fun _ _ => .seq (hr.keeps i (dropCows_may rfl _)) (hr.resetCore_keeps i _)) <|
  .cons (.each fun _ _ => hr.keeps i (setCore_may rfl _ _)) <|
  .cons (hr.keeps i (ladleAbort_may rfl _)) <|
  .cons (hr.clearWhere_keeps i (by decide) _ _) <|
  .cons (hr.clearWhere_keeps i (by decide) _ _) <|
  .cons (hr.keeps i (setGath_may rfl _ _)) <|
  .cons (hr.keeps i (setPath_may rfl _ _)) <|
  .cons (fun _ => rfl) <|
  .cons (hr.keeps i (setCluster_may rfl _ _)) .nil

theorem holdCluster_keeps (c cause : Nat) : (holdCluster c cause).Keeps (·.reg r i) :=
  .get fun _ => .seq (hr.keeps i (setCluster_may rfl _ _)) (.when fun _ => hr.resetCluster_keeps i c false)

theorem resetFp_keeps (st : Nat) : (resetFp st).Keeps (·.reg r i) :=
  .cons (hr.keeps i (setStack_may rfl _ _)) <|
  .cons (hr.keeps i (peersLose_may rfl _)) <|
  .cons (.each fun _ _ => .get fun _ => .seq (hr.keeps i (setCluster_may rfl _ _))
    (.ite (fun _ => hr.keeps i (dropAssays_may rfl _ _)) fun _ => hr.resetCluster_keeps i _ _)) <|
  .cons (hr.keeps i (dropAssays_may rfl _ _)) <|
  .cons (hr.keeps i (dropTasks_may rfl _)) <|
  .cons (hr.keeps i (resetSlices_may rfl _)) <|
  .cons (hr.keeps i (resetFabric_may rfl _)) <|
  .cons (hr.clearWhere_keeps i (by decide) _ _) <|
  .cons (hr.clearWhere_keeps i (by decide) _ _) <|
  .cons (hr.clearWhere_keeps i (by decide) _ _) <|
  .cons (.each fun _ _ => fun _ => rfl) <|
  .cons (hr.keeps i (doorbell_may rfl _ _)) <|
  .cons (hr.keeps i (hostRing_may rfl _ _ _)) .nil

end ModuleFld

/-! The causes that hold a stack, and whether it is down, in a fabric-plane reset. -/

section
variable (i : Nat) {α : Type} {g : StackSt → α} (hroutes : ∀ x rs, g { x with routes := rs } = g x)
include hroutes

theorem linkFalls_keeps_stack (st k : Nat) (peerLost : Bool) : (linkFalls st k peerLost).Keeps fun s => g (s.stackAt i) :=
  .cons (May.keepsStack i (dropLink_may rfl _ _) _) <|
  .cons (.get fun _ => .when fun _ => .get fun _ =>
    .cons (.each fun _ _ => May.keepsStack i (setEntry_may rfl _ _ _) _) <|
    .cons (setStack_keeps i _ fun x => hroutes x _) <|
    .cons (May.keepsStack i (.get fun _ => .set rfl) _) <|
    .cons (May.keepsStack i (.set rfl) _) <|
    .cons (May.keepsStack i (.fresh rfl fun _ => .add rfl) _) .nil) <|
  .cons (May.keepsStack i (doorbell_may rfl _ _) _) <|
  .cons (May.keepsStack i (hostRing_may rfl _ _ _) _) .nil

theorem peersLose_keeps_stack (st : Nat) : (peersLose st).Keeps fun s => g (s.stackAt i) :=
  .cons (.get fun _ => .when fun _ => linkFalls_keeps_stack i hroutes _ _ _) <|
  .cons (.get fun _ => .when fun _ => linkFalls_keeps_stack i hroutes _ _ _) .nil

/-- A fabric-plane reset takes the stack down and clears its routes, and changes the stack in no other way. -/
theorem stackAt_resetFp (st : Nat) (s : State) : g ((run (resetFp st) s).stackAt st) = g { s.stackAt st with down := true } := by
  obtain ⟨e, he, hkeeps⟩ : ∃ e, resetFp st = .seq (setStack st fun x => { x with down := true, routes := [] }) e ∧
      e.Keeps fun s => g (s.stackAt st) :=
    ⟨_, rfl,
      .cons (peersLose_keeps_stack st hroutes _) <|
      .cons (.each fun _ _ => .get fun _ => .seq (May.keepsStack st (setCluster_may rfl _ _) _)
        (.ite (fun _ => May.keepsStack st (dropAssays_may rfl _ _) _) fun _ => May.keepsStack st (resetCluster_may rfl _ _) _)) <|
      .cons (May.keepsStack st (dropAssays_may rfl _ _) _) <|
      .cons (May.keepsStack st (dropTasks_may rfl _) _) <|
      .cons (May.keepsStack st (resetSlices_may rfl _) _) <|
      .cons (May.keepsStack st (resetFabric_may rfl _) _) <|
      .cons (May.keepsStack st (clearWhere_may rfl _ _ _) _) <|
      .cons (May.keepsStack st (clearWhere_may rfl _ _ _) _) <|
      .cons (May.keepsStack st (clearWhere_may rfl _ _ _) _) <|
      .cons (.each fun _ _ => fun _ => rfl) <|
      .cons (May.keepsStack st (doorbell_may rfl _ _) _) <|
      .cons (May.keepsStack st (hostRing_may rfl _ _ _) _) .nil⟩
  rw [he, run_seq, run_setStack]
  refine (hkeeps _).trans ?_
  dsimp only
  rw [stackAt_same]
  exact hroutes { s.stackAt st with down := true } []

end

theorem causes_holdFp (st cause : Nat) (s : State) :
    ((run (holdFp st cause) s).stackAt st).causes = (s.stackAt st).causes ||| cause := by
  simp only [holdFp, run_get, run_seq, run_setStack, run_when]
  split
  · simp only [run_all_cons, run_all_nil]
    rw [stackAt_resetFp (g := (·.causes)) (fun _ _ => rfl)]
    simp
  · simp

/-- The first cause to hold a fabric plane takes it down. -/
theorem run_holdFp_first (st cause : Nat) {s : State} (h : (s.stackAt st).causes = 0) : run (holdFp st cause) s = run (Eff.all [
    setReg .CRS_CAUSE_last st (causeCode cause), satReg .CRS_CAUSE_count st 1, resetFp st])
      (run (setStack st fun y => { y with causes := y.causes ||| cause }) s) := by
  simp only [holdFp, run_get, run_seq, h, beq_self_eq_true, run_when, if_true]

/-! Clusters. -/

/-- A cause holds a cluster (R374). -/
theorem causes_holdCluster (c cause : Nat) (s : State) :
    ((run (holdCluster c cause) s).clusterAt c).causes = (s.clusterAt c).causes ||| cause := by
  simp only [holdCluster, run_get, run_seq, run_setCluster, run_when]
  split
  · refine (resetCluster_keeps_causes c c false _).trans ?_
    dsimp only
    rw [clusterAt_same]
  · rw [clusterAt_same]

theorem holdCluster_keeps_causes {c i : Nat} (h : c ≠ i) (cause : Nat) : (holdCluster c cause).Keeps fun s => (s.clusterAt i).causes :=
  .get fun _ => .seq (fun s => by rw [run_setCluster, clusterAt_other _ _ _ _ h])
    (.when fun _ => resetCluster_keeps_causes c i false)

theorem clusterReturn_keeps {α : Type} (c i : Nat) {g : ClusterSt → α} (hz : ∀ x, g { x with zeroed := true } = g x) :
    (clusterReturn c).Keeps fun s => g (s.clusterAt i) :=
  .cons (.get fun _ => .cons (May.keepsCluster i (zeroRange_may rfl _ _) _) <|
    .cons (.each fun _ _ => May.keepsCluster i (zeroRange_may rfl _ _) _) <|
    .cons (May.keepsCluster i (setMisc_may rfl _) _) <|
    .cons (setCluster_keeps i c hz) .nil) <|
  .cons (May.keepsCluster i (syncTokens_may rfl _) _) <|
  .cons (May.keepsCluster i (startGather_may rfl _) _) .nil

theorem zeroed_clusterReturn (c : Nat) (s : State) : ((run (clusterReturn c) s).clusterAt c).zeroed = true := by
  simp only [clusterReturn, run_all_cons, run_all_nil]
  rw [(startGather_may (mk := mayStartGather) rfl c).clusterAt rfl rfl, (syncTokens_may (mk := maySyncTokens) rfl c).clusterAt rfl rfl]
  simp [zeroCluster]

/-- A cause no longer holds a cluster (R374). -/
theorem causes_releaseCluster (c cause : Nat) (s : State) :
    ((run (releaseCluster c cause) s).clusterAt c).causes = (s.clusterAt c).causes - ((s.clusterAt c).causes &&& cause) := by
  simp only [releaseCluster, run_get]
  split
  case isTrue h => rw [h, Nat.sub_zero]; rfl
  case isFalse h =>
    simp only [run_seq, run_get, run_setCluster, run_when]
    split
    · refine (clusterReturn_keeps c c (g := (·.causes)) (fun _ => rfl) _).trans ?_
      dsimp only
      rw [clusterAt_same]
    · rw [clusterAt_same]

theorem releaseCluster_keeps_causes {c i : Nat} (h : c ≠ i) (cause : Nat) :
    (releaseCluster c cause).Keeps fun s => (s.clusterAt i).causes :=
  .get fun _ => .ite (fun _ => .skip) fun _ => .seq (fun s => by rw [run_setCluster, clusterAt_other _ _ _ _ h])
    (.get fun _ => .when fun _ => clusterReturn_keeps c i fun _ => rfl)

theorem regionClusters_nodup (st r : Nat) : (regionClusters st r).Nodup :=
  (List.nodup_range).map fun a b h => by simpa using h

theorem mem_regionClusters {st r k : Nat} (hk : k < 4) : st * 8 + r * 4 + k ∈ regionClusters st r :=
  List.mem_map.mpr ⟨k, List.mem_range.mpr hk, by omega⟩

end Sys2Proof.Machine
end

section
/-! PROOFS. Clocks, crossings and resets (14_clocks_crossings_resets.md). -/
set_option exponentiation.threshold 1000
namespace Sys2Proof.Machine

theorem moduleFld_CRS_CAUSE_last : ModuleFld .CRS_CAUSE_last := ⟨rfl, rfl⟩
theorem moduleFld_CRS_CAUSE_count : ModuleFld .CRS_CAUSE_count := ⟨rfl, rfl⟩
theorem moduleFld_CRS_STAT_mem_lock : ModuleFld .CRS_STAT_mem_lock := ⟨rfl, rfl⟩
theorem moduleFld_CRS_STAT_fab_lock : ModuleFld .CRS_STAT_fab_lock := ⟨rfl, rfl⟩
theorem moduleFld_CRS_STAT_region_lock : ModuleFld .CRS_STAT_region_lock := ⟨rfl, rfl⟩

/-- A later cause, or a first, leaves the clock status as it is. -/
theorem ModuleFld.holdFp_keeps {r : Fld} (hr : ModuleFld r) (i st cause : Nat) (hlast : Fld.CRS_CAUSE_last ≠ r)
    (hcount : Fld.CRS_CAUSE_count ≠ r) : (holdFp st cause).Keeps (·.reg r i) :=
  .get fun _ => .seq (hr.keeps i (setStack_may rfl _ _)) (.when fun _ =>
    .cons (fun s => reg_applyUpd_other _ s fun h => hlast h.1) <|
    .cons (fun s => reg_applyUpd_other _ s fun h => hcount h.1) <|
    .cons (hr.resetFp_keeps i st) .nil)

/-! A fabric plane comes back (R373). -/

theorem relink_keeps_down (st i : Nat) : (relink st).Keeps fun s => (s.stackAt i).down :=
  .get fun _ => .cons (.when fun _ => May.keepsStack i (trainLink_may rfl _ _ _) _) <|
    .cons (.when fun _ => May.keepsStack i (trainLink_may rfl _ _ _) _) <|
    .cons (May.keepsStack i (trainLink_may rfl _ _ _) _) <|
    .cons (.each fun _ _ => .get fun _ => .when fun _ => .get fun _ =>
      .seq (.each fun _ _ => .when fun _ => May.keepsStack i (setEntry_may rfl _ _ _) _)
        (.seq (setStack_keeps i _ fun _ => rfl) (May.keepsStack i (.set rfl) _))) .nil

theorem down_fpReturn (st : Nat) : (fpReturn st (relink st)).Maps (fun s => (s.stackAt st).down) fun _ => false :=
  .head (fun s => by simp) <|
  .cons (.get fun _ => .when fun _ => .seq (May.keepsStack st (initStack_may rfl _) _) (setStack_keeps st st fun _ => rfl)) <|
  .cons (May.keepsStack st (.set rfl) _) <|
  .cons (May.keepsStack st (.each fun _ => .seq (.set rfl) (.seq (reloadRetired_may rfl _) (rebuildList_may rfl _))) _) <|
  .cons (May.keepsStack st (.get fun _ => .each fun _ => .set rfl) _) <|
  .cons (relink_keeps_down st st) <|
  .cons (May.keepsStack st (.each fun _ => releaseCluster_may rfl _ _) _) <|
  .cons (May.keepsStack st (.get fun _ => .each fun _ => setEgress_may rfl _ _ _) _) <|
  .cons (May.keepsStack st (.get fun _ => .each fun _ => .when (applyPort_may rfl _ _)) _) .nil

theorem self_refresh_fpReturn (st : Nat) :
    (fpReturn st (relink st)).Maps (·.reg .CRS_STAT_self_refresh st) fun _ => 0 :=
  .tail_const <| .tail_const <| .head (fun s => by simp) fun s => May.reg (m := butReg .CRS_STAT_self_refresh)
    (.cons (.each fun _ => .seq (.set rfl) (.seq (reloadRetired_may rfl _) (rebuildList_may rfl _))) <|
    .cons (.get fun _ => .each fun _ => .set rfl) <|
    .cons (relink_may rfl _) <|
    .cons (.each fun _ => releaseCluster_may rfl _ _) <|
    .cons (.get fun _ => .each fun _ => setEgress_may rfl _ _ _) <|
    .cons (.get fun _ => .each fun _ => .when (applyPort_may rfl _ _)) .nil) _ _ rfl rfl rfl s

/-- The plane's own cause no longer holds the stack's clusters. -/
theorem causes_fpReturn {st k : Nat} (hk : k < 8) :
    (fpReturn st (relink st)).Maps (fun s => (s.clusterAt (st * 8 + k)).causes) fun x => x - (x &&& 4) :=
  .tail (May.keepsCluster _ (setStack_may rfl _ _) _) <|
  .tail (May.keepsCluster _ (.get fun _ => .when (.seq (initStack_may rfl _) (setStack_may rfl _ _))) _) <|
  .tail (May.keepsCluster _ (.set rfl) _) <|
  .tail (May.keepsCluster _ (.each fun _ => .seq (.set rfl) (.seq (reloadRetired_may rfl _) (rebuildList_may rfl _))) _) <|
  .tail (May.keepsCluster _ (.get fun _ => .each fun _ => .set rfl) _) <|
  .tail (May.keepsCluster _ (relink_may rfl _) _) <|
  .head (.each List.nodup_range (List.mem_range.mpr hk) (causes_releaseCluster _ 4)
    fun j _ hj => releaseCluster_keeps_causes (by omega) 4) <|
  .cons (May.keepsCluster _ (.get fun _ => .each fun _ => setEgress_may rfl _ _ _) _) <|
  .cons (May.keepsCluster _ (.get fun _ => .each fun _ => .when (applyPort_may rfl _ _)) _) .nil

/-! Settings of one path each. -/

theorem out_each_setPath (base : Nat) {k n : Nat} (hk : k < n) (s : State) :
    ((run (Eff.each (List.range n) fun j => setPath (base + j) fun p => { p with out := [] }) s).pathAt (base + k)).out = [] :=
  run_each_reaches (P := fun t => (t.pathAt (base + k)).out = []) (List.mem_range.mpr hk) (fun t => by simp)
    (fun j _ t ht => by
      rcases eq_or_ne (base + j) (base + k) with he | hne
      · rw [he]; simp
      · rwa [run_setPath, pathAt_other _ _ _ _ hne]) s

/-- Settles O12: a cause that holds a stack or a cluster is added to those that hold it, the first one resets it, and a cause
that ends is taken from them, the last one letting it go. -/
theorem resetAndClockEventsComplete : Obligations.ResetAndClockEventsComplete := by
  refine ⟨fun st s hphase hout hcauses => ?crsRstFp, fun c s hup hcauses => ?crsRstCluster,
    fun c s hup hcauses => ?crsRstClusterMore, fun n s hon hheld => ?crsCoreGo, fun st s => ?resetReleaseFp,
    fun c s hcauses => ?resetReleaseCluster, fun n s => ?resetReleaseCore, fun st s hdown hcauses hphase hwarm => ?fabricPlaneReturn,
    fun st r s => ?pllLockLossRegion, fun st s => ⟨?pllLockLossMemory, ?pllLockLossFabric⟩, fun st r s => ?pllRelockRegion,
    fun st s => ⟨?pllRelockMemory, ?pllRelockFabric⟩, fun st r s => ?clockSlewStep, fun c s hheld => ?peerReset⟩
  case crsRstFp =>
    rw [exec_crsRstFp, if_pos (by simp [hphase, hout])]
    refine ⟨_, rfl, ?_, ?_, ?_, ?_⟩
    · rw [causes_holdFp, hcauses]; rfl
    · rw [run_holdFp_first st 1 hcauses, run_all_cons, run_all_cons, run_all_cons, run_all_nil]
      refine (stackAt_resetFp (g := (·.down)) (fun _ _ => rfl) st _).trans rfl
    · rw [run_holdFp_first st 1 hcauses, run_all_cons, run_all_cons, run_all_cons, run_all_nil]
      exact (moduleFld_CRS_CAUSE_last.resetFp_keeps st st _).trans (by simp [reg_applyUpd, causeCode, Fld.info])
    · rw [run_holdFp_first st 1 hcauses, run_all_cons, run_all_cons, run_all_cons, run_all_nil]
      exact (moduleFld_CRS_CAUSE_count.resetFp_keeps st st _).trans (by simp [reg_applyUpd, Fld.info])
  case crsRstCluster =>
    have h : run (Eff.when (!s.stackHeld (c / 8)) (holdCluster c 1)) s = run (holdCluster c 1) s := by rw [run_when, hup]; rfl
    refine ⟨_, rfl, ?_, ?_, ?_⟩
    · rw [h, causes_holdCluster, hcauses]; rfl
    · rw [h]; simp [holdCluster, hcauses, resetCluster]
    · rw [h]; simp [holdCluster, hcauses, resetCluster]
  case crsRstClusterMore => exact ⟨_, rfl, by simp [hup, holdCluster, hcauses], by simp [hup, holdCluster, hcauses]⟩
  case crsCoreGo =>
    rw [exec_crsCoreGo, run_holdCore hon hheld]
    exact ⟨_, rfl, by simp [bit_setBit], by simp [resetCore], by simp [resetCore], by simp [resetCore]⟩
  case resetReleaseFp => exact ⟨_, rfl, by simp [resetReleaseEff, releaseFp]⟩
  case resetReleaseCluster =>
    refine ⟨_, rfl, ?_, ?_⟩
    · rw [resetReleaseEff, causes_releaseCluster, hcauses]; rfl
    · simp [resetReleaseEff, releaseCluster, hcauses, zeroed_clusterReturn]
  case resetReleaseCore => exact ⟨_, rfl, by simp [resetReleaseEff]⟩
  case fabricPlaneReturn =>
    have hdue : ((s.stackAt st).down && (s.stackAt st).causes == 0 && decide (3 ≤ s.misc.phase)
        && !(decide (0x11 ≤ s.misc.phase) && decide (s.misc.phase ≤ 0x16))) = true := by
      simp [hdown, hcauses, hphase]; omega
    have hrun : exec (.fabricPlaneReturn st) s = .next (run (bootRecord 1 st 0x22) (run (fpReturn st (relink st)) s)) := by
      rw [show exec (.fabricPlaneReturn st) s = execFabricPlaneReturn st s from rfl, execFabricPlaneReturn, finish_next, run_when, if_pos hdue, run_seq]
    have hboot := bootRecord_may (mk := mayBootRecord) rfl 1 st 0x22
    rw [hrun]
    refine ⟨_, rfl, ?_, ?_, fun k hk hcause => ?_⟩
    · rw [hboot.stackAt rfl rfl]
      exact down_fpReturn st s
    · rw [hboot.reg _ _ rfl rfl rfl]
      exact self_refresh_fpReturn st s
    · rw [hboot.clusterAt rfl rfl]
      exact (causes_fpReturn hk s).trans (by dsimp only; rw [hcause]; rfl)
  case pllLockLossRegion =>
    refine ⟨run (pllLockLossEff st (.region r) s) s, rfl, ?_, fun k hk => ?_⟩
    · rw [pllLockLossEff, run_seq]
      refine (Eff.Keeps.each (fun c _ => moduleFld_CRS_STAT_region_lock.holdCluster_keeps st c 2) _).trans ?_
      simp [Fld.info]
    · rw [pllLockLossEff, run_seq]
      refine (Eff.Maps.each (g := fun s => (s.clusterAt (st * 8 + r * 4 + k)).causes) (h := fun x => x ||| 2) (f := fun c => holdCluster c 2) (regionClusters_nodup st r)
        (mem_regionClusters hk) (causes_holdCluster _ 2) (fun c _ hc => holdCluster_keeps_causes hc 2) _).trans ?_
      simp
  case pllLockLossMemory =>
    refine ⟨run (pllLockLossEff st .memory s) s, rfl, ?_, ?_⟩
    · rw [pllLockLossEff, run_seq]
      exact (moduleFld_CRS_STAT_mem_lock.holdFp_keeps st st 4 (by decide) (by decide) _).trans (by simp)
    · rw [pllLockLossEff, run_seq, causes_holdFp]
      simp
  case pllLockLossFabric =>
    refine ⟨run (pllLockLossEff st .fabric s) s, rfl, ?_, ?_⟩
    · rw [pllLockLossEff, run_seq]
      exact (moduleFld_CRS_STAT_fab_lock.holdFp_keeps st st 2 (by decide) (by decide) _).trans (by simp)
    · rw [pllLockLossEff, run_seq, causes_holdFp]
      simp
  case pllRelockRegion =>
    refine ⟨run (pllRelockEff st (.region r) s) s, rfl, ?_, fun k hk => ?_⟩
    · rw [pllRelockEff, run_seq,
        (May.each fun c => releaseCluster_may (mk := butReg .CRS_STAT_region_lock) rfl c 2).reg _ _ rfl rfl rfl]
      simp [Fld.info]
    · rw [pllRelockEff, run_seq]
      refine (Eff.Maps.each (g := fun s => (s.clusterAt (st * 8 + r * 4 + k)).causes) (h := fun x => x - (x &&& 2))
        (f := fun c => releaseCluster c 2) (regionClusters_nodup st r)
        (mem_regionClusters hk) (causes_releaseCluster _ 2) (fun c _ hc => releaseCluster_keeps_causes hc 2) _).trans ?_
      simp
  case pllRelockMemory => exact ⟨run (pllRelockEff st .memory s) s, rfl, by simp [pllRelockEff, releaseFp, Fld.info], by simp [pllRelockEff, releaseFp]⟩
  case pllRelockFabric => exact ⟨run (pllRelockEff st .fabric s) s, rfl, by simp [pllRelockEff, releaseFp, Fld.info], by simp [pllRelockEff, releaseFp]⟩
  case clockSlewStep => exact ⟨_, rfl, by simp [clockSlewStepEff, showSlew]⟩
  case peerReset =>
    have hrun : exec (.peerReset c) s = .next (run (Eff.each (List.range 12) fun k => setPath (c * 12 + k) fun p => { p with out := [] })
        (run (setPath (1152 + c) fun p => { p with out := [] }) (run (setGath c fun _ => {}) s))) := by
      rw [show exec (.peerReset c) s = execPeerReset c s from rfl, execPeerReset, finish_next, run_when, if_pos hheld]
      rfl
    rw [hrun]
    refine ⟨_, rfl, ?_, ?_, fun k hk => out_each_setPath _ hk _⟩
    · rw [(May.each fun k => setPath_may (mk := maySetPath) rfl _ _).gathAt rfl rfl]
      simp
    · refine run_each_keeps (P := fun t => (t.pathAt (1152 + c)).out = []) (fun k hk t ht => ?_) _ (by simp)
      have hne : c * 12 + k ≠ 1152 + c := by have := List.mem_range.mp hk; have := c.isLt; omega
      rwa [run_setPath, pathAt_other _ _ _ _ hne]

end Sys2Proof.Machine
end

section
/-! SUPPORT. One unit's effects: a setting of one unit keeps what every other unit of its kind holds, and a write of one index
of a register field keeps every other index of every field. -/
set_option exponentiation.threshold 1000
namespace Sys2Proof.Machine

section
variable {i j : Nat} (h : j ≠ i)
include h

theorem setReg_elsewhere (r' : Fld) (v : Nat) (r : Fld) : (setReg r' i v).Keeps (·.reg r j) :=
  fun s => reg_applyUpd_other v s fun he => h he.2.symm

theorem addReg_elsewhere (r' : Fld) (v : Nat) (r : Fld) : (addReg r' i v).Keeps (·.reg r j) :=
  fun s => reg_applyUpd_other _ s fun he => h he.2.symm

theorem satReg_elsewhere (r' : Fld) (v : Nat) (r : Fld) : (satReg r' i v).Keeps (·.reg r j) :=
  fun s => reg_applyUpd_other _ s fun he => h he.2.symm

theorem setCore_elsewhere (f : CoreSt → CoreSt) : (setCore i f).Keeps (·.coreAt j) := fun s => coreAt_other s j i _ h.symm
theorem setStack_elsewhere (f : StackSt → StackSt) : (setStack i f).Keeps (·.stackAt j) := fun s => stackAt_other s j i _ h.symm
theorem setSlice_elsewhere (f : SliceSt → SliceSt) : (setSlice i f).Keeps (·.sliceAt j) := fun s => sliceAt_other s j i _ h.symm
theorem setGath_elsewhere (f : Gath → Gath) : (setGath i f).Keeps (·.gathAt j) := fun s => gathAt_other s j i _ h.symm
theorem setPort_elsewhere (f : PortSt → PortSt) : (setPort i f).Keeps (·.portAt j) := fun s => portAt_other s j i _ h.symm
theorem setSub_elsewhere (f : SubSt → SubSt) : (setSub i f).Keeps (·.subAt j) := fun s => subAt_other s j i _ h.symm
theorem setConn_elsewhere (f : Conn → Conn) : (setConn i f).Keeps (·.connAt j) := fun s => connAt_other s j i _ h.symm
theorem setWq_elsewhere (f : WqSt → WqSt) : (setWq i f).Keeps (·.wqAt j) := fun s => wqAt_other s j i _ h.symm
theorem setCtx_elsewhere (f : CtxSt → CtxSt) : (setCtx i f).Keeps (·.ctxAt j) := fun s => ctxAt_other s j i _ h.symm

end

theorem setAg_elsewhere {n g m k : Nat} (h : m * 8 + k ≠ n * 8 + g) (f : AgSt → AgSt) : (setAg n g f).Keeps (·.agAt m k) :=
  fun _ => Store.get_set_other _ _ _ h.symm

theorem setQueue_elsewhere {n q m k : Nat} (h : m * 16 + k ≠ n * 16 + q) (f : QueueSt → QueueSt) :
    (setQueue n q f).Keeps (·.queueAt m k) :=
  fun _ => Store.get_set_other _ _ _ h.symm

theorem setBank_elsewhere {n b m k : Nat} (h : m * 128 + k ≠ n * 128 + b) (f : BankSt → BankSt) :
    (setBank n b f).Keeps (·.bankAt m k) :=
  fun _ => Store.get_set_other _ _ _ h.symm

theorem Eff.Keeps.fresh {α : Type} {g : State → α} {k : Nat → Eff} (ht : (Eff.upd .tick).Keeps g) (hk : ∀ v, (k v).Keeps g) :
    (fresh k).Keeps g := .get fun _ => .seq ht (hk _)

/-- Fields that an effect writes nowhere. -/
theorem May.keepsRegs {m : Nat} {e : Eff} (he : May m e) {rs : List Fld} (hrs : ∀ r ∈ rs, m.testBit (80 + r.ctorIdx) = false)
    (h0 : m.testBit Part.regs.ctorIdx = false) (h79 : m.testBit 79 = false) (j : Nat) : ∀ r ∈ rs, e.Keeps (·.reg r j) :=
  fun r hr s => he.reg r j (hrs r hr) h0 h79 s

theorem regsElsewhere_of_keeps {rs : List Fld} {i : Nat} {e : Eff} (h : ∀ j, j ≠ i → ∀ r ∈ rs, e.Keeps (·.reg r j)) (s : State) :
    RegsElsewhere rs i s (run e s) := fun r hr j hj => h j hj r hr s

/-- Clearing fields of one unit. -/
theorem regsElsewhere_clear (l rs : List Fld) (i : Nat) (c : Bool) (s : State) :
    RegsElsewhere rs i s (run (Eff.when c (Eff.each l fun r => setReg r i 0)) s) :=
  regsElsewhere_of_keeps (fun _ hj r _ => .when fun _ => .each fun r' _ => setReg_elsewhere hj r' 0 r) s

/-! Cores. -/

section
variable {n j : Nat} (h : j ≠ n)
include h

theorem seqPause_elsewhere : (seqPause n).Keeps (·.coreAt j) := .get fun _ => .ite (fun _ => .skip) fun _ => setCore_elsewhere h _

theorem passEntry_keeps_core : (passEntry n).Keeps (·.coreAt j) := by
  refine .get fun s => ?_
  dsimp only
  split
  · exact .skip
  · split
    · exact .skip
    · refine .ite (fun _ _ => rfl) fun _ => ?_
      exact .cons (fun _ => rfl) (.cons (fun _ => rfl) (.cons (setCore_elsewhere h _) (.cons (.when fun _ _ => rfl) .nil)))

theorem passEntry_keeps_reg (r : Fld) : (passEntry n).Keeps (·.reg r j) := by
  refine .get fun s => ?_
  dsimp only
  split
  · exact .skip
  · split
    · exact .skip
    · refine .ite (fun _ => setReg_elsewhere h _ _ r) fun _ => ?_
      exact .cons (setReg_elsewhere h _ _ r) (.cons (setReg_elsewhere h _ _ r)
        (.cons (fun _ => rfl) (.cons (.when fun _ => setReg_elsewhere h _ _ r) .nil)))

theorem waitRelease_keeps_reg (r : Fld) : (waitReleaseEff n).Keeps (·.reg r j) :=
  .get fun _ => .ite (fun _ => .ite (fun _ => setReg_elsewhere h _ _ r) fun _ => .get fun _ =>
    .ite (fun _ => setReg_elsewhere h _ _ r) fun _ => .seq (setReg_elsewhere h _ _ r) (setReg_elsewhere h _ _ r)) fun _ => .skip

/-! Slices. -/

theorem refreshSlot_keeps_slice (b : Nat) : (refreshSlot n b).Keeps (·.sliceAt j) :=
  .get fun _ => .cons (fun _ => rfl) <| .cons (fun _ => rfl) <|
    .cons (.ite (fun _ => .seq (setSlice_elsewhere h _) fun _ => rfl) fun _ => setSlice_elsewhere h _) .nil

theorem refreshSlot_keeps_reg (b : Nat) (r : Fld) : (refreshSlot n b).Keeps (·.reg r j) :=
  .get fun _ => .cons (addReg_elsewhere h _ _ r) <| .cons (fun _ => rfl) <|
    .cons (.ite (fun _ => .seq (fun _ => rfl) (setReg_elsewhere h _ _ r)) fun _ _ => rfl) .nil

theorem fillStart_keeps_slice (regions : Nat) : (fillStart n regions).Keeps (·.sliceAt j) :=
  .get fun _ => .ite (fun _ => .skip) fun _ => .cons (fun _ => rfl) <| .cons (fun _ => rfl) <| .cons (setSlice_elsewhere h _) .nil

theorem fillStart_keeps_reg (regions : Nat) (r : Fld) : (fillStart n regions).Keeps (·.reg r j) :=
  .get fun _ => .ite (fun _ => .skip) fun _ => .cons (setReg_elsewhere h _ _ r) <| .cons (setReg_elsewhere h _ _ r) <|
    .cons (fun _ => rfl) .nil

theorem twRead_keeps_reg (r : Fld) : (twRead n).Keeps (·.reg r j) :=
  .get fun _ => .cons (setReg_elsewhere h _ _ r) <| .cons (setReg_elsewhere h _ _ r) <| .cons (setReg_elsewhere h _ _ r) <|
    .cons (setReg_elsewhere h _ _ r) <| .cons (.when fun _ _ => rfl) .nil

theorem takeFrame_keeps_slice (b f : Nat) : (takeFrame n b f).Keeps (·.sliceAt j) :=
  .get fun _ => .seq (setSlice_elsewhere h _) <| .get fun _ => .when fun _ =>
    .seq (fun s => (doorbell_may (mk := mayDoorbell) rfl _ _).sliceAt rfl rfl s j) (setSlice_elsewhere h _)

theorem flPop_keeps_slice {k : Option (Nat × Nat) → Eff} (hk : ∀ x, (k x).Keeps (·.sliceAt j)) : (flPop n k).Keeps (·.sliceAt j) := by
  refine .get fun s => ?_
  split
  · exact hk _
  · exact .cons (takeFrame_keeps_slice h _ _) (.cons (fun _ => rfl) (.cons (hk _) .nil))

theorem flPop_keeps_next_bank {k : Option (Nat × Nat) → Eff} (hk : ∀ x, (k x).Keeps (·.reg .KV_FL_STAT_next_bank j)) :
    (flPop n k).Keeps (·.reg .KV_FL_STAT_next_bank j) := by
  refine .get fun s => ?_
  split
  · exact hk _
  · exact .cons (fun s => (takeFrame_may (mk := mayTakeFrame) rfl _ _ _).reg _ _ rfl rfl rfl s)
      (.cons (setReg_elsewhere h _ _ _) (.cons (hk _) .nil))

theorem flPopB_keeps_slice {b : Nat} {k : Option (Nat × Nat) → Eff} (hk : ∀ x, (k x).Keeps (·.sliceAt j)) :
    (flPopB n b k).Keeps (·.sliceAt j) := by
  refine .get fun s => ?_
  split
  · exact hk _
  · exact .seq (takeFrame_keeps_slice h _ _) (hk _)

theorem flPush_keeps_slice (b f : Nat) : (flPush n b f).Keeps (·.sliceAt j) :=
  .get fun _ => .ite (fun _ _ => rfl) fun _ => setSlice_elsewhere h _

theorem flPush_keeps_reg (b f : Nat) (r : Fld) : (flPush n b f).Keeps (·.reg r j) :=
  .get fun _ => .ite (fun _ => setReg_elsewhere h _ _ r) fun _ _ => rfl

theorem tokenGrant_keeps_slice : (tokenGrant n).Keeps (·.sliceAt j) := by
  refine .get fun s => ?_
  dsimp only
  split
  · exact .skip
  · exact .ite (fun _ => .seq (fun _ => rfl) (setSlice_elsewhere h _)) fun _ => .skip

theorem rowBurst_keeps_reg (b : Nat) (ups : List Upset) : (rowBurst n b ups).Keeps (·.reg .BSU_PERF_bursts j) := by
  refine .get fun s => ?_
  dsimp only
  split
  · exact .skip
  · exact .ite (fun _ => .cons (fun s => (applyUpsets_may (mk := mayApplyUpsets) rfl ups).reg _ _ rfl rfl rfl s) <|
      .cons (fun _ => rfl) <| .cons (fun _ => rfl) <| .cons (addReg_elsewhere h _ _ _) .nil) fun _ => .skip

/-! Stacks. -/

theorem setEntry_keeps_reg (t code : Nat) (r : Fld) : (setEntry n t code).Keeps (·.reg r j) :=
  .get fun _ => .ite (fun _ => setReg_elsewhere h _ _ r) fun _ => setReg_elsewhere h _ _ r

theorem applyRoutes_keeps_stack : (applyRoutes n).Keeps (·.stackAt j) :=
  .get fun _ => .cons (.when fun _ _ => rfl) <| .cons (setStack_elsewhere h _) <| .cons (fun _ => rfl) .nil

theorem applyRoutes_keeps_reg (r : Fld) : (applyRoutes n).Keeps (·.reg r j) :=
  .get fun _ => .cons (.when fun _ => setReg_elsewhere h _ _ r) <| .cons (fun _ => rfl) <| .cons (setReg_elsewhere h _ _ r) .nil

theorem switchRoute_keeps_stack (t : Nat) : (switchRoute n t).Keeps (·.stackAt j) :=
  .get fun _ => .opt fun _ _ => .cons (fun s => (setEntry_may (mk := maySetEntry) rfl _ _ _).stackAt rfl rfl s j) <|
    .cons (setStack_elsewhere h _) <| .cons (fun _ => rfl) .nil

theorem switchRoute_keeps_reg (t : Nat) (r : Fld) : (switchRoute n t).Keeps (·.reg r j) :=
  .get fun _ => .opt fun _ _ => .cons (setEntry_keeps_reg h _ _ r) <| .cons (fun _ => rfl) <|
    .cons (.get fun _ => setReg_elsewhere h _ _ r) .nil

/-! Sub-ports. -/

theorem startTraining_keeps {g k : Nat} (hg : n = g * 4 + k) (full : Bool) : (startTraining g k full).Keeps (·.subAt j) :=
  .seq (fun _ => rfl) (setSub_elsewhere (hg ▸ h) _)

theorem startTraining_keeps_reg {g k : Nat} (hg : n = g * 4 + k) (full : Bool) (r : Fld) : (startTraining g k full).Keeps (·.reg r j) :=
  .seq (setReg_elsewhere (hg ▸ h) _ _ r) fun _ => rfl

theorem startQual_keeps {g k : Nat} (hg : n = g * 4 + k) (full post : Bool) : (startQual g k full post).Keeps (·.subAt j) :=
  .get fun _ => .seq (fun _ => rfl) (setSub_elsewhere (hg ▸ h) _)

theorem startQual_keeps_reg {g k : Nat} (hg : n = g * 4 + k) (full post : Bool) (r : Fld) : (startQual g k full post).Keeps (·.reg r j) :=
  .get fun _ => .seq (setReg_elsewhere (hg ▸ h) _ _ r) fun _ => rfl

theorem attemptFailed_keeps {g k : Nat} (hg : n = g * 4 + k) (cause : Nat) : (attemptFailed g k cause).Keeps (·.subAt j) :=
  .cons (fun _ => rfl) <| .cons (fun _ => rfl) <| .cons (.get fun _ => .ite (fun _ => .get fun _ =>
    .cons (fun _ => rfl) <|
    .cons (.when fun _ s => (report_may (mk := mayReport) rfl _ _ _ _ _ _ _ _).subAt rfl rfl s j) <|
    .cons (setSub_elsewhere (hg ▸ h) _) <|
    .cons (fun s => (hostRing_may (mk := mayHostRing) rfl _ _ _).subAt rfl rfl s j) .nil) fun _ _ => rfl) .nil

theorem attemptFailed_keeps_reg {g k : Nat} (hg : n = g * 4 + k) (cause : Nat) {r : Fld}
    (hr : (mayReport ||| mayHostRing).testBit (80 + r.ctorIdx) = false) : (attemptFailed g k cause).Keeps (·.reg r j) :=
  .cons (setReg_elsewhere (hg ▸ h) _ _ r) <| .cons (satReg_elsewhere (hg ▸ h) _ _ r) <| .cons (.get fun _ => .ite (fun _ => .get fun _ =>
    .cons (setReg_elsewhere (hg ▸ h) _ _ r) <|
    .cons (.when fun _ s => (report_may (mk := mayReport ||| mayHostRing) rfl _ _ _ _ _ _ _ _).reg r j hr rfl rfl s) <|
    .cons (fun _ => rfl) <|
    .cons (fun s => (hostRing_may (mk := mayReport ||| mayHostRing) rfl _ _ _).reg r j hr rfl rfl s) .nil)
    fun _ => setReg_elsewhere (hg ▸ h) _ _ r) .nil

/-! Connections. -/

theorem congestionTick_keeps : (congestionTick n).Keeps (·.connAt j) := .get fun _ => setConn_elsewhere h _

/-! Event gatherers. -/

theorem doorbell_elsewhere (src : Nat) : (doorbell n src).Keeps (·.gathAt j) :=
  .get fun _ => .ite (fun _ => .skip) fun _ => .ite (fun _ => setGath_elsewhere h _) fun _ _ => rfl

end

section
variable {j : Nat} (h : j ≠ 96)
include h

theorem hostSend_elsewhere (f : Nat) : (hostSend f).Keeps (·.gathAt j) :=
  .get fun _ => .each fun _ _ => .get fun _ => .seq (setGath_elsewhere h _)
    fun s => (sendMsix_may (mk := maySendMsix) rfl _ _).gathAt rfl rfl s j

theorem hostRing_elsewhere (f kind param : Nat) : (hostRing f kind param).Keeps (·.gathAt j) :=
  .get fun _ => .ite (fun _ => .cons (fun s => gathAt_frame _ s j rfl) <| .cons (fun s => gathAt_frame _ s j rfl) <|
    .cons (doorbell_elsewhere h _) <| .cons (hostSend_elsewhere h f) .nil) fun _ => .skip

end

theorem hostOfSource_module {g src : Nat} {x : Nat × Nat} (h : hostOfSource g src = some x) : g = 96 := by
  unfold hostOfSource at h
  split at h
  · exact absurd h nofun
  · exact not_not.mp ‹_›

theorem egDoorbell_elsewhere {g j : Nat} (h : j ≠ g) (src : Nat) : (egDoorbell g src).Keeps (·.gathAt j) := by
  unfold egDoorbell
  cases hx : hostOfSource g src with
  | some x =>
    exact .get fun _ => .ite (fun _ => .fresh (fun _ => rfl) fun _ => hostRing_elsewhere (hostOfSource_module hx ▸ h) _ _ _)
      fun _ => doorbell_elsewhere h src
  | none => exact .get fun _ => doorbell_elsewhere h src

theorem egClaim_elsewhere {g t j : Nat} (h : j ≠ g) : (egClaim g t).Keeps (·.gathAt j) :=
  .get fun _ => .seq (fun _ => rfl) (.opt fun _ _ => setGath_elsewhere h _)

theorem egComplete_elsewhere {g t src j : Nat} (h : j ≠ g) (h96 : j ≠ 96) : (egComplete g t src).Keeps (·.gathAt j) :=
  .get fun _ => .ite (fun _ => setGath_elsewhere h _) fun _ =>
    .ite (fun _ => .seq (setGath_elsewhere h _) (.opt fun _ _ => hostSend_elsewhere h96 _)) fun _ _ => rfl

theorem egComplete_keeps_bad_complete {g t src j : Nat} (h : j ≠ g) : (egComplete g t src).Keeps (·.reg .EG_STAT_bad_complete j) :=
  .get fun _ => .ite (fun _ _ => rfl) fun _ =>
    .ite (fun _ => .seq (fun _ => rfl) (.opt fun _ _ s => (hostSend_may (mk := mayHostSend) rfl _).reg _ _ rfl rfl rfl s))
      fun _ => setReg_elsewhere h _ _ _

end Sys2Proof.Machine
end

section
/-! PROOFS. Commands on one unit. -/
set_option exponentiation.threshold 1000
namespace Sys2Proof.Machine

theorem qFlush_keeps_queue {n bitmap m k : Nat} (h : ∀ q, q < 16 → bit bitmap q = true → m * 16 + k ≠ n * 16 + q) :
    (qFlush n bitmap).Keeps (·.queueAt m k) := by
  refine .get fun _ => .when fun _ => .each fun q hq => ?_
  obtain ⟨hq, hbit⟩ := List.mem_filter.mp hq
  intro s
  simp only [State.queueAt, qEmpty, run_upd, applyUpd_queue_self]
  exact Store.get_set_other _ _ _ (h q (List.mem_range.mp hq) hbit).symm

theorem refreshSlot_keeps_openRow {sl b k : Nat} (h : k ≠ sl * 128 + b) :
    (refreshSlot sl b).Keeps fun s => Store.get 0 s.openRow k :=
  .get fun _ => .cons (fun _ => rfl) <| .cons (.upd fun s => Store.get_set_other 0 (d' := 0) 0 s.openRow h.symm) <|
    .cons (.ite (fun _ => .seq (fun _ => rfl) fun _ => rfl) fun _ _ => rfl) .nil

theorem invalSlice_keeps_cache {sl k : Nat} (h : k / 512 ≠ sl) : (invalSlice sl).Keeps fun s => Store.get [] s.cache k := by
  refine .seq (.upd fun s => ?_) fun _ => rfl
  exact (Store.get_clear [] (fun k => k / 512 == sl) s.cache k).trans (if_neg (by simpa using h))

theorem tokenGrant_keeps_bank {sl m b : Nat} (h : m * 128 + b < sl * 128 ∨ sl * 128 + 128 ≤ m * 128 + b) :
    (tokenGrant sl).Keeps (·.bankAt m b) := by
  refine .get fun s => ?_
  dsimp only
  split
  · exact .skip
  case h_2 c hc =>
    have hlt : c < 128 := by
      obtain ⟨k, -, rfl⟩ := List.mem_map.mp (List.mem_of_find?_eq_some hc)
      exact Nat.mod_lt _ (by decide)
    exact .ite (fun _ => .seq (setBank_elsewhere (by omega) _) fun _ => rfl) fun _ => .skip

theorem rowBurst_keeps_bank {sl b m k : Nat} (h : m * 128 + k ≠ sl * 128 + b) (ups : List Upset) :
    (rowBurst sl b ups).Keeps (·.bankAt m k) := by
  refine .get fun s => ?_
  dsimp only
  split
  · exact .skip
  · exact .ite (fun _ => .cons (fun s => (applyUpsets_may (mk := mayApplyUpsets) rfl ups).bankAt rfl rfl s m k) <|
      .cons (setBank_elsewhere h _) <| .cons (fun _ => rfl) <| .cons (fun _ => rfl) .nil) fun _ => .skip

theorem selfRefreshExit_keeps_sr {st : StackIx} {j : Nat} (h : j / 96 ≠ st.val) : (selfRefreshExitEff st).Keeps (·.reg .MC_STAT_sr j) := by
  refine .seq (.upd fun s => reg_applyUpd_other _ s (by simp)) (.each fun k hk => ?_)
  have := List.mem_range.mp hk
  exact setReg_elsewhere (by omega) _ _ _

theorem trainingAttemptEnd_keeps_sub {p : PortIx} {k : SubIx} {j : Nat} (h : j ≠ p.val * 4 + k.val) (cause : Fin 5) (s : State) :
    (trainingAttemptEndEff p k cause s).Keeps (·.subAt j) :=
  .ite (fun _ => startQual_keeps h rfl _ _) fun _ => attemptFailed_keeps h rfl _

/-! A port's enable reaches the port's own sub-ports. -/

section
variable {p j : Nat}

theorem portEnable_keeps_sub (h : j / 4 ≠ p) (en : Bool) : (portEnable p en).Keeps (·.subAt j) := by
  refine .seq (fun _ => rfl) (.get fun _ => .ite (fun _ => .each fun k hk => .seq ?_ fun _ => rfl)
    fun _ => .each fun _ _ _ => rfl)
  have := List.mem_range.mp (List.mem_filter.mp hk).1
  exact startTraining_keeps (by omega) rfl true

theorem portEnable_keeps_state (h : j / 4 ≠ p) (en : Bool) : (portEnable p en).Keeps (·.reg .SP_STAT_state j) := by
  refine .seq (.upd fun s => reg_applyUpd_other _ s (by simp)) (.get fun _ => .ite (fun _ => .each fun k hk => .seq ?_ ?_)
    fun _ => .each fun k hk => ?_)
  · have := List.mem_range.mp (List.mem_filter.mp hk).1
    exact startTraining_keeps_reg (by omega) rfl true _
  · exact .upd fun s => reg_applyUpd_other _ s (by simp)
  · have := List.mem_range.mp hk
    exact setReg_elsewhere (by omega) _ _ _

theorem portEnable_keeps_en (h : j ≠ p) (en : Bool) : (portEnable p en).Keeps (·.reg .FP_CFG_en j) :=
  .seq (setReg_elsewhere h _ _ _) fun s => May.reg (m := maySetSub_ ||| mayStartTraining ||| mr .SP_STAT_attempts)
    (.get fun _ => .ite (.each fun _ => .seq (startTraining_may rfl _ _ _) (.set rfl)) (portOff_may rfl _)) _ _ rfl rfl rfl s

end

/-! A work queue's tail. -/

theorem wqTail_keeps_wq {f slot tail k : Nat} (h : k ≠ wqKey f slot) : (wqTail f slot tail).Keeps (·.wqAt k) :=
  .get fun _ => .ite (fun _ => .skip) fun _ => .ite (fun _ => .cons (.when fun _ => .get fun _ _ => rfl) <|
    .cons (setWq_elsewhere h _) <|
    .cons (fun s => (doorbell_may (mk := mayDoorbell) rfl _ _).wqAt rfl rfl s k) .nil)
    fun _ s => (hostRing_may (mk := mayHostRing) rfl _ _ _).wqAt rfl rfl s k

theorem ctxAt_wqTail {f slot tail x : Nat} {s : State} (h : x ≠ (s.wqAt (wqKey f slot)).ctx) :
    (run (wqTail f slot tail) s).ctxAt x = s.ctxAt x := by
  refine Eff.Keeps.ite (g := (·.ctxAt x)) (fun _ => .skip) (fun _ => .ite (fun _ => .cons (.when fun _ => .get fun _ => setCtx_elsewhere h _) <|
    .cons (fun _ => rfl) <| .cons (fun s => (doorbell_may (mk := mayDoorbell) rfl _ _).ctxAt rfl rfl s x) .nil)
    fun _ s => (hostRing_may (mk := mayHostRing) rfl _ _ _).ctxAt rfl rfl s x) s

/-- Settles O32: each command sets what its unit holds, and registers at its unit's index. -/
theorem oneUnitCommandsLeaveTheOtherUnits : Obligations.OneUnitCommandsLeaveTheOtherUnits := by
  refine ⟨fun n s => ?seqCtlPause, fun n s => ?shadowRelease, fun n s => ?passEntry, fun n s => ?waitRelease,
    fun n g s => ?storeAck, fun n q s => ?queueStallEnd, fun n bitmap s => ?qCtlFlush, fun n s => ?arrPerfClear,
    fun n s => ?vecPerfClear, fun sl b s => ?refreshSlot, fun sl regions s => ?eccFillStart, fun sl s => ?eccTwRead,
    fun sl s => ?mcCtlInval, fun sl s => ?invalidationComplete, fun sl s => ?mcPerfClear, fun sl s => ?bsuPerfClear,
    fun sl ch s => ?dramRecalibrationStep, fun sl s => ?kvFlPop, fun sl s => ?kvFlPopb, fun sl b fr s => ?kvFlPush,
    fun sl s => ?streamTokenGrant, fun sl b ups s => ?rowBurst, fun st s => ?selfRefreshEntry, fun st s => ?selfRefreshExit,
    fun st r s => ?clockSlewStep, fun st s => ?nocCtlApply, fun st dest s => ?routeSwitch, fun st dest s => ?d2dTimeout,
    fun st s => ?fastThrottleEnd, fun p en s => ?fpCfgEnWrite, fun p k cause s => ?trainingAttemptEnd, fun p k s => ?failedRetry,
    fun p k s => ?subportAssayStart, fun p lane up s => ?recalibrationStep, fun e s => ?ldlPerfClear, fun st s => ?fabPerfClear,
    fun cn s => ?oldPhaseKeyExpiry, fun cn s => ?congestionTick, fun f slot tail s => ?wqDbTailWrite, fun g src s => ?egDoorbell,
    fun g t s => ?egClaim, fun g t src s => ?egComplete, fun t s => ?thConvReq⟩
  case seqCtlPause => exact ⟨_, rfl, fun j hj => Eff.Keeps.when (fun _ => seqPause_elsewhere hj) s⟩
  case shadowRelease => exact ⟨_, rfl, fun j hj => Eff.Keeps.when (fun _ => setCore_elsewhere hj _) s⟩
  case passEntry =>
    exact ⟨_, rfl, fun j hj => Eff.Keeps.when (fun _ => passEntry_keeps_core hj) s,
      regsElsewhere_of_keeps (fun j hj r _ => .when fun _ => passEntry_keeps_reg hj r) s⟩
  case waitRelease => exact ⟨_, rfl, regsElsewhere_of_keeps (fun j hj r _ => .when fun _ => waitRelease_keeps_reg hj r) s⟩
  case storeAck =>
    exact ⟨_, rfl, fun m k hmk => Eff.Keeps.when (fun _ => .seq (fun _ => rfl) (setAg_elsewhere hmk _)) s,
      regsElsewhere_of_keeps (fun j hj r _ => .when fun _ => .seq (setReg_elsewhere hj _ _ r) fun _ => rfl) s⟩
  case queueStallEnd => exact ⟨_, rfl, fun m k hmk => Eff.Keeps.when (fun _ => .get fun _ => setQueue_elsewhere hmk _) s⟩
  case qCtlFlush => exact ⟨_, rfl, fun m k hmk => Eff.Keeps.when (fun _ => qFlush_keeps_queue hmk) s⟩
  case arrPerfClear => exact ⟨_, rfl, regsElsewhere_clear _ _ n _ s⟩
  case vecPerfClear => exact ⟨_, rfl, regsElsewhere_clear _ _ n _ s⟩
  case refreshSlot =>
    exact ⟨_, rfl, fun j hj => Eff.Keeps.when (fun _ => refreshSlot_keeps_slice hj b) s,
      fun k hk => Eff.Keeps.when (fun _ => refreshSlot_keeps_openRow hk) s,
      regsElsewhere_of_keeps (fun j hj r _ => .when fun _ => refreshSlot_keeps_reg hj b r) s⟩
  case eccFillStart =>
    exact ⟨_, rfl, fun j hj => Eff.Keeps.when (fun _ => fillStart_keeps_slice hj _) s,
      regsElsewhere_of_keeps (fun j hj r _ => .when fun _ => fillStart_keeps_reg hj _ r) s⟩
  case eccTwRead => exact ⟨_, rfl, regsElsewhere_of_keeps (fun j hj r _ => .when fun _ => twRead_keeps_reg hj r) s⟩
  case mcCtlInval =>
    exact ⟨_, rfl, fun k hk => Eff.Keeps.when (fun _ => invalSlice_keeps_cache hk) s,
      regsElsewhere_of_keeps (fun j hj r _ => .when fun _ => .seq (fun _ => rfl) (setReg_elsewhere hj _ _ r)) s⟩
  case invalidationComplete => exact ⟨_, rfl, regsElsewhere_of_keeps (fun j hj r _ => setReg_elsewhere hj _ _ r) s⟩
  case mcPerfClear => exact ⟨_, rfl, regsElsewhere_clear _ _ sl _ s⟩
  case bsuPerfClear => exact ⟨_, rfl, regsElsewhere_clear _ _ sl _ s⟩
  case dramRecalibrationStep => exact ⟨_, rfl, fun j hj => Eff.Keeps.when (fun _ => setSlice_elsewhere hj _) s⟩
  case kvFlPop =>
    refine ⟨_, rfl, fun j hj => Eff.Keeps.when (fun _ => flPop_keeps_slice hj fun _ _ => rfl) s,
      regsElsewhere_of_keeps (fun j hj r hr => .when fun _ => ?_) s⟩
    obtain rfl := List.mem_singleton.mp hr
    exact flPop_keeps_next_bank hj fun _ _ => rfl
  case kvFlPopb => exact ⟨_, rfl, fun j hj => Eff.Keeps.when (fun _ => flPopB_keeps_slice hj fun _ _ => rfl) s⟩
  case kvFlPush =>
    exact ⟨_, rfl, fun j hj => Eff.Keeps.when (fun _ => flPush_keeps_slice hj _ _) s,
      regsElsewhere_of_keeps (fun j hj r _ => .when fun _ => flPush_keeps_reg hj _ _ r) s⟩
  case streamTokenGrant =>
    exact ⟨_, rfl, fun j hj => Eff.Keeps.when (fun _ => tokenGrant_keeps_slice hj) s,
      fun m b hmb => Eff.Keeps.when (fun _ => tokenGrant_keeps_bank hmb) s⟩
  case rowBurst =>
    refine ⟨_, rfl, fun m k hmk => Eff.Keeps.when (fun _ => rowBurst_keeps_bank hmk ups) s,
      regsElsewhere_of_keeps (fun j hj r hr => .when fun _ => ?_) s⟩
    obtain rfl := List.mem_singleton.mp hr
    exact rowBurst_keeps_reg hj b ups
  case selfRefreshEntry => exact ⟨_, rfl, regsElsewhere_of_keeps (fun j hj r _ => .when fun _ => setReg_elsewhere hj _ _ r) s⟩
  case selfRefreshExit =>
    refine ⟨_, rfl, regsElsewhere_of_keeps (fun j hj r hr => .when fun _ => .seq (setReg_elsewhere hj _ _ r) (.each fun k _ => ?_)) s,
      fun j hj => Eff.Keeps.when (fun _ => selfRefreshExit_keeps_sr hj) s⟩
    obtain rfl := List.mem_singleton.mp hr
    exact .upd fun s => reg_applyUpd_other _ s (by simp)
  case clockSlewStep =>
    exact ⟨_, rfl, fun j hj => Eff.Keeps.seq (setStack_elsewhere hj _) (fun _ => rfl) s,
      regsElsewhere_of_keeps (fun j hj r _ => .seq (fun _ => rfl) (.get fun _ => setReg_elsewhere hj _ _ r)) s⟩
  case nocCtlApply =>
    exact ⟨_, rfl, fun j hj => Eff.Keeps.when (fun _ => applyRoutes_keeps_stack hj) s,
      regsElsewhere_of_keeps (fun j hj r _ => .when fun _ => applyRoutes_keeps_reg hj r) s⟩
  case routeSwitch =>
    exact ⟨_, rfl, fun j hj => Eff.Keeps.when (fun _ => switchRoute_keeps_stack hj _) s,
      regsElsewhere_of_keeps (fun j hj r _ => .when fun _ => switchRoute_keeps_reg hj _ r) s⟩
  case d2dTimeout =>
    refine ⟨_, rfl, regsElsewhere_of_keeps (fun j hj r hr => .when fun _ => .seq (satReg_elsewhere hj _ _ r) ?_) s⟩
    obtain rfl := List.mem_singleton.mp hr
    exact fun s => (report_may (mk := mayReport) rfl _ _ _ _ _ _ _ _).reg _ _ rfl rfl rfl s
  case fastThrottleEnd => exact ⟨_, rfl, regsElsewhere_of_keeps (fun j hj r _ => setReg_elsewhere hj _ _ r) s⟩
  case fpCfgEnWrite =>
    refine ⟨_, rfl, fun j hj => ⟨Eff.Keeps.when (fun _ => portEnable_keeps_sub hj en) s,
      Eff.Keeps.when (fun _ => portEnable_keeps_state hj en) s⟩, regsElsewhere_of_keeps (fun j hj r hr => .when fun _ => ?_) s⟩
    obtain rfl := List.mem_singleton.mp hr
    exact portEnable_keeps_en hj en
  case trainingAttemptEnd =>
    have hfree : ∀ r ∈ ([.SP_STAT_attempts, .SP_STAT_cause, .SP_STAT_state] : List Fld),
        (mayReport ||| mayHostRing).testBit (80 + r.ctorIdx) = false := by decide
    exact ⟨_, rfl, fun j hj => Eff.Keeps.when (fun _ => trainingAttemptEnd_keeps_sub hj cause s) s,
      regsElsewhere_of_keeps (fun j hj r hr => .when fun _ => .ite (fun _ => startQual_keeps_reg hj rfl _ _ r)
        fun _ => attemptFailed_keeps_reg hj rfl _ (hfree r hr)) s⟩
  case failedRetry =>
    exact ⟨_, rfl, fun j hj => Eff.Keeps.when (fun _ => startTraining_keeps hj rfl true) s,
      regsElsewhere_of_keeps (fun j hj r _ => .when fun _ => startTraining_keeps_reg hj rfl true r) s⟩
  case subportAssayStart => exact ⟨_, rfl, regsElsewhere_of_keeps (fun j hj r _ => .when fun _ => setReg_elsewhere hj _ _ r) s⟩
  case recalibrationStep => exact ⟨_, rfl, fun j hj => Eff.Keeps.when (fun _ => setPort_elsewhere hj _) s⟩
  case ldlPerfClear => exact ⟨_, rfl, regsElsewhere_clear _ _ e _ s⟩
  case fabPerfClear => exact ⟨_, rfl, regsElsewhere_clear _ _ st _ s⟩
  case oldPhaseKeyExpiry => exact ⟨_, rfl, fun j hj => Eff.Keeps.when (fun _ => setConn_elsewhere hj _) s⟩
  case congestionTick => exact ⟨_, rfl, fun j hj => Eff.Keeps.when (fun _ => congestionTick_keeps hj) s⟩
  case wqDbTailWrite => exact ⟨_, rfl, fun k hk => wqTail_keeps_wq hk s, fun x hx => ctxAt_wqTail hx⟩
  case egDoorbell => exact ⟨_, rfl, fun j hj => egDoorbell_elsewhere hj _ s⟩
  case egClaim => exact ⟨_, rfl, fun j hj => Eff.Keeps.when (fun _ => egClaim_elsewhere hj) s⟩
  case egComplete =>
    refine ⟨_, rfl, fun j hj h96 => Eff.Keeps.when (fun _ => egComplete_elsewhere hj h96) s,
      regsElsewhere_of_keeps (fun j hj r hr => .when fun _ => ?_) s⟩
    obtain rfl := List.mem_singleton.mp hr
    exact egComplete_keeps_bad_complete hj
  case thConvReq =>
    exact ⟨_, rfl, regsElsewhere_of_keeps (fun j hj r _ => .get fun _ => .when fun _ => .seq (setReg_elsewhere hj _ _ r)
      (setReg_elsewhere hj _ _ r)) s⟩

end Sys2Proof.Machine
end

section
/-! SUPPORT. Which bytes of memory the operations that store can change: firmware's own structures, queue rings and regions. -/
set_option exponentiation.threshold 1000
namespace Sys2Proof.Machine

section
variable {e : Eff} {b : Nat}

theorem May.keepsByte (h : May (butPart .mem) e) (b : Nat) : e.Keeps (·.byteAt b) := fun s => h.byteAt rfl rfl s b

theorem keepsByte_of_spares (h : Eff.Only (Spares b) e) : e.Keeps (·.byteAt b) := spares_run h

/-- A shorter store that starts where a store starts, or later, and ends where it ends, or before, reaches no other words. -/
theorem OutsideWords.mono {a len a' len' : Nat} (h : OutsideWords b a len) (ha : a ≤ a') (hlen : a' + len' ≤ a + len) :
    OutsideWords b a' len' := by
  unfold OutsideWords at *
  omega

/-- Firmware's write of a structure of its own reaches the words of its range. -/
theorem fwWrite_spares {a : Nat} {d : List Byte} (h : OutsideWords b a d.length) : Eff.Only (Spares b) (fwWrite a d) := by
  refine (only_each _ _ _).mpr fun p hp s => ?_
  obtain ⟨hlo, hword, hhi, hfirst, hpos⟩ := splitWords_mem _ _ _ _ hp
  refine putWord_spares _ _ _ _ ?_
  simp only [List.length_append, List.length_take, List.length_drop, State.length_rawBytes]
  unfold OutsideWords at h
  omega

theorem zeroRegion_keeps {sl r : Nat} (h : b < sl * 2 ^ 30 + r * 2 ^ 26 ∨ sl * 2 ^ 30 + r * 2 ^ 26 + 2 ^ 26 ≤ b) :
    (zeroRegion sl r).Keeps (·.byteAt b) := by
  intro s
  dsimp only
  rw [byteAt_zeroRegion, if_neg (by omega)]

theorem outside_region {a : Nat} (ha : a % 8 = 0) (h : OutsideWords b a (2 ^ 26)) : b < a ∨ a + 2 ^ 26 ≤ b := by
  unfold OutsideWords at h
  omega

end

/-! Queue rings. -/

/-- The byte lies in none of the words of a core's queue rings. -/
def State.OutsideRings (s : State) (n b : Nat) : Prop :=
  ∀ q base z, s.ring n q = some (base, z) → OutsideWords b (scratchBase + n * 2 ^ 21 + base) (z * 128)

/-- Where the byte lies in no ring of a core, the effect leaves the byte and moves no ring onto it. -/
def Eff.KeepsRings (n b : Nat) (e : Eff) : Prop :=
  ∀ s : State, s.OutsideRings n b → (run e s).OutsideRings n b ∧ (run e s).byteAt b = s.byteAt b

/-- Every update but those that write a ring field or clear register fields. -/
def butRings : Nat := mayAll ^^^ (List.range 16).foldr (fun q m => 2 ^ (80 + (ringFld q).ctorIdx) ||| m) 0 ^^^ 2 ^ Part.regs.ctorIdx ^^^ 2 ^ 79

/-- … nor memory. -/
def butRingsAndMem : Nat := butRings ^^^ 2 ^ Part.mem.ctorIdx

theorem butRings_ringFld (q : Nat) : butRings.testBit (80 + (ringFld q).ctorIdx) = false := by
  have hmod : ringFld q = ringFld (q % 16) := by simp only [ringFld, Nat.mod_mod]
  have hall : ∀ q < 16, butRings.testBit (80 + (ringFld q).ctorIdx) = false := by decide
  rw [hmod]
  exact hall _ (Nat.mod_lt _ (by decide))

theorem May.ring {m : Nat} {e : Eff} (h : May m e) (hr : ∀ q, m.testBit (80 + (ringFld q).ctorIdx) = false)
    (h0 : m.testBit Part.regs.ctorIdx = false) (h79 : m.testBit 79 = false) (s : State) (n q : Nat) :
    (run e s).ring n q = s.ring n q := by
  simp only [State.ring, h.reg (ringFld q) n (hr q) h0 h79 s]

namespace Eff.KeepsRings

variable {n b : Nat} {e e' : Eff}

theorem skip : Eff.skip.KeepsRings n b := fun _ h => ⟨h, rfl⟩

theorem seq (h : e.KeepsRings n b) (h' : e'.KeepsRings n b) : (Eff.seq e e').KeepsRings n b := fun s hs => by
  obtain ⟨h1, h2⟩ := h s hs
  obtain ⟨h3, h4⟩ := h' _ h1
  exact ⟨h3, h4.trans h2⟩

/-- The effect that the state chooses may rely on where the rings lie. -/
theorem get {f : State → Eff} (h : ∀ s, s.OutsideRings n b → (f s).KeepsRings n b) : (Eff.get f).KeepsRings n b :=
  fun s hs => h s hs s hs

theorem nil : (Eff.all []).KeepsRings n b := skip

theorem cons {es : List Eff} (h : e.KeepsRings n b) (hs : (Eff.all es).KeepsRings n b) : (Eff.all (e :: es)).KeepsRings n b := seq h hs

theorem when {c : Bool} (h : e.KeepsRings n b) : (Eff.when c e).KeepsRings n b := by
  cases c
  · exact skip
  · exact h

theorem ite {p : Prop} [Decidable p] (h : p → e.KeepsRings n b) (h' : ¬p → e'.KeepsRings n b) : (if p then e else e').KeepsRings n b := by
  split
  · exact h ‹_›
  · exact h' ‹_›

theorem each {α : Type} {l : List α} {f : α → Eff} (h : ∀ x ∈ l, (f x).KeepsRings n b) : (Eff.each l f).KeepsRings n b := fun s hs =>
  run_each_keeps (P := fun t => t.OutsideRings n b ∧ t.byteAt b = s.byteAt b)
    (fun x hx t ht => ⟨(h x hx t ht.1).1, (h x hx t ht.1).2.trans ht.2⟩) s ⟨hs, rfl⟩

/-- What stores nothing and writes no ring field. -/
theorem other (h : May butRingsAndMem e) : e.KeepsRings n b := fun s hs => by
  have hrings : ∀ q, butRingsAndMem.testBit (80 + (ringFld q).ctorIdx) = false := fun q => by
    have hne : (2 ^ Part.mem.ctorIdx).testBit (80 + (ringFld q).ctorIdx) = false :=
      Nat.testBit_two_pow_of_ne (by simp [Part.ctorIdx]; omega)
    rw [butRingsAndMem, Nat.testBit_xor, butRings_ringFld, hne]
    rfl
  refine ⟨fun q base z hq => hs q base z ?_, h.byteAt rfl rfl s b⟩
  rwa [h.ring hrings rfl rfl] at hq

/-- What writes no ring field and spares the byte. -/
theorem of_spares (h : May butRings e) (hb : Eff.Only (Spares b) e) : e.KeepsRings n b := fun s hs => by
  refine ⟨fun q base z hq => hs q base z ?_, spares_run hb s⟩
  rwa [h.ring butRings_ringFld rfl rfl] at hq

end Eff.KeepsRings

section
variable {n b : Nat}

/-- What is written of an entry lies within the ring, which holds whole entries of 128 bytes. -/
theorem ringWrite_keepsRings {q p base z : Nat} {s : State} (hp : p ≤ 128) (hz : 0 < z) (hring : s.ring n q = some (base, z))
    (hb : OutsideWords b (scratchBase + n * 2 ^ 21 + base) (z * 128)) (k e off : Nat) (d : List Byte) :
    (ringWrite s n q p k e off d).KeepsRings n b := by
  induction k generalizing e off d with
  | zero => exact .skip
  | succ k ih =>
    rw [ringWrite]
    refine .ite (fun _ => .skip) fun _ => .seq ?_ (ih _ _ _)
    have hentry : s.entryAddr n q e = scratchBase + n * 2 ^ 21 + base + e % z * 128 := by
      simp only [State.entryAddr, hring]
    have hfits : e % z * 128 + 128 ≤ z * 128 := by
      have := Nat.mod_lt e hz
      omega
    generalize hpiece : d.take (p - off) = piece
    have hlen : piece.length ≤ p - off := by rw [← hpiece, List.length_take]; omega
    rcases Nat.lt_or_ge p off with hlt | hge
    · have hnone : piece = [] := List.length_eq_zero_iff.mp (by omega)
      rw [if_neg (by rw [hnone, List.length_nil]; omega), hnone]
      exact .skip
    · refine .of_spares (fwWrite_may rfl _ _) (fwWrite_spares (hb.mono (by rw [hentry]; omega) ?_))
      rw [hentry]
      split
      · simp only [List.length_append, List.length_replicate]
        omega
      · omega

theorem State.ring_pos {s : State} {q base z : Nat} (h : s.ring n q = some (base, z)) : 0 < z := by
  unfold ring at h
  dsimp only at h
  split_ifs at h
  cases h
  positivity

theorem payload_le (fmt : Nat) : payload fmt ≤ 128 := by
  unfold payload
  split <;> omega

theorem qPush_keepsRings {p : Nat} (hp : p ≤ 128) (q : Nat) (d : List Byte) : (qPush n q p d).KeepsRings n b := by
  refine .get fun s hs => ?_
  split
  · exact .skip
  case h_2 base z hring =>
    exact .cons (ringWrite_keepsRings hp (State.ring_pos hring) hring (hs q base z hring) _ _ _ _) <|
      .cons (.other (progress_may rfl _)) <| .cons (.other (setQueue_may rfl _ _ _)) .nil

theorem qClose_keepsRings (q : Nat) : (qClose n q).KeepsRings n b :=
  .get fun _ _ => .when (qPush_keepsRings le_rfl _ _)

/-- A core that stops closes its open entries. -/
theorem seqStop_keepsRings (cause : Nat) : (seqStop n cause).KeepsRings n b :=
  .get fun _ _ => .seq (.get fun _ _ => .cons (.other (setCore_may rfl _ _)) <|
    .cons (.each fun _ _ => .other (setAg_may rfl _ _ _)) <|
    .cons (.each fun q _ => .get fun _ _ => .seq (.other (qSkip_may rfl _ _)) (.when (qClose_keepsRings q))) .nil)
    (.other (seqError_may rfl _ _ _ _))

theorem coreLost_keepsRings : (coreLost n).KeepsRings n b := .seq (.other (setCore_may rfl _ _)) (seqStop_keepsRings 5)

theorem qPop_keepsRings {q p len : Nat} {k : List Byte → Eff} (hk : ∀ d, d.length ≤ len → (k d).KeepsRings n b) :
    (qPop n q p len k).KeepsRings n b :=
  .get fun _ _ => .cons (.other (qDrop_may rfl _ _ _ _)) <|
    .cons (hk _ (by simp only [List.length_take]; omega)) <|
    .cons (.when (.seq (.other (report_may rfl _ _ _ _ _ _ _ _)) coreLost_keepsRings)) .nil

end

end Sys2Proof.Machine
end

section
/-! SUPPORT. Core units: what they push reaches the words of the core's queue rings, what they store the words of its range. -/
set_option exponentiation.threshold 1000
namespace Sys2Proof.Machine

section
variable {n b : Nat}

theorem popAcc_keepsRings {k : AccEnt → Eff} (hk : ∀ s : State, ∀ e, (k (s.accAt n e)).KeepsRings n b) : (popAcc n k).KeepsRings n b := by
  refine .get fun s _ => ?_
  split
  · exact .skip
  · exact .cons (.other (setCore_may rfl _ _)) <| .cons (.other (setAcc_may rfl _ _ _)) <| .cons (hk s _) .nil

/-! Generators. -/

theorem agLoad_keepsRings (g : Nat) (r : Run) : (agLoad n g r).KeepsRings n b := by
  refine .get fun s _ => ?_
  dsimp only
  split
  · exact .skip
  · refine .ite (fun _ => .get fun _ _ => ?_) fun _ => .other (qStall_may rfl _ _ _)
    exact .cons (.other (accessRecords_may rfl _ _ _ _)) <|
      .cons (.each fun _ _ => .other (readLine_may rfl _ _ _)) <|
      .cons (.other (accessCharge_may rfl _ _ _ _)) <|
      .cons (.seq (.other (agStep_may rfl _ _ _ _ _)) (.when coreLost_keepsRings)) .nil

theorem loadPush_keepsRings (g : Nat) : (loadPush n g).KeepsRings n b := by
  refine .get fun s _ => ?_
  split
  · exact .skip
  · exact .cons (.other (setAg_may rfl _ _ _)) <| .cons (qPush_keepsRings le_rfl _ _) <|
      .cons (.when (qClose_keepsRings _)) .nil

/-! The array. -/

theorem fillShadow_may (q : Nat) (f : CoreSt → CoreSt) : May butRingsAndMem (Eff.all [qSkip n q, setReg .ARR_STATUS_stall_wgt n 0,
    setReg .ARR_STATUS_stall_wsc n 0, setReg .ARR_STATUS_stall_meta n 0, setCore n f]) :=
  .cons (qSkip_may rfl _ _) <| .cons (.set rfl) <| .cons (.set rfl) <| .cons (.set rfl) <| .cons (setCore_may rfl _ _) .nil

theorem tileLoad_keepsRings : (tileLoad n).KeepsRings n b := by
  refine .get fun s _ => .ite (fun _ => .ite (fun _ => qPop_keepsRings fun w _ => .ite (fun _ => qPop_keepsRings fun sc _ =>
    .seq (.other (qSkip_may rfl _ _)) ?scaled) fun _ => ?unscaled) fun _ => .other ?stalled) fun _ => .skip
  case scaled =>
    exact .ite (fun _ => qPop_keepsRings fun _ _ => .seq (.other (qSkip_may rfl _ _)) (.other (fillShadow_may _ _)))
      fun _ => .other (fillShadow_may _ _)
  case unscaled =>
    exact .ite (fun _ => qPop_keepsRings fun _ _ => .seq (.other (qSkip_may rfl _ _)) (.other (fillShadow_may _ _)))
      fun _ => .other (fillShadow_may _ _)
  case stalled =>
    exact .cons (.when (.seq (.set rfl) (qStall_may rfl _ _ _))) <| .cons (.when (.seq (.set rfl) (qStall_may rfl _ _ _))) <|
      .cons (.when (.seq (.set rfl) (qStall_may rfl _ _ _))) .nil

theorem arrayError_keepsRings (kind : Nat) : (arrayError n kind).KeepsRings n b :=
  .get fun _ _ => .seq (.other (report_may rfl _ _ _ _ _ _ _ _)) (seqStop_keepsRings 4)

theorem passStepEff_keepsRings (p : Pass) (bad : Bool) : (passStepEff n p bad).KeepsRings n b :=
  .get fun _ _ => .ite (fun _ => .cons (.other (setCore_may rfl _ _)) <| .cons (.other (qSkip_may rfl _ _)) <|
    .cons (.when (.other (qSkip_may rfl _ _))) <| .cons (.when (qClose_keepsRings _)) <| .cons (.other (.add rfl)) .nil)
    fun _ => .other (setCore_may rfl _ _)

theorem writeEntry_keepsRings (p : Pass) (act asc : List Byte) (parityBad : Bool) (accErr : Nat) :
    (writeEntry n p act asc parityBad accErr).KeepsRings n b := by
  refine .get fun s _ => ?_
  dsimp only
  exact .cons (.other (.when (.upd rfl))) <| .cons (.other (.when (.set rfl))) <|
    .cons (.other (.when (accCorrected_may rfl _))) <| .cons (.other (.when (.set rfl))) <|
    .cons (.ite (fun _ => .cons (.other (setAcc_may rfl _ _ _)) <| .cons (qPush_keepsRings le_rfl _ _) <|
        .cons (.other (arrFx_may rfl _ _ _)) .nil)
      fun _ => .other (.cons (setAcc_may rfl _ _ _) <| .cons (.when (setCore_may rfl _ _)) <| .cons (arrFx_may rfl _ _ _) .nil)) <|
    .cons (.other (.when (.each fun _ => .get fun _ => .when (setAcc_may rfl _ _ _)))) <|
    .cons (passStepEff_keepsRings p _) <| .cons (.when (arrayError_keepsRings _)) <| .cons (.when (arrayError_keepsRings _)) .nil

theorem accWrite_keepsRings (parityBad : Bool) (accErr : Nat) : (accWrite n parityBad accErr).KeepsRings n b := by
  refine .get fun s _ => ?_
  split
  · exact .skip
  · refine .ite (fun _ => ?_) fun _ => .other (.cons (.when (.seq (.set rfl) (qStall_may rfl _ _ _))) <|
      .cons (.when (.seq (.set rfl) (qStall_may rfl _ _ _))) <| .cons (.when (.seq (.set rfl) (qStall_may rfl _ _ _))) .nil)
    exact .cons (.other (.set rfl)) <| .cons (.other (.set rfl)) <| .cons (.other (.set rfl)) <|
      .cons (qPop_keepsRings fun _ _ => .ite (fun _ => qPop_keepsRings fun _ _ => writeEntry_keepsRings _ _ _ _ _)
        fun _ => writeEntry_keepsRings _ _ _ _ _) .nil

/-! The vector unit. -/

theorem vecFinish_keepsRings (r : Run) (x y : List Nat) (fx : Nat) : (vecFinish n r x y fx).KeepsRings n b := by
  refine .get fun s _ => ?_
  dsimp only
  refine .cons (.other (progress_may rfl _)) <| .cons ?_ <| .cons (.other (pourFx_may rfl _ _ _)) <| .cons (.other (.set rfl)) <|
    .cons (.other (.add rfl)) <| .cons (.other (.add rfl)) <| .cons (.other (setCore_may rfl _ _)) <|
    .cons (.when (.cons (.when (.other (qSkip_may rfl _ _))) <| .cons (.when (.other (qSkip_may rfl _ _))) <|
      .cons (.when (.seq (qClose_keepsRings _) (.when (qClose_keepsRings _)))) .nil)) .nil
  split
  · exact .skip
  · exact .seq (qPush_keepsRings (payload_le _) _ _) (.when (qPush_keepsRings le_rfl _ _))

theorem vecIteration_keepsRings (accErr : Nat) : (vecIteration n accErr).KeepsRings n b := by
  refine .get fun s _ => ?_
  dsimp only
  split
  · exact .skip
  case h_2 r _ =>
    have hb (x : List Nat) (fx : Nat) := Eff.KeepsRings.ite (n := n) (b := b) (p := s.flag .CHG_VEC_in_b_en n = true)
      (fun _ => qPop_keepsRings (q := s.reg .CHG_QB_vin_b n) (p := payload (s.reg .CHG_VEC_in_fmt_b n))
        (len := vecBytes (s.reg .CHG_VEC_in_fmt_b n)) fun d _ => vecFinish_keepsRings r x (widen (s.reg .CHG_VEC_in_fmt_b n) (leNat d)).1
          (fxOr fx (widen (s.reg .CHG_VEC_in_fmt_b n) (leNat d)).2)) (fun _ => vecFinish_keepsRings r x [] fx)
    refine .ite (fun _ => .cons (.other (.set rfl)) <| .cons (.other (.set rfl)) <| .cons (.other (.set rfl)) <|
      .cons (.ite (fun _ => popAcc_keepsRings fun _ _ => ?_) fun _ => qPop_keepsRings fun _ _ => hb _ _) .nil) fun _ => .other ?_
    · exact .cons (.other (.when (.upd rfl))) <| .cons (.other (.when (accCorrected_may rfl _))) <| .cons (hb _ _) <|
        .cons (.when (.seq (.other (.set rfl)) (arrayError_keepsRings _))) .nil
    · exact .cons (.when (.seq (.set rfl) (.when (qStall_may rfl _ _ _)))) <| .cons (.when (.seq (.set rfl) (qStall_may rfl _ _ _))) <|
        .cons (.when (.seq (.set rfl) (qStall_may rfl _ _ _))) .nil

/-! Bank results. -/

theorem resultPush_keepsRings : (resultPush n).KeepsRings n b := by
  refine .get fun s _ => ?_
  dsimp only
  split
  · exact .other (setPath_may rfl _ _)
  · split
    · exact .other (setPath_may rfl _ _)
    · exact .ite (fun _ => .other (setPath_may rfl _ _)) fun _ => .ite (fun _ => .cons (.other (.set rfl)) <|
        .cons (.other (setPath_may rfl _ _)) <| .cons (qPush_keepsRings le_rfl _ _) .nil)
        fun _ => .seq (.other (.set rfl)) (.other (qStall_may rfl _ _ _))

end

end Sys2Proof.Machine
end

section
/-! SUPPORT. Words that memory accesses, host windows, the test window and firmware's requests store to. -/
set_option exponentiation.threshold 1000
namespace Sys2Proof.Machine

section
variable {e : Eff} {b : Nat}

/-- What stores nothing spares every byte. -/
theorem May.spare (h : May (butPart .mem) e) : Eff.Only (Spares b) e := h.spares rfl rfl b

theorem applyUpsets_spares (ups : List Upset) : Eff.Only (Spares b) (applyUpsets ups) :=
  (applyUpsets_may rfl ups).spare

theorem memoryWriteEff_spares (iss : Issuer) (addr : Nat) (hint : Fin 4) (data : List Byte) (ups : List Upset)
    (h : OutsideWords b addr data.length) : Eff.Only (Spares b) (memoryWriteEff iss addr hint data ups) :=
  ⟨applyUpsets_spares ups, fun _ => writeMem_spares _ _ _ _ _ _ _ _ h fun _ _ => rfl⟩

/-! Host windows (R388-R390). -/

theorem windowAccess_keepsByte {f : Nat} {write : Bool} {off len : Nat} {data : List Byte} {s : State}
    (h : write = true → OutsideWords b (s.reg .WIN_BASE_base f * 2 ^ 26 + off) data.length) :
    (run (windowAccess f write off len data) s).byteAt b = s.byteAt b := by
  rw [windowAccess, run_get]
  dsimp only
  refine spares_run ?_ s
  refine ⟨?_, ?_, ?_, ?_, trivial⟩
  · exact (accessRecords_may rfl _ _ _ _).spare
  · exact (May.when (countSuppressed_may rfl _ _)).spare
  · exact (accessCharge_may rfl _ _ _ _).spare
  · split
    case isTrue hw =>
      refine (only_each _ _ _).mpr fun p hp => writeLine_spares _ _ _ _ _ ?_
      have hpiece := splitLines_mem _ _ _ _ (List.mem_filter.mp hp).1
      have hout := h hw
      unfold OutsideWords at hout
      omega
    case isFalse => exact (only_each _ _ _).mpr fun p _ _ => ⟨fun _ => rfl, fun _ =>
      ⟨(May.when (readLine_may rfl _ _ _)).spare, fun _ => rfl, trivial⟩⟩

theorem hostWindow_keepsByte {f : Nat} {c write : Bool} {off len : Nat} {data : List Byte} {s : State} (ups : List Upset)
    (h : write = true → OutsideWords b (s.reg .WIN_BASE_base f * 2 ^ 26 + off) data.length) :
    (run (Eff.when c (.seq (applyUpsets ups) (windowAccess f write off len data))) s).byteAt b = s.byteAt b := by
  rw [run_when]
  split
  · rw [run_seq, windowAccess_keepsByte, spares_run (applyUpsets_spares ups)]
    rwa [(applyUpsets_may (mk := mayApplyUpsets) rfl ups).reg _ _ rfl rfl rfl]
  · rfl

/-! Write-backs and the test window (R221, R235). -/

theorem writeBack_spares {line : Nat} (h : OutsideWords b (line * 64) 64) : Eff.Only (Spares b) (writeBack line) := by
  intro s
  dsimp only
  split
  · trivial
  · refine ⟨fun _ => rfl, ?_, trivial⟩
    split
    · exact (May.when (.add rfl)).spare
    · refine ⟨(only_each _ _ _).mpr fun k hk s => (only_when _ _ _).mpr fun _ => putWord_spares _ _ _ _ ?_,
        (May.when (.add rfl)).spare, trivial⟩
      have hlt := List.mem_range.mp (List.mem_filter.mp hk).1
      have hlen : (wordBytes (s.decodeWord (line * 8 + k)).data).length = 8 := rfl
      unfold OutsideWords at h
      omega

theorem upd_keepsByte {u : Upd} (h : u.touches .mem = false) : (Eff.upd u).Keeps (·.byteAt b) := fun s => byteAt_frame u s b h

theorem twWrite_keepsByte {sl : Nat} {s : State} (h : OutsideWords b ((sl * 2 ^ 27 + s.reg .ECC_TW_ADDR_word sl) * 8) 8) :
    (run (twWrite sl) s).byteAt b = s.byteAt b := by
  rw [twWrite, run_get]
  dsimp only
  generalize sl * 2 ^ 27 + s.reg .ECC_TW_ADDR_word sl = w at h ⊢
  have hdata : Spares b (.bytes (w * 8) (leBytes (s.reg .ECC_TW_DATA_data sl) 8)) := spares_bytes <| by
    rw [leBytes_length]
    unfold OutsideWords at h
    omega
  refine Eff.Keeps.cons (keepsByte_of_spares (e := .upd _) hdata) (.cons (upd_keepsByte rfl) <|
    .cons ((invalLine_may rfl _).keepsByte b) <| .cons (.get fun s => ?_) .nil) s
  exact .ite (fun _ => upd_keepsByte rfl) fun _ => .skip

/-! Requests. -/

theorem answer_keepsByte (f st : Nat) : (answer f st).Keeps (·.byteAt b) := (answer_may rfl _ _).keepsByte b

/-- A byte that a request's work leaves is left, whatever firmware finds of the request. -/
theorem withReq_keepsByte {f op : Nat} {k : Req → Eff} {s : State}
    (h : ∀ r, (s.fnAt f).run = some r → (run (k r) s).byteAt b = s.byteAt b) : (run (withReq f op k) s).byteAt b = s.byteAt b := by
  rw [withReq, run_get]
  split
  · rfl
  case h_2 r hr =>
    split
    · rfl
    · split
      · rfl
      · split
        · exact answer_keepsByte _ _ s
        · split
          · exact answer_keepsByte _ _ s
          · split
            · exact answer_keepsByte _ _ s
            · split
              · exact answer_keepsByte _ _ s
              · split
                · exact answer_keepsByte _ _ s
                · exact h r hr

/-- The test window writes the word that its address register was given. -/
theorem twWrite_keepsByte_of_address {sl w : Nat} (h : OutsideWords b ((sl * 2 ^ 27 + w % 2 ^ 27) * 8) 8) (data chk : Nat) (s : State) :
    (run (twWrite sl) (run (setReg .ECC_TW_CHK_check sl chk) (run (setReg .ECC_TW_DATA_data sl data)
      (run (setReg .ECC_TW_ADDR_word sl w) s)))).byteAt b = s.byteAt b := by
  have hstep : ∀ r i v (s : State), (run (setReg r i v) s).byteAt b = s.byteAt b := fun r i v => upd_keepsByte rfl
  rw [twWrite_keepsByte, hstep, hstep, hstep]
  simpa only [run_setReg, reg_applyUpd, reduceCtorEq, false_and, if_false, and_self, if_true, Fld.info] using h

theorem testWrite_keepsByte {sl w : Nat} (h : OutsideWords b ((sl * 2 ^ 27 + w % 2 ^ 27) * 8) 8) (data chk : Nat) {e : Eff}
    (he : e.Keeps (·.byteAt b)) : (Eff.all [setReg .ECC_TW_ADDR_word sl w,
      Eff.all [setReg .ECC_TW_DATA_data sl data, setReg .ECC_TW_CHK_check sl chk, twWrite sl], e]).Keeps (·.byteAt b) := fun s => by
  have htest := twWrite_keepsByte_of_address h data chk s
  rw [run_all_cons, run_all_cons, run_all_cons, run_all_cons, run_all_cons, run_all_cons, run_all_nil, run_all_nil]
  exact (he _).trans htest

/-- Where the byte lies outside the test's word the test leaves it; an address beyond the slices is refused. -/
theorem eccTest_write_keepsByte {f : Nat} {r : Req}
    (h : field r.body 8 8 / 2 ^ 30 < 1152 → OutsideWords b (field r.body 8 8) 8) : (eccTest f true r).Keeps (·.byteAt b) := by
  refine .get fun s => ?_
  dsimp only
  generalize field r.body 8 8 = a at h ⊢
  refine .ite (fun _ => .skip) fun _ => .ite (fun _ => answer_keepsByte _ _) fun hlen => .ite (fun _ => answer_keepsByte _ _) fun hgrant =>
    .ite (fun _ => answer_keepsByte _ _) fun _ => ?_
  have hslice : a / 2 ^ 30 < 1152 := by
    simp only [State.granted, Bool.not_eq_true', Bool.not_eq_false, Bool.and_eq_true, decide_eq_true_eq] at hgrant
    omega
  rw [if_pos rfl]
  exact testWrite_keepsByte ((h hslice).mono (by omega) (by omega)) _ _ (.get fun _ => (respond'_may rfl _ _ _).keepsByte b)

theorem endGrant_keepsByte {sl : Nat} {s : State}
    (h : OutsideWords b (sl * 2 ^ 30 + s.reg .ECC_TWG_region sl * 2 ^ 26) (2 ^ 26)) : (run (endGrant sl) s).byteAt b = s.byteAt b := by
  rw [endGrant, run_get]
  refine Eff.Keeps.when (fun _ => .seq (zeroRegion_keeps ?_) (upd_keepsByte rfl)) s
  exact outside_region (by omega) h

theorem doTestRevoke_keepsByte {f : Nat} {r : Req} {s : State} (h : OutsideWords b (field r.body 4 4 * 2 ^ 26) (2 ^ 26)) :
    (run (doTestRevoke f r) s).byteAt b = s.byteAt b := by
  rw [doTestRevoke, run_get]
  dsimp only
  generalize field r.body 4 4 = x at h ⊢
  split
  · exact answer_keepsByte _ _ s
  · split
    case isTrue hgrant =>
      obtain ⟨-, -, -, hregion⟩ := hgrant
      rw [run_seq]
      refine (answer_keepsByte _ _ _).trans (endGrant_keepsByte ?_)
      rwa [hregion, show x / 16 * 2 ^ 30 + x % 16 * 2 ^ 26 = x * 2 ^ 26 by omega]
    · exact answer_keepsByte _ _ s

theorem doMemInit_keepsByte {f : Nat} {r : Req} {s : State}
    (h : ∀ x ∈ u32s (r.body.drop 8) (field r.body 0 4), OutsideWords b (x * 2 ^ 26) (2 ^ 26)) :
    (run (doMemInit f r) s).byteAt b = s.byteAt b := by
  refine Eff.Keeps.get (fun s => .ite (fun _ => answer_keepsByte _ _) fun _ => .ite (fun _ => answer_keepsByte _ _) fun _ =>
    .seq (.each fun x hx => zeroRegion_keeps ?_) (answer_keepsByte _ _)) s
  rw [show x / 16 * 2 ^ 30 + x % 16 * 2 ^ 26 = x * 2 ^ 26 by omega]
  exact outside_region (by omega) (h x hx)

theorem fillDone_keepsByte {sl : Nat} {s : State}
    (h : ∀ r < 16, bit (s.sliceAt sl).filling r = true → OutsideWords b (sl * 2 ^ 30 + r * 2 ^ 26) (2 ^ 26)) :
    (run (fillDone sl) s).byteAt b = s.byteAt b := by
  rw [fillDone, run_get]
  refine Eff.Keeps.cons (.each fun r hr => ?_) (.cons ((setSlice_may rfl _ _).keepsByte b) <| .cons ((May.set rfl).keepsByte b) .nil) s
  obtain ⟨hr, hbit⟩ := List.mem_filter.mp hr
  exact zeroRegion_keeps (outside_region (by omega) (h r (List.mem_range.mp hr) hbit))

end

end Sys2Proof.Machine
end

section
/-! SUPPORT. Words that generators, bank-side units, ladle engines and received packets store to. -/
set_option exponentiation.threshold 1000
namespace Sys2Proof.Machine

section
variable {b : Nat}

theorem readMem_spares {iss : Issuer} {chk : Bool} {fl : Option Nat} {a len hint : Nat} {k : Rd → Eff}
    (hk : ∀ s : State, Eff.Only (Spares b) (k (s.readResult (srcOf iss) chk fl a len))) :
    Eff.Only (Spares b) (readMem iss chk fl a len hint k) := fun s =>
  ⟨(accessRecords_may rfl _ _ _ _).spare, (only_each _ _ _).mpr fun _ _ => (readLine_may rfl _ _ _).spare,
    (accessCharge_may rfl _ _ _ _).spare, hk s, trivial⟩

/-! Generators (R156, R158, R161). -/

theorem agAddr_congr {s t : State} (h : ∀ r i, t.reg r i = s.reg r i) (n g k : Nat) : agAddr t n g k = agAddr s n g k := by
  simp only [agAddr, agIndex, agStride, agCount, h]

/-- What a generator stores reaches the words of its access. -/
theorem agStoreWrite_spares {n g hint a total : Nat} {fl : Option Nat} {r : Run} {d : List Byte} (h : OutsideWords b a d.length)
    (f : AgSt → AgSt) : Eff.Only (Spares b) (.seq (writeMem (coreIss n) true fl a hint d fun _ => .skip) (agStep n g r total f)) :=
  ⟨writeMem_spares _ _ _ _ _ _ _ _ h fun _ => trivial, (agStep_may rfl _ _ _ _ _).spare⟩

theorem agStore_keepsByte {n g : Nat} {r : Run} {s : State} (hq : s.reg .CHG_AG_q (n * 8 + g) ≠ 16) (hrings : s.OutsideRings n b)
    (h : OutsideWords b (agAddr s n g r.done) (s.reg .CHG_AG_len (n * 8 + g))) : (run (agStore n g r) s).byteAt b = s.byteAt b := by
  rw [agStore, run_get]
  dsimp only
  refine (Eff.KeepsRings.ite (n := n) (fun h => absurd h hq) (fun _ => .ite (fun _ => .other (qStall_may rfl _ _ _)) fun _ =>
    qPop_keepsRings fun d hd => .seq (.of_spares ?_ (agStoreWrite_spares (h.mono le_rfl (by omega)) _)) ?_) s hrings).2
  · exact .seq (writeMem_may rfl _ _ _ _ _ _ _ fun _ => .skip) (agStep_may rfl _ _ _ _ _)
  · exact .when (.other (qSkip_may rfl _ _))

/-- A popped accumulator entry of 64 values is 256 bytes. -/
theorem entryBytes_length_le {e : AccEnt} (h : e.v.length ≤ 64) :
    ((if e.poison then List.replicate 64 nan32 else e.v).flatMap (fun v => leBytes v 4)).length ≤ 256 := by
  simp only [List.length_flatMap, leBytes_length, List.map_const', List.sum_replicate, smul_eq_mul]
  split
  · simp only [List.length_replicate, le_refl]
  · omega

theorem agStoreSums_keepsByte {n g : Nat} {r : Run} {s : State} (hq : s.reg .CHG_AG_q (n * 8 + g) = 16)
    (hacc : ∀ e, (s.accAt n e).v.length ≤ 64) (h : OutsideWords b (agAddr s n g r.done) 256) :
    (run (agStore n g r) s).byteAt b = s.byteAt b := by
  rw [agStore, run_get]
  dsimp only
  rw [if_pos hq, popAcc, run_get]
  split
  · rfl
  · refine Eff.Keeps.cons ((setCore_may rfl _ _).keepsByte b) (.cons ((setAcc_may rfl _ _ _).keepsByte b) <| .cons (.seq ?_ ?_) .nil) s
    · exact keepsByte_of_spares (agStoreWrite_spares (h.mono le_rfl (Nat.add_le_add_left (entryBytes_length_le (hacc _)) _)) _)
    · exact (May.when (pourFx_may rfl _ _ _)).keepsByte b

/-- An access leaves a byte when its load, or its store, does from the state that the access's upsets give. -/
theorem agAccess_keepsByte {c : Bool} {n g : Nat} {ups : List Upset} {s : State}
    (h : ∀ r, (s.agAt n g).run = some r → ∀ t, t = run (applyUpsets ups) s →
      (run (if s.flag .CHG_AG_dir (n * 8 + g) then agStore n g r else agLoad n g r) t).byteAt b = t.byteAt b) :
    (run (Eff.when c (agAccess n g ups)) s).byteAt b = s.byteAt b := by
  rw [run_when]
  split
  · rw [agAccess, run_get]
    split
    · rfl
    case h_2 r hr =>
      split
      · rfl
      · split
        · rfl
        · rw [run_seq, h r hr _ rfl]
          exact (applyUpsets_may rfl ups).keepsByte b s
  · rfl

/-! Bank-side units (R258, R259). -/

theorem bsuWrite_spares {a : Nat} {d : List Byte} (h : OutsideWords b a d.length) : Eff.Only (Spares b) (bsuWrite a d) := by
  refine ⟨(only_each _ _ _).mpr fun _ _ => (keepOld_may rfl _).spare, (only_each _ _ _).mpr fun p hp s => putWord_spares _ _ _ _ ?_⟩
  obtain ⟨hlo, hword, hhi, hfirst, hpos⟩ := splitWords_mem _ _ _ _ hp
  have hlen : ∀ x, (wordBytes x).length = 8 := fun _ => rfl
  simp only [List.length_append, List.length_take, List.length_drop, hlen]
  unfold OutsideWords at h
  omega

theorem copyFrame_spares {src dst : Nat} (h : OutsideWords b dst 32768) : Eff.Only (Spares b) (copyFrame src dst) := by
  intro s
  rw [Eff.Only, only_each, only_each]
  refine ⟨fun _ _ => (keepOld_may rfl _).spare, fun k hk _ => putWord_spares _ _ _ _ ?_⟩
  have hlen : (wordBytes (s.decodeWord (src / 8 + k)).data).length = 8 := rfl
  have := List.mem_range.mp hk
  unfold OutsideWords at h
  omega

theorem fillFrame_spares {f v : Nat} (h : OutsideWords b f 32768) : Eff.Only (Spares b)
    (.seq (Eff.each (List.range 512) fun k => keepOld (f / 64 + k)) (Eff.each (List.range 4096) fun k => putWord (f / 8 + k) (leBytes v 8) false)) := by
  rw [Eff.Only, only_each, only_each]
  refine ⟨fun _ _ => (keepOld_may rfl _).spare, fun k hk => putWord_spares _ _ _ _ ?_⟩
  have := List.mem_range.mp hk
  rw [leBytes_length]
  unfold OutsideWords at h
  omega

/-- A command stores what its work stores. -/
theorem runCommand_keepsByte {sl k cmd : Nat} {work : State → Task → Eff × Ended} {touch : State → Task → List (Nat × Nat)} {s : State}
    (h : ∀ x, (s.bankAt sl k).ctx.find? (fun y => y.cmd == cmd && decide (0 < y.bursts) && taskReady (s.bankAt sl k).ctx y) = some x →
      Eff.Only (Spares b) (work s x).1) : (run (runCommand sl k cmd work touch) s).byteAt b = s.byteAt b := by
  rw [runCommand, run_get]
  dsimp only
  split
  · rfl
  case h_2 x hx =>
    exact Eff.Keeps.cons (.each fun p _ => (bsuTouch_may rfl _ _ _).keepsByte b) (.cons (keepsByte_of_spares (h x hx)) <|
      .cons ((endTask_may rfl _ _ _ _).keepsByte b) .nil) s

/-! Received packets (R446-R449, R454). -/

theorem rxTake_keepsByte {st : Nat} {p : State → RxItem → Bool} {k : RxItem → Eff} {s : State}
    (h : ∀ x ∈ (s.fabAt st).rx, p s x = true → (k x).Keeps (·.byteAt b)) : (run (rxTake st p k) s).byteAt b = s.byteAt b := by
  rw [rxTake, run_get]
  split
  · rfl
  case h_2 n hn =>
    split
    · rfl
    case h_2 x hx =>
      obtain ⟨hlt, hp, -⟩ := List.findIdx?_eq_some_iff_getElem.mp hn
      obtain rfl : (s.fabAt st).rx[n] = x := Option.some_inj.mp ((List.getElem?_eq_getElem hlt).symm.trans hx)
      rw [run_seq]
      exact (h _ (List.getElem_mem hlt) hp _).trans ((setFab_may rfl _ _).keepsByte b s)

theorem rxData_keepsByte {st code : Nat} {work : Nat → RxItem → Eff} {s : State}
    (h : ∀ x ∈ (s.fabAt st).rx, x.fr.ptype = 0 → x.fr.op = code → ∀ i, (work i x).Keeps (·.byteAt b)) :
    (run (rxData st code work) s).byteAt b = s.byteAt b := by
  refine rxTake_keepsByte fun x hx hp => .opt fun i _ => ?_
  simp only [Bool.and_eq_true, beq_iff_eq] at hp
  obtain ⟨⟨htype, hop⟩, -⟩ := hp
  refine .cons ?ce <| .cons ((takeAck_may rfl _ _ _ _ _).keepsByte b) <| .cons (.get fun _ => .ite (fun _ => (setConn_may rfl _ _).keepsByte b)
    fun _ => .ite (fun _ => .skip) fun _ => h x hx htype hop i) .nil
  exact (May.when (.seq (.add rfl) (setConn_may rfl _ _))).keepsByte b

theorem rxPutEff_keepsByte {st : StackIx} {s : State}
    (h : ∀ x ∈ (s.fabAt st).rx, x.fr.ptype = 0 → x.fr.op = 1 → OutsideWords b x.fr.addr x.fr.data.length) :
    (run (rxPutEff st) s).byteAt b = s.byteAt b :=
  rxData_keepsByte fun x hx htype hop _ => keepsByte_of_spares
    (writeMem_spares _ _ _ _ _ _ _ _ (h x hx htype hop) fun _ => (performed_may rfl _ _ _).spare)

end

end Sys2Proof.Machine
end

section
/-! SUPPORT. Words that a ladle engine's descriptor stores to. -/
set_option exponentiation.threshold 1000
namespace Sys2Proof.Machine

section
variable {b : Nat}

theorem poisonWords_spares {d : Desc} {n : Nat} (h : OutsideWords b d.dst n) (bad : List Nat) : Eff.Only (Spares b) (poisonWords d bad n) := by
  refine (only_each _ _ _).mpr fun w hw s => putWord_spares _ _ _ _ ?_
  obtain ⟨i, hi, rfl⟩ := List.mem_map.mp hw
  have hlt : i < n := by simpa using (List.mem_filter.mp hi).2
  rw [State.length_rawBytes]
  unfold OutsideWords at h
  omega

theorem State.goodRun_le {s : State} {src fl a len : Nat} : (s.goodRun src fl a len).1 ≤ len := by
  unfold goodRun
  split
  · exact le_rfl
  case h_2 l hl =>
    have hmem := List.mem_of_find?_eq_some hl
    unfold linesOf at hmem
    split at hmem
    · cases hmem
    · obtain ⟨i, hi, rfl⟩ := List.mem_map.mp hmem
      have := List.mem_range.mp hi
      dsimp only
      omega

theorem convertRun_length_le {d : Desc} {data : List Byte} (hdata : data.length ≤ d.srcLen) (hbad : d.badConvert = false) :
    (d.convertRun d.len data).1.length ≤ d.dstLen := by
  unfold Desc.convertRun Desc.dstLen
  cases hc : d.convert with
  | false => simpa [Desc.srcLen, hc] using hdata
  | true =>
    have hlen : d.len % 64 = 0 := by
      simp only [Desc.badConvert, hc, Bool.true_and, Bool.or_eq_false_iff, bne_eq_false_iff_eq] at hbad
      tauto
    simp only [if_true, convertElems, packCodes, leBytes_length, List.length_map, List.length_range]
    obtain ⟨m, hm⟩ := Nat.dvd_of_mod_eq_zero hlen
    rw [hm, Nat.mul_assoc]
    omega

/-- What a copy stores of its units: nothing of memory where the destination is the host's, else bytes of its range. -/
theorem copySome_spares {e fl : Nat} {d : Desc} {k : Nat → Eff} (hd : d.dstHost = true ∨ OutsideWords b d.dst d.dstLen)
    (hk : ∀ n, Eff.Only (Spares b) (k n)) : Eff.Only (Spares b) (copySome e fl d k) := by
  refine fun _ => ⟨fun _ => rfl, fun _ => ⟨fun _ => rfl, fun s => ?_⟩⟩
  dsimp only
  generalize hrd : (if d.srcHost = true then _ else _ : Rd) = rd
  generalize hout : (if d.overlaps = true then _ else _ : List Byte) = out
  split
  · exact hk _
  case isFalse hgo =>
    have hdata : rd.data.length ≤ d.srcLen := by
      rw [← hrd]
      split
      · simp only [State.hostBytes, List.length_map, List.length_range, le_refl]
      · simp only [State.readResult, List.length_take]
        omega
    have hconvert : d.badConvert = false := by
      simp only [State.descBad, Bool.or_eq_true, not_or] at hgo
      obtain ⟨⟨⟨⟨⟨-, hconvert⟩, -⟩, -⟩, -⟩, -⟩ := hgo
      simpa using hconvert
    have hlen : out.length ≤ d.dstLen := by
      rw [← hout]
      split
      · rw [leBytes_length]
      · exact convertRun_length_le hdata hconvert
    refine ⟨(only_each _ _ _).mpr fun p hp => ?_, (only_when _ _ _).mpr fun hmem => ?_, hk _⟩
    · split
      · exact fun _ => rfl
      case isFalse hmem =>
        obtain ⟨x, hx, rfl⟩ := List.mem_map.mp hp
        have hpiece := splitLines_mem _ _ _ _ (List.fst_mem_of_mem_zipIdx (List.mem_filter.mp hx).1)
        have hdst := hd.resolve_left hmem
        refine writeLine_spares _ _ _ _ _ ?_
        unfold OutsideWords at hdst
        omega
    · exact poisonWords_spares (hd.resolve_left (by simpa using hmem)) _

theorem copyLines_spares {e fl : Nat} {d : Desc} {k : Nat → Nat → Nat → Eff} (hd : d.dstHost = true ∨ OutsideWords b d.dst d.dstLen)
    (hk : ∀ st fx n, Eff.Only (Spares b) (k st fx n)) : Eff.Only (Spares b) (copyLines e fl d k) := by
  intro s
  beta_reduce
  extract_lets iss src u sr ds m srcStops stop sn n move
  have hn : d.dstHost = false → n ≤ d.dstLen := fun hmem => by
    have hds : ds.1 ≤ d.dstLen := by
      simp only [ds, hmem, Bool.false_eq_true, if_false]
      exact State.goodRun_le
    have hm : m ≤ ds.1 * 8 / u.2 := (min_le_right _ _).trans (min_le_right _ _)
    have hunits : m * u.2 ≤ ds.1 * 8 := (Nat.mul_le_mul_right _ hm).trans (Nat.div_mul_le_self _ _)
    exact Nat.div_le_of_le_mul (by omega)
  have hmove : ∀ data bad, Eff.Only (Spares b) (move data bad) := fun data bad _ => by
    refine ⟨fun _ => rfl, ?_, (May.when (failRecord_may rfl _ _ _)).spare, (May.add rfl).spare, hk _ _ _, trivial⟩
    split
    · exact ⟨fun _ => rfl, (hostCharge_may rfl _ _ _).spare⟩
    case isFalse hmem =>
      have hdst := (hd.resolve_left hmem).mono le_rfl (Nat.add_le_add_left (hn (by simpa using hmem)) _)
      refine writeMem_spares _ _ _ _ _ _ _ _ (hdst.mono le_rfl (Nat.add_le_add_left ?_ _)) fun _ => poisonWords_spares hdst _
      split
      · rw [leBytes_length]
      · exact List.length_take_le _ _
  split
  · exact ⟨(hostCharge_may rfl _ _ _).spare, hmove _ _⟩
  · exact readMem_spares fun _ => hmove _ _

theorem copyDesc_spares {e fl : Nat} {d : Desc} {lost : Bool} {k : Nat → Nat → Nat → Eff}
    (hd : d.dstHost = true ∨ OutsideWords b d.dst d.dstLen)
    (hk : ∀ st fx n, Eff.Only (Spares b) (k st fx n)) : Eff.Only (Spares b) (copyDesc e fl d lost k) := by
  intro s
  dsimp only
  split
  · exact hk _ _ _
  · split
    · exact hk _ _ _
    · split
      · exact copySome_spares hd fun _ => ⟨(May.add rfl).spare, hk _ _ _⟩
      · exact copyLines_spares hd hk

theorem descDone_keepsByte {e : Nat} {lost : Bool} {s : State}
    (h : ∀ r, (s.ladleAt e).run = some r → OutsideWords b (r.addr + 56) 8 ∧
      ((parseDesc r.words).dstHost = true ∨ OutsideWords b (parseDesc r.words).dst (parseDesc r.words).dstLen)) :
    (run (descDone e lost) s).byteAt b = s.byteAt b := by
  rw [descDone, run_get]
  dsimp only
  split
  · rfl
  case h_2 r hr =>
    obtain ⟨hword, hdst⟩ := h r hr
    split
    · rfl
    · split
      · exact Eff.Keeps.fresh (fun _ => rfl) (fun _ => (May.add rfl).keepsByte b) s
      · refine spares_run (copyDesc_spares hdst fun st fx n => ?_) s
        refine ⟨fwWrite_spares (by rwa [leBytes_length]), (May.get fun _ => .set rfl).spare, (May.get fun _ => .set rfl).spare,
          (May.sat rfl).spare, ?_, (May.when (ladleDone_may rfl _ _)).spare, ?_, (ladleStat_may rfl _).spare, trivial⟩
        · exact (May.when (addGlobal_may rfl _ _ _ _ _ fun _ => report_may rfl _ _ _ _ _ _ _ _)).spare
        · split
          · exact (setLadle_may rfl _ _).spare
          · exact (May.seq (.set rfl) (setLadle_may rfl _ _)).spare

end

end Sys2Proof.Machine
end

section
/-! PROOFS. Memory outside the words a command stores to. -/
set_option exponentiation.threshold 1000
namespace Sys2Proof.Machine

section
variable {b : Nat} {s : State}

/-- What runs only where it may leaves a byte that it leaves where it runs. -/
theorem when_keepsByte {c : Bool} {e : Eff} (h : (run e s).byteAt b = s.byteAt b) : (run (Eff.when c e) s).byteAt b = s.byteAt b := by
  rw [run_when]
  split
  · exact h
  · rfl

theorem applyUpsets_reg (ups : List Upset) (s : State) (r : Fld) (i : Nat) : (run (applyUpsets ups) s).reg r i = s.reg r i :=
  Eff.Keeps.each (g := (·.reg r i)) (fun _ _ => .get fun _ => .upd fun _ => rfl) s

theorem applyUpsets_outsideRings {n : Nat} (ups : List Upset) (h : s.OutsideRings n b) : (run (applyUpsets ups) s).OutsideRings n b :=
  (Eff.KeepsRings.other (applyUpsets_may rfl ups) s h).1

theorem appendQCmd_keepsByte {sl : SliceIx} {k : BankIx}
    (h : ∀ x h, (s.bankAt sl k).ctx.find? (fun y => y.cmd == 4 && decide (0 < y.bursts) && taskReady (s.bankAt sl k).ctx y) = some x →
      s.pageHeader x.addr = some h → let r := appendResult s x.addr (bits x.imm 11 0) (tokenOf x.fmt (bits x.imm 11 0) x.args)
      OutsideWords b (x.addr + 8) 8 ∧ OutsideWords b (x.addr + 256 + r.2.1 * h.stride) r.2.2.1.length) :
    (run (appendQCmdEff sl k) s).byteAt b = s.byteAt b := by
  refine runCommand_keepsByte fun x hx => ?_
  dsimp only
  split
  · rw [appendWrite]
    split
    · trivial
    case h_2 header hheader =>
      obtain ⟨hfill, hrecord⟩ := h x header hx hheader
      exact ⟨bsuWrite_spares hrecord, bsuWrite_spares (by rwa [leBytes_length])⟩
  · trivial

end

/-- Settles O31: each command's effect is made of writes to the words named, and of parts that store nothing. -/
theorem storesReachOnlyTheirAddresses : Obligations.StoresReachOnlyTheirAddresses := by
  unfold Obligations.StoresReachOnlyTheirAddresses
  refine ⟨?memoryWrite, ?hostWindowWrite, ?hostWindowRead, ?eccWriteBack, ?eccTwWrite, ?eccTestWrite, ?testRevoke, ?memInit,
    ?fillEngineDone, ?agAccessLoad, ?agAccessStore, ?agAccessStoreSums, ?loadDataPush, ?tileLoadComplete, ?accumulatorWrite,
    ?vectorIteration, ?bankResultPush, ?appendQCmd, ?fillCmd, ?copyPageCmd, ?ladleDescriptorDone, ?rxPut⟩
  case memoryWrite => exact fun iss addr hint data ups s => ⟨_, rfl, fun b hb => spares_run (memoryWriteEff_spares iss addr hint data ups hb) s⟩
  case hostWindowWrite => exact fun f off len data ups s => ⟨_, rfl, fun b hb => hostWindow_keepsByte ups fun _ => hb⟩
  case hostWindowRead => exact fun f off len data ups s => ⟨_, rfl, fun b => hostWindow_keepsByte ups (by simp)⟩
  case eccWriteBack => exact fun line s => ⟨_, rfl, fun b hb => spares_run (writeBack_spares hb) s⟩
  case eccTwWrite => exact fun sl s => ⟨_, rfl, fun b hb => when_keepsByte (twWrite_keepsByte hb)⟩
  case eccTestWrite => exact fun f s => ⟨_, rfl, fun b hb => withReq_keepsByte fun r hr => eccTest_write_keepsByte (hb r hr) s⟩
  case testRevoke => exact fun f s => ⟨_, rfl, fun b hb => withReq_keepsByte fun r hr => doTestRevoke_keepsByte (hb r hr)⟩
  case memInit => exact fun f s => ⟨_, rfl, fun b hb => withReq_keepsByte fun r hr => doMemInit_keepsByte (hb r hr)⟩
  case fillEngineDone => exact fun sl s => ⟨_, rfl, fun b hb => when_keepsByte (fillDone_keepsByte hb)⟩
  case agAccessLoad =>
    refine fun n g ups s hdir => ⟨_, rfl, fun b hb => agAccess_keepsByte fun r hr t ht => ?_⟩
    subst ht
    rw [hdir, if_neg Bool.false_ne_true]
    exact (agLoad_keepsRings g r _ (applyUpsets_outsideRings ups hb)).2
  case agAccessStore =>
    refine fun n g ups s hdir hq => ⟨_, rfl, fun b hb hstore => agAccess_keepsByte fun r hr t ht => ?_⟩
    subst ht
    rw [hdir, if_pos rfl]
    refine agStore_keepsByte ?_ (applyUpsets_outsideRings ups hb) ?_
    · rwa [applyUpsets_reg]
    · rw [applyUpsets_reg, agAddr_congr (applyUpsets_reg ups s)]
      exact hstore r hr
  case agAccessStoreSums =>
    refine fun n g ups s hdir hq hacc => ⟨_, rfl, fun b hstore => agAccess_keepsByte fun r hr t ht => ?_⟩
    subst ht
    rw [hdir, if_pos rfl]
    refine agStoreSums_keepsByte ?_ (fun e => ?_) ?_
    · rwa [applyUpsets_reg]
    · rw [State.accAt, (applyUpsets_may (mk := mayApplyUpsets) rfl ups).acc rfl rfl]
      exact hacc e
    · rw [agAddr_congr (applyUpsets_reg ups s)]
      exact hstore r hr
  case loadDataPush => exact fun n g s => ⟨_, rfl, fun b hb => when_keepsByte (loadPush_keepsRings g s hb).2⟩
  case tileLoadComplete => exact fun n s => ⟨_, rfl, fun b hb => when_keepsByte (tileLoad_keepsRings s hb).2⟩
  case accumulatorWrite => exact fun n p e s => ⟨_, rfl, fun b hb => when_keepsByte (accWrite_keepsRings p e s hb).2⟩
  case vectorIteration => exact fun n e s => ⟨_, rfl, fun b hb => when_keepsByte (vecIteration_keepsRings e s hb).2⟩
  case bankResultPush => exact fun pa s => ⟨_, rfl, fun b hb => (resultPush_keepsRings s hb).2⟩
  case appendQCmd => exact fun sl k s => ⟨_, rfl, fun b hb => appendQCmd_keepsByte hb⟩
  case fillCmd => exact fun sl k s => ⟨_, rfl, fun b hb => runCommand_keepsByte fun x hx => fillFrame_spares (hb x hx)⟩
  case copyPageCmd =>
    exact fun sl k s => ⟨_, rfl, fun b hb => runCommand_keepsByte fun x hx => copyFrame_spares (hb x hx)⟩
  case ladleDescriptorDone => exact fun e lost s => ⟨_, rfl, fun b hb => when_keepsByte (descDone_keepsByte hb)⟩
  case rxPut => exact fun st s => ⟨_, rfl, fun b hb => when_keepsByte (rxPutEff_keepsByte hb)⟩

end Sys2Proof.Machine
end

section
/-! SUPPORT. A port's operations: the state that a sub-port enters and what is kept of its port (R420-R428). -/
set_option exponentiation.threshold 1000
namespace Sys2Proof.Machine

section
variable {e : Eff} {r : Fld} {i v : Nat}

theorem May.keepsReg (h : May (butReg r) e) (hr : (butReg r).testBit (80 + r.ctorIdx) = false) (i : Nat)
    (h0 : (butReg r).testBit Part.regs.ctorIdx = false) (h79 : (butReg r).testBit 79 = false) : e.Keeps (·.reg r i) :=
  fun s => h.reg r i hr h0 h79 s

theorem setReg_maps (r : Fld) (i v : Nat) : (setReg r i v).Maps (·.reg r i) fun _ => v % 2 ^ r.info.width :=
  fun s => reg_applyUpd_same r i v s

theorem setReg_keeps_field {r r' : Fld} (h : r' ≠ r) (i v j : Nat) : (setReg r' i v).Keeps (·.reg r j) :=
  fun s => reg_applyUpd_other v s fun he => h he.1

theorem addReg_keeps_field {r r' : Fld} (h : r' ≠ r) (i v j : Nat) : (addReg r' i v).Keeps (·.reg r j) :=
  fun s => reg_applyUpd_other _ s fun he => h he.1

theorem addReg_maps (r : Fld) (i v : Nat) : (addReg r i v).Maps (·.reg r i) fun x => (x + v) % 2 ^ r.info.width :=
  fun s => reg_applyUpd_same r i _ s

/-- A field set to 0 stays 0 while fields are set to 0. -/
theorem setReg_zero_keeps_zero {s : State} (h : s.reg r i = 0) (r' : Fld) (j : Nat) : (run (setReg r' j 0) s).reg r i = 0 := by
  rw [run_setReg, reg_applyUpd]
  split
  · exact Nat.zero_mod _
  · exact h

theorem setReg_zero_reads (r : Fld) (i : Nat) (s : State) : (run (setReg r i 0) s).reg r i = 0 := by
  rw [run_setReg, reg_applyUpd_same, Nat.zero_mod]

theorem satReg_maps (r : Fld) (i v : Nat) : (satReg r i v).Maps (·.reg r i) fun x => min (x + v) (2 ^ r.info.width - 1) := by
  have := Nat.two_pow_pos r.info.width
  exact fun s => (reg_applyUpd_same ..).trans (Nat.mod_eq_of_lt (by omega))

theorem satReg_keeps_field {r r' : Fld} (h : r' ≠ r) (i v j : Nat) : (satReg r' i v).Keeps (·.reg r j) :=
  fun s => reg_applyUpd_other _ s fun he => h he.1

end

section
variable {p k : Nat} {s : State}

/-! Sub-port states. -/

theorem setSub_subState (p k st : Nat) : (setSub_ p k st).Maps (·.subState p k) fun _ => st % 8 := setReg_maps _ _ _

theorem subState_congr {e : Eff} (h : e.Keeps (·.reg .SP_STAT_state (p * 4 + k))) : e.Keeps (·.subState p k) := h

theorem setSub_keeps_sub (p k st j : Nat) : (setSub_ p k st).Keeps (·.subAt j) := fun _ => rfl

theorem sub_maps (i : Nat) (f : SubSt → SubSt) : (setSub i f).Maps (·.subAt i) f := fun _ => subAt_same ..

theorem startTraining_state (full : Bool) : (startTraining p k full).Maps (·.subState p k) fun _ => 1 :=
  (setSub_subState p k 1).seq_first fun _ => rfl

theorem startTraining_sub (full : Bool) : (startTraining p k full).Maps (·.subAt (p * 4 + k)) fun x => { x with full := full, post := false } :=
  (sub_maps _ _).seq_second fun _ => rfl

theorem startQual_state (full post : Bool) : (startQual p k full post).Maps (·.subState p k) fun _ => 2 := fun s => by
  exact ((setSub_subState p k 2).seq_first fun _ => rfl : Eff.Maps _ _ (.seq _ _)) s

theorem startQual_sub (full post : Bool) (s : State) :
    (run (startQual p k full post) s).subAt (p * 4 + k) = { s.subAt (p * 4 + k) with full := full, post := post, qual := s.qualNow p } := by
  rw [startQual, run_get, run_seq, run_setSub, subAt_same]
  rfl

theorem startQual_qualNow (full post : Bool) (j : Nat) : (startQual p k full post).Keeps (·.qualNow j) := fun s => by
  have hreg : ∀ r ∈ ([.FP_QUAL_uc_max, .FP_QUAL_win_full, .FP_QUAL_win_short, .FP_QUAL_deg_mant, .FP_QUAL_deg_exp, .FP_QUAL_qual_mant,
      .FP_QUAL_qual_exp] : List Fld), (run (startQual p k full post) s).reg r j = s.reg r j := fun r hr =>
    Eff.Keeps.get (fun _ => .seq (setReg_keeps_field (by rintro rfl; revert hr; decide) _ _ _) fun _ => rfl) s
  simp only [List.forall_mem_cons] at hreg
  obtain ⟨h1, h2, h3, h4, h5, h6, h7, -⟩ := hreg
  simp only [State.qualNow, h1, h2, h3, h4, h5, h6, h7]

/-- What entering FAILED writes besides the state: records, notes and events. -/
def failedRegs : Nat := mayReport ||| mayHostRing

theorem portFailed_keeps_reg {r : Fld} (hr : failedRegs.testBit (80 + r.ctorIdx) = false) (hst : Fld.SP_STAT_state ≠ r) (i : Nat) :
    (portFailed p k).Keeps (·.reg r i) :=
  .get fun _ => .cons (setReg_keeps_field hst _ _ _) <|
    .cons (.when fun _ s => (report_may (mk := failedRegs) rfl _ _ _ _ _ _ _ _).reg r i hr rfl rfl s) <|
    .cons (fun _ => rfl) <| .cons (fun s => (hostRing_may (mk := failedRegs) rfl _ _ _).reg r i hr rfl rfl s) .nil

theorem portFailed_state : (portFailed p k).Maps (·.subState p k) fun _ => 6 := fun s =>
  Eff.Maps.head (setSub_subState p k 6) (.cons (.when fun _ => (report_may rfl _ _ _ _ _ _ _ _).keepsReg rfl _ rfl rfl) <|
    .cons (fun _ => rfl) <| .cons ((hostRing_may rfl _ _ _).keepsReg rfl _ rfl rfl) .nil) s

/-- After a failed attempt: its cause, one attempt more, FAILED after three in a row. -/
theorem attemptFailed_reads (cause : Nat) (s : State) :
    (run (attemptFailed p k cause) s).reg .SP_STAT_cause (p * 4 + k) = cause % 8 ∧
    (run (attemptFailed p k cause) s).reg .SP_STAT_attempts (p * 4 + k) = min (s.reg .SP_STAT_attempts (p * 4 + k) + 1) 15 ∧
    (run (attemptFailed p k cause) s).subState p k = if 3 ≤ min (s.reg .SP_STAT_attempts (p * 4 + k) + 1) 15 then 6 else 1 := by
  have hkeeps : ∀ r, failedRegs.testBit (80 + r.ctorIdx) = false → Fld.SP_STAT_state ≠ r →
      (Eff.get fun s => if 3 ≤ s.reg .SP_STAT_attempts (p * 4 + k) then portFailed p k else setSub_ p k 1).Keeps (·.reg r (p * 4 + k)) :=
    fun r hr hst => .get fun _ => .ite (fun _ => portFailed_keeps_reg hr hst _) fun _ => setReg_keeps_field hst _ _ _
  have hattempts : (run (satReg .SP_STAT_attempts (p * 4 + k) 1) (run (setReg .SP_STAT_cause (p * 4 + k) cause) s)).reg
      .SP_STAT_attempts (p * 4 + k) = min (s.reg .SP_STAT_attempts (p * 4 + k) + 1) 15 :=
    (satReg_maps _ _ _ _).trans (by rw [setReg_keeps_field (by decide) _ _ _ s]; rfl)
  refine ⟨?_, ?_, ?_⟩
  · exact Eff.Maps.head (setReg_maps _ _ _) (.cons (satReg_keeps_field (by decide) _ _ _) <| .cons (hkeeps _ rfl (by decide)) .nil) s
  · exact (hkeeps .SP_STAT_attempts rfl (by decide) _).trans hattempts
  · simp only [attemptFailed, run_all_cons, run_all_nil, run_get, hattempts]
    split
    · exact portFailed_state _
    · exact setSub_subState p k 1 _

/-! Qualification windows. -/

theorem countWindow_keeps_reg {bits uncorr : Nat} {lanes corrected : List Nat} {r : Fld}
    (hr : r ∉ [Fld.FP_LANE_ERR_bits, .FP_LANE_RX_bits, .SP_FECUNC_count, .SP_FECCORR_count]) (i : Nat) :
    (countWindow p k bits lanes corrected uncorr).Keeps (·.reg r i) := by
  simp only [List.mem_cons, List.not_mem_nil, or_false, not_or] at hr
  obtain ⟨herr, hrx, hunc, hcorr⟩ := hr
  exact .cons (.each fun _ _ => .seq (addReg_keeps_field (Ne.symm herr) _ _ _) (addReg_keeps_field (Ne.symm hrx) _ _ _)) <|
    .cons (addReg_keeps_field (Ne.symm hunc) _ _ _) <| .cons (.fresh (fun _ => rfl) fun _ => addReg_keeps_field (Ne.symm hcorr) _ _ _) .nil

/-- What a window asks of its lanes. -/
theorem any_lanes {g : Nat → Bool} {lanes corrected : List Nat} :
    ((lanes.zipIdx.map fun l => corrected.getD l.2 0).any g = true) ↔ ∃ l ∈ lanes.zipIdx, g (corrected.getD l.2 0) = true := by
  simp only [List.any_map, List.any_eq_true, Function.comp_apply]

end

end Sys2Proof.Machine
end

section
/-! PROOFS. Port events (17_fabric_ports.md). -/
set_option exponentiation.threshold 1000
namespace Sys2Proof.Machine

section
variable {p k : Nat} {s : State}

/-! FP_CFG.en (R420). -/

theorem portEnable_en (en : Bool) : (portEnable p en).Maps (·.reg .FP_CFG_en p) fun _ => b2n en := fun s => by
  have hrest : (Eff.get fun s => if en then Eff.each ((List.range 4).filter (fun k => s.subUsed p k && s.subState p k == 0)) fun k =>
      .seq (startTraining p k true) (setReg .SP_STAT_attempts (p * 4 + k) 0) else portOff p).Keeps (·.reg .FP_CFG_en p) :=
    .get fun _ => .ite (fun _ => .each fun _ _ => .seq (.seq (setReg_keeps_field (by decide) _ _ _) fun _ => rfl)
      (setReg_keeps_field (by decide) _ _ _)) fun _ => .each fun _ _ => setReg_keeps_field (by decide) _ _ _
  refine (hrest _).trans ((setReg_maps _ _ _ s).trans ?_)
  cases en <;> rfl

theorem startTraining_keeps_field {j : Nat} {r : Fld} (h : Fld.SP_STAT_state ≠ r) (full : Bool) (i : Nat) :
    (startTraining p j full).Keeps (·.reg r i) := .seq (setReg_keeps_field h _ _ _) fun _ => rfl

theorem startTraining_keeps_one {j : Nat} (full : Bool) (h : s.subState p k = 1) : (run (startTraining p j full) s).subState p k = 1 := by
  refine (reg_applyUpd .SP_STAT_state .SP_STAT_state (p * 4 + j) (p * 4 + k) 1 s).trans ?_
  split
  · rfl
  · exact h

theorem portEnable_trains (hk : k < 4) (hused : s.subUsed p k = true) (hstate : s.subState p k = 0) :
    (run (portEnable p true) s).subState p k = 1 ∧ (run (portEnable p true) s).reg .SP_STAT_attempts (p * 4 + k) = 0 := by
  set t := run (setReg .FP_CFG_en p 1) s with ht
  have hkeeps : ∀ r, Fld.FP_CFG_en ≠ r → ∀ i, t.reg r i = s.reg r i := fun r hr i => setReg_keeps_field hr _ _ _ s
  have hmem : k ∈ (List.range 4).filter (fun j => t.subUsed p j && t.subState p j == 0) := by
    have hused' : t.subUsed p k = s.subUsed p k :=
      congrArg (fun m => decide (k < modeWays m)) (hkeeps .FP_CFG_mode (by decide) p)
    have hstate' : t.subState p k = s.subState p k := hkeeps .SP_STAT_state (by decide) _
    simp only [List.mem_filter, List.mem_range, hk, hused', hused, hstate', hstate, beq_self_eq_true, Bool.and_self, and_self]
  exact run_each_reaches (P := fun t => t.subState p k = 1 ∧ t.reg .SP_STAT_attempts (p * 4 + k) = 0)
    (f := fun j => .seq (startTraining p j true) (setReg .SP_STAT_attempts (p * 4 + j) 0)) hmem
    (fun t => ⟨(setReg_keeps_field (by decide) _ _ _ _).trans (startTraining_state true t), setReg_zero_reads _ _ _⟩)
    (fun j _ t ⟨hst, hat⟩ => ⟨(setReg_keeps_field (by decide) _ _ _ _).trans (startTraining_keeps_one true hst),
      setReg_zero_keeps_zero ((startTraining_keeps_field (by decide) true _ t).trans hat) _ _⟩) t

theorem portEnable_off (hk : k < 4) : (run (portEnable p false) s).subState p k = 0 :=
  run_each_reaches (P := fun t => t.subState p k = 0) (List.mem_range.mpr hk) (fun t => setSub_subState p k 0 t)
    (fun _ _ _ ht => setReg_zero_keeps_zero ht _ _) _

/-! Requalification and counters (R427, R429). -/

/-- What a requalification reads and sets of a sub-port. -/
def qualReading (p k : Nat) (s : State) : List Nat × Nat × SubSt := (s.qualNow p, s.subState p k, s.subAt (p * 4 + k))

theorem startQual_reading : (startQual p k true false).Maps (qualReading p k)
    fun x => (x.1, 2, { x.2.2 with full := true, post := false, qual := x.1 }) := fun s =>
  Prod.ext (startQual_qualNow _ _ p s) (Prod.ext (startQual_state _ _ s) (startQual_sub _ _ s))

theorem startQual_keeps_reading {j : Nat} (h : k ≠ j) : (startQual p j true false).Keeps (qualReading p k) := fun s =>
  have hne : p * 4 + k ≠ p * 4 + j := by omega
  Prod.ext (startQual_qualNow _ _ p s) (Prod.ext (startQual_keeps_reg hne rfl _ _ _ s) (startQual_keeps hne rfl _ _ s))

theorem requal_reads (hk : k < 4) (hcarries : s.subCarries p k = true) :
    (run (requal p) s).subState p k = 2 ∧ ((run (requal p) s).subAt (p * 4 + k)).full = true ∧
      ((run (requal p) s).subAt (p * 4 + k)).qual = s.qualNow p := by
  have hmem : k ∈ (List.range 4).filter (s.subCarries p) := by
    simp only [List.mem_filter, List.mem_range, hk, hcarries, and_self]
  have hread := Eff.Maps.each (f := fun j => startQual p j true false) (List.nodup_range.filter _) hmem startQual_reading
    (fun j _ hj => startQual_keeps_reading hj.symm) s
  obtain ⟨-, hrest⟩ := Prod.ext_iff.mp hread
  obtain ⟨hstate, hsub⟩ := Prod.ext_iff.mp hrest
  exact ⟨hstate, congrArg SubSt.full hsub, congrArg SubSt.qual hsub⟩

theorem fpPerfClear_zero (hk : k < 4) {r : Fld} (hr : r ∈ [Fld.SP_TXFRM_count, .SP_RXFRM_count, .SP_TXBYTE_count, .SP_RXBYTE_count,
    .SP_RXFCS_count, .SP_RXDROP_count, .SP_FECCORR_count, .SP_FECUNC_count]) (s : State) :
    (run (fpPerfClear p) s).reg r (p * 4 + k) = 0 := by
  refine run_each_keeps (P := fun t => t.reg r (p * 4 + k) = 0) (fun _ _ t ht => setReg_zero_keeps_zero (setReg_zero_keeps_zero ht _ _) _ _) _ ?_
  refine run_each_reaches (P := fun t => t.reg r (p * 4 + k) = 0) (List.mem_range.mpr hk) (fun t => ?_) (fun j _ t ht => ?_) s
  · exact run_each_reaches (P := fun t => t.reg r (p * 4 + k) = 0) hr (fun t => setReg_zero_reads _ _ _)
      (fun _ _ _ ht => setReg_zero_keeps_zero ht _ _) t
  · exact run_each_keeps (P := fun t => t.reg r (p * 4 + k) = 0) (fun _ _ _ ht => setReg_zero_keeps_zero ht _ _) t ht

theorem fpPerfClear_lane_zero {l : Nat} (hl : l < 8) (s : State) :
    (run (fpPerfClear p) s).reg .FP_LANE_ERR_bits (p * 8 + l) = 0 ∧ (run (fpPerfClear p) s).reg .FP_LANE_RX_bits (p * 8 + l) = 0 := by
  rw [fpPerfClear, run_seq]
  refine run_each_reaches (P := fun t => t.reg .FP_LANE_ERR_bits (p * 8 + l) = 0 ∧ t.reg .FP_LANE_RX_bits (p * 8 + l) = 0)
    (List.mem_range.mpr hl) (fun t => ?_) (fun j _ t ⟨herr, hrx⟩ => ?_) _
  · exact ⟨setReg_zero_keeps_zero (setReg_zero_reads _ _ _) _ _, setReg_zero_reads _ _ _⟩
  · exact ⟨setReg_zero_keeps_zero (setReg_zero_keeps_zero herr _ _) _ _, setReg_zero_keeps_zero (setReg_zero_keeps_zero hrx _ _) _ _⟩

/-! Windows, drops and assays (R422-R425). -/

theorem windowEnd_passes {corrected : List Nat} {x : SubSt} {bits : Nat} (hx : x = s.subAt (p * 4 + k))
    (hbits : 2 ^ (if x.full then x.qual.getD 1 0 else x.qual.getD 2 0) = bits)
    (hlanes : ∀ l ∈ (subLanes (s.ways p) k).zipIdx,
      rateAbove (corrected.getD l.2 0) bits (x.qual.getD 5 0) (x.qual.getD 6 0) = false ∧
      (x.post = true → rateAbove (corrected.getD l.2 0) bits (x.qual.getD 3 0) (x.qual.getD 4 0) = false)) :
    (run (windowEnd p k corrected 0) s).subState p k = 3 ∧ (run (windowEnd p k corrected 0) s).reg .SP_STAT_attempts (p * 4 + k) = 0 ∧
      ((run (windowEnd p k corrected 0) s).subAt (p * 4 + k)).due = true := by
  have hcross : ¬((subLanes (s.ways p) k).zipIdx.map fun l => corrected.getD l.2 0).any
      (fun c => rateAbove c bits (x.qual.getD 5 0) (x.qual.getD 6 0)) = true := by
    rw [any_lanes]
    rintro ⟨l, hl, hcross⟩
    exact Bool.false_ne_true ((hlanes l hl).1.symm.trans hcross)
  have hassay : ¬(x.post && (((subLanes (s.ways p) k).zipIdx.map fun l => corrected.getD l.2 0).any
      (fun c => rateAbove c bits (x.qual.getD 3 0) (x.qual.getD 4 0)) || decide (x.qual.getD 0 0 < 0))) = true := by
    rw [Bool.and_eq_true, Bool.or_eq_true, any_lanes]
    rintro ⟨hpost, ⟨l, hl, hcross⟩ | hunc⟩
    · exact Bool.false_ne_true (((hlanes l hl).2 hpost).symm.trans hcross)
    · exact Nat.not_lt_zero _ (of_decide_eq_true hunc)
  rw [windowEnd, run_get]
  dsimp only
  rw [← hx, hbits, if_neg hassay, if_neg hcross, if_neg (not_not_intro rfl)]
  refine ⟨?_, ?_, ?_⟩
  · exact Eff.Maps.tail_const (Eff.Maps.head (Eff.Maps.head (setSub_subState p k 3) (.cons (setReg_keeps_field (by decide) _ _ _) <|
      .cons (fun _ => rfl) .nil)) .nil) s
  · exact Eff.Maps.tail_const (Eff.Maps.head (Eff.Maps.tail_const (Eff.Maps.head (setReg_maps _ _ _) (.cons (fun _ => rfl) .nil))) .nil) s
  · simp only [run_all_cons, run_all_nil, run_setSub, subAt_same]

theorem windowEnd_fails {corrected : List Nat} {uncorr : Nat} {x : SubSt} {bits : Nat} (hx : x = s.subAt (p * 4 + k))
    (hpost : x.post = false) (hbits : 2 ^ (if x.full then x.qual.getD 1 0 else x.qual.getD 2 0) = bits)
    (hlane : ∃ l ∈ (subLanes (s.ways p) k).zipIdx, rateAbove (corrected.getD l.2 0) bits (x.qual.getD 5 0) (x.qual.getD 6 0) = true) :
    (run (windowEnd p k corrected uncorr) s).reg .SP_STAT_cause (p * 4 + k) = 5 ∧
      (run (windowEnd p k corrected uncorr) s).reg .SP_STAT_attempts (p * 4 + k) = min (s.reg .SP_STAT_attempts (p * 4 + k) + 1) 15 := by
  rw [windowEnd, run_get]
  dsimp only
  rw [← hx, hbits, hpost, Bool.false_and, if_neg Bool.false_ne_true, if_pos (any_lanes.mpr hlane), run_all_cons, run_all_cons, run_all_nil]
  obtain ⟨hcause, hattempts, -⟩ := attemptFailed_reads (p := p) (k := k) 5
    (run (countWindow p k bits (subLanes (s.ways p) k) corrected uncorr) s)
  exact ⟨hcause, hattempts.trans (congrArg (fun a => min (a + 1) 15) (countWindow_keeps_reg (by decide) _ s))⟩

theorem portDegrade_degrades {lanes : List (Nat × Nat)} {uncorr : Nat} {x : SubSt} (hx : x = s.subAt (p * 4 + k)) (hstate : s.subState p k = 3)
    (hworse : (∃ l ∈ lanes, rateAbove l.1 l.2 (x.qual.getD 3 1) (x.qual.getD 4 4) = true) ∨ x.qual.getD 0 16 < uncorr) :
    (run (portDegrade p k lanes uncorr) s).subState p k = 4 ∧
      (run (portDegrade p k lanes uncorr) s).reg .SP_FECUNC_count (p * 4 + k) = (s.reg .SP_FECUNC_count (p * 4 + k) + uncorr) % 2 ^ 64 := by
  have hworse' : (lanes.any (fun l => rateAbove l.1 l.2 (x.qual.getD 3 1) (x.qual.getD 4 4)) || decide (x.qual.getD 0 16 < uncorr)) = true := by
    simpa only [Bool.or_eq_true, List.any_eq_true, decide_eq_true_eq] using hworse
  have hreport : ∀ r, (mayReport ||| mayHostRing).testBit (80 + r.ctorIdx) = false → ∀ i,
      (report 0x51 6 (p * 4 + k) 0 0 31 [] (portStack p)).Keeps (·.reg r i) ∧ (hostRing 0 17 (portParam p k)).Keeps (·.reg r i) :=
    fun r hr i => ⟨fun s => (report_may (mk := mayReport ||| mayHostRing) rfl _ _ _ _ _ _ _ _).reg r i hr rfl rfl s,
      fun s => (hostRing_may (mk := mayReport ||| mayHostRing) rfl _ _ _).reg r i hr rfl rfl s⟩
  have hstays := hreport .SP_STAT_state rfl (p * 4 + k)
  have hcount := hreport .SP_FECUNC_count rfl (p * 4 + k)
  rw [portDegrade, run_get]
  dsimp only
  rw [← hx, hworse', Bool.true_and, hstate]
  refine ⟨?_, ?_⟩
  · exact Eff.Maps.tail_const (.tail_const (.tail_const (.head (.head (setSub_subState p k 4) (.cons hstays.1 <| .cons hstays.2 .nil))
      (.cons (.when fun _ => hstays.1) .nil)))) s
  · exact Eff.Maps.tail (.each fun _ _ => .seq (addReg_keeps_field (by decide) _ _ _) (addReg_keeps_field (by decide) _ _ _))
      (.head (addReg_maps _ _ _) (.cons (addReg_keeps_field (by decide) _ _ _) <|
        .cons (.when fun _ => .cons (setReg_keeps_field (by decide) _ _ _) <| .cons hcount.1 <| .cons hcount.2 .nil) <|
        .cons (.when fun _ => hcount.1) .nil)) s

theorem subAssayEnd_reads {lasting : Bool} {r : Report} (hstate : s.subState p k = 5)
    (hrun : (s.assayerAt (96 + portStack p)).run = some r) (hcls : r.cls = 6) (hid : r.id = p * 4 + k) (hnext : (s.portAt p).next = none) :
    (run (subAssayEnd p k lasting) s).subState p k = (if (lasting || (s.assayerAt (96 + portStack p)).second) then 6 else 2) ∧
      ((lasting || (s.assayerAt (96 + portStack p)).second) = true → (run (subAssayEnd p k lasting) s).reg .SP_STAT_cause (p * 4 + k) = 7) := by
  rw [subAssayEnd, run_get]
  dsimp only
  rw [hrun]
  dsimp only
  generalize (lasting || (s.assayerAt (96 + portStack p)).second) = bad
  rw [if_neg (by simp [hcls, hid]), run_all_cons, run_all_cons, run_all_cons, run_all_cons, run_all_nil, run_get]
  have hrecords : May (mayAssayRecords ||| mayNextAssay) (assayRecords (96 + portStack p) (if bad then 2 else 1) r (assayUs 6)) :=
    assayRecords_may rfl _ _ _ _
  have hnextAssay : May (mayAssayRecords ||| mayNextAssay) (nextAssay (96 + portStack p)) := nextAssay_may rfl _
  set u := run (assayRecords (96 + portStack p) (if bad then 2 else 1) r (assayUs 6)) s with hu
  have huport : u.portAt p = s.portAt p := hrecords.portAt rfl rfl s _
  rw [hstate, beq_self_eq_true, run_when, if_pos rfl]
  have hvport : (if bad then assayFailed p k else startQual p k false true).Keeps (·.portAt p) := .ite (fun _ _ => rfl) fun _ _ => rfl
  set v := run (if bad then assayFailed p k else startQual p k false true) u with hv
  have hwport : (run (nextAssay (96 + portStack p)) v).portAt p = s.portAt p :=
    (hnextAssay.portAt rfl rfl v _).trans ((hvport u).trans huport)
  rw [hwport, hnext, run_opt_none, State.subState, hnextAssay.reg _ _ rfl rfl rfl, hnextAssay.reg _ _ rfl rfl rfl, hv]
  cases bad
  · exact ⟨startQual_state _ _ u, fun h => absurd h Bool.false_ne_true⟩
  · exact ⟨setSub_subState p k 6 _, fun _ => (setReg_keeps_field (by decide) _ _ _ _).trans (setReg_maps _ _ _ u)⟩

theorem portDownEff_reads {p : PortIx} {k : SubIx} {fourth : Bool} (hstate : s.subState p k = 3 ∨ s.subState p k = 4) :
    (run (portDownEff p k fourth s) s).subState p k = 1 ∧ ((run (portDownEff p k fourth s) s).subAt (p * 4 + k)).full = fourth ∧
      (run (portDownEff p k fourth s) s).reg .FP_STAT_link_downs p = min (s.reg .FP_STAT_link_downs p + 1) (2 ^ 16 - 1) := by
  have hlost : ∀ c e, May mayPathsLost e → (Eff.when c e).Keeps (·.reg .SP_STAT_state (p * 4 + k)) ∧
      (Eff.when c e).Keeps (·.subAt (p * 4 + k)) ∧ (Eff.when c e).Keeps (·.reg .FP_STAT_link_downs p) := fun c e he =>
    ⟨fun s => (May.when he).reg _ _ rfl rfl rfl s, fun s => (May.when he).subAt rfl rfl s _, fun s => (May.when he).reg _ _ rfl rfl rfl s⟩
  obtain ⟨hlostState, hlostSub, hlostDowns⟩ := hlost (s.subState p k == 3 || s.subState p k == 4) _ (pathsLost_may rfl p k s)
  have hring : May mayHostRing (hostRing 0 18 (portParam p k)) := hostRing_may rfl _ _ _
  rw [portDownEff, run_seq, portDown, run_get]
  dsimp only
  rw [if_pos hstate]
  refine ⟨(hlostState _).trans ?_, (congrArg SubSt.full (hlostSub _)).trans ?_, (hlostDowns _).trans ?_⟩
  · exact Eff.Maps.tail_const (.head (startTraining_state fourth) (.cons (fun s => hring.reg _ _ rfl rfl rfl s) .nil)) s
  · exact congrArg SubSt.full (Eff.Maps.tail (g := (·.subAt (p * 4 + k))) (fun _ => rfl) (.head (startTraining_sub fourth)
      (.cons (fun s => hring.subAt rfl rfl s _) .nil)) s)
  · exact Eff.Maps.head (satReg_maps _ _ _) (.cons (startTraining_keeps_field (by decide) _ _) <|
      .cons (fun s => hring.reg _ _ rfl rfl rfl s) .nil) s

/-! Frames of the port manager (R418, R430). -/

theorem sendFrame_out {len : Nat} {m : Msg} (s : State) : (run (sendFrame p k len m) s).out = s.out ++ [m] := rfl

theorem sendFrame_count {len : Nat} {m : Msg} :
    (sendFrame p k len m).Maps (·.reg .SP_TXFRM_count (p * 4 + k)) fun x => (x + 1) % 2 ^ 64 := fun s =>
  Eff.Maps.head (addReg_maps _ _ _) (.cons (addReg_keeps_field (by decide) _ _ _) <| .cons (fun _ => rfl) .nil) s

theorem solicitation_answered {p : PortIx} {k : SubIx} :
    (run (neighborSolicitationEff p k (s.v6Base + pathIx p k) s) s).out = s.out ++ [.advert (pathIx p k) (s.v6Base + pathIx p k)] ∧
    (run (neighborSolicitationEff p k (s.v6Base + pathIx p k) s) s).reg .SP_RXFRM_count (p * 4 + k) =
      (s.reg .SP_RXFRM_count (p * 4 + k) + 1) % 2 ^ 64 := by
  rw [neighborSolicitationEff, beq_self_eq_true]
  refine ⟨rfl, ?_⟩
  exact Eff.Maps.head (addReg_maps _ _ _) (.cons (.fresh (fun _ => rfl) fun _ => addReg_keeps_field (by decide) _ _ _) <|
    .cons (.when fun _ => .fresh (fun _ => rfl) fun _ => .cons (addReg_keeps_field (by decide) _ _ _) <|
      .cons (addReg_keeps_field (by decide) _ _ _) <| .cons (fun _ => rfl) .nil) .nil) s

end

/-- Settles O15: each event's effect on the sub-port's state and registers, read off its steps. -/
theorem portEventsComplete : Obligations.PortEventsComplete := by
  refine ⟨fun p s hlive => ?fpCfgEnWrite, fun p s hlive => ?fpCfgEnWriteOff, fun p s hlive => ?fpCtlRequal, fun p s hlive => ?fpPerfClear,
    fun p k s hlive hstate => ?trainingAttemptEnd, fun p k cause s a hlive hstate hcause ha => ?trainingAttemptFails,
    fun p k corrected s x hmanaged hstate hx hlanes => ?qualificationWindowEnd,
    fun p k corrected uncorr s x hmanaged hstate hx hpost hlane => ?qualificationWindowFails,
    fun p k lanes uncorr s x hmanaged hx hstate hworse => ?portDegrade, fun p k s r hmanaged hstate hrun hcls hid => ?subportAssayStart,
    fun p k lasting s r hmanaged hstate hrun hcls hid hnext => ?linkAssayEnd, fun p k fourth s hmanaged hstate => ?portDown,
    fun p k s hmanaged hstate => ?failedRetry, fun p lane up s e hmanaged hrecal hcarries he => ?recalibrationStep,
    fun p k s hmanaged hstate => ?lldpSend, fun p k s a hmanaged hstate ha => ?gratuitousArp, fun p k s hlive hcarries => ?neighborSolicitation⟩
  case fpCfgEnWrite =>
    refine ⟨_, rfl, ?_⟩
    rw [run_when, if_pos hlive]
    exact ⟨portEnable_en true s, fun k hk hused hstate => portEnable_trains hk hused hstate⟩
  case fpCfgEnWriteOff =>
    refine ⟨_, rfl, ?_⟩
    rw [run_when, if_pos hlive]
    exact ⟨portEnable_en false s, fun k hk => portEnable_off hk⟩
  case fpCtlRequal =>
    refine ⟨_, rfl, ?_⟩
    rw [run_when, if_pos hlive]
    exact fun k hk hcarries => requal_reads hk hcarries
  case fpPerfClear =>
    refine ⟨_, rfl, ?_⟩
    rw [run_when, if_pos hlive]
    exact ⟨fun k hk r hr => fpPerfClear_zero hk hr s, fun l hl => fpPerfClear_lane_zero hl s⟩
  case trainingAttemptEnd =>
    refine ⟨_, rfl, ?_⟩
    rw [run_when, if_pos (by simp [hlive, hstate]), trainingAttemptEndEff, if_pos (show (0 : Fin 5).val = 0 from rfl)]
    refine ⟨startQual_state _ _ s, ?_, ?_⟩ <;> rw [startQual_sub]
  case trainingAttemptFails =>
    refine ⟨_, rfl, ?_⟩
    rw [run_when, if_pos (by simp [hlive, hstate]), trainingAttemptEndEff, if_neg hcause, ha]
    obtain ⟨hreads, hattempts, hnext⟩ := attemptFailed_reads (p := p) (k := k) cause s
    exact ⟨hreads.trans (Nat.mod_eq_of_lt (by omega)), hattempts, hnext⟩
  case qualificationWindowEnd =>
    refine ⟨_, rfl, ?_⟩
    rw [run_when, if_pos (by simp [hmanaged, hstate])]
    exact windowEnd_passes hx rfl hlanes
  case qualificationWindowFails =>
    refine ⟨_, rfl, ?_⟩
    rw [run_when, if_pos (by simp [hmanaged, hstate])]
    exact windowEnd_fails hx hpost rfl hlane
  case portDegrade =>
    refine ⟨_, rfl, ?_⟩
    rw [run_when, if_pos hmanaged]
    exact portDegrade_degrades hx hstate hworse
  case subportAssayStart =>
    refine ⟨_, rfl, ?_⟩
    rw [run_when, if_pos (by simp [hmanaged, hstate, hrun, hcls, hid])]
    exact setSub_subState p k 5 s
  case linkAssayEnd =>
    refine ⟨_, rfl, ?_⟩
    rw [run_when, if_pos (by simp [hmanaged, hstate])]
    exact subAssayEnd_reads hstate hrun hcls hid hnext
  case portDown =>
    refine ⟨_, rfl, ?_⟩
    rw [run_when, if_pos hmanaged]
    exact portDownEff_reads hstate
  case failedRetry =>
    refine ⟨_, rfl, ?_⟩
    rw [run_when, if_pos (by simp [hmanaged, hstate])]
    exact ⟨startTraining_state true s, congrArg SubSt.full (startTraining_sub true s)⟩
  case recalibrationStep =>
    refine ⟨_, rfl, ?_⟩
    rw [run_when, if_pos (by simp [hmanaged, hrecal, hcarries]), recalibrationStepEff, run_setPort, portAt_same, he]
  case lldpSend =>
    refine ⟨_, rfl, ?_⟩
    rw [run_when, if_pos (by simp [hmanaged, hstate]), run_fresh]
    exact ⟨sendFrame_out _, sendFrame_count _⟩
  case gratuitousArp =>
    refine ⟨_, rfl, ?_⟩
    rw [run_when, if_pos (by simp [hmanaged, hstate]), gratuitousArpEff, ha, run_opt_some]
    exact ⟨sendFrame_out _, sendFrame_count _⟩
  case neighborSolicitation =>
    refine ⟨_, rfl, ?_⟩
    rw [run_when, if_pos (by simp [hlive, hcarries])]
    exact solicitation_answered

end Sys2Proof.Machine
end

section
/-! SUPPORT. Connections: what the operations of a connection's opening and end leave of it (R438-R445, R450). -/
set_option exponentiation.threshold 1000
namespace Sys2Proof.Machine

section
variable {e : Eff}

theorem May.keepsConn {α : Type} (h : May (butPart .conn) e) (i : Nat) (g : Conn → α) : e.Keeps fun s => g (s.connAt i) :=
  fun s => congrArg g (h.connAt rfl rfl s i)

theorem May.keepsFab {α : Type} (h : May (butPart .fab) e) (st : Nat) (g : FabSt → α) : e.Keeps fun s => g (s.fabAt st) :=
  fun s => congrArg g (h.fabAt rfl rfl s st)

theorem setConn_keeps {α : Type} (j : Nat) {f : Conn → Conn} (i : Nat) {g : Conn → α} (h : ∀ x, g (f x) = g x) :
    (setConn j f).Keeps fun s => g (s.connAt i) := by
  intro s
  rcases eq_or_ne j i with rfl | hne
  · simp only [run_setConn, connAt_same, h]
  · simp only [run_setConn, connAt_other _ _ _ _ hne]

theorem setFab_keeps {α : Type} (j : Nat) {f : FabSt → FabSt} (st : Nat) {g : FabSt → α} (h : ∀ x, g (f x) = g x) :
    (setFab j f).Keeps fun s => g (s.fabAt st) := by
  intro s
  rcases eq_or_ne j st with rfl | hne
  · simp only [run_setFab, fabAt_same, h]
  · simp only [run_setFab, fabAt_other _ _ _ _ hne]

theorem setConn_maps (i : Nat) (f : Conn → Conn) : (setConn i f).Maps (·.connAt i) f := fun _ => connAt_same ..

/-! Frames taken. -/

/-- Taking the first frame of a type runs its work on the state without the frame. -/
theorem run_rxType {s : State} {st type n : Nat} {x : RxItem} (h : RxNext s st type n x) (k : RxItem → Eff) :
    run (rxType st type k) s = run (k x) (run (setFab st fun y => { y with rx := y.rx.eraseIdx n }) s) := by
  rw [rxType, rxTake, run_get, h.first]
  dsimp only
  rw [h.frame, run_seq]

/-! Frames sent. -/

theorem sendConn_keeps_rx (i path peer len : Nat) (f : Frame) (st : Nat) :
    (sendConn i path peer len f).Keeps fun s => (s.fabAt st).rx :=
  .get fun _ => .cons (setFab_keeps _ _ fun x => by split <;> rfl) <| .cons ((sendFrame_may rfl _ _ _ _).keepsFab _ _) .nil

theorem sendControl_keeps_rx (i : Nat) (f : Frame) (st : Nat) : (sendControl i f).Keeps fun s => (s.fabAt st).rx :=
  .get fun _ => .opt fun _ _ => .fresh (fun _ => rfl) fun _ => sendConn_keeps_rx _ _ _ _ _ _

/-! A connection's end. -/

theorem freeConn_frees (i st : Nat) : (freeConn i st).Maps (·.connAt i) fun _ => {} := fun s => by
  rw [freeConn, run_get]
  exact Eff.Maps.head (g := (·.connAt i)) (h := fun _ => {}) (e := .upd (.conn i {})) (fun s => connAt_same s i {}) (.cons (.each fun _ _ =>
    (opEnd_may rfl _ _).keepsConn i id) <| .cons ((countConns_may rfl _).keepsConn i id) .nil) s

/-- A connection that is free stays so while connections are freed. -/
theorem freeConn_keeps_free {s : State} {i : Nat} (h : s.connAt i = {}) (j st : Nat) : (run (freeConn j st) s).connAt i = {} := by
  rcases eq_or_ne j i with rfl | hne
  · exact freeConn_frees j st s
  · have hkeeps : (freeConn j st).Keeps (·.connAt i) := .get fun _ => .cons (fun _ => connAt_other _ _ _ _ hne) <|
      .cons (.each fun _ _ => (opEnd_may rfl _ _).keepsConn i id) <| .cons ((countConns_may rfl _).keepsConn i id) .nil
    exact (hkeeps s).trans h

theorem drained?_keeps (fl ep i : Nat) : (drained? fl ep).Keeps (·.connAt i) := (drained?_may rfl _ _).keepsConn i id

/-! A connection's opening. -/

/-- Version 1 changes what waits on a connection and how its operations are numbered. -/
theorem enterV1_keeps {α : Type} {g : Conn → α} (h : ∀ c q n, g { c with queue := q, csn := n } = g c) (i : Nat) :
    (enterV1 i).Keeps fun s => g (s.connAt i) :=
  .get fun _ => .cons (setConn_keeps _ _ fun c => h c _ _) <| .cons (.each fun _ _ => .opt fun _ _ => (setOp_may rfl _ _).keepsConn _ _) <|
    .cons (.each fun _ _ => (opEnd_may rfl _ _).keepsConn _ _) .nil

theorem clampRate_keeps {α : Type} {g : Conn → α} (h : ∀ c r t, g { c with r := r, t := t } = g c) (i : Nat) :
    (clampRate i).Keeps fun s => g (s.connAt i) := .get fun _ => .when fun _ => setConn_keeps _ _ fun c => h c _ _

/-- What a responder's connection is as it is set up. -/
def handshake (c : Conn) : Nat × Nat × Nat × Nat := (c.phase, c.ver, c.peer, c.ack)

theorem initAck_keeps_rx (i st : Nat) : (initAck i).Keeps fun s => (s.fabAt st).rx := .get fun _ => sendControl_keeps_rx _ _ _

theorem respond_handshake (st i ver : Nat) (x : RxItem) (queue : List Pkt) :
    (respond st i ver x queue).Maps (fun s => handshake (s.connAt i)) fun _ => (2, ver, x.fr.srcConn, (x.fr.ipsn + 2 ^ 24 - 1) % 2 ^ 24) := by
  intro s
  rw [respond, run_fresh, run_get, run_all_cons, run_upd]
  refine (Eff.Keeps.cons (.when fun _ => enterV1_keeps (fun _ _ _ => rfl) i) (.cons ((countConns_may rfl _).keepsConn i handshake) <|
    .cons ((signReport_may rfl _).keepsConn i handshake) <| .cons ((initAck_may rfl _).keepsConn i handshake) .nil) _).trans ?_
  rw [connAt_same]
  rfl

theorem respond_keeps_rx (st i ver : Nat) (x : RxItem) (queue : List Pkt) (j : Nat) :
    (respond st i ver x queue).Keeps fun s => (s.fabAt j).rx :=
  .fresh (fun _ => rfl) fun _ => .get fun _ => .cons (fun _ => rfl) <| .cons (.when fun _ => (enterV1_may rfl _).keepsFab _ _) <|
    .cons ((countConns_may rfl _).keepsFab _ _) <| .cons ((signReport_may rfl _).keepsFab _ _) <| .cons (initAck_keeps_rx _ _) .nil

end

end Sys2Proof.Machine
end

section
/-! PROOFS. Brodit's connection events (18_fabric_transport.md). -/
set_option exponentiation.threshold 1000
namespace Sys2Proof.Machine

section
variable {s : State} {n i : Nat} {x : RxItem}

theorem initPkt_responds {st ver : Nat} (hkey : s.keyOk x.flask x.ep x.fr = true) (hencrypt : x.fr.encrypt = (s.jobAt x.flask).encrypt)
    (hmode : x.fr.keyMode = b2n (s.jobAt x.flask).jobMode) (hver : s.version x.fr = some ver) (hnone : s.connOf st x.flask x.ep = none)
    (hfree : s.freeConn = some i) : run (initPkt st x) s = run (respond st i ver x []) s := by
  simp only [initPkt, run_get, hkey, hencrypt, hmode, hver, hnone, hfree, bne_self_eq_false, Bool.or_self, Bool.not_true,
    Bool.false_eq_true, if_false]

/-- What an initiator's connection is as it opens. -/
def opening (c : Conn) : Nat × Nat × Nat × List Nat := (c.phase, c.ver, c.peer, c.paths)

theorem initAckPkt_opens (hphase : (s.connAt i).phase = 1) (hkey : s.keyOk x.flask x.ep x.fr = true)
    (hreport : (s.jobAt x.flask).jobMode = true ∨ x.fr.reportOk = true) :
    opening ((run (initAckPkt i x) s).connAt i) = (3, min 3 x.fr.verHi, x.fr.srcConn, x.fr.paths) := by
  have hgo : ¬(!s.keyOk x.flask x.ep x.fr || (!(s.jobAt x.flask).jobMode && !x.fr.reportOk)) = true := by
    rcases hreport with h | h <;> simp [hkey, h]
  rw [initAckPkt, run_get]
  dsimp only
  rw [if_neg (not_not_intro hphase), if_neg hgo, run_all_cons]
  refine (Eff.Keeps.cons (.when fun _ => enterV1_keeps (fun _ _ _ => rfl) i) (.cons (clampRate_keeps (fun _ _ _ => rfl) i) <|
    .cons ((signReport_may rfl _).keepsConn i opening) <| .cons ((sendControl_may rfl _ _).keepsConn i opening) .nil) _).trans ?_
  rw [run_setConn, connAt_same]
  rfl

theorem confirmPkt_opens {st : StackIx} (hnext : RxNext s st 4 n x) (hconn : x.conn = some i) (hphase : (s.connAt i).phase = 2)
    (hreport : (s.jobAt x.flask).jobMode = true ∨ x.fr.reportOk = true) : ((run (confirmPktEff st) s).connAt i).phase = 3 := by
  rw [confirmPktEff, run_rxType hnext, hconn, run_opt_some]
  set u := run (setFab st fun y => { y with rx := y.rx.eraseIdx n }) s
  have hphase' : (u.connAt i).phase = 2 := hphase
  have hgo : ¬(!(u.jobAt x.flask).jobMode && !x.fr.reportOk) = true := by
    rcases hreport with h | h
    · rw [show (u.jobAt x.flask).jobMode = true from h]
      simp
    · simp [h]
  rw [run_get, if_neg (not_not_intro hphase'), if_neg hgo, run_seq]
  exact (clampRate_keeps (fun _ _ _ => rfl) i _).trans (congrArg Conn.phase (setConn_maps i _ _))

theorem connLost_frees (i : Nat) : (connLost i).Maps (·.connAt i) fun _ => {} := fun s => by
  rw [connLost, run_get]
  exact Eff.Maps.head (freeConn_frees _ _) (.cons (fun _ => rfl) <| .cons ((report_may rfl _ _ _ _ _ _ _ _).keepsConn i id) <|
    .cons ((flaskRing_may rfl _ _ _).keepsConn i id) <| .cons (drained?_keeps _ _ i) .nil) s

theorem connLost_counts (s : State) : (run (connLost i) s).reg .FAB_STAT_conn_lost (s.connAt i).stack =
    min (s.reg .FAB_STAT_conn_lost (s.connAt i).stack + 1) (2 ^ 16 - 1) := by
  rw [connLost, run_get]
  exact Eff.Maps.tail ((freeConn_may rfl _ _).keepsReg rfl _ rfl rfl) (.head (satReg_maps _ _ _)
    (.cons ((report_may rfl _ _ _ _ _ _ _ _).keepsReg rfl _ rfl rfl) <| .cons ((flaskRing_may rfl _ _ _).keepsReg rfl _ rfl rfl) <|
      .cons ((drained?_may rfl _ _).keepsReg rfl _ rfl rfl) .nil)) s

theorem drainWindowEnd_frees {fl : FlaskIx} {ep : Fin 262144} (h : i ∈ s.connsWith fl ep) : (run (drainWindowEndEff fl ep s) s).connAt i = {} := by
  refine (drained?_keeps _ _ i _).trans (run_each_reaches (P := fun t => t.connAt i = {}) h (fun t => ?_) (fun j _ t ht => ?_) s)
  · exact freeConn_frees i _ _
  · exact freeConn_keeps_free (((sendControl_may rfl _ _).keepsConn i id t).trans ht) j _

end

/-- Settles O17: what each event leaves of its connection, read off its steps. -/
theorem broditConnectionEventsComplete : Obligations.BroditConnectionEventsComplete := by
  refine ⟨fun st s n i ver x hnext hkey hencrypt hmode hver hnone hfree => ?initPkt,
    fun st s n i x hnext hconn hphase hkey hreport => ?initAckPkt, fun st s n i x hnext hconn hphase hreport => ?confirmPkt,
    fun st s n i x hnext hconn hphase => ?refusePkt, fun st s n i x hnext hconn => ?closePkt, fun st s n i x hnext hconn => ?rekeyPkt,
    fun cn s hphase => ?oldPhaseKeyExpiry, fun cn s hphase hlive => ?initResend, fun cn s hphase hlive => ?setupTimeout,
    fun cn s hphase hout hlive => ?fabConnLost, fun cn s hidle hlive => ?idleClose, fun fl ep s hgone => ?drainWindowEnd,
    fun cn s c g hphase hlive hc hg => ?congestionTick⟩
  case initPkt =>
    refine ⟨_, rfl, ?_⟩
    rw [run_when, if_pos hnext.live, run_rxType hnext]
    have hresponds := initPkt_responds (s := run (setFab st fun y => { y with rx := y.rx.eraseIdx n }) s) (st := st)
      hkey hencrypt hmode hver hnone hfree
    rw [hresponds]
    refine ⟨(respond_keeps_rx _ _ _ _ _ _ _).trans (congrArg FabSt.rx (fabAt_same ..)), ?_⟩
    obtain ⟨hphase, hrest⟩ := Prod.ext_iff.mp (respond_handshake st i ver x [] (run (setFab st fun y => { y with rx := y.rx.eraseIdx n }) s))
    obtain ⟨hver', hrest⟩ := Prod.ext_iff.mp hrest
    obtain ⟨hpeer, hack⟩ := Prod.ext_iff.mp hrest
    exact ⟨hphase, hver', hpeer, hack⟩
  case initAckPkt =>
    refine ⟨_, rfl, ?_⟩
    rw [run_when, if_pos hnext.live, run_rxType hnext, hconn, run_opt_some]
    have hopens := initAckPkt_opens (s := run (setFab st fun y => { y with rx := y.rx.eraseIdx n }) s) hphase hkey hreport
    obtain ⟨hphase', hrest⟩ := Prod.ext_iff.mp hopens
    obtain ⟨hver, hrest⟩ := Prod.ext_iff.mp hrest
    obtain ⟨hpeer, hpaths⟩ := Prod.ext_iff.mp hrest
    exact ⟨hphase', hver, hpeer, hpaths⟩
  case confirmPkt =>
    refine ⟨_, rfl, ?_⟩
    rw [run_when, if_pos hnext.live]
    exact confirmPkt_opens hnext hconn hphase hreport
  case refusePkt =>
    refine ⟨_, rfl, ?_⟩
    rw [run_when, if_pos hnext.live, refusePktEff, run_rxType hnext, hconn, run_opt_some, run_get, run_when,
      if_pos (beq_iff_eq.mpr (show ((run (setFab _ _) s).connAt i).phase = 1 from hphase)), run_seq]
    exact (drained?_keeps _ _ i _).trans (freeConn_frees i _ _)
  case closePkt =>
    refine ⟨_, rfl, ?_⟩
    rw [run_when, if_pos hnext.live, closePktEff, run_rxType hnext, hconn, run_opt_some, run_seq]
    exact (drained?_keeps _ _ i _).trans (freeConn_frees i _ _)
  case rekeyPkt =>
    refine ⟨_, rfl, ?_⟩
    rw [run_when, if_pos hnext.live, rekeyPktEff, run_rxType hnext, hconn, run_opt_some, run_setConn, connAt_same]
    rfl
  case oldPhaseKeyExpiry =>
    refine ⟨_, rfl, ?_⟩
    rw [run_when, if_pos (by simpa using hphase), run_setConn, connAt_same]
  case initResend =>
    refine ⟨_, rfl, ?_⟩
    rw [run_when, if_pos (by simp [hphase, hlive]), initResendEff, run_seq]
    have hsent : ∀ (f : Frame) (t : State), (run (sendControl cn f) t).connAt cn = t.connAt cn := fun f =>
      (sendControl_may rfl cn f).keepsConn cn id
    rw [hsent, run_setConn, connAt_same]
    exact ⟨rfl, rfl⟩
  case setupTimeout =>
    refine ⟨_, rfl, ?_⟩
    rw [run_when, if_pos (by rcases hphase with h | h <;> simp [h, hlive]), setupTimeoutEff, run_seq]
    exact (drained?_keeps _ _ _ _).trans (freeConn_frees _ _ _)
  case fabConnLost =>
    refine ⟨_, rfl, ?_⟩
    rw [run_when, if_pos (by simp [hphase, hout, hlive])]
    exact ⟨connLost_frees _ s, connLost_counts s⟩
  case idleClose =>
    refine ⟨_, rfl, ?_⟩
    rw [run_when, if_pos (by simp [hidle, hlive])]
    exact Eff.Maps.tail_const (.head (freeConn_frees _ _) (.cons (drained?_keeps _ _ _) .nil)) s
  case drainWindowEnd =>
    refine ⟨_, rfl, ?_⟩
    rw [run_when, if_pos (decide_eq_true hgone)]
    exact fun i hi => drainWindowEnd_frees hi
  case congestionTick =>
    refine ⟨_, rfl, ?_⟩
    rw [run_when, if_pos (by simp [hphase, hlive]), congestionTick, run_get, run_setConn, connAt_same, ← hc, ← hg]
    dsimp only
    exact ⟨rfl, rfl, rfl, rfl⟩

end Sys2Proof.Machine
end

section
/-! PROOFS. Brodit operations: a SEND to a peer whose version-1 handshake has not ended. -/
set_option exponentiation.threshold 1000
namespace Sys2Proof.Machine

/-- The entry of a command ring that asks for a SEND of 100 bytes of the cluster's SRAM to ring 15 of endpoint 5. -/
def sendEntry : List Nat := [2 ^ 63 + 2 ^ 61 + 100, csramBase + 95 * 2 ^ 24 + 4096, 5 * 2 ^ 46 + 15]

/-- Stack 11 on the fabric, a job of flask 0 with endpoint 5 as its peer, and in the first command ring of cluster 95 a SEND to
it. The connection to the peer is a responder's, of version 1, and still waits for its CONFIRM. -/
def sendWaiting : State := { State.reset with
  misc := { ({} : Misc) with phase := 0x20, opNext := 4 }
  regs := [(regKey .FAB_CFG_en 11, 1), (regKey .FAB_CFG_mtu 11, 2)]
  cluster := [(95, { flask := some 0 })]
  members := [(0, 5)]
  job := [(0, { on := true, jobMode := true, ringOff := 128, ringEntries := 2, table := [{ ep := 5 }] })]
  conn := [(65534, { phase := 2, ver := 1, stack := 11, ep := 5 })]
  mem := (wordsBytes sendEntry).zipIdx.map fun x => (csramBase + 95 * 2 ^ 24 + 128 + x.2, x.1) }

/-- The SEND that its entry says. -/
def sendCommand : Cmd :=
  { valid := true, op := 4, len := 100, loc := csramBase + 95 * 2 ^ 24 + 4096, remote := 5 * 2 ^ 46 + 15 }

theorem sendWaiting_ready : CommandReady sendWaiting (95 : ClusterIx) (0 : Fin 13) 4 65534 sendCommand := by
  constructor <;> decide +kernel

theorem sendWaiting_reads : (sendWaiting.readResult (srcOf (ringIss sendWaiting (95 : ClusterIx) (0 : Fin 13))) true
    (some ((sendWaiting.flaskOf (95 : ClusterIx)).getD 16)) sendCommand.loc sendCommand.len).status = 0 := by
  decide +kernel

/-- Version 1 has no SEND: the operation ends, and nothing of it waits on the connection. -/
theorem sendWaiting_queues_nothing : ((run (takeCommand 95 0 4) sendWaiting).connAt 65534).queue = [] := by
  decide +kernel

/-- A SEND is one packet. -/
theorem packetsOf_send_length (id mtu : Nat) (data : List Byte) : (packetsOf id mtu sendCommand data).length = 1 := rfl

/-- Refutes O18: a SEND is taken while a connection of version 1 is still in its handshake (phase 2, which the premise lets
through), and it ends with UNKNOWN_OP instead of waiting on the connection. -/
theorem not_broditOperationsComplete : ¬ Obligations.BroditOperationsComplete := by
  unfold Obligations.BroditOperationsComplete
  rintro ⟨-, -, -, hsend, -⟩
  obtain ⟨t, ht, hqueued⟩ := hsend 95 0 sendWaiting 65534 sendCommand _ sendWaiting_ready (by decide +kernel) rfl sendWaiting_reads
  obtain rfl : run (takeCommand 95 0 4) sendWaiting = t := Host.Outcome.next.inj ht
  have hlength := congrArg List.length hqueued.queue
  rw [sendWaiting_queues_nothing, List.length_append, queued, List.length_map, packetsOf_send_length] at hlength
  simp at hlength

end Sys2Proof.Machine
end

section
/-! SUPPORT. What firmware does for a request it takes, one lemma for each effect that several requests share
(20_mailbox_protocol.md, 23_bring_up.md). -/
set_option exponentiation.threshold 1000
namespace Sys2Proof.Machine

/-- What holds once a due request was carried out holds of the next state. -/
theorem served {s : State} {f op : Nat} {r : Req} {k : Req → Eff} {P : State → Prop} (hr : RequestDue s f op r)
    (ho : (opRow op).isSome) (h : P (run (k r) s)) : ∃ t, finish (withReq f op k) s = .next t ∧ P t :=
  ⟨_, rfl, by rwa [run_withReq hr ho]⟩

/-- A response stands while its function's state, record and page stand. -/
theorem Answered.congr {t u : State} {f st : Nat} {r : Req} {d : Bool} {b : List Byte} (h : Answered t f r st d b)
    (hstate : u.reg .MB_STATE_state f = t.reg .MB_STATE_state f) (hfn : u.fnAt f = t.fnAt f) (hpage : u.mbox = t.mbox) :
    Answered u f r st d b := by
  have hbytes : ∀ o n, u.mboxBytes f o n = t.mboxBytes f o n := fun o n => by rw [State.mboxBytes, State.mboxBytes, hpage]
  exact { done := hstate.trans h.done, free := hfn ▸ h.free, kept := hfn ▸ h.kept, code := hbytes .. ▸ h.code
          length := hbytes .. ▸ h.length, flags := hbytes .. ▸ h.flags, tag := hbytes .. ▸ h.tag, status := hbytes .. ▸ h.status
          body := (hbytes ..).trans h.body }

section
variable {s : State} {f : Nat} {r : Req} {e : Eff}

/-- What leaves the function's record alone may come before the answer. -/
theorem answer_after (he : e.Keeps (·.fnAt f)) (h : (s.fnAt f).run = some r) (st : Nat) :
    Answered (run (answer f st) (run e s)) f r st false [] :=
  run_answer (by rw [show (run e s).fnAt f = s.fnAt f from he s]; exact h) st

theorem respond_after (he : e.Keeps (·.fnAt f)) (h : (s.fnAt f).run = some r) (b : List Byte) :
    Answered (run (respond' f 0 b) (run e s)) f r 0 false (padTo8 b) :=
  run_respond (by rw [show (run e s).fnAt f = s.fnAt f from he s]; exact h) b

end

theorem May.keepsFn {e : Eff} (h : May (butPart .fn) e) (f : Nat) : e.Keeps (·.fnAt f) := fun s => h.fnAt rfl rfl s f

/-! The configuration block (R556, R558). -/

theorem cfg_writeCfg (g : List Byte → List Byte) (s : State) :
    (run (writeCfg g) s).cfg = stampBlock (field s.cfgBlock 8 8 + 1) (g s.cfgBlock) := by
  simp [writeCfg, run_get, run_all_cons, setMisc]

theorem writeCfg_keeps_misc {α : Type} {g : Misc → α} (h : ∀ m k, g { m with cfgSlot := k } = g m) (w : List Byte → List Byte) :
    (writeCfg w).Keeps fun s => g s.misc := fun s => by
  simp [writeCfg, run_get, run_all_cons, setMisc, h]

theorem moduleCap_congr {s t : State} (h : t.cfg = s.cfg) : t.moduleCap = s.moduleCap := by
  have hblock : t.cfgBlock = s.cfgBlock := by rw [State.cfgBlock, State.cfgBlock, h]
  rw [State.moduleCap, State.moduleCap, State.legacyByte, State.legacyByte, hblock]

theorem hostBytes_congr {s t : State} (h : t.hmem = s.hmem) (f a len : Nat) : t.hostBytes f a len = s.hostBytes f a len := by
  rw [State.hostBytes, State.hostBytes, h]

/-! Image banks (R466). -/

theorem imgBank_setImgBank (k : Nat) (g : ImgBank → ImgBank) (s : State) :
    (run (setImgBank k g) s).imgBank k = g (s.imgBank k) := by
  by_cases h : k = 0 <;> simp [setImgBank, setFw, State.imgBank, h]

theorem imgBank_setImgBank_other {k j : Nat} (hk : k = 0 ↔ ¬j = 0) (g : ImgBank → ImgBank) (s : State) :
    (run (setImgBank j g) s).imgBank k = s.imgBank k := by
  by_cases h : k = 0 <;> by_cases h' : j = 0 <;> simp_all [setImgBank, setFw, State.imgBank]

theorem imgBank_setPreferred (k j : Nat) (s : State) : (run (setFw fun x => { x with preferred := j }) s).imgBank k = s.imgBank k := by
  simp [setFw, State.imgBank]

theorem imgBank_congr {s t : State} (h : t.fw = s.fw) (k : Nat) : t.imgBank k = s.imgBank k := by
  rw [State.imgBank, State.imgBank, h]

theorem imageLog_keeps_bank (k : Nat) : imageLog.Keeps (·.imgBank k) := fun s =>
  imgBank_congr ((imageLog_may (mk := mayImageLog) rfl).fw rfl rfl s) k

theorem respondWith_imgBank (f st : Nat) (b : List Byte) (d : Bool) (s : State) (k : Nat) :
    (run (respondWith f st b d) s).imgBank k = s.imgBank k := imgBank_congr (respondWith_fw ..) k

end Sys2Proof.Machine
end

section
/-! PROOFS. The requests on ports, jobs, power, firmware and the log (17_fabric_ports.md, 18_fabric_transport.md, 19_firmware.md,
25_thermal_and_cooling.md). -/
set_option exponentiation.threshold 1000
namespace Sys2Proof.Machine

/-! A membership table in force on a flask that is not leaving its job (R437, R439). -/

/-- The flask's table and epoch, in a job it is not leaving. -/
def TableInForce (fl n : Nat) (ms : List Member) (s : State) : Prop :=
  (s.jobAt fl).leaving = false ∧ (s.jobAt fl).table = ms ∧ (s.jobAt fl).epoch = n

section
variable {fl n : Nat} {ms : List Member} {s : State}

theorem setJob_keeps_table {g : JobSt → JobSt} (hl : ∀ j, (g j).leaving = j.leaving) (ht : ∀ j, (g j).table = j.table)
    (he : ∀ j, (g j).epoch = j.epoch) (h : TableInForce fl n ms s) : TableInForce fl n ms (run (setJob fl g) s) := by
  have hat : (run (setJob fl g) s).jobAt fl = g (s.jobAt fl) := by simp [setJob, State.jobAt]
  rw [TableInForce, hat, hl, ht, he]
  exact h

theorem TableInForce.congr {u : State} (h : TableInForce fl n ms s) (hu : u.jobAt fl = s.jobAt fl) : TableInForce fl n ms u := by
  rw [TableInForce, hu]
  exact h

theorem drained?_keeps_table (ep : Nat) (h : TableInForce fl n ms s) : TableInForce fl n ms (run (drained? fl ep) s) := by
  rw [drained?, run_get, run_when]
  split
  · rw [run_seq, run_seq]
    have h1 := setJob_keeps_table (g := fun j => { j with gone := j.gone.filter (· != ep) }) (fun _ => rfl) (fun _ => rfl)
      (fun _ => rfl) h
    have h2 := h1.congr ((flaskRing_may (mk := mayFlaskRing) rfl fl 8 ep).jobAt rfl rfl _ fl)
    rw [run_get]
    dsimp only
    rw [run_when, if_neg (by rw [h2.1, Bool.false_and]; decide)]
    exact h2
  · exact h

theorem removePeer_keeps_table (ep : Nat) (h : TableInForce fl n ms s) : TableInForce fl n ms (run (removePeer fl ep) s) := by
  rw [removePeer, run_get, run_all_cons, run_all_cons, run_all_cons, run_all_nil]
  refine drained?_keeps_table ep ?_
  refine run_each_keeps (fun i _ t ht => ?_) _ (setJob_keeps_table (fun _ => rfl) (fun _ => rfl) (fun _ => rfl) h)
  split
  · exact ht.congr (by simp [setConn, State.jobAt])
  · exact ht.congr ((freeConn_may (mk := mayFreeConn) rfl _ _).jobAt rfl rfl _ fl)

/-- A table put into force is the one asked for (R437). -/
theorem commitTable_table (h : (s.jobAt fl).leaving = false) : TableInForce fl n ms (run (commitTable fl n ms) s) := by
  rw [commitTable, run_get, run_all_cons, run_all_cons, run_all_cons, run_all_nil]
  refine run_each_keeps (fun ep _ t ht => removePeer_keeps_table ep ht) _ ?_
  exact ⟨by simpa [setJob, State.jobAt] using h, by simp [setJob, State.jobAt], by simp [setJob, State.jobAt]⟩

end

/-- A commit that nothing refuses finds the flask in a job it is not leaving (R437, R439). -/
theorem commitRefusal_leaving {s : State} {j : JobSt} {epoch count : Nat} {es : List (List Byte)}
    (h : s.commitRefusal j epoch count es = 0) : j.leaving = false := by
  by_contra hl
  rw [Bool.not_eq_false] at hl
  rw [State.commitRefusal, if_pos hl] at h
  repeat' split at h
  all_goals exact absurd h (by decide)

/-- A trip that ends leaves no trip shown (R596). -/
theorem endTrip_untripped (st : Nat) (s : State) : (run (endTrip st) s).reg .TH_STAT_tripped st = 0 := by
  rw [endTrip, run_get, run_all_cons]
  have hlater : (Eff.all [setReg .TH_STAT_cause st 0, setTh st (fun x => { setBoot := x.setBoot, setTemp := x.setTemp }),
      Eff.when ((s.stackAt st).causes &&& 8 != 0) (.seq (setStack st fun x => { x with reinit := true }) (releaseFp st 8)),
      applyClocks st, showAlarm]).Keeps (·.reg .TH_STAT_tripped st) :=
    .cons (setReg_keeps_field (by decide) _ _ _) (.cons (fun _ => by simp [setTh]) (.cons (.when fun _ => .seq (fun _ => by simp [setStack])
      fun _ => by simp [releaseFp, setStack]) (.cons ((applyClocks_may rfl st).keepsReg rfl st rfl rfl)
      (.cons ((showAlarm_may rfl).keepsReg rfl st rfl rfl) .nil))))
  exact (hlater _).trans (setReg_zero_reads ..)

/-- The image and the answer of an FW_UPDATE's chunk, given its version check and its outcome (R468, R614). -/
def imageStored (f k last : Nat) (img : List Byte) (low ok : Bool) : Eff := Eff.all [setImgBank k (fun _ => { valid := ok, bytes := img }),
  if low || (last == 1 && !ok) then answer f stDenied
  else .seq (Eff.when (last == 1) imageLog) (respond' f 0 (byte (b2n ok)))]

/-- The receive rings of a flask's clusters start empty (R459). -/
def cringsCleared (fl : Nat) : Eff := .get fun s => Eff.each ((List.range 96).filter (fun c => s.flaskOf c == some fl)) fun c =>
  Eff.each (List.range 13) fun k => .upd (.cring (c * 13 + k) 0)

section
variable (f : FnIx) {s : State} {r : Req}

theorem portConfig_completes (hr : RequestDue s f 0x0401 r) (hbody : portFieldsBad r.body = false) :
    ∃ t, exec (.portConfig f) s = .next t ∧ Answered t f r 0 false [] ∧
      t.cfg = stampBlock (field s.cfgBlock 8 8 + 1) (portBlock r.body s.cfgBlock) := by
  refine served hr rfl ?_
  have hcfg : May mayConfigPort (.get fun s : State =>
      Eff.when (s.managed (field r.body 0 1)) (configPort (field r.body 0 1) (s.portCfg (field r.body 0 1)))) :=
    .get fun _ => .when (configPort_may rfl _ _)
  rw [doPortConfig, if_neg (by simp [hbody]), run_all_cons, run_all_cons, run_all_cons, run_all_nil]
  refine ⟨answer_after (hcfg.fnAt rfl rfl · _) ?_ 0, ?_⟩
  · rw [(writeCfg_may (mk := mayWriteCfg) rfl _).fnAt rfl rfl]
    exact hr.posted
  · rw [answer, respond', respondWith_cfg, hcfg.cfg rfl rfl, cfg_writeCfg]

theorem portStatus_completes {g : Nat} (hr : RequestDue s f 0x0402 r) (hg : g = field r.body 0 1) (hlow : g ≤ 59)
    (hlive : s.portLive g = true) :
    ∃ t, exec (.portStatus f) s = .next t ∧ Answered t f r 0 false (padTo8 (s.portBody g (Config.free s.tick))) ∧
      t.reg .FP_STAT_link_downs g = 0 := by
  refine served hr rfl ?_
  subst hg
  rw [doPortStatus, run_get, if_neg (by omega), if_neg (by simp [hlive]), run_fresh, run_seq]
  have hans := run_respond (s := applyUpd .tick s) (f := f) (r := r) (by simpa using hr.posted)
    (s.portBody (field r.body 0 1) (Config.free s.tick))
  exact ⟨hans.congr (setReg_keeps_field (by decide) _ _ _ _) (by simp [setReg]) (by simp [setReg]), setReg_zero_reads ..⟩

theorem endpointSet_completes {e : Nat} (hr : RequestDue s f 0x0403 r) (he : e = field r.body 0 4)
    (hrange : e ≤ 262143 ∨ e = 0xFFFFFFFF) (hjob : s.anyJob = false) :
    ∃ t, exec (.endpointSet f) s = .next t ∧ Answered t f r 0 false (padTo8 (leBytes e 4)) ∧
      t.misc.endpoint = (if e = 0xFFFFFFFF then none else some e) ∧
      t.cfg = stampBlock (field s.cfgBlock 8 8 + 1) (putAt s.cfgBlock 24 (leBytes e 4)) := by
  refine served hr rfl ?_
  subst he
  rw [doEndpointSet, run_get, if_neg (by omega), if_neg (by simp [hjob]), run_all_cons, run_all_cons, run_all_cons, run_all_nil]
  refine ⟨respond_after ((writeCfg_may rfl _).keepsFn f) (by simpa [setMisc] using hr.posted) _, ?_, ?_⟩
  · rw [respond', respondWith_misc]
    refine (writeCfg_keeps_misc (g := Misc.endpoint) (fun _ _ => rfl) _ _).trans ?_
    simp [setMisc]
  · rw [respond', respondWith_cfg, cfg_writeCfg]
    simp [setMisc, State.cfgBlock]

theorem jobJoin_completes (hr : RequestDue s f 0x0410 r) (hlink : s.misc.linkUp = true) (hmode : field r.body 4 1 ≤ 1)
    (henc : field r.body 5 1 ≤ 1) (hcount : field r.body 28 1 ≤ 16) (hoff : field r.body 20 4 % 128 = 0)
    (hend : field r.body 20 4 + 13 * field r.body 24 4 * 128 ≤ 2 ^ 24)
    (hrings : ∀ k < field r.body 28 1, s.rxRingBad r.body k = false)
    (hlicence : field r.body 5 1 = 1 → bit s.misc.licence 0 = true) (hendpoint : s.misc.endpoint.isSome)
    (hjob : (s.jobAt r.flask).on = false) :
    ∃ t, exec (.jobJoin f) s = .next t ∧ Answered t f r 0 false [] ∧ t.jobAt r.flask =
      { on := true, job := field r.body 0 4, jobMode := field r.body 4 1 == 1, encrypt := field r.body 5 1 == 1,
        policy := s.hostBytes f (field r.body 8 8) (field r.body 16 4), ringOff := field r.body 20 4,
        ringEntries := field r.body 24 4, rings := (List.range (field r.body 28 1)).map (rxRingOf r.body) } := by
  refine served hr rfl ?_
  have hbad : (List.range (field r.body 28 1)).any (s.rxRingBad r.body) = false := by
    simp only [List.any_eq_false, List.mem_range]
    exact fun k hk => by simp [hrings k hk]
  have hlic : ¬(field r.body 5 1 = 1 ∧ bit s.misc.licence 0 = false) := fun h => by simp [hlicence h.1] at h
  have hrefuse : ¬(s.misc.endpoint.isNone = true ∨ (s.jobAt r.flask).on = true) := by
    simp [Option.isNone_iff_eq_none, Option.isSome_iff_ne_none.mp hendpoint, hjob]
  rw [jobJoin, run_get, if_neg (by rw [hbad]; simp; omega), if_neg hlic, if_neg hrefuse, hostIn, run_get, if_pos hlink,
    run_all_cons, run_all_cons, run_all_cons, run_all_nil]
  have hfn : (cringsCleared r.flask).Keeps (·.fnAt f) := .get fun _ => .each fun _ _ => .each fun _ _ => .upd fun _ => by simp
  have hjobs : (cringsCleared r.flask).Keeps (·.jobAt r.flask) :=
    .get fun _ => .each fun _ _ => .each fun _ _ => .upd fun _ => by simp [State.jobAt]
  refine ⟨answer_after hfn (by simpa using hr.posted) 0, ?_⟩
  rw [answer, respond', respondWith_jobAt]
  exact (hjobs _).trans (by simp [State.jobAt])

theorem jobLeave_completes (hr : RequestDue s f 0x0411 r) (hroom : (s.fnAt f).deferred.length < 16)
    (hon : (s.jobAt r.flask).on = true) (hleaving : (s.jobAt r.flask).leaving = false) :
    ∃ t, exec (.jobLeave f) s = .next t ∧ Answered t f r 0 true [] ∧
      (t.fnAt f).deferred = (s.fnAt f).deferred ++ [{ op := r.op, tag := r.tag, work := .jobLeave r.flask }] ∧
      ((s.peersOf r.flask = [] ∧ (s.jobAt r.flask).gone = []) → (t.jobAt r.flask).on = false) := by
  refine served hr rfl ?_
  rw [doJobLeave, run_get, if_neg (by simp [hon]), if_neg (by simp [hleaving])]
  obtain ⟨hans, hlist⟩ := run_deferReq hr.posted hroom (leaveJob_may (mk := mayLeaveJob) rfl r.flask) rfl rfl (.jobLeave r.flask) []
  refine ⟨hans, hlist, fun ⟨hpeers, hgone⟩ => ?_⟩
  rw [deferReq, run_get, if_neg (by omega), run_all_cons, run_all_cons, run_all_cons, run_all_nil, respondWith_jobAt, leaveJob, run_get,
    run_all_cons, run_all_cons, run_all_cons, run_all_nil, if_pos (by simp [hpeers, hgone])]
  simp [State.jobAt]

theorem jobKey_completes {p : Option (List Byte)} {ok : Bool} (hr : RequestDue s f 0x0412 r) (hlink : s.misc.linkUp = true)
    (hlength : field r.body 8 4 = 512) (hphase : field r.body 12 1 ≤ 1) (hon : (s.jobAt r.flask).on = true)
    (hleaving : (s.jobAt r.flask).leaving = false) (hp : p = Config.unwrap (s.hostBytes f (field r.body 0 8) 512))
    (hok : ok = p.any (fun p => p.length == 40 && field p 0 4 == (s.jobAt r.flask).job && field p 4 1 == field r.body 12 1 && field p 5 3 == 0)) :
    ∃ t, exec (.jobKey f) s = .next t ∧ Answered t f r (if ok then 0 else stDenied) false [] ∧
      (ok = true → (t.jobAt r.flask).phase = field r.body 12 1 ∧
        (t.jobAt r.flask).keys = ((s.jobAt r.flask).keys.filter (fun k => k.1 != field r.body 12 1)) ++ [(field r.body 12 1, (p.getD []).drop 8)]) ∧
      (ok = false → t.job = s.job) := by
  refine served hr rfl ?_
  rw [jobKey, run_get, if_neg (by omega), if_neg (by simp [hon, hleaving]), hostIn, run_get, if_pos hlink, ← hp]
  have hdenied := run_answer hr.posted stDenied
  cases p with
  | none =>
    subst hok
    exact ⟨hdenied, nofun, fun _ => respondWith_job ..⟩
  | some p =>
    dsimp only
    split <;> rename_i h
    · have hno : ok = false := by
        rw [hok]
        rcases h with h | h | h | h <;> simp [h]
      subst hno
      exact ⟨hdenied, nofun, fun _ => respondWith_job ..⟩
    · have hyes : ok = true := by
        simp only [not_or, not_not] at h
        simp [hok, h]
      subst hyes
      rw [run_seq]
      refine ⟨run_answer (by simpa [setJob] using hr.posted) 0, fun _ => ?_, nofun⟩
      rw [answer, respond', respondWith_jobAt]
      simp [setJob, State.jobAt]

theorem membershipCommit_completes {n : Nat} {es : List (List Byte)} (hr : RequestDue s f 0x0413 r) (hlink : s.misc.linkUp = true)
    (hn : n = field r.body 4 4) (hes : es = entriesOf (s.hostBytes f (field r.body 8 8) (64 * n)) n)
    (hrefuse : s.commitRefusal (s.jobAt r.flask) (field r.body 0 4) n es = 0) :
    ∃ t, exec (.membershipCommit f) s = .next t ∧ Answered t f r 0 false (padTo8 (leBytes (field r.body 0 4) 4)) ∧
      (t.jobAt r.flask).table = es.map memberOf ∧ (t.jobAt r.flask).epoch = field r.body 0 4 := by
  refine served hr rfl ?_
  rw [membershipCommit, hostIn, run_get, if_pos hlink, run_get, ← hn, ← hes, if_neg (by rw [hrefuse]; decide), run_seq]
  obtain ⟨-, htable, hepoch⟩ := commitTable_table (n := field r.body 0 4) (ms := es.map memberOf) (commitRefusal_leaving hrefuse)
  refine ⟨respond_after ((commitTable_may rfl _ _ _).keepsFn f) hr.posted _, ?_, ?_⟩
  · rw [respond', respondWith_jobAt, htable]
  · rw [respond', respondWith_jobAt, hepoch]

theorem pwrLimit_completes {c : Nat} (hr : RequestDue s f 0x0502 r) (hc : c = field r.body 0 4)
    (hrange : c = 0 ∨ (1200 ≤ c ∧ c ≤ 4400)) :
    ∃ t, exec (.pwrLimit f) s = .next t ∧ Answered t f r 0 false (padTo8 (leBytes t.moduleCap 4)) ∧
      t.cfg = stampBlock (field s.cfgBlock 8 8 + 1) (putAt s.cfgBlock 20 (leBytes c 4)) := by
  refine served hr rfl ?_
  subst hc
  rw [doPwrLimit, if_neg (by omega), run_seq, run_get]
  refine ⟨?_, ?_⟩
  · rw [respond', moduleCap_congr (respondWith_cfg ..)]
    exact respond_after ((writeCfg_may rfl _).keepsFn f) hr.posted _
  · rw [respond', respondWith_cfg, cfg_writeCfg]

theorem fwActivate_completes {k : Nat} (hr : RequestDue s f 0x0602 r) (hk : k = field r.body 0 1) (hlow : k ≤ 1)
    (hvalid : (s.imgBank k).valid = true) :
    ∃ t, exec (.fwActivate f) s = .next t ∧ Answered t f r 0 false [] ∧ t.fw.preferred = k ∧
      t.imgBank k = { s.imgBank k with trial := true, trialCount := 0 } := by
  refine served hr rfl ?_
  rw [doFwActivate, run_get, ← hk, if_neg (by omega), if_neg (by simp [hvalid]), run_all_cons, run_all_cons, run_all_cons, run_all_cons,
    run_all_cons, run_all_nil]
  refine ⟨answer_after ((imageLog_may rfl).keepsFn f) (by simpa [setImgBank, setFw] using hr.posted) 0, ?_, ?_⟩
  · rw [answer, respond', respondWith_fw, (imageLog_may (mk := mayImageLog) rfl).fw rfl rfl]
    simp [setFw]
  · rw [answer, respond', respondWith_imgBank]
    refine (imageLog_keeps_bank k _).trans ((imgBank_setPreferred k k _).trans ?_)
    rw [imgBank_setImgBank_other (by omega), imgBank_setImgBank]

theorem thermAckTrip_completes {u : Nat} {x : Shut} (hr : RequestDue s f 0x0501 r) (hu : u = field r.body 0 1) (hlow : u ≤ 12)
    (hx : s.unacked u = some x) (hseq : x.seq = field r.body 8 8) :
    ∃ t, exec (.thermAckTrip f) s = .next t ∧ Answered t f r 0 false [] ∧ (u < 12 → t.reg .TH_STAT_tripped u = 0) ∧
      t.shut = s.shut.map (fun y => if y.seq = x.seq then { y with acked := true } else y) := by
  refine served hr rfl ?_
  have hm : May mayEndTrip (Eff.when (decide (u < 12)) (endTrip u)) := .when (endTrip_may rfl u)
  rw [thermAck, run_get, ← hu, if_neg (by omega), hx]
  dsimp only
  rw [if_neg (by simp [hseq]), run_all_cons, run_all_cons, run_all_cons, run_all_nil]
  refine ⟨answer_after (hm.fnAt rfl rfl · _) (by simpa using hr.posted) 0, fun h => ?_, ?_⟩
  · rw [answer, respond', respondWith_reg (r := .TH_STAT_tripped) (h := rfl), run_when, if_pos (by simpa using h)]
    exact endTrip_untripped u _
  · rw [answer, respond', respondWith_shut, hm.shut rfl rfl]
    simp

theorem fwUpdate_completes {k last n : Nat} {img : List Byte} {low ok : Bool} (hr : RequestDue s f 0x0601 r)
    (hlink : s.misc.linkUp = true) (hk : k = field r.body 0 1) (hlast : last = field r.body 1 1) (hn : n = field r.body 16 4)
    (hbank : k ≤ 1) (hlast1 : last ≤ 1) (hlen : n ≤ 2 ^ 20) (hchunk : last = 0 → n % 4096 = 0)
    (hidle : k ≠ s.fw.running ∨ s.misc.phase = 0x30)
    (himg : img = putChunk (s.imgBank k).bytes (field r.body 4 4) (s.hostBytes f (field r.body 8 8) n))
    (hlow : low = (Config.imageSec img).any (fun v => decide (v < s.sec.floor)))
    (hok : ok = (last == 1 && Config.imageOk img && !low)) :
    ∃ t, exec (.fwUpdate f) s = .next t ∧ t.imgBank k = { valid := ok, bytes := img } ∧
      (low = false → (last = 1 → ok = true) → Answered t f r 0 false (padTo8 (byte (b2n ok)))) ∧
      ((low = true ∨ last = 1 ∧ ok = false) → Answered t f r stDenied false []) := by
  refine served hr rfl ?_
  have hrun : run (fwUpdate f r) s = run (imageStored f k last img low ok) s := by
    rw [fwUpdate, ← hk, ← hlast, ← hn, if_neg (by omega), run_get, if_neg (by omega), hostIn, run_get, if_pos hlink, run_get]
    dsimp only
    rw [← himg, hok, hlow, imageStored]
    cases Config.imageSec img <;> rfl
  rw [hrun, imageStored, run_all_cons, run_all_cons, run_all_nil]
  have hpost : ((run (setImgBank k fun _ => { valid := ok, bytes := img }) s).fnAt f).run = some r := by
    simpa [setImgBank, setFw] using hr.posted
  have hlog : (Eff.when (last == 1) imageLog).Keeps (·.imgBank k) := .when fun _ => imageLog_keeps_bank k
  have hlogfn : (Eff.when (last == 1) imageLog).Keeps (·.fnAt f) := .when fun _ => (imageLog_may rfl).keepsFn f
  split <;> rename_i hc
  · refine ⟨?_, fun h1 h2 => ?_, fun _ => run_answer hpost _⟩
    · rw [answer, respond', respondWith_imgBank, imgBank_setImgBank]
    · simp only [h1, Bool.false_or, Bool.and_eq_true, beq_iff_eq] at hc
      simp [h2 hc.1] at hc
  · refine ⟨?_, fun _ _ => respond_after hlogfn hpost _, fun h => ?_⟩
    · rw [run_seq, respond', respondWith_imgBank]
      exact (hlog _).trans (imgBank_setImgBank ..)
    · rcases h with h | ⟨h1, h2⟩
      · simp [h] at hc
      · simp [h1, h2] at hc

theorem logConfig_completes {k : Nat} (hr : RequestDue s f 0x0610 r) (hk : k < 8) (hc : field r.body 0 4 = 2 ^ (12 + k)) :
    ∃ t, exec (.logConfig f) s = .next t ∧ Answered t f r 0 false [] ∧ t.misc.logCap = 2 ^ (12 + k) ∧ t.dropped = 0 ∧
      t.cfg = stampBlock (field s.cfgBlock 8 8 + 1) (putAt s.cfgBlock 28 (leBytes (2 ^ (12 + k)) 4)) := by
  refine served hr rfl ?_
  have hsize : (List.range 8).any (fun j => field r.body 0 4 == 2 ^ (12 + j)) = true :=
    List.any_eq_true.mpr ⟨k, List.mem_range.mpr hk, by simp [hc]⟩
  have hm : May mayStartRing (.get fun s : State => startRing s.misc.logBase (field r.body 0 4)) := .get fun _ => startRing_may rfl _ _
  rw [doLogConfig, if_neg (by rw [hsize]; decide), run_all_cons, run_all_cons, run_all_cons, run_all_cons, run_all_cons, run_all_nil, ← hc]
  refine ⟨answer_after (hm.fnAt rfl rfl · _) ?_ 0, ?_, ?_, ?_⟩
  · have := (writeCfg_may (mk := mayWriteCfg) rfl fun d => putAt d 28 (leBytes (field r.body 0 4) 4)).fnAt rfl rfl s f
    simpa [setMisc, this] using hr.posted
  · rw [answer, respond', respondWith_misc, hm.misc rfl rfl]
    simp [setMisc]
  · rw [answer, respond', respondWith_dropped, hm.dropped rfl rfl]
    simp
  · rw [answer, respond', respondWith_cfg, hm.cfg rfl rfl]
    simp [setMisc, cfg_writeCfg]

/-- Bytes put into host memory are read back. -/
theorem hostBytes_stored (a : Nat) (d : List Byte) (s : State) :
    (applyUpd (.hbytes (f * 2 ^ 64 + a) d) s).hostBytes f a d.length = d := by
  refine List.ext_getElem (by simp [State.hostBytes]) fun k h1 h2 => ?_
  simp only [State.hostBytes, List.getElem_map, List.getElem_range, applyUpd_hbytes_hmem]
  exact putBytes_get ..

theorem logFetch_completes {recs : List (List Nat)} (hr : RequestDue s f 0x0611 r) (hlink : s.misc.linkUp = true)
    (hrecs : recs = (s.flashLog.drop (max (field r.body 0 4) s.flashOldest)).take (field r.body 4 4)) :
    ∃ t, exec (.logFetch f) s = .next t ∧ t.hostBytes f (field r.body 8 8) (recs.flatMap wordsBytes).length = recs.flatMap wordsBytes ∧
      Answered t f r 0 false (padTo8 (leBytes recs.length 4 ++ leBytes 0 4 ++ leBytes s.flashOldest 8)) := by
  refine served hr rfl ?_
  rw [doLogFetch, run_get]
  dsimp only
  rw [← hrecs, hostOut, run_get, if_pos hlink, run_seq]
  refine ⟨?_, run_respond (by simpa using hr.posted) _⟩
  rw [respond', hostBytes_congr (respondWith_hmem ..)]
  exact hostBytes_stored f _ _ s

theorem traceQuery_completes {d : List Byte} (hr : RequestDue s f 0x0613 r) (hlink : s.misc.linkUp = true)
    (hd : d = Config.traceTable.take (field r.body 8 4)) :
    ∃ t, exec (.traceQuery f) s = .next t ∧ t.hostBytes f (field r.body 0 8) d.length = d ∧
      Answered t f r 0 false (padTo8 (leBytes d.length 4)) := by
  refine served hr rfl ?_
  rw [doTraceQuery, ← hd, hostOut, run_get, if_pos hlink, run_seq]
  refine ⟨?_, run_respond (by simpa using hr.posted) _⟩
  rw [respond', hostBytes_congr (respondWith_hmem ..)]
  exact hostBytes_stored f _ _ s

theorem traceSet_completes (hr : RequestDue s f 0x0612 r) (hlow : field r.body 0 512 < 2 ^ 3840) :
    ∃ t, exec (.traceSet f) s = .next t ∧ Answered t f r 0 false [] ∧ t.fw.trace = field r.body 0 512 := by
  refine served hr rfl ?_
  rw [doTraceSet, if_neg (Nat.not_le.mpr hlow), run_seq]
  refine ⟨run_answer (by simpa [setFw] using hr.posted) 0, ?_⟩
  rw [answer, respond', respondWith_fw]
  simp [setFw]

end

/-- Settles O3: each request does what firmware does for it, and its answer comes last. -/
theorem fabricPowerAndFirmwareRequestsComplete : Obligations.FabricPowerAndFirmwareRequestsComplete :=
  ⟨fun f _ _ => portConfig_completes f, fun f _ _ _ => portStatus_completes f, fun f _ _ _ => endpointSet_completes f,
    fun f _ _ => jobJoin_completes f, fun f _ _ => jobLeave_completes f, fun f _ _ _ _ => jobKey_completes f,
    fun f _ _ _ _ => membershipCommit_completes f, fun f _ _ _ _ => thermAckTrip_completes f, fun f _ _ _ => pwrLimit_completes f,
    fun f _ _ _ _ _ _ _ _ => fwUpdate_completes f, fun f _ _ _ => fwActivate_completes f, fun f _ _ _ => logConfig_completes f,
    fun f _ _ _ => logFetch_completes f, fun f _ _ => traceSet_completes f, fun f _ _ _ => traceQuery_completes f⟩

end Sys2Proof.Machine
end

section
/-! SUPPORT. Requests on memory: regions that fills reach, withdrawn frames, and the test window (07_stacked_memory.md,
08_error_correction.md). -/
set_option exponentiation.threshold 1000
namespace Sys2Proof.Machine

/-- A deferred request that there is room for: its beginning, then its place in the list, then the response (R488, R490). -/
theorem run_deferReq_eq {s : State} {f : Nat} {r : Req} (hd : (s.fnAt f).deferred.length < 16) (e : Eff) (w : Work) (b : List Byte) :
    run (deferReq f r e w b) s = run (respondWith f 0 b true)
      (run (setFn f fun x => { x with deferred := x.deferred ++ [{ op := r.op, tag := r.tag, work := w }] }) (run e s)) := by
  rw [deferReq, run_get, if_neg (by omega), run_all_cons, run_all_cons, run_all_cons, run_all_nil]

/-! Regions filled one after the other (R227). -/

theorem zeroRegion_keeps_init {i j : Nat} (h : j ≠ i) (k : Nat) : (zeroRegion i k).Keeps (·.reg .ECC_INIT_regions j) :=
  .cons ((zeroRange_may rfl _ _).keepsReg rfl _ rfl rfl) (.cons (.each fun _ _ => .get fun _ => .upd fun _ => by simp)
    (.cons ((setSlice_may rfl _ _).keepsReg rfl _ rfl rfl) (.cons (.get fun _ => setReg_elsewhere h _ _ _) .nil)))

theorem State.Filled.zeroOther {s : State} {sl r : Nat} (h : s.Filled sl r) (hr : r < 16) (i k : Nat) :
    (run (Machine.zeroRegion i k) s).Filled sl r := by
  rcases eq_or_ne sl i with rfl | hi
  · exact h.zeroRegion hr k
  · obtain ⟨hinit, hzero⟩ := h
    refine ⟨by rwa [show (run (Machine.zeroRegion i k) s).reg .ECC_INIT_regions sl = _ from zeroRegion_keeps_init hi k s],
      fun j hj => ?_⟩
    rw [byteAt_zeroRegion, hzero j hj, ite_self]

theorem filled_of_regions {rs : List Nat} {x : Nat} (hx : x ∈ rs) {sl r : Nat → Nat} (hr : r x < 16) (s : State) :
    (run (Eff.each rs fun x => zeroRegion (sl x) (r x)) s).Filled (sl x) (r x) := by
  obtain ⟨l₁, l₂, rfl⟩ := List.append_of_mem hx
  rw [run_each, List.foldl_append, List.foldl_cons, ← run_each (f := fun x => zeroRegion (sl x) (r x)),
    ← run_each (f := fun x => zeroRegion (sl x) (r x))]
  exact run_each_keeps (P := fun t => t.Filled (sl x) (r x)) (fun y _ t ht => ht.zeroOther hr (sl y) (r y)) _
    (filled_zeroRegion (sl x) hr _)

theorem State.Filled.region {s : State} {sl x : Nat} (h : s.Filled sl (x % 16)) (hsl : sl = x / 16) {a : Nat} (ha : x * 2 ^ 26 ≤ a)
    (hb : a < (x + 1) * 2 ^ 26) : s.byteAt a = 0 := by
  have := h.2 (a - x * 2 ^ 26) (by omega)
  rwa [show sl * 2 ^ 30 + x % 16 * 2 ^ 26 + (a - x * 2 ^ 26) = a by omega] at this

theorem State.Filled.congr {s t : State} {sl r : Nat} (h : s.Filled sl r) (hmem : t.mem = s.mem)
    (hinit : t.reg .ECC_INIT_regions sl = s.reg .ECC_INIT_regions sl) : t.Filled sl r :=
  ⟨by rw [hinit]; exact h.1, fun j hj => by rw [State.byteAt, hmem]; exact h.2 j hj⟩

theorem State.Filled.setReg {s : State} {sl r : Nat} (h : s.Filled sl r) {r' : Fld} (hr : r' ≠ .ECC_INIT_regions) (i v : Nat) :
    (run (Machine.setReg r' i v) s).Filled sl r :=
  h.congr (by rw [run_setReg, applyUpd_mem _ _ rfl]) (setReg_keeps_field hr i v sl s)

theorem answer_filled {s : State} {sl r : Nat} (h : s.Filled sl r) (f st : Nat) : (run (answer f st) s).Filled sl r :=
  h.congr (respondWith_mem ..) (respondWith_reg (r := .ECC_INIT_regions) (h := rfl) ..)

/-! Frames withdrawn (R237). -/

section
variable {s : State} {k : Nat}

theorem setDesc_keeps_retire {g : PageDesc → PageDesc} (hg : ∀ d, d.retire = true → (g d).retire = true) (j : Nat)
    (h : (s.pageAt k).retire = true) : ((run (setDesc j g) s).pageAt k).retire = true := by
  rcases eq_or_ne k j with rfl | hj
  · rw [pageAt_setDesc]
    exact hg _ h
  · have hwrite : May mayFwWrite (.get fun s : State => Eff.opt (s.flaskOf (j / 32768 / 12)) fun fl =>
        fwWrite ((s.kvAt fl).descBase + j * 16) (wordsBytes (s.pageAt j).words)) := .get fun _ => .opt fun _ => fwWrite_may rfl _ _
    rw [setDesc, run_seq, hwrite.pageAt rfl rfl]
    simpa [setPage, State.pageAt, Store.get_set_other _ _ _ hj.symm] using h

theorem retireFrame_keeps (j : Nat) : (retireFrame j).Keeps fun s => (s.pageAt k).retire :=
  fun s => congrArg PageDesc.retire ((retireFrame_may (mk := mayRetireFrame) rfl j).pageAt rfl rfl s k)

theorem withdraw_keeps_retire (j : Nat) (h : (s.pageAt k).retire = true) : ((run (withdraw j) s).pageAt k).retire = true := by
  have hlast : (Eff.get fun s => Eff.when ((s.pageAt j).state == 6) (retireFrame j)).Keeps fun s => (s.pageAt k).retire :=
    .get fun _ => .when fun _ => retireFrame_keeps j
  have hslice : ∀ g : SliceSt → SliceSt, ((run (setSlice (j / 32768) g) s).pageAt k).retire = true := fun g => by
    simpa [setSlice, State.pageAt] using h
  rw [withdraw, run_get, run_all_cons, run_all_cons, run_all_cons, run_all_nil]
  refine (hlast _).trans ?_
  split
  · exact setDesc_keeps_retire (fun _ _ => rfl) j (hslice _)
  · exact setDesc_keeps_retire (fun _ _ => rfl) j (hslice _)

theorem withdraw_retires (k : Nat) (s : State) : ((run (withdraw k) s).pageAt k).retire = true := by
  have hlast : (Eff.get fun s => Eff.when ((s.pageAt k).state == 6) (retireFrame k)).Keeps fun s => (s.pageAt k).retire :=
    .get fun _ => .when fun _ => retireFrame_keeps k
  rw [withdraw, run_get, run_all_cons, run_all_cons, run_all_cons, run_all_nil]
  refine (hlast _).trans ?_
  split <;> exact congrArg PageDesc.retire (pageAt_setDesc ..)

theorem retired_of_withdrawn {l : List Nat} (hk : k ∈ l) (s : State) : ((run (Eff.each l withdraw) s).pageAt k).retire = true :=
  run_each_reaches (P := fun t => (t.pageAt k).retire = true) hk (withdraw_retires k) (fun j _ _ => withdraw_keeps_retire j) s

end

/-! The test window (R235). -/

/-- What the window's read leaves in its registers. -/
theorem twRead_leaves {sl w : Nat} {s : State} (hw : w = sl * 2 ^ 27 + s.reg .ECC_TW_ADDR_word sl) (hdef : s.undefWord w = false) :
    (run (twRead sl) s).reg .ECC_TW_CHK_check sl = (s.rawCheck w).toNat ∧
    (run (twRead sl) s).reg .ECC_TW_DATA_data sl =
      (BitVec.ofNat 64 (s.rawWord (w * 8)) ^^^ BitVec.ofNat 64 (s.markAt w).flips.toNat).toNat := by
  rw [twRead, run_get]
  dsimp only
  rw [← hw, hdef, if_neg Bool.false_ne_true, if_neg Bool.false_ne_true]
  generalize BitVec.ofNat 64 (s.rawWord (w * 8)) ^^^ BitVec.ofNat 64 (s.markAt w).flips.toNat = d
  generalize ht : run (Eff.all _) s = t
  obtain ⟨hdata, hcheck, -, -⟩ := rawLoad_leaves _ _ _ _ _ _ s ht.symm
  exact ⟨hcheck.trans (Nat.mod_eq_of_lt (s.rawCheck w).isLt), hdata.trans (Nat.mod_eq_of_lt d.isLt)⟩

/-- What the window's write leaves in memory. -/
theorem twWrite_leaves {sl w : Nat} {s : State} (hw : w = sl * 2 ^ 27 + s.reg .ECC_TW_ADDR_word sl) :
    (run (twWrite sl) s).rawBytes (w * 8) 8 = leBytes (s.reg .ECC_TW_DATA_data sl) 8 ∧
    (run (twWrite sl) s).markAt w = { cleanMark s w with raw := some (BitVec.ofNat 16 (s.reg .ECC_TW_CHK_check sl)) } := by
  rw [twWrite, run_get]
  extract_lets w'
  obtain rfl : w = w' := hw
  obtain ⟨hbytes, hmark, -⟩ := rawStore_leaves w' (leBytes (s.reg .ECC_TW_DATA_data sl) 8)
    { cleanMark s w' with raw := some (BitVec.ofNat 16 (s.reg .ECC_TW_CHK_check sl)) }
    (e := .get fun s => let m := Store.get 0 s.wb (w' / 8)
      if bit m (w' % 8) then .upd (.wb (w' / 8) (setBit (setBit m (w' % 8) false) (8 + w' % 8) true)) else .skip)
    (.get fun _ => .ite (.upd (by dsimp only [Upd.bit]; rfl)) .skip) s rfl
  exact ⟨hbytes, hmark⟩

end Sys2Proof.Machine
end

section
/-! PROOFS. The requests on memory and the far tier (07_stacked_memory.md, 08_error_correction.md, 16_ladle_dma.md,
20_mailbox_protocol.md). -/
set_option exponentiation.threshold 1000
namespace Sys2Proof.Machine

section
variable (f : FnIx) {s : State} {r : Req}

theorem memInit_completes {rs : List Nat} (hr : RequestDue s f 0x0201 r) (hrs : rs = u32s (r.body.drop 8) (field r.body 0 4))
    (hown : ∀ x ∈ rs, x < 18432 ∧ s.ownerAt x = some r.flask ∧ s.stackHeld (x / 16 / 96) = false) :
    ∃ t, exec (.memInit f) s = .next t ∧ Answered t f r 0 false [] ∧
      ∀ x ∈ rs, bit (t.reg .ECC_INIT_regions (x / 16)) (x % 16) = true ∧ ∀ a, x * 2 ^ 26 ≤ a → a < (x + 1) * 2 ^ 26 → t.byteAt a = 0 := by
  refine served hr rfl ?_
  have howned : ¬rs.any (fun x => decide (18432 ≤ x) || s.ownerAt x != some r.flask) = true := by
    simp only [List.any_eq_true, not_exists, not_and]
    exact fun x hx => by simp [(hown x hx).2.1, (hown x hx).1]
  have hup : ¬rs.any (fun x => s.stackHeld (x / 16 / 96)) = true := by
    simp only [List.any_eq_true, not_exists, not_and]
    exact fun x hx => by simp [(hown x hx).2.2]
  rw [doMemInit, run_get, ← hrs, if_neg howned, if_neg hup, run_seq]
  refine ⟨answer_after (.each fun x _ => (zeroRegion_may rfl _ _).keepsFn f) hr.posted 0, fun x hx => ?_⟩
  have hfilled := answer_filled (filled_of_regions (sl := (· / 16)) (r := (· % 16)) hx (Nat.mod_lt _ (by decide)) s) f 0
  exact ⟨hfilled.1, fun a ha hb => hfilled.region rfl ha hb⟩

theorem pageRetire_completes {ps ks new : List Nat} (hr : RequestDue s f 0x0202 r) (hroom : (s.fnAt f).deferred.length < 16)
    (hps : ps = u32s (r.body.drop 8) (field r.body 0 4)) (hrange : ∀ p ∈ ps, p < 2 ^ 26 ∧ p / 2 ^ 22 ≤ 11 ∧ p / 2 ^ 15 % 128 ≤ 95)
    (hks : ks = nub (ps.map keyOfPfn))
    (hnew : new = ks.filter (fun k => !s.retired (k / 32768) (k / 256 % 128) (k % 256) && !(s.pageAt k).retire))
    (hcount : ∀ k ∈ new, s.retireCount (k / 32768)
      + (s.page.filter (fun p => p.1 / 32768 == k / 32768 && p.2.retire && p.2.state != 6)).length
      + (new.filter (fun j => j / 32768 == k / 32768)).length ≤ 32) :
    ∃ t, exec (.pageRetire f) s = .next t ∧ Answered t f r 0 true [] ∧
      (t.fnAt f).deferred = (s.fnAt f).deferred ++ [{ op := r.op, tag := r.tag, work := .pageRetire ks }] ∧
      ∀ k ∈ new, (t.pageAt k).retire = true := by
  refine served hr rfl ?_
  have hlow : ¬ps.any (fun p => decide (2 ^ 26 ≤ p) || decide (11 < p / 2 ^ 22) || decide (95 < p / 2 ^ 15 % 128)) = true := by
    simp only [List.any_eq_true, not_exists, not_and, Bool.or_eq_true, decide_eq_true_eq]
    intro p hp
    have := hrange p hp
    omega
  have hfree : ¬new.any (fun k => decide (32 < s.retireCount (k / 32768)
      + (s.page.filter (fun p => p.1 / 32768 == k / 32768 && p.2.retire && p.2.state != 6)).length
      + (new.filter (fun j => j / 32768 == k / 32768)).length)) = true := by
    simp only [List.any_eq_true, not_exists, not_and, decide_eq_true_eq, Nat.not_lt]
    exact hcount
  rw [doPageRetire, run_get]
  dsimp only
  rw [← hps, ← hks, ← hnew, if_neg hlow, if_neg hfree]
  have hbegin : May mayWithdraw (Eff.each new withdraw) := .each fun _ => withdraw_may rfl _
  obtain ⟨hans, hlist⟩ := run_deferReq hr.posted hroom hbegin rfl rfl (.pageRetire ks) []
  refine ⟨hans, hlist, fun k hk => ?_⟩
  rw [run_deferReq_eq hroom, respondWith_pageAt]
  simpa [setFn, State.pageAt] using retired_of_withdrawn hk s

theorem testGrant_completes {rg sl : Nat} (hr : RequestDue s f 0x0203 r) (hrg : rg = field r.body 4 4) (hsl : sl = rg / 16)
    (hfl : field r.body 0 1 ≤ 15) (hexists : s.regionExists rg = true) (hlow : rg < 18432)
    (hown : s.ownerAt rg = some (field r.body 0 1)) (hgrant : s.flag .ECC_TWG_grant sl = false) (hcount : s.grants (field r.body 0 1) < 4) :
    ∃ t, exec (.testGrant f) s = .next t ∧ Answered t f r 0 false [] ∧ t.reg .ECC_TWG_grant sl = 1 ∧
      t.reg .ECC_TWG_flask sl = field r.body 0 1 ∧ t.reg .ECC_TWG_region sl = rg % 16 ∧
      bit (t.reg .ECC_INIT_regions sl) (rg % 16) = false := by
  refine served hr rfl ?_
  rw [doTestGrant, run_get]
  dsimp only
  rw [← hrg, ← hsl, if_neg (by simp [hexists]; omega), if_neg (by simp [hown]; omega), if_neg (by simp [hgrant]; omega),
    run_all_cons, run_all_cons, run_all_cons, run_all_cons, run_all_cons, run_all_nil]
  have hans : ∀ t : State, (t.fnAt f).run = some r → Answered (run (answer f 0) t) f r 0 false [] := fun t h => run_answer h 0
  refine ⟨hans _ (by simpa using hr.posted), ?_, ?_, ?_, ?_⟩
  · rw [answer, respond', respondWith_reg (r := .ECC_TWG_grant) (h := rfl)]
    simp [reg_applyUpd, Fld.info]
  · rw [answer, respond', respondWith_reg (r := .ECC_TWG_flask) (h := rfl)]
    simp [reg_applyUpd, Fld.info]
    omega
  · rw [answer, respond', respondWith_reg (r := .ECC_TWG_region) (h := rfl)]
    simp [reg_applyUpd, Fld.info]
  · rw [answer, respond', respondWith_reg (r := .ECC_INIT_regions) (h := rfl), run_setReg, reg_applyUpd_same, bit_testBit,
      Nat.testBit_mod_two_pow, ← bit_testBit, bit_setBit]
    simp

theorem testRevoke_completes {rg sl : Nat} (hr : RequestDue s f 0x0204 r) (hrg : rg = field r.body 4 4) (hsl : sl = rg / 16)
    (hfl : field r.body 0 1 ≤ 15) (hexists : s.regionExists rg = true) (hlow : rg < 18432) (hgrant : s.reg .ECC_TWG_grant sl = 1)
    (hflask : s.reg .ECC_TWG_flask sl = field r.body 0 1) (hregion : s.reg .ECC_TWG_region sl = rg % 16) :
    ∃ t, exec (.testRevoke f) s = .next t ∧ Answered t f r 0 false [] ∧ t.reg .ECC_TWG_grant sl = 0 ∧
      bit (t.reg .ECC_INIT_regions sl) (rg % 16) = true ∧ ∀ a, rg * 2 ^ 26 ≤ a → a < (rg + 1) * 2 ^ 26 → t.byteAt a = 0 := by
  refine served hr rfl ?_
  have hflag : s.flag .ECC_TWG_grant sl = true := by simp [State.flag, hgrant]
  rw [doTestRevoke, run_get, ← hrg, ← hsl, if_neg (by simp [hexists]; omega), if_pos ⟨by omega, hflag, hflask, hregion⟩, run_seq]
  have hzeroed := filled_zeroRegion sl (Nat.mod_lt rg (by decide) : rg % 16 < 16) s
  have hfilled := answer_filled (hzeroed.setReg (r' := .ECC_TWG_grant) (by decide) sl 0) f 0
  have hrun : run (endGrant sl) s = run (setReg .ECC_TWG_grant sl 0) (run (zeroRegion sl (rg % 16)) s) := by
    rw [endGrant, run_get, run_when, if_pos hflag, run_seq, hregion]
  rw [← hrun] at hfilled
  refine ⟨answer_after ((endGrant_may rfl sl).keepsFn f) hr.posted 0, ?_, hfilled.1, fun a ha hb => hfilled.region hsl ha hb⟩
  rw [answer, respond', respondWith_reg (r := .ECC_TWG_grant) (h := rfl), hrun]
  exact setReg_zero_reads ..

/-- A word of granted memory is the one its slice's address register names. -/
theorem word_of_address {a sl : Nat} (hsl : sl = a / 2 ^ 30) : a / 8 = sl * 2 ^ 27 + a % 2 ^ 30 / 8 % 2 ^ 27 := by
  omega

theorem field_lt (d : List Byte) (off n : Nat) : field d off n < 256 ^ n :=
  (leNat_lt _).trans_le (Nat.pow_le_pow_right (by decide) (List.length_take_le ..))

theorem rawBytes_respondWith (f st : Nat) (b : List Byte) (d : Bool) (s : State) (a n : Nat) :
    (run (respondWith f st b d) s).rawBytes a n = s.rawBytes a n := by
  simp only [State.rawBytes, respondWith_byteAt]

theorem twBody_respondWith (f st : Nat) (b : List Byte) (d : Bool) (s : State) (sl : Nat) :
    (run (respondWith f st b d) s).twBody sl = s.twBody sl := by
  rw [State.twBody, State.twBody, respondWith_reg (r := .ECC_TW_DATA_data) (h := rfl), respondWith_reg (r := .ECC_TW_CHK_check) (h := rfl),
    respondWith_reg (r := .ECC_TW_CHK_verdict) (h := rfl), respondWith_reg (r := .ECC_TW_CHK_syndrome) (h := rfl)]

theorem eccTestRead_completes {a sl : Nat} (hr : RequestDue s f 0x0205 r) (hop : field r.body 0 1 = 0) (ha : a = field r.body 8 8)
    (hsl : sl = a / 2 ^ 30) (halign : a % 8 = 0) (hgrant : s.granted a = true) (hflask : s.reg .ECC_TWG_flask sl = r.flask)
    (hup : s.stackHeld (sl / 96) = false) :
    ∃ t, exec (.eccTestRead f) s = .next t ∧ Answered t f r 0 false (padTo8 (t.twBody sl)) ∧
      t.reg .ECC_TW_ADDR_word sl = a % 2 ^ 30 / 8 ∧ (s.undefWord (a / 8) = false →
        t.reg .ECC_TW_CHK_check sl = (s.rawCheck (a / 8)).toNat ∧
        t.reg .ECC_TW_DATA_data sl = (BitVec.ofNat 64 (s.rawWord a) ^^^ BitVec.ofNat 64 (s.markAt (a / 8)).flips.toNat).toNat) := by
  refine served hr rfl ?_
  rw [eccTest, run_get]
  dsimp only
  rw [← ha, ← hsl, if_neg (by simp [hop, b2n]), if_neg (by omega), if_neg (by simp [hgrant, hflask]), if_neg (by simp [hup]),
    run_all_cons, run_all_cons, run_all_cons, run_all_nil, if_neg Bool.false_ne_true, run_get]
  generalize hu : run (setReg .ECC_TW_ADDR_word sl (a % 2 ^ 30 / 8)) s = u
  have haddr : u.reg .ECC_TW_ADDR_word sl = a % 2 ^ 30 / 8 % 2 ^ 27 := by rw [← hu, run_setReg, reg_applyUpd_same]; rfl
  have hfn : u.fnAt f = s.fnAt f := by rw [← hu]; simp
  have hread := twRead_may (mk := mayTwRead) rfl sl
  refine ⟨?_, ?_, fun hdef => ?_⟩
  · rw [respond', twBody_respondWith]
    exact run_respond (by rw [hread.fnAt rfl rfl, hfn]; exact hr.posted) _
  · rw [respond', respondWith_reg (r := .ECC_TW_ADDR_word) (h := rfl), hread.reg _ _ rfl rfl rfl, haddr]
    omega
  · have hword : a / 8 = sl * 2 ^ 27 + u.reg .ECC_TW_ADDR_word sl := haddr ▸ word_of_address hsl
    have hundef : u.undefWord (a / 8) = false := by rw [← hu]; exact hdef
    obtain ⟨hcheck, hdata⟩ := twRead_leaves hword hundef
    rw [respond', respondWith_reg (r := .ECC_TW_CHK_check) (h := rfl), respondWith_reg (r := .ECC_TW_DATA_data) (h := rfl), hcheck, hdata,
      show a / 8 * 8 = a by omega, ← hu]
    exact ⟨rfl, rfl⟩

theorem eccTestWrite_completes {a sl : Nat} (hr : RequestDue s f 0x0205 r) (hop : field r.body 0 1 = 1) (ha : a = field r.body 8 8)
    (hsl : sl = a / 2 ^ 30) (halign : a % 8 = 0) (hgrant : s.granted a = true) (hflask : s.reg .ECC_TWG_flask sl = r.flask)
    (hup : s.stackHeld (sl / 96) = false) :
    ∃ t, exec (.eccTestWrite f) s = .next t ∧ Answered t f r 0 false (padTo8 (t.twBody sl)) ∧
      t.rawWord a = field r.body 16 8 ∧ (t.markAt (a / 8)).raw = some (BitVec.ofNat 16 (field r.body 24 2)) ∧
      (t.markAt (a / 8)).flips = 0 := by
  refine served hr rfl ?_
  rw [eccTest, run_get]
  dsimp only
  rw [← ha, ← hsl, if_neg (by simp [hop, b2n]), if_neg (by omega), if_neg (by simp [hgrant, hflask]), if_neg (by simp [hup]),
    run_all_cons, run_all_cons, run_all_cons, run_all_nil, if_pos rfl, run_all_cons, run_all_cons, run_all_cons, run_all_nil, run_get]
  generalize hu : run (setReg .ECC_TW_CHK_check sl (field r.body 24 2)) (run (setReg .ECC_TW_DATA_data sl (field r.body 16 8))
    (run (setReg .ECC_TW_ADDR_word sl (a % 2 ^ 30 / 8)) s)) = u
  have haddr : u.reg .ECC_TW_ADDR_word sl = a % 2 ^ 30 / 8 % 2 ^ 27 := by
    rw [← hu]
    simp [reg_applyUpd, Fld.info]
  have hdata : u.reg .ECC_TW_DATA_data sl = field r.body 16 8 % 2 ^ 64 := by
    rw [← hu]
    simp [reg_applyUpd, Fld.info]
  have hchk : u.reg .ECC_TW_CHK_check sl = field r.body 24 2 % 2 ^ 16 := by
    rw [← hu]
    simp [Fld.info]
  have hfn : u.fnAt f = s.fnAt f := by rw [← hu]; simp
  have hword : a / 8 = sl * 2 ^ 27 + u.reg .ECC_TW_ADDR_word sl := haddr ▸ word_of_address hsl
  obtain ⟨hbytes, hmark⟩ := twWrite_leaves hword
  refine ⟨?_, ?_, ?_⟩
  · rw [respond', twBody_respondWith]
    exact run_respond (by rw [(twWrite_may (mk := mayTwWrite) rfl sl).fnAt rfl rfl, hfn]; exact hr.posted) _
  · have hat : a / 8 * 8 = a := by omega
    rw [hat] at hbytes
    rw [respond', State.rawWord, rawBytes_respondWith, hbytes, hdata, leNat_leBytes]
    have := field_lt r.body 16 8
    omega
  · rw [respond', respondWith_markAt, hmark, hchk, Nat.mod_eq_of_lt (show field r.body 24 2 < 2 ^ 16 from field_lt ..)]
    exact ⟨rfl, rfl⟩

theorem retireList_completes {w : Nat} (hr : RequestDue s f 0x0206 r) (halign : field r.body 8 4 % 4 = 0) (hlink : s.misc.linkUp = true)
    (hw : w = min (field r.body 8 4 / 4) s.retirements.length) :
    ∃ t, exec (.retireList f) s = .next t ∧ Answered t f r 0 false (padTo8 (leBytes w 4 ++ leBytes s.retirements.length 4)) ∧
      t.hostBytes f (field r.body 0 8) (4 * w) = (s.retirements.take w).flatMap (fun k => leBytes (pfnOfKey k) 4) := by
  refine served hr rfl ?_
  have hlen : ((s.retirements.take w).flatMap (fun k => leBytes (pfnOfKey k) 4)).length = 4 * w := by
    simp [List.length_flatMap, leBytes_length]
    omega
  rw [doRetireList, run_get]
  dsimp only
  rw [← hw, if_neg (by omega), hostOut, run_get, if_pos hlink, run_seq]
  refine ⟨run_respond (by simpa using hr.posted) _, ?_⟩
  rw [respond', hostBytes_congr (respondWith_hmem ..), ← hlen]
  exact hostBytes_stored f _ _ s

/-- A channel that is free is on an engine that is on, and waits for nothing (R403). -/
theorem freeChannel_free {e ch : Nat} (h : s.freeChannel = some (e, ch)) : s.flag .LDL_CTL_disable e = false ∧
    ¬(s.reg .LDL_CH_state (e * 16 + ch) = 1 ∨ s.reg .LDL_CH_state (e * 16 + ch) = 2) := by
  have := List.find?_some h
  simp only [Bool.and_eq_true, Bool.not_eq_true', bne_iff_ne] at this
  obtain ⟨⟨h1, h2⟩, h3⟩ := this
  exact ⟨h1, by simp [h2, h3]⟩

/-- A channel started has its head and state, and stands last in its engine's queue (R403, R404). -/
theorem ladleStart_starts {e ch head fn fl : Nat} (hon : s.flag .LDL_CTL_disable e = false)
    (hfree : ¬(s.reg .LDL_CH_state (e * 16 + ch) = 1 ∨ s.reg .LDL_CH_state (e * 16 + ch) = 2)) (hhead : head < 2 ^ 46) :
    (run (ladleStart e ch head fn fl) s).reg .LDL_CH_head (e * 16 + ch) = head ∧
    (run (ladleStart e ch head fn fl) s).reg .LDL_CH_state (e * 16 + ch) = 1 ∧
    ((run (ladleStart e ch head fn fl) s).ladleAt e).queue = (s.ladleAt e).queue ++ [ch] := by
  rw [ladleStart, run_get, if_neg (by simp [hon]), if_neg hfree]
  have hstat := ladleStat_may (mk := mayLadleStat) rfl e
  refine ⟨?_, ?_, ?_⟩ <;> rw [run_all_cons, run_all_cons, run_all_cons, run_all_cons, run_all_nil]
  · rw [hstat.reg _ _ rfl rfl rfl]
    simpa [setLadle, reg_applyUpd, Fld.info] using hhead
  · rw [hstat.reg _ _ rfl rfl rfl]
    simp [setLadle, Fld.info]
  · rw [hstat.ladleAt rfl rfl]
    simp [setLadle, State.ladleAt]

theorem ladleSubmit_completes {a e ch : Nat} (hr : RequestDue s f 0x0210 r) (ha : a = field r.body 0 8) (halign : a % 64 = 0)
    (hlow : a < 2 ^ 46) (hown : s.memOwner a = some r.flask) (hfree : s.freeChannel = some (e, ch)) :
    ∃ t, exec (.ladleSubmit f) s = .next t ∧ Answered t f r 0 false [] ∧ t.reg .LDL_CH_head (e * 16 + ch) = a ∧
      t.reg .LDL_CH_state (e * 16 + ch) = 1 ∧ (t.ladleAt e).queue = (s.ladleAt e).queue ++ [ch] := by
  refine served hr rfl ?_
  rw [doLadleSubmit, run_get]
  dsimp only
  rw [← ha, if_neg (by omega), if_neg (by simp [hown]), hfree]
  dsimp only
  rw [run_all_cons, run_all_cons, run_all_cons, run_all_nil]
  have hflask := writeFlask_may (mk := mayWriteFlask) rfl r.flask 4096 a
  obtain ⟨hon, hidle⟩ := freeChannel_free hfree
  obtain ⟨h1, h2, h3⟩ := ladleStart_starts (s := run (writeFlask r.flask 4096 a) s) (fn := f) (fl := r.flask)
    (by rw [State.flag, hflask.reg _ _ rfl rfl rfl]; exact hon) (by rwa [hflask.reg _ _ rfl rfl rfl]) hlow
  refine ⟨answer_after ((ladleStart_may rfl _ _ _ _ _).keepsFn f) (by rw [hflask.fnAt rfl rfl]; exact hr.posted) 0, ?_, ?_, ?_⟩
  · rw [answer, respond', respondWith_reg (r := .LDL_CH_head) (h := rfl), h1]
  · rw [answer, respond', respondWith_reg (r := .LDL_CH_state) (h := rfl), h2]
  · rw [answer, respond', respondWith_ladleAt, h3, hflask.ladleAt rfl rfl]

end
end Sys2Proof.Machine
end

section
/-! SUPPORT. The requests on the KV cache and on sequences: what makes a sequence, and what keeps one (10_kv_cache_pages.md,
12_cache_pressure.md). -/
set_option exponentiation.threshold 1000
namespace Sys2Proof.Machine

theorem May.keepsSeq {α : Type} {e : Eff} (h : May (butPart .seq) e) (q : Nat) (g : SeqSt → α) : e.Keeps fun s => g (s.seqAt q) :=
  fun s => congrArg g (h.seqAt rfl rfl s q)

theorem May.keepsSlag {e : Eff} (h : May (butPart .slag) e) (q : Nat) : e.Keeps (·.slagAt q) := fun s => h.slagAt rfl rfl s q

theorem May.keepsKv {e : Eff} (h : May (butPart .kv) e) (fl : Nat) : e.Keeps (·.kvAt fl) := fun s => h.kvAt rfl rfl s fl

theorem setSeq_keeps {α : Type} (j q : Nat) {f : SeqSt → SeqSt} {g : SeqSt → α} (h : ∀ x, g (f x) = g x) :
    (setSeq j f).Keeps fun s => g (s.seqAt q) := fun s => by
  rw [run_setSeq]
  rcases eq_or_ne j q with rfl | hj
  · simp [State.seqAt, h]
  · simp [State.seqAt, Store.get_set_other _ _ _ hj]

theorem dropRef_keeps_state (j k st q : Nat) : (dropRef j k st).Keeps fun s => (s.seqAt q).state :=
  .get fun _ => .ite (fun _ => setSeq_keeps j q fun _ => rfl) fun _ => (decrement_may rfl k st).keepsSeq q SeqSt.state

/-- A sequence that is dropped is REBUILD (R333). -/
theorem dropFrom_state (q d reason : Nat) (s : State) : ((run (dropFrom q d reason) s).seqAt q).state = 2 := by
  have hpage : ∀ (l : List (Nat × Nat × Pte)) (fl : Nat), (Eff.each l fun e => Eff.all [setPte q e.1 e.2.1 { kind := 3 },
      if e.2.2.kind = 1 then dropRef q e.2.2.key 4
      else if e.2.2.kind = 2 then leaveSlot fl e.2.2.slotIx q e.1 e.2.1 else .skip]).Keeps fun s => (s.seqAt q).state := fun l fl =>
    .each fun e _ => .cons ((setPte_may rfl _ _ _ _).keepsSeq q SeqSt.state) (.cons (.ite (fun _ => dropRef_keeps_state _ _ _ q) fun _ =>
      .ite (fun _ => (leaveSlot_may rfl _ _ _ _ _).keepsSeq q SeqSt.state) fun _ => .skip) .nil)
  rw [dropFrom, run_get, run_all_cons]
  refine (Eff.Keeps.cons (hpage _ _) (.cons ((setSlag_may rfl _ _).keepsSeq q SeqSt.state) (.cons ((countDrops_may rfl _ _).keepsSeq q SeqSt.state)
    (.cons ((flaskRing_may rfl _ _ _).keepsSeq q SeqSt.state) .nil))) _).trans ?_
  rw [seqAt_setSeqD]

theorem dropEvict_state (q d reason : Nat) (s : State) : ((run (dropEvict q d reason) s).seqAt q).state = 2 := by
  rw [dropEvict, run_get, run_all_cons]
  exact (Eff.Keeps.cons ((setAccount_may rfl _ _).keepsSeq q SeqSt.state) (.cons ((acctSync_may rfl _).keepsSeq q SeqSt.state) .nil) _).trans
    (dropFrom_state q d reason s)

/-- A sequence that begins to be written out is PREEMPTED and swapping (R338). -/
theorem swapBegin_swaps (q : Nat) (s : State) :
    ((run (swapBegin q) s).seqAt q).state = 3 ∧ ((run (swapBegin q) s).seqAt q).swapping = true := by
  rw [swapBegin, run_get, run_all_cons, run_all_cons, run_all_cons, run_all_nil, (acctSync_may (mk := mayAcctSync) rfl _).seqAt rfl rfl,
    (setAccount_may (mk := maySetAccount) rfl _ _).seqAt rfl rfl, seqAt_setSeqD]
  exact ⟨rfl, rfl⟩

/-- The sequence a request names, checked (R497). -/
theorem run_withSeq {f : Nat} {r : Req} {s : State} {q : Nat} (hq : q = field r.body 0 2) (hlow : q ≤ 8191)
    (hstate : (s.seqAt q).state ≠ 0) (hflask : (s.seqAt q).flask = r.flask) (k : Nat → SeqSt → Eff) :
    run (withSeq f r k) s = run (k q (s.seqAt q)) s := by
  rw [withSeq, run_get]
  dsimp only
  rw [← hq, if_neg (by omega), if_neg (by simp [hstate, hflask])]

/-- What makes a sequence where a number and the places of its table and descriptor are found (R289). -/
theorem run_makeSeq {x : SeqSt} {q pt da : Nat} {s : State} (hq : s.freeSeq = some q)
    (hpt : s.place x.flask (s.kvRegionsOf x.flask) (s.kvTaken x.flask) x.tableLen (Config.free s.tick) = some pt)
    (hda : s.place x.flask (s.kvRegionsOf x.flask) ((pt, x.tableLen) :: s.kvTaken x.flask) 64 (Config.free (s.tick + 1)) = some da) :
    ∃ t, (∀ k, run (makeSeq x k) s = run (k (some q)) t) ∧ t.seqAt q = { x with ptBase := pt, descAddr := da } ∧
      ∀ f, t.fnAt f = s.fnAt f := by
  have hslag : May maySetSlag (Eff.when ((applyUpd .tick (applyUpd .tick s)).kvAt x.flask).set (setSlag q {})) := .when (setSlag_may rfl _ _)
  have hwrite := fwWrite_may (mk := mayFwWrite) rfl pt (List.replicate x.tableLen 0)
  refine ⟨run (Eff.when ((applyUpd .tick (applyUpd .tick s)).kvAt x.flask).set (setSlag q {})) (run (fwWrite pt (List.replicate x.tableLen 0))
    (run (setSeqD q fun _ => { x with ptBase := pt, descAddr := da }) (applyUpd .tick (applyUpd .tick s)))), fun k => ?_, ?_, fun f => ?_⟩
  · have h1 : (applyUpd .tick (applyUpd .tick s)).freeSeq = some q := hq
    have h2 : (applyUpd .tick (applyUpd .tick s)).place x.flask ((applyUpd .tick (applyUpd .tick s)).kvRegionsOf x.flask)
        ((applyUpd .tick (applyUpd .tick s)).kvTaken x.flask) x.tableLen (Config.free s.tick) = some pt := hpt
    have h3 : (applyUpd .tick (applyUpd .tick s)).place x.flask ((applyUpd .tick (applyUpd .tick s)).kvRegionsOf x.flask)
        ((pt, x.tableLen) :: (applyUpd .tick (applyUpd .tick s)).kvTaken x.flask) 64 (Config.free (applyUpd .tick s).tick) = some da := hda
    rw [makeSeq, run_fresh, run_fresh, run_get]
    dsimp only
    rw [h1, h2]
    dsimp only
    rw [h3]
    dsimp only
    rw [run_all_cons, run_all_cons, run_all_cons, run_all_cons, run_all_nil]
  · rw [hslag.seqAt rfl rfl, hwrite.seqAt rfl rfl, seqAt_setSeqD]
  · rw [hslag.fnAt rfl rfl, hwrite.fnAt rfl rfl, (setSeqD_may (mk := maySetSeqD) rfl _ _).fnAt rfl rfl]
    simp

/-- The answer of a sequence made names it, its descriptor and its table (R497). -/
theorem seqAnswer_answers {f : Nat} {r : Req} {s : State} {q : Nat} (h : (s.fnAt f).run = some r) :
    Answered (run (seqAnswer f q) s) f r 0 false
      (padTo8 (leBytes q 2 ++ leBytes 0 6 ++ leBytes (s.seqAt q).descAddr 8 ++ leBytes (s.seqAt q).ptBase 8)) := by
  rw [seqAnswer, run_get]
  exact run_respond h _

theorem seqAnswer_keeps_seq (f q j : Nat) (s : State) : (run (seqAnswer f q) s).seqAt j = s.seqAt j := by
  rw [seqAnswer, run_get, respond', respondWith_seqAt]

end Sys2Proof.Machine
end

section
/-! PROOFS. The requests on the KV cache and on sequences (10_kv_cache_pages.md, 12_cache_pressure.md, 20_mailbox_protocol.md). -/
set_option exponentiation.threshold 1000
namespace Sys2Proof.Machine

section
variable (f : FnIx) {s : State} {r : Req}

/-- A configuration in force is kept by the writing of the regions and rings that comes with it (R279). -/
theorem setKvConfig_config (fl : Nat) (b : List Byte) (rs : List Nat) (s : State) :
    (run (setKvConfig fl b rs) s).kvAt fl = kvCfgOf ((run (setKvConfig fl b rs) s).kvAt fl) b := by
  rw [setKvConfig, run_get]
  dsimp only
  rw [run_all_cons, run_all_cons, run_get, run_upd]
  generalize run (placeTables fl rs) s = u
  have hset : (applyUpd (.kv fl (kvCfgOf (u.kvAt fl) b)) u).kvAt fl = kvCfgOf (u.kvAt fl) b := by simp [State.kvAt]
  generalize applyUpd (.kv fl (kvCfgOf (u.kvAt fl) b)) u = v at hset
  generalize hw : run (Eff.all _) v = w
  have hkeep : w.kvAt fl = v.kvAt fl := by
    rw [← hw]
    exact Eff.Keeps.cons (.each fun _ _ => (omitRegion_may rfl _).keepsKv fl) (.cons (.each fun _ _ => (designate_may rfl _).keepsKv fl)
      (.cons (.each fun _ _ => .seq ((writeDescs_may rfl _ _).keepsKv fl) fun _ => by simp [State.kvAt])
      (.cons (.when fun _ => .each fun _ _ => (setCore_may rfl _ _).keepsKv fl)
      (.cons (.when fun _ => .each fun _ _ => (setCore_may rfl _ _).keepsKv fl) (.cons ((acctSync_may rfl _).keepsKv fl) .nil))))) v
  rw [hkeep, hset]
  rfl

theorem kvConfig_completes {rs : List Nat} (hr : RequestDue s f 0x0301 r) (hroom : (s.fnAt f).deferred.length < 16)
    (hlink : s.misc.linkUp = true) (hcount : field r.body 8 4 ≤ 18432)
    (hrs : rs = nub (u32s (s.hostBytes f (field r.body 0 8) (4 * field r.body 8 4)) (field r.body 8 4)))
    (hrefuse : s.kvRefusal r.flask (kvCfgOf (s.kvAt r.flask) r.body) rs (field r.body 8 4) = 0) :
    ∃ t, exec (.kvConfig f) s = .next t ∧ Answered t f r 0 true [] ∧
      (t.fnAt f).deferred = (s.fnAt f).deferred ++ [{ op := r.op, tag := r.tag, work := .done }] ∧
      t.kvAt r.flask = kvCfgOf (t.kvAt r.flask) r.body := by
  refine served hr rfl ?_
  rw [kvConfig]
  dsimp only
  rw [hostIn, run_get, if_pos hlink, run_get, Nat.min_eq_left hcount, ← hrs, if_neg (by rw [hrefuse]; decide)]
  obtain ⟨hans, hlist⟩ := run_deferReq hr.posted hroom (setKvConfig_may (mk := maySetKvConfig) rfl r.flask r.body rs) rfl rfl .done []
  refine ⟨hans, hlist, ?_⟩
  have hkv : (run (deferReq f r (setKvConfig r.flask r.body rs) .done) s).kvAt r.flask = (run (setKvConfig r.flask r.body rs) s).kvAt r.flask := by
    rw [run_deferReq_eq hroom, respondWith_kvAt]
    simp [setFn, State.kvAt]
  rw [hkv]
  exact setKvConfig_config ..

theorem kvQuery_completes (hr : RequestDue s f 0x0302 r) (hset : (s.kvAt r.flask).set = true) :
    ∃ t, exec (.kvQuery f) s = .next t ∧ Answered t f r 0 false (padTo8 (leBytes (s.kvAt r.flask).descBase 8
      ++ leBytes (s.kvAt r.flask).slagBase 8 ++ leBytes (s.kvAt r.flask).acctBase 8)) := by
  refine served hr rfl ?_
  rw [doKvQuery, run_get]
  dsimp only
  rw [if_pos hset]
  exact run_respond hr.posted _

theorem kvQueryUnset_completes (hr : RequestDue s f 0x0302 r) (hset : (s.kvAt r.flask).set = false) :
    ∃ t, exec (.kvQuery f) s = .next t ∧ Answered t f r 0 false (padTo8 (leBytes (Config.free s.tick % 2 ^ 46) 8
      ++ leBytes (Config.free (s.tick + 1) % 2 ^ 46) 8 ++ leBytes (Config.free (s.tick + 2) % 2 ^ 46) 8)) := by
  refine served hr rfl ?_
  rw [doKvQuery, run_get]
  dsimp only
  rw [if_neg (by simp [hset]), run_fresh, run_fresh, run_fresh]
  exact run_respond (by simpa using hr.posted) _

theorem seqCreate_completes {x : SeqSt} {q pt da : Nat} (hr : RequestDue s f 0x0310 r) (hx : x = seqOf r) (hbody : seqBad r.body x = false)
    (hspread : ∀ sl ∈ x.spread.take x.spreadN, s.flaskOf (sl / 12) = some r.flask) (hq : s.freeSeq = some q)
    (hpt : s.place r.flask (s.kvRegionsOf r.flask) (s.kvTaken r.flask) x.tableLen (Config.free s.tick) = some pt)
    (hda : s.place r.flask (s.kvRegionsOf r.flask) ((pt, x.tableLen) :: s.kvTaken r.flask) 64 (Config.free (s.tick + 1)) = some da) :
    ∃ t, exec (.seqCreate f) s = .next t ∧ t.seqAt q = { x with ptBase := pt, descAddr := da } ∧
      Answered t f r 0 false (padTo8 (leBytes q 2 ++ leBytes 0 6 ++ leBytes da 8 ++ leBytes pt 8)) := by
  refine served hr rfl ?_
  have hflask : x.flask = r.flask := by rw [hx]; rfl
  have hown : ¬(x.spread.take x.spreadN).any (fun sl => s.flaskOf (sl / 12) != some r.flask) = true := by
    simp only [List.any_eq_true, not_exists, not_and]
    exact fun sl hsl => by simp [hspread sl hsl]
  rw [seqCreate, run_get]
  dsimp only
  rw [← hx, if_neg (by simp [hbody]), if_neg hown]
  rw [← hflask] at hpt hda
  obtain ⟨t, hrun, hseq, hfn⟩ := run_makeSeq hq hpt hda
  rw [hrun]
  dsimp only
  rw [run_seq]
  have hsync := acctSync_may (mk := mayAcctSync) rfl r.flask
  refine ⟨?_, ?_⟩
  · rw [seqAnswer_keeps_seq, hsync.seqAt rfl rfl, hseq]
  · have hans := seqAnswer_answers (q := q) (s := run (acctSync r.flask) t) (f := f) (r := r)
      (by rw [hsync.fnAt rfl rfl, hfn]; exact hr.posted)
    rwa [hsync.seqAt rfl rfl, hseq] at hans

/-- A fork's record before its places are found (R299). -/
def forkOf (r : Req) (x : SeqSt) : SeqSt := { x with
  state := 1, ctx := if r.ctx = 0xFFFF then none else some r.ctx, stepOpen := false, deferred := [], lastStep := 0
  cow := false, swapping := false, waiting := none, swapTodo := [], held := false, want := [], starved := false }

/-- The pages a fork shares or copies touch no sequence and no request (R299). -/
theorem forkPages_may (a b n m : Nat) (sts copies : List Nat) : May (maySharePage ||| mayCopyPage) (Eff.each sts fun st => .seq
    (Eff.each (List.range n) (sharePage a b st))
    (if m = 0 then .skip else if copies.contains st then copyPage a b st n m else sharePage a b st n)) :=
  .each fun _ => .seq (.each fun _ => sharePage_may rfl _ _ _ _) (.ite .skip (.ite (copyPage_may rfl _ _ _ _ _) (sharePage_may rfl _ _ _ _)))

/-- The pages a sequence leaves when it is freed (R302). -/
theorem freedPages_may (q fl : Nat) (l : List (Nat × Nat × Pte)) : May (maySetPte ||| mayDropRef ||| mayLeaveSlot)
    (Eff.each l fun e => Eff.all [setPte q e.1 e.2.1 {},
      if e.2.2.kind = 1 then dropRef q e.2.2.key 0
      else if e.2.2.kind = 2 then leaveSlot fl e.2.2.slotIx q e.1 e.2.1 else .skip]) :=
  .each fun _ => .cons (setPte_may rfl _ _ _ _) (.cons (.ite (dropRef_may rfl _ _ _) (.ite (leaveSlot_may rfl _ _ _ _ _) .skip)) .nil)

theorem seqFork_completes {a b len pt da : Nat} {x : SeqSt} (hr : RequestDue s f 0x0311 r) (ha : a = field r.body 0 2) (hlow : a ≤ 8191)
    (hx : x = s.seqAt a) (hstate : x.state ≠ 0) (hflask : x.flask = r.flask) (hlen : len = field r.body 4 4) (hcow : x.cow = false)
    (hswap : x.swapping = false) (hlive : ∀ st < x.streams, len ≤ s.liveTokens a st)
    (hframes : ((List.range x.streams).filter (fun st => s.forkCopy a st len)).length ≤ s.freeCount (x.sliceOf (len / max 1 x.capacity)))
    (hrefs : ∀ st < x.streams, ∀ p ≤ len / max 1 x.capacity, (s.pteAt a st p).kind = 1 → (s.pageAt (s.pteAt a st p).key).refcount < 65535)
    (hb : s.freeSeq = some b) (hpt : s.place r.flask (s.kvRegionsOf r.flask) (s.kvTaken r.flask) x.tableLen (Config.free s.tick) = some pt)
    (hda : s.place r.flask (s.kvRegionsOf r.flask) ((pt, x.tableLen) :: s.kvTaken r.flask) 64 (Config.free (s.tick + 1)) = some da) :
    ∃ t, exec (.seqFork f) s = .next t ∧ (t.seqAt b).state = 1 ∧ (t.seqAt b).flask = r.flask ∧ (t.seqAt b).streams = x.streams ∧
      (t.seqAt b).capacity = x.capacity ∧ (t.seqAt b).ptBase = pt ∧ (t.seqAt b).ctx = (if r.ctx = 0xFFFF then none else some r.ctx) ∧
      Answered t f r 0 false (padTo8 (leBytes b 2 ++ leBytes 0 6 ++ leBytes da 8 ++ leBytes pt 8)) := by
  refine served hr rfl ?_
  have hgone : ¬(List.range x.streams).any (fun st => decide (s.liveTokens a st < len)) = true := by
    simp only [List.any_eq_true, List.mem_range, not_exists, not_and, decide_eq_true_eq, Nat.not_lt]
    exact hlive
  have hroom : ¬(decide (s.freeCount (x.sliceOf (len / max 1 x.capacity)) < ((List.range x.streams).filter (fun st => s.forkCopy a st len)).length)
      || (List.range x.streams).any fun st => (List.range (len / max 1 x.capacity + 1)).any fun p =>
        (s.pteAt a st p).kind == 1 && decide (65535 ≤ (s.pageAt (s.pteAt a st p).key).refcount)) = true := by
    simp only [Bool.or_eq_true, decide_eq_true_eq, List.any_eq_true, List.mem_range, Bool.and_eq_true, beq_iff_eq, not_or, not_lt,
      not_exists, not_and]
    exact ⟨hframes, fun st hst p hp hkind => by have := hrefs st hst p (by omega) hkind; omega⟩
  rw [seqFork, run_withSeq ha hlow (hx ▸ hstate) (hx ▸ hflask), ← hx, run_get]
  dsimp only
  rw [← hlen, if_neg (by simp [hcow, hswap]), if_neg hgone, if_neg hroom]
  have hfork : (forkOf r x).flask = r.flask := hflask
  rw [← hfork] at hpt hda
  obtain ⟨t, hrun, hseq, hfn⟩ := run_makeSeq (x := forkOf r x) hb hpt hda
  rw [forkOf] at hrun
  rw [hrun]
  dsimp only
  rw [run_all_cons, run_all_cons, run_all_cons, run_all_nil]
  have hshare := forkPages_may a b (len / max 1 x.capacity) (len % max 1 x.capacity) (List.range x.streams)
    ((List.range x.streams).filter fun st => s.forkCopy a st len)
  have hsync := acctSync_may (mk := mayAcctSync) rfl x.flask
  generalize hu : run (acctSync x.flask) _ = u
  have hub : u.seqAt b = { forkOf r x with ptBase := pt, descAddr := da } := by
    rw [← hu, hsync.seqAt rfl rfl, ← hseq]
    exact hshare.seqAt rfl rfl t b
  have hans := seqAnswer_answers (q := b) (s := u) (f := f) (r := r) (by
    rw [← hu, hsync.fnAt rfl rfl]
    exact ((congrArg FnSt.run (hshare.fnAt rfl rfl t f)).trans (congrArg FnSt.run (hfn f))).trans hr.posted)
  rw [hub] at hans
  rw [seqAnswer_keeps_seq, hub]
  exact ⟨rfl, hflask, rfl, rfl, rfl, rfl, hans⟩

theorem seqFree_completes {q : Nat} (hr : RequestDue s f 0x0312 r) (hq : q = field r.body 0 2) (hlow : q ≤ 8191)
    (hstate : (s.seqAt q).state ≠ 0) (hflask : (s.seqAt q).flask = r.flask) (hcow : (s.seqAt q).cow = false) :
    ∃ t, exec (.seqFree f) s = .next t ∧ Answered t f r 0 false [] ∧ (t.seqAt q).state = 0 ∧ (t.seqAt q).ctx = none ∧
      (t.slagAt q).valid = false := by
  refine served hr rfl ?_
  rw [seqFree, run_withSeq hq hlow hstate hflask, run_get, if_neg (by simp [hcow]), run_all_cons, run_all_cons, run_all_cons, run_all_cons,
    run_all_cons, run_all_cons, run_all_nil]
  have hsync := acctSync_may (mk := mayAcctSync) rfl (s.seqAt q).flask
  have hpages := freedPages_may q (s.seqAt q).flask (s.ptes q)
  have haside : May mayDenyAside (Eff.when ((s.seqAt q).state == 3) (denyAside q)) := .when (denyAside_may rfl q)
  have hslag : May maySetSlag (Eff.when (s.slagAt q).valid (setSlag q {})) := .when (setSlag_may rfl _ _)
  refine ⟨answer_after (hsync.fnAt rfl rfl · f) ?_ 0, ?_, ?_, ?_⟩
  · rw [(setSeqD_may (mk := maySetSeqD) rfl _ _).fnAt rfl rfl, hslag.fnAt rfl rfl, hpages.fnAt rfl rfl, haside.fnAt rfl rfl]
    exact hr.posted
  · rw [answer, respond', respondWith_seqAt, hsync.seqAt rfl rfl, seqAt_setSeqD]
  · rw [answer, respond', respondWith_seqAt, hsync.seqAt rfl rfl, seqAt_setSeqD]
  · rw [answer, respond', respondWith_slagAt, hsync.slagAt rfl rfl, (setSeqD_may (mk := maySetSeqD) rfl _ _).slagAt rfl rfl, run_when]
    split
    · rw [slagAt_setSlag]
    · rename_i hvalid
      rw [hpages.slagAt rfl rfl, haside.slagAt rfl rfl]
      simpa using hvalid

theorem seqEvict_completes {q : Nat} (hr : RequestDue s f 0x0313 r) (hroom : (s.fnAt f).deferred.length < 16) (hq : q = field r.body 0 2)
    (hlow : q ≤ 8191) (hstate : (s.seqAt q).state ≠ 0) (hflask : (s.seqAt q).flask = r.flask) :
    ∃ t, exec (.seqEvict f) s = .next t ∧ Answered t f r 0 true [] ∧
      (t.fnAt f).deferred = (s.fnAt f).deferred ++ [{ op := r.op, tag := r.tag, work := .seqEvict q (!(s.seqAt q).cow) }] ∧
      ((s.seqAt q).cow = false → (s.seqAt q).policy = 0 → (t.seqAt q).state = 2) ∧
      ((s.seqAt q).cow = false → (s.seqAt q).policy = 1 → (s.seqAt q).state = 1 → (t.seqAt q).state = 3 ∧ (t.seqAt q).swapping = true) := by
  refine served hr rfl ?_
  rw [seqEvict, run_withSeq hq hlow hstate hflask]
  have hbegin : May mayEvictNamed (Eff.when (!(s.seqAt q).cow) (evictNamed q)) := .when (evictNamed_may rfl q)
  obtain ⟨hans, hlist⟩ := run_deferReq hr.posted hroom hbegin rfl rfl (.seqEvict q (!(s.seqAt q).cow)) []
  have hseq : (run (deferReq f r (Eff.when (!(s.seqAt q).cow) (evictNamed q)) (.seqEvict q (!(s.seqAt q).cow))) s).seqAt q =
      (run (Eff.when (!(s.seqAt q).cow) (evictNamed q)) s).seqAt q := by
    rw [run_deferReq_eq hroom, respondWith_seqAt]
    simp [setFn, State.seqAt]
  refine ⟨hans, hlist, fun hcow hpolicy => ?_, fun hcow hpolicy hactive => ?_⟩
  · rw [hseq, run_when, if_pos (by simp [hcow]), evictNamed, run_get, if_neg hstate, if_pos hpolicy]
    exact dropEvict_state ..
  · rw [hseq, run_when, if_pos (by simp [hcow]), evictNamed, run_get, if_neg hstate, if_neg (by simp [hpolicy]), run_when,
      if_pos (by simp [hactive])]
    exact swapBegin_swaps ..

theorem seqReady_completes {q : Nat} (hr : RequestDue s f 0x0314 r) (hq : q = field r.body 0 2) (hlow : q ≤ 8191)
    (hstate : (s.seqAt q).state = 2) (hflask : (s.seqAt q).flask = r.flask) (hstep : (s.seqAt q).stepOpen = false) :
    ∃ t, exec (.seqReady f) s = .next t ∧ Answered t f r 0 false [] ∧ (t.seqAt q).state = 1 ∧ (t.slagAt q).valid = false := by
  refine served hr rfl ?_
  rw [seqReady, run_withSeq hq hlow (by simp [hstate]) hflask, run_get, if_neg (by simp [hstate]), if_neg (by simp [hstep]), run_all_cons,
    run_all_cons, run_all_cons, run_all_cons, run_all_cons, run_all_nil]
  have hsync := acctSync_may (mk := mayAcctSync) rfl (s.seqAt q).flask
  have hptes : May maySetPte (Eff.each ((s.ptes q).filter (fun e => e.2.2.kind == 3)) fun e => setPte q e.1 e.2.1 {}) :=
    .each fun _ => setPte_may rfl _ _ _ _
  refine ⟨answer_after (hsync.fnAt rfl rfl · f) ?_ 0, ?_, ?_⟩
  · rw [(setSeqD_may (mk := maySetSeqD) rfl _ _).fnAt rfl rfl, (setSlag_may (mk := maySetSlag) rfl _ _).fnAt rfl rfl, hptes.fnAt rfl rfl]
    exact hr.posted
  · rw [answer, respond', respondWith_seqAt, hsync.seqAt rfl rfl, seqAt_setSeqD]
  · rw [answer, respond', respondWith_slagAt, hsync.slagAt rfl rfl, (setSeqD_may (mk := maySetSeqD) rfl _ _).slagAt rfl rfl, slagAt_setSlag]

theorem seqResume_completes {q : Nat} (hr : RequestDue s f 0x0315 r) (hq : q = field r.body 0 2) (hlow : q ≤ 8191)
    (hstate : (s.seqAt q).state = 3) (hflask : (s.seqAt q).flask = r.flask) (hswap : (s.seqAt q).swapping = false) :
    ∃ t, exec (.seqResume f) s = .next t ∧ Answered t f r 0 false [] ∧ (t.seqAt q).state = 1 ∧ (t.seqAt q).held = false := by
  refine served hr rfl ?_
  rw [seqResume, run_withSeq hq hlow (by simp [hstate]) hflask, if_neg (by simp [hstate]), if_neg (by simp [hswap]), run_all_cons,
    run_all_cons, run_all_cons, run_all_nil]
  have hsync := acctSync_may (mk := mayAcctSync) rfl (s.seqAt q).flask
  refine ⟨answer_after (hsync.fnAt rfl rfl · f) ?_ 0, ?_, ?_⟩
  · rw [(setSeqD_may (mk := maySetSeqD) rfl _ _).fnAt rfl rfl]
    exact hr.posted
  · rw [answer, respond', respondWith_seqAt, hsync.seqAt rfl rfl, seqAt_setSeqD]
  · rw [answer, respond', respondWith_seqAt, hsync.seqAt rfl rfl, seqAt_setSeqD]

end
/-- Settles O2: each request does what firmware does for it, and its answer comes last. -/
theorem memoryAndCacheRequestsComplete : Obligations.MemoryAndCacheRequestsComplete :=
  ⟨fun f _ _ _ => memInit_completes f, fun f _ _ _ _ _ => pageRetire_completes f, fun f _ _ _ _ => testGrant_completes f,
    fun f _ _ _ _ => testRevoke_completes f, fun f _ _ _ _ => eccTestRead_completes f, fun f _ _ _ _ => eccTestWrite_completes f,
    fun f _ _ _ => retireList_completes f, fun f _ _ _ _ _ => ladleSubmit_completes f, fun f _ _ _ => kvConfig_completes f,
    fun f _ _ => kvQuery_completes f, fun f _ _ => kvQueryUnset_completes f, fun f _ _ _ _ _ _ => seqCreate_completes f,
    fun f _ _ _ _ _ _ _ _ => seqFork_completes f, fun f _ _ _ => seqFree_completes f, fun f _ _ _ => seqEvict_completes f,
    fun f _ _ _ => seqReady_completes f, fun f _ _ _ => seqResume_completes f⟩

end Sys2Proof.Machine
end
